-- ==== Sys2Proof/Word.lean ====
section
/-! DEFINITION. The plain data types of the VP6480 model: bytes and words that the manual treats as bits, instance
numbers (R10 to R12), and fixed-length tables with one update operation. -/

namespace Sys2Proof

/-- A byte. -/
abbrev Byte := BitVec 8
/-- The 64 data bits of a memory word (R406). -/
abbrev Word64 := BitVec 64
/-- The 4,096 bytes of one logical block (R47), as bits: byte i is bits [8i+7:8i]. -/
abbrev Block := BitVec 32768
/-- The 2,048 user bytes of one LDPC codeword (R40). -/
abbrev HalfBlock := BitVec 16384

/-- Pickup p, 0 to 7 (R10); its servo island is SVp, its sled is sled p and its namespace is p + 1. -/
abbrev PickupId := Fin 8
/-- Spindle s, 0 to 3 (R10). -/
abbrev SpindleId := Fin 4
/-- Global beam g = 4p + b (R10). -/
abbrev BeamId := Fin 32
/-- Axis: 0 to 7 are the sleds, 8 to 11 the auxiliary axes 0 to 3 (R11). -/
abbrev AxisId := Fin 12
/-- Controller: 0 is controller 1 on port A, 1 is controller 2 on port B (R320). -/
abbrev CtrlId := Fin 2
/-- On-ramp number (R325). -/
abbrev RampId := Fin 64
/-- Island by Source number (R470). -/
abbrev IslandId := Fin 48
/-- Decoder of the pool (R179). -/
abbrev DecoderId := Fin 24
/-- Recording layer L0 to L3 (R23). -/
abbrev LayerId := Fin 4

/-- Entry `i` of a table replaced by what `f` makes of it. -/
def upd {α : Type} {n : Nat} (v : Vector α n) (i : Fin n) (f : α → α) : Vector α n :=
  v.set i (f v[i])

/-- Spindle of a pickup: p = 2s + side (R10). -/
def PickupId.spindle (p : PickupId) : SpindleId := ⟨p.val / 2, by omega⟩
/-- Side of a pickup: 0 is A, 1 is B (R10). -/
def PickupId.side (p : PickupId) : Nat := p.val % 2
/-- The other pickup of the same spindle. -/
def PickupId.partner (p : PickupId) : PickupId :=
  ⟨2 * (p.val / 2) + (1 - p.val % 2), by omega⟩
/-- Pickup 2s + side. -/
def SpindleId.pickup (s : SpindleId) (side : Fin 2) : PickupId := ⟨2 * s.val + side.val, by omega⟩
/-- Beam b of pickup p. -/
def PickupId.beam (p : PickupId) (b : Fin 4) : BeamId := ⟨4 * p.val + b.val, by omega⟩
/-- Pickup of a beam. -/
def BeamId.pickup (g : BeamId) : PickupId := ⟨g.val / 4, by omega⟩
/-- Beam number within its pickup. -/
def BeamId.inPickup (g : BeamId) : Fin 4 := ⟨g.val % 4, by omega⟩
/-- Sled of a pickup. -/
def PickupId.sled (p : PickupId) : AxisId := ⟨p.val, by omega⟩

/-- All numbers below `n`, as instance numbers. -/
def allFin (n : Nat) : List (Fin n) := List.finRange n

/-- Value clamped to the range `lo` to `hi`. -/
def clampInt (lo hi x : Int) : Int := max lo (min hi x)

end Sys2Proof
end

