-- ==== Sys2Proof/Syntax.lean ====
section
/-! DEFINITION. The commands of the VP6480 block: one constructor of `Instr` for each row of the table of operations
and events, and the operand types they carry. An operand is what reaches the chip from outside the step: a host's
request, a converter's sample, a decoder's outcome, the instant at which a condition became true. -/

namespace Sys2Proof

/-! ### Who asks -/

/-- Client of the Signpost server (R373, R384, R400): a CAN port, a UDP client slot, an NVMe controller, or an internal
client (1 the margin plan, 2 calibration). -/
inductive Client where
  | can (port : Fin 2)
  | udp (slot : Fin 16)
  | nvme (c : CtrlId)
  | internal (k : Fin 3)
deriving DecidableEq, Repr

/-- One NVMe command in flight: controller, submission queue, command identifier. -/
structure CmdRef where
  ctrl : CtrlId
  sq   : Nat
  cid  : Nat
deriving DecidableEq, Repr

/-! ### Signpost (R368, R369) -/

/-- A Signpost request: the 16-byte header of R368 and the data that follow it. `wellSigned` says whether the 64-byte
signature of an authorised write verifies under R387 against the nonce the client holds: ECDSA P-256 is done by the
security unit and its verdict reaches the server as this bit. -/
structure Request where
  version  : Nat
  service  : Nat
  txid     : Nat
  index    : Nat
  sub      : Nat
  flags    : Nat
  offset   : Nat
  length   : Nat
  session  : Nat
  data     : List Byte
  wellSigned : Bool
deriving DecidableEq, Repr

/-! ### NVMe -/

/-- SGL descriptor types that check 6 of R336 tells apart; `prp` is a PRP list. -/
inductive SglKind where
  | prp | dataBlock | segment | lastSegment | other
deriving DecidableEq, Repr

/-- A submission-queue entry as far as the manual gives its fields a meaning. `reservedZero` says whether every
reserved field is 0 (check 3 of R336). -/
structure Sqe where
  opcode  : Nat
  cid     : Nat
  nsid    : Nat
  slba    : Nat
  nlb     : Nat
  limitedRetry : Bool
  fua     : Bool
  sgl     : SglKind
  dataLength : Nat
  reservedZero : Bool
  cdw10   : Nat
  cdw11   : Nat
  cdw12   : Nat
  cdw13   : Nat
  /-- data that the command's data pointer names, block by block (Write, Zone Append), as the host's memory holds it -/
  blocks  : List Block
  /-- bytes that the data pointer names (Set Object, Firmware Image Download, Timestamp) -/
  bytes   : List Byte
  /-- verdict on the signature of an authorised Set Object (R387), as in `Request` -/
  wellSigned : Bool
deriving DecidableEq, Repr

/-! ### Servo -/

/-- The five loops of a servo engine, in the bit order of `LoopClosedMask` (R98). -/
inductive ServoLoop where
  | focus | tracking | skew | tilt | sledOuter
deriving DecidableEq, Repr

/-- Number of a loop in per-loop tables. -/
def ServoLoop.idx : ServoLoop → Fin 5
  | .focus => 0 | .tracking => 1 | .skew => 2 | .tilt => 3 | .sledOuter => 4

/-- What one tracking sampling edge delivers to SVp (R56): the quadrant codes, the codes of PDp_SI and PDp_SO that the wobble ADCs took
since the edge before, whether the wobble is detected and how far its phase moved, in 2^-16 cycle (R58), the analogue set-point code (R92), and
which loops' state-phase work (R88) or map points (R82) were late. -/
structure LoopInputs where
  qa : Nat
  qb : Nat
  qc : Nat
  qd : Nat
  halves : List (Nat × Nat)
  wobbleAdvance : Nat
  wobbleDetected : Bool
  xspAin : Nat
  lateMask : BitVec 5
  mapLate : BitVec 5
deriving DecidableEq, Repr

/-! ### Memory -/

/-- What an uncorrectable word held, where the manual gives its owner no layout (R436): the command that a word of HOST, of the
decoded sectors or of a scheduler table belongs to, the run that a table entry describes, the cluster of a write-buffer word,
the firmware image or the journal cluster of a word of CORE storage, the island of a block of the milestone capture; or that the word
stood in a merge-buffer entry of that destination (R437). -/
inductive WordHolds where
  | nothing
  | command (k : CmdRef)
  | run (p : PickupId)
  | buffered (p : PickupId) (zone cluster : Nat)
  | download
  | journal (p : PickupId)
  | captureBlock (i : IslandId)
  | mergeEntry
deriving DecidableEq, Repr

/-! ### Calibration -/

/-- What a run of a calibration item measured, by item (R443). Ratios and loop outputs are Q2.30 words. -/
inductive CalRaw where
  /-- item 1: PP · recip over the 16 passages; PP · recip and its slope at 160 nm inboard and outboard of the guide centre, and its slope at
  the centre -/
  | passages (pp : List Int) (inboard outboard : Int × Int) (centre : Int)
  /-- item 2: output and FE · recip over the sweep -/
  | sweep (points : List (Int × Int))
  /-- item 3: amplitudes of the WPP carrier at the nine offsets, by layer -/
  | amplitudes (byLayer : List (List Int))
  /-- items 4 and 5: mean ε² at the offsets -/
  | errors (l : List Int)
  /-- item 6: change of L over the seek out and over the seek back -/
  | shifts (out back : Int)
  /-- item 7: magnitudes of the ufb response at the 64 steps, tracking and focus -/
  | responses (tracking focus : List Nat)
  /-- item 8: lags in channel bits over 64 frames, by beam -/
  | lags (byBeam : List (List Int))
  /-- item 9: mean ε² of each step of OPC, of the beams of the inner and of the outer pair -/
  | opc (inner outer : List (List Nat))
  /-- item 10: mean radius in µm and skew feedback term of each skew sample -/
  | skew (points : List (Nat × Int))
  /-- item 11: T* over 16 revolutions, in µN·m -/
  | torques (l : List Int)
deriving DecidableEq, Repr

/-! ### Map build -/

/-- A cluster that the rebuild of a zone's digest chain reads (R243): its place in the zone, its WriteSerial, and its data sectors that hold a
block. -/
structure ChainCluster where
  cluster : Nat
  serial : Nat
  blocks : List (Nat × Block)
deriving DecidableEq, Repr

/-! ### The table -/

/-- One constructor for each row of the table of operations and events. -/
inductive Instr where
  -- servo loops
  | loopSample (p : PickupId) (i : LoopInputs)
  | outputSaturated (p : PickupId) (l : ServoLoop)
  | loopFault (p : PickupId) (l : ServoLoop)
  | defectHoldEntered (p : PickupId)
  | defectHoldRequest (cl : Client) (p : PickupId) (v : Int)
  | holdRelease (cl : Client) (p : PickupId) (v : Int)
  | defectHoldLeft (p : PickupId)
  | holdTimeout (p : PickupId)
  | servoOverrunStatusClear (cl : Client) (p : PickupId) (v : Int)
  | bankActivation (p : PickupId) (loops : BitVec 5)
  | xspStepEdge (dirHigh : Bool)
  -- acquisition
  | mountRequest (cl : Client) (v : Int)
  | mountSequenceStart (p : PickupId) (deviceId fault : BitVec 16)
  | focusClose (p : PickupId)
  | focusSweepEnd (p : PickupId)
  | focusSettle (p : PickupId)
  | guidePassage (p : PickupId)
  | captureSettle (p : PickupId)
  | captureTimeout (p : PickupId)
  | sledSearchMoveEnd (p : PickupId)
  | lawReceived (p : PickupId) (law : BitVec 32)
  | lawLost (p : PickupId)
  | arrayLock (p : PickupId)
  | arraySlow (p : PickupId)
  | mapLearnRevolution (p : PickupId)
  | mapAdaptRevolution (p : PickupId)
  | seekRequest (cl : Client) (p : PickupId) (v : Int)
  | layerJumpStart (p : PickupId)
  | jumpKickEnd (p : PickupId)
  | jumpBrake (p : PickupId)
  | jumpFocusClose (p : PickupId)
  | layerJumpFail (p : PickupId)
  | longSeekSledStop (p : PickupId)
  | seekFail (p : PickupId)
  | recoveryAttemptEnd (p : PickupId)
  | parkRequest (cl : Client) (p : PickupId) (v : Int)
  | parkComplete (p : PickupId)
  -- read channel
  | frameStart (g : BeamId) (row : Nat) (wanted : Bool)
  | waymarkSearch (g : BeamId)
  | lockLost (g : BeamId)
  | codewordOffer (g : BeamId) (half : Fin 2)
  | frameSlotRelease (g : BeamId) (slot : Fin 3)
  | envelopeFlag (g : BeamId)
  | guideFlag (g : BeamId)
  | agcUpdate (g : BeamId) (samples : List Int)
  | agcLimit (g : BeamId)
  | itiFracDelayStep (g : BeamId) (j : Fin 4)
  | itiLimit (g : BeamId) (j : Fin 4)
  | timingAcqEnd (g : BeamId)
  | timingRelock (g : BeamId)
  | timingUnlock (g : BeamId)
  | wobbleAmplitudePost (p : PickupId)
  -- decoding and detours
  | decoderDispatch (d : DecoderId)
  | codewordDecodeDone (d : DecoderId)
  | workspaceResume (p : PickupId)
  | overflowReread (p : PickupId)
  | clusterDecodeStart (p : PickupId) (layer : LayerId) (q : Nat)
  | outerDecodeDone (p : PickupId) (layer : LayerId) (q : Nat)
  | rungStart (p : PickupId)
  | rereadPassEnd (p : PickupId)
  | rungEnd (p : PickupId)
  -- write path
  | runForm (p : PickupId) (zone : Nat) (partialToo : Bool)
  | runFormTimeout (p : PickupId) (zone : Nat)
  | runArm (p : PickupId)
  | writePassStart (p : PickupId)
  | writePassEnd (p : PickupId)
  | powerMonitorRead (g : BeamId) (monitorPeak fault : BitVec 16)
  | gateInhibit (p : PickupId)
  | notBlank (p : PickupId)
  | spareRun (p : PickupId)
  | zoneSeal (p : PickupId) (zone : Nat)
  | journalPairWrite (p : PickupId)
  | journalPairCommit (p : PickupId)
  | opc (p : PickupId) (pair : Fin 2) (errors : List (List Nat))
  | mapBuild (p : PickupId) (dcbBlank dcbReads : List Bool) (discId : BitVec 128) (marks : List Nat)
      (records : List (List Nat)) (spares : List (Nat × Nat × Bool × Nat × Nat × Nat)) (tails : List (Nat × Nat × List Bool))
      (highSerial : Nat)
  | mapBuilt (p : PickupId) (chains : List (Nat × List ChainCluster))
  -- spindle
  | spindleStart (cl : Client) (s : SpindleId) (v : Int)
  | spindleStop (cl : Client) (s : SpindleId) (v : Int)
  | spindleCoast (cl : Client) (s : SpindleId) (v : Int)
  | spindleStartReverse (cl : Client) (s : SpindleId) (v : Int)
  | sensingEnd (s : SpindleId)
  | alignEnd (s : SpindleId)
  | handover (s : SpindleId)
  | startAttemptFail (s : SpindleId)
  | startRetry (s : SpindleId)
  | catchSpinLock (s : SpindleId)
  | pwmPeriod (s : SpindleId) (currents : List Int) (voltages : List Nat) (fltHigh : Bool)
  | dtcEvaluation (s : SpindleId) (currents : List Int)
  | speedSample (s : SpindleId)
  | atSpeed (s : SpindleId)
  | vbusSample (s : SpindleId) (code : Nat)
  | vbusLow (s : SpindleId)
  | observerLost (s : SpindleId)
  | reacquisitionAttemptEnd (s : SpindleId)
  | gateFault (s : SpindleId)
  | atRest (s : SpindleId)
  | rateMatchEvaluation (s : SpindleId)
  | rateFloor (p : PickupId)
  | frictionTorqueApply (s : SpindleId)
  -- sleds and axes
  | profilePeriod (a : AxisId) (encoderDelta : Int) (coils : List (Int × Int)) (vm : Nat) (fltHigh : Bool)
  | axisMove (cl : Client) (a : AxisId) (v : Int)
  | axisHalt (cl : Client) (a : AxisId) (v : Int)
  | axisStop (cl : Client) (a : AxisId) (v : Int)
  | axisHome (cl : Client) (a : AxisId) (v : Int)
  | axisEnable (cl : Client) (a : AxisId) (v : Int)
  | axisDisable (cl : Client) (a : AxisId) (v : Int)
  | clearFault (cl : Client) (a : AxisId) (v : Int)
  | stall (a : AxisId)
  | stallRetry (a : AxisId)
  | holdDelayExpiry (a : AxisId)
  | homeInput (a : AxisId) (high : Bool)
  | homingEnd (a : AxisId)
  | limitInput (a : AxisId) (positive : Bool) (high : Bool)
  | encoderError (a : AxisId)
  | axisDriverFault (a : AxisId)
  | axisOvercurrent (a : AxisId) (code : Int)
  -- host interface
  | doorbellWrite (c : CtrlId) (queue : Nat) (completion : Bool) (value : Nat)
  | commandFetch (c : CtrlId) (sq : Nat) (e : Sqe) (roundTripNs : Nat)
  | dispatch (c : CtrlId) (sq : Nat) (latencyNs : Nat)
  | tollgateStallRelease (k : CmdRef) (latencyNs : Nat)
  | commitPoint (k : CmdRef)
  | completionPost (k : CmdRef) (dataNs wholeNs : Nat)
  | deleteIoSubmissionQueue (k : CmdRef)
  | createIoSubmissionQueue (k : CmdRef)
  | getLogPage (k : CmdRef)
  | deleteIoCompletionQueue (k : CmdRef)
  | createIoCompletionQueue (k : CmdRef)
  | identify (k : CmdRef)
  | abort (k : CmdRef) (targetWaits : Bool)
  | setFeatures (k : CmdRef)
  | setFeaturesPowerManagement (k : CmdRef)
  | setFeaturesTimestamp (k : CmdRef)
  | getFeatures (k : CmdRef)
  | asynchronousEventRequest (k : CmdRef)
  | firmwareImageDownload (k : CmdRef)
  | firmwareCommitReplace (k : CmdRef)
  | firmwareCommitReplaceActivate (k : CmdRef)
  | firmwareCommitActivateAtReset (k : CmdRef)
  | firmwareCommitActivateNow (k : CmdRef)
  | fwActivationMediaIdle
  | fwActivationDone
  | deviceSelfTestShort (k : CmdRef)
  | deviceSelfTestExtended (k : CmdRef)
  | deviceSelfTestAbort (k : CmdRef)
  | selfTestStep (segmentEnds passes : Bool)
  | getObject (k : CmdRef)
  | setObject (k : CmdRef)
  | flush (k : CmdRef)
  | write (k : CmdRef)
  | read (k : CmdRef)
  | verify (k : CmdRef)
  | zoneAppend (k : CmdRef)
  | reportZones (k : CmdRef)
  | closeZone (k : CmdRef)
  | finishZone (k : CmdRef)
  | openZone (k : CmdRef)
  | resetZone (k : CmdRef)
  | offlineZone (k : CmdRef)
  | setZoneDescriptorExtension (k : CmdRef)
  | controllerEnable (c : CtrlId) (weighted : Bool) (sqSize cqSize : Nat)
  | controllerReset (c : CtrlId) (kind : Fin 4)
  | normalShutdown (c : CtrlId)
  | abruptShutdown (c : CtrlId)
  | powerStateEntry
  | powerStateEntryEnd
  | linkUp (c : CtrlId) (rate width : Nat)
  | linkDown (c : CtrlId)
  | latencyReset (cl : Client) (v : Int)
  -- Signpost
  | signpostRead (cl : Client) (r : Request)
  | signpostWrite (cl : Client) (r : Request)
  | readStart (cl : Client) (r : Request)
  | readSegment (cl : Client) (r : Request)
  | writeStart (cl : Client) (r : Request)
  | writeSegment (cl : Client) (r : Request)
  | writeEnd (cl : Client) (r : Request)
  | sessionClose (cl : Client) (r : Request)
  | enumerate (cl : Client) (r : Request)
  | objectWrite (cl : Client) (index sub : Nat) (v : Int) (authorised : Option Bool)
  | sessionExpired (n : Fin 8)
  | canFrame (port : Fin 2) (identifier : Nat) (classical : Bool) (payload : List Byte)
  | isoTpTimeout (port : Fin 2)
  | canBusOff (port : Fin 2)
  | canBusOffRecovery (port : Fin 2)
  | udpDatagram (sourceAddress : Nat) (sourcePort destPort : Nat) (v6 : Bool) (checksumZero : Bool) (payload : List Byte)
  | arpRequest (sourceMac targetAddress : Nat)
  | icmpEcho (v6 : Bool) (source target : Nat) (payload : List Byte)
  | neighbourSolicitation (source target : Nat)
  | reassemblyTimeout (slot : Fin 4)
  | commSettingsChange (index : Nat)
  | authChallengeRead (cl : Client)
  | authLockoutEnd
  | switchoverApply (cl : Client) (v : Int)
  | switchoverDiscard (cl : Client) (v : Int)
  | switchoverCheck (cl : Client) (v : Int)
  | switchoverApplyEdge
  | stagingIdleTimeout
  -- memory
  | mergeDrain (ddr : Bool) (span : Nat)
  | mergeDrainTimeout (ddr : Bool) (span : Nat)
  | correctedRead (memory : Nat) (place : Nat) (syndrome : BitVec 8) (scrub : Bool)
  | uncorrectableRead (memory : Nat) (place : Nat) (syndrome : BitVec 8) (scrub : Bool) (holds : WordHolds)
  | rawWrite (cl : Client) (v : Int)
  | encodedWrite (cl : Client) (v : Int)
  | splitRead (cl : Client) (v : Int)
  | scrubStart (cl : Client) (v : Int)
  | scrubStop (cl : Client) (v : Int)
  | scrubDone (wordsRead : Nat)
  | cacheDisable (cl : Client) (v : Int)
  | cacheEnable (cl : Client) (v : Int)
  | cacheFill (requester : Fin 4) (line : Nat)
  | cleanByAddress (cl : Client) (v : Int) (fillInFlight : Bool)
  | invalidateByAddress (cl : Client) (v : Int) (fillInFlight : Bool)
  | cleanAndInvalidateByAddress (cl : Client) (v : Int) (fillInFlight : Bool)
  | cleanBySetAndWay (cl : Client) (v : Int) (fillInFlight : Bool)
  | invalidateBySetAndWay (cl : Client) (v : Int) (fillInFlight : Bool)
  | cleanAndInvalidateBySetAndWay (cl : Client) (v : Int) (fillInFlight : Bool)
  | zeroALine (cl : Client) (v : Int) (fillInFlight : Bool)
  | onRampRead (k : RampId)
  | onRampIdleTimeout (k : RampId)
  -- calibration and ageing
  | dieTemperatureSample (centi : Int)
  | calRequest (cl : Client) (v : Int)
  | calItemStart (item : Fin 12) (inst : Fin 8)
  | calStep (item : Fin 12) (inst : Fin 8)
  | calRunEnd (item : Fin 12) (inst : Fin 8) (raw : CalRaw)
  | calRetry (item : Fin 12) (inst : Fin 8)
  | calDeferred (item : Fin 12) (inst : Fin 8)
  | operatingHour
  | ledgerPoint (code instance_ : Nat) (currents : Nat × Nat)
  | marginPlan
  | marginPlanRequest (cl : Client) (v : Int)
  | planSetRelease (p : PickupId)
  -- recorder, milestones, traces
  | eventReport (island : IslandId)
  | reportQueueOverflow (island : IslandId)
  | summaryClose (code : Nat)
  | tickMark
  | pageProgram
  | pageProgramDone (failed : Bool)
  | flushRequest (cl : Client) (v : Int)
  | flushDone
  | runningAreaClear (cl : Client) (v : Int) (authorised : Option Bool)
  | eventStoreInit (cl : Client) (v : Int) (authorised : Option Bool)
  | milestoneRequest (cl : Client) (v : Int)
  | milestoneBallEdge
  | milestone (cycle : Nat)
  | milestoneLatch (island : IslandId) (latencyNs : Nat)
  | milestoneRelease (cl : Client) (v : Int)
  | traceArm (cl : Client) (ch : Fin 8) (v : Int)
  | traceStop (cl : Client) (ch : Fin 8) (v : Int)
  | traceComplete (ch : Fin 8)
  -- power, clocks, reset
  | startup (failure : Fin 5) (failingRows : List (Nat × Nat)) (roundTrips : List Nat)
  | vergePowerOn
  | systemReset
  | watchdog
  | coreReset
  | islandResetRequest (cl : Client) (v : Int) (authorised : Option Bool)
  | quietPllUnlock
  | quietPllRelock
  | systemPllUnlock
  | supplyFail (level heldUs : Nat)
  | shockTrip (level heldUs : Nat)
  | cartridgeDoorTrip (level heldUs : Nat)
  | overTemperatureTrip (heldUs : Nat)
  | comparatorClear (k : Fin 4) (level heldUs : Nat)
  | wake (cause : Fin 6)
  | timeOfDayWrite (cl : Client) (v : Int)
  | firmwareKeyRevoke (cl : Client) (v : Int) (authorised : Option Bool)
  | dataReadCompletion (k : CmdRef) (good : Bool)
  | linkL1Entry (c : CtrlId)
  | ethLinkChange (speed : Fin 4)
  | canBusError (port : Fin 2) (transmit receive : Int)
  | vddvLoss
  | supplyRemoved
  | lpddr5SelfRefreshEntry
  | ringOscMeasurement (delays : List Nat)
  | interruptCoalescingTime (c : CtrlId)
  | debugPortAccess (kind : Fin 4) (arg : Nat) (data : List Byte)
deriving DecidableEq, Repr

end Sys2Proof
end

