-- ==== Sys2Proof/Decode.lean ====
section
/-! DEFINITION. Commands that a word of the table of operations and events spells: the table gives no row any bits, so no word spells a
command. -/

namespace Sys2Proof

/-- The command that a word of `nbits` bits spells, by the bits of the table's rows; no row has any. -/
def decodeTableWord (_nbits _w : Nat) : Option Instr := none

end Sys2Proof
end

