-- ==== Sys2Proof/Machine/Codes.lean ====
section
/-! DEFINITION. Event codes (the event tables of the chapters) and the Source numbers of the islands (R470). -/

namespace Sys2Proof.Machine

namespace Ev

/-- EV_SERVO_HOLD_ENTERED. -/
abbrev servoHoldEntered : Nat := 0x0101
/-- EV_SERVO_HOLD_LEFT. -/
abbrev servoHoldLeft : Nat := 0x0102
/-- EV_SERVO_OVERRUN. -/
abbrev servoOverrun : Nat := 0x0103
/-- EV_SERVO_LOOP_FAULT. -/
abbrev servoLoopFault : Nat := 0x0104
/-- EV_SERVO_BANK_ACTIVATED. -/
abbrev servoBankActivated : Nat := 0x0105
/-- EV_SERVO_OUTPUT_SATURATED. -/
abbrev servoOutputSaturated : Nat := 0x0106
/-- EV_SERVO_SETPOINT_ROUTE. -/
abbrev servoSetpointRoute : Nat := 0x0107
/-- EV_ACQ_MOUNT_DONE. -/
abbrev acqMountDone : Nat := 0x0201
/-- EV_ACQ_FOCUS_FAIL. -/
abbrev acqFocusFail : Nat := 0x0202
/-- EV_ACQ_NO_GUIDE. -/
abbrev acqNoGuide : Nat := 0x0203
/-- EV_ACQ_WRONG_SIDE. -/
abbrev acqWrongSide : Nat := 0x0204
/-- EV_ACQ_ARRAY_SLOW. -/
abbrev acqArraySlow : Nat := 0x0205
/-- EV_ACQ_MAP_LEARNED. -/
abbrev acqMapLearned : Nat := 0x0206
/-- EV_ACQ_MAP_NOT_CONVERGED. -/
abbrev acqMapNotConverged : Nat := 0x0207
/-- EV_ACQ_LAYER_JUMP_FAIL. -/
abbrev acqLayerJumpFail : Nat := 0x0208
/-- EV_ACQ_SEEK_FAIL. -/
abbrev acqSeekFail : Nat := 0x0209
/-- EV_ACQ_LAW_LOST. -/
abbrev acqLawLost : Nat := 0x020A
/-- EV_ACQ_LANE_SLIP. -/
abbrev acqLaneSlip : Nat := 0x020B
/-- EV_ACQ_HOLD_TIMEOUT. -/
abbrev acqHoldTimeout : Nat := 0x020C
/-- EV_ACQ_RECOVERED. -/
abbrev acqRecovered : Nat := 0x020D
/-- EV_ACQ_PARKED. -/
abbrev acqParked : Nat := 0x020E
/-- EV_ACQ_SLED_REBASED. -/
abbrev acqSledRebased : Nat := 0x020F
/-- EV_ACQ_SLED_SLIP. -/
abbrev acqSledSlip : Nat := 0x0210
/-- EV_ACQ_REQUEST_IGNORED. -/
abbrev acqRequestIgnored : Nat := 0x0211
/-- EV_CH_LOCK_ACQUIRED. -/
abbrev chLockAcquired : Nat := 0x0301
/-- EV_CH_LOCK_LOST. -/
abbrev chLockLost : Nat := 0x0302
/-- EV_CH_SECOND_CANDIDATE. -/
abbrev chSecondCandidate : Nat := 0x0303
/-- EV_CH_HEADER_MISMATCH. -/
abbrev chHeaderMismatch : Nat := 0x0304
/-- EV_CH_FRAME_STORE_OVERFLOW. -/
abbrev chFrameStoreOverflow : Nat := 0x0305
/-- EV_CH_TIMING_UNLOCK. -/
abbrev chTimingUnlock : Nat := 0x0306
/-- EV_CH_AGC_LIMIT. -/
abbrev chAgcLimit : Nat := 0x0307
/-- EV_CH_ITI_LIMIT. -/
abbrev chItiLimit : Nat := 0x0308
/-- EV_CH_RATE_OUT_OF_RANGE. -/
abbrev chRateOutOfRange : Nat := 0x0309
/-- EV_CH_FRAME_TRUNCATED. -/
abbrev chFrameTruncated : Nat := 0x030A
/-- EV_DEC_OUTER_USED. -/
abbrev decOuterUsed : Nat := 0x0401
/-- EV_DEC_READMITTED. -/
abbrev decReadmitted : Nat := 0x0402
/-- EV_DEC_LADDER_START. -/
abbrev decLadderStart : Nat := 0x0403
/-- EV_DEC_RUNG. -/
abbrev decRung : Nat := 0x0404
/-- EV_DEC_RUNG_SKIPPED. -/
abbrev decRungSkipped : Nat := 0x0405
/-- EV_DEC_RECOVERED. -/
abbrev decRecovered : Nat := 0x0406
/-- EV_DEC_UNRECOVERED. -/
abbrev decUnrecovered : Nat := 0x0407
/-- EV_DEC_WORKSPACE_FULL. -/
abbrev decWorkspaceFull : Nat := 0x0408
/-- EV_DEC_OUTER_CONFLICT. -/
abbrev decOuterConflict : Nat := 0x0409
/-- EV_WR_VERIFY_FAIL. -/
abbrev wrVerifyFail : Nat := 0x0501
/-- EV_WR_REPLACED. -/
abbrev wrReplaced : Nat := 0x0502
/-- EV_WR_SPARES_EXHAUSTED. -/
abbrev wrSparesExhausted : Nat := 0x0503
/-- EV_WR_REFUSED. -/
abbrev wrRefused : Nat := 0x0504
/-- EV_WR_NOT_BLANK. -/
abbrev wrNotBlank : Nat := 0x0505
/-- EV_WR_GATE_INHIBIT. -/
abbrev wrGateInhibit : Nat := 0x0506
/-- EV_WR_RUN_INTERRUPTED. -/
abbrev wrRunInterrupted : Nat := 0x0507
/-- EV_WR_OPC. -/
abbrev wrOpc : Nat := 0x0508
/-- EV_WR_PCA_EXHAUSTED. -/
abbrev wrPcaExhausted : Nat := 0x0509
/-- EV_WR_POWER_LIMIT. -/
abbrev wrPowerLimit : Nat := 0x050A
/-- EV_WR_ZONE_SEALED. -/
abbrev wrZoneSealed : Nat := 0x050B
/-- EV_WR_CHECKPOINT. -/
abbrev wrCheckpoint : Nat := 0x050C
/-- EV_WR_JOURNAL_WRITTEN. -/
abbrev wrJournalWritten : Nat := 0x050D
/-- EV_WR_MAP_BUILT. -/
abbrev wrMapBuilt : Nat := 0x050E
/-- EV_WR_DCB_CREATED. -/
abbrev wrDcbCreated : Nat := 0x050F
/-- EV_WR_DRIVER_FAULT. -/
abbrev wrDriverFault : Nat := 0x0510
/-- EV_WR_DCB_SINGLE. -/
abbrev wrDcbSingle : Nat := 0x0511
/-- EV_WR_DCB_UNREADABLE. -/
abbrev wrDcbUnreadable : Nat := 0x0512
/-- EV_WR_JOURNAL_FULL. -/
abbrev wrJournalFull : Nat := 0x0513
/-- EV_SPIN_STARTED. -/
abbrev spinStarted : Nat := 0x0601
/-- EV_SPIN_START_FAIL. -/
abbrev spinStartFail : Nat := 0x0602
/-- EV_SPIN_SENSED. -/
abbrev spinSensed : Nat := 0x0603
/-- EV_SPIN_OBSERVER_LOST. -/
abbrev spinObserverLost : Nat := 0x0604
/-- EV_SPIN_REACQUIRED. -/
abbrev spinReacquired : Nat := 0x0605
/-- EV_SPIN_GAVE_UP. -/
abbrev spinGaveUp : Nat := 0x0606
/-- EV_SPIN_REGEN_FOLDBACK. -/
abbrev spinRegenFoldback : Nat := 0x0607
/-- EV_SPIN_VBUS_TRIP. -/
abbrev spinVbusTrip : Nat := 0x0608
/-- EV_SPIN_GATE_FAULT. -/
abbrev spinGateFault : Nat := 0x0609
/-- EV_SPIN_OVERCURRENT. -/
abbrev spinOvercurrent : Nat := 0x060A
/-- EV_SPIN_STOPPED. -/
abbrev spinStopped : Nat := 0x060B
/-- EV_SPIN_WOBBLE_LOCK. -/
abbrev spinWobbleLock : Nat := 0x060C
/-- EV_SPIN_RATE_FLOOR. -/
abbrev spinRateFloor : Nat := 0x060D
/-- EV_SPIN_MODE_CHANGED. -/
abbrev spinModeChanged : Nat := 0x060E
/-- EV_SPIN_VBUS_LOW. -/
abbrev spinVbusLow : Nat := 0x060F
/-- EV_AX_STALL. -/
abbrev axStall : Nat := 0x0701
/-- EV_AX_FAULT. -/
abbrev axFault : Nat := 0x0702
/-- EV_AX_POSITION_LOST. -/
abbrev axPositionLost : Nat := 0x0703
/-- EV_AX_HOMED. -/
abbrev axHomed : Nat := 0x0704
/-- EV_AX_DECEL_LATCHED. -/
abbrev axDecelLatched : Nat := 0x0705
/-- EV_AX_CURRENT_LIMIT. -/
abbrev axCurrentLimit : Nat := 0x0706
/-- EV_AX_COMMAND_REFUSED. -/
abbrev axCommandRefused : Nat := 0x0707
/-- EV_HOST_LINK_UP. -/
abbrev hostLinkUp : Nat := 0x0801
/-- EV_HOST_LINK_DOWN. -/
abbrev hostLinkDown : Nat := 0x0802
/-- EV_HOST_CONTROLLER_ENABLED. -/
abbrev hostControllerEnabled : Nat := 0x0803
/-- EV_HOST_CONTROLLER_RESET. -/
abbrev hostControllerReset : Nat := 0x0804
/-- EV_HOST_SHUTDOWN. -/
abbrev hostShutdown : Nat := 0x0805
/-- EV_HOST_ABORT. -/
abbrev hostAbort : Nat := 0x0806
/-- EV_HOST_ERROR_COMPLETION. -/
abbrev hostErrorCompletion : Nat := 0x0807
/-- EV_HOST_FW_ACTIVATION_START. -/
abbrev hostFwActivationStart : Nat := 0x0808
/-- EV_HOST_FW_ACTIVATION_DONE. -/
abbrev hostFwActivationDone : Nat := 0x0809
/-- EV_HOST_POWER_STATE. -/
abbrev hostPowerState : Nat := 0x080A
/-- EV_HOST_POWER_ENTRY_SUSPENDED. -/
abbrev hostPowerEntrySuspended : Nat := 0x080B
/-- EV_HOST_SELF_TEST_START. -/
abbrev hostSelfTestStart : Nat := 0x080C
/-- EV_HOST_SELF_TEST_END. -/
abbrev hostSelfTestEnd : Nat := 0x080D
/-- EV_HOST_BOUND_MISS. -/
abbrev hostBoundMiss : Nat := 0x080E
/-- EV_HOST_ZONE_STATE. -/
abbrev hostZoneState : Nat := 0x080F
/-- EV_HOST_TOLLGATE_FULL. -/
abbrev hostTollgateFull : Nat := 0x0810
/-- EV_SIGNPOST_WRITE. -/
abbrev signpostWrite : Nat := 0x0880
/-- EV_SIGNPOST_SESSION_EXPIRED. -/
abbrev signpostSessionExpired : Nat := 0x0881
/-- EV_SIGNPOST_SERVER_BUSY. -/
abbrev signpostServerBusy : Nat := 0x0882
/-- EV_SIGNPOST_CAN_BUS_OFF. -/
abbrev signpostCanBusOff : Nat := 0x0883
/-- EV_SIGNPOST_COMM_CHANGED. -/
abbrev signpostCommChanged : Nat := 0x0884
/-- EV_SWITCHOVER_APPLIED. -/
abbrev switchoverApplied : Nat := 0x0885
/-- EV_SWITCHOVER_REFUSED. -/
abbrev switchoverRefused : Nat := 0x0886
/-- EV_SWITCHOVER_DISCARDED. -/
abbrev switchoverDiscarded : Nat := 0x0887
/-- EV_SEC_AUTH_GRANTED. -/
abbrev secAuthGranted : Nat := 0x0C40
/-- EV_SEC_AUTH_REFUSED. -/
abbrev secAuthRefused : Nat := 0x0C41
/-- EV_SEC_AUTH_LOCKOUT. -/
abbrev secAuthLockout : Nat := 0x0C42
/-- EV_MEM_CORRECTED. -/
abbrev memCorrected : Nat := 0x0901
/-- EV_MEM_UNCORRECTABLE. -/
abbrev memUncorrectable : Nat := 0x0902
/-- EV_MEM_WRITEBACK. -/
abbrev memWriteback : Nat := 0x0903
/-- EV_MEM_ROW_RETIRED. -/
abbrev memRowRetired : Nat := 0x0904
/-- EV_MEM_SPARES_EXHAUSTED. -/
abbrev memSparesExhausted : Nat := 0x0905
/-- EV_MEM_HARD_FAULT. -/
abbrev memHardFault : Nat := 0x0906
/-- EV_MEM_SELFTEST. -/
abbrev memSelftest : Nat := 0x0907
/-- EV_MEM_SCRUB_DONE. -/
abbrev memScrubDone : Nat := 0x0908
/-- EV_MEM_MERGE_POISON. -/
abbrev memMergePoison : Nat := 0x0909
/-- EV_MEM_CACHE_DISABLED. -/
abbrev memCacheDisabled : Nat := 0x090A
/-- EV_MEM_ONRAMP_ITEM_LOST. -/
abbrev memOnrampItemLost : Nat := 0x090B
/-- EV_MEM_ONRAMP_MODE. -/
abbrev memOnrampMode : Nat := 0x090C
/-- EV_CAL_RUN. -/
abbrev calRun : Nat := 0x0A01
/-- EV_CAL_DISAGREE. -/
abbrev calDisagree : Nat := 0x0A02
/-- EV_CAL_FAILED. -/
abbrev calFailed : Nat := 0x0A03
/-- EV_CAL_DEFERRED. -/
abbrev calDeferred : Nat := 0x0A04
/-- EV_CAL_RESTORED. -/
abbrev calRestored : Nat := 0x0A05
/-- EV_CAL_SET_CHANGED. -/
abbrev calSetChanged : Nat := 0x0A06
/-- EV_AGE_POINT. -/
abbrev agePoint : Nat := 0x0A07
/-- EV_AGE_MARGIN_LOW. -/
abbrev ageMarginLow : Nat := 0x0A08
/-- EV_PLAN_APPLIED. -/
abbrev planApplied : Nat := 0x0A09
/-- EV_PLAN_REFUSED. -/
abbrev planRefused : Nat := 0x0A0A
/-- EV_PLAN_PROPOSED. -/
abbrev planProposed : Nat := 0x0A0B
/-- EV_AGE_LEDGER_RESTORED. -/
abbrev ageLedgerRestored : Nat := 0x0A0C
/-- EV_REC_STARTUP. -/
abbrev recStartup : Nat := 0x0D01
/-- EV_REC_TIME_SET. -/
abbrev recTimeSet : Nat := 0x0D02
/-- EV_REC_TICK_MARK. -/
abbrev recTickMark : Nat := 0x0D03
/-- EV_REC_SUPPRESSED. -/
abbrev recSuppressed : Nat := 0x0D04
/-- EV_REC_QUEUE_OVERFLOW. -/
abbrev recQueueOverflow : Nat := 0x0D05
/-- EV_REC_NOR_GAP. -/
abbrev recNorGap : Nat := 0x0D06
/-- EV_REC_FLUSH. -/
abbrev recFlush : Nat := 0x0D07
/-- EV_REC_RUNNING_CLEARED. -/
abbrev recRunningCleared : Nat := 0x0D08
/-- EV_REC_MILESTONE. -/
abbrev recMilestone : Nat := 0x0D09
/-- EV_REC_ORIGIN_FULL. -/
abbrev recOriginFull : Nat := 0x0D0A
/-- EV_REC_NOR_FAULT. -/
abbrev recNorFault : Nat := 0x0D0B
/-- EV_CLK_QUIET_UNLOCK. -/
abbrev clkQuietUnlock : Nat := 0x0B01
/-- EV_CLK_QUIET_RELOCK. -/
abbrev clkQuietRelock : Nat := 0x0B02
/-- EV_CLK_SYSTEM_UNLOCK. -/
abbrev clkSystemUnlock : Nat := 0x0B03
/-- EV_PWR_RESET. -/
abbrev pwrReset : Nat := 0x0B04
/-- EV_VG_TRIP. -/
abbrev vgTrip : Nat := 0x0B05
/-- EV_VG_WAKE. -/
abbrev vgWake : Nat := 0x0B06
/-- EV_VG_POWER_LOST. -/
abbrev vgPowerLost : Nat := 0x0B07
/-- EV_PWR_THERMAL_SHUTDOWN. -/
abbrev pwrThermalShutdown : Nat := 0x0B08
/-- EV_PWR_WATCHDOG. -/
abbrev pwrWatchdog : Nat := 0x0B09
/-- EV_PWR_ISLAND_RESET. -/
abbrev pwrIslandReset : Nat := 0x0B0A
/-- EV_FW_BOOT. -/
abbrev fwBoot : Nat := 0x0C01
/-- EV_FW_SLOT_INVALID. -/
abbrev fwSlotInvalid : Nat := 0x0C02
/-- EV_FW_IMAGE_WRITTEN. -/
abbrev fwImageWritten : Nat := 0x0C03
/-- EV_FW_ROLLBACK_RAISED. -/
abbrev fwRollbackRaised : Nat := 0x0C04
/-- EV_FW_KEY_REVOKED. -/
abbrev fwKeyRevoked : Nat := 0x0C05

end Ev

namespace Isl
/-- CH of beam g. -/
def ch (g : BeamId) : IslandId := ⟨g.val, by omega⟩
/-- SV of pickup p. -/
def sv (p : PickupId) : IslandId := ⟨32 + p.val, by omega⟩
/-- MT of spindle s. -/
def mt (s : SpindleId) : IslandId := ⟨40 + s.val, by omega⟩
/-- HOST. -/
def host : IslandId := 44
/-- CORE. -/
def core : IslandId := 45
/-- MEM. -/
def mem : IslandId := 46
/-- Verge. -/
def verge : IslandId := 47
/-- Island that drives an axis: SVp for sled p, MT0 for an auxiliary axis (R289). -/
def axis (a : AxisId) : IslandId := if h : a.val < 8 then ⟨32 + a.val, by omega⟩ else 40
end Isl

/-! Names of the real-valued quantities that `Config.real` gives. -/
namespace Tag
/-- An internal Q2.30 word outside the range (R62 states saturation of section outputs only). -/
abbrev stateWord : Nat := 1
/-- Coefficient of the first-order low-pass of L for a corner (R67), in 2^-30. -/
abbrev lensCoefficient : Nat := 2
/-- Loop adjustment of R79 whose divisor is 0. -/
abbrev adjust : Nat := 3
/-- Tilt phase of R71 while a half-sum carries no wobble. -/
abbrev tiltPhase : Nat := 4
/-- Tracking output that a difference of target and crossing velocity drives (R119). -/
abbrev seekDrive : Nat := 5
/-- rms of a column of the map update (R113). -/
abbrev rms : Nat := 6
/-- Latency of a loop that has no bound (R74). -/
abbrev latency : Nat := 7
/-- Back-EMF observer and phase-locked loop (R256). -/
abbrev emfA : Nat := 8
abbrev emfB : Nat := 9
abbrev pllSpeed : Nat := 10
abbrev pllAngle : Nat := 11
/-- Phase of the PWM period to the tracking sampling edges (R252, R253). -/
abbrev pwmPhase : Nat := 12
/-- Drift correction of the flux estimate (R258). -/
abbrev fluxDrift : Nat := 13
/-- Sensed amplitude while the zero vector is applied (R274). -/
abbrev brakedAmplitude : Nat := 14
/-- Weight of a new value in the average of the host data rate (R281), in 2^-30. -/
abbrev average : Nat := 15
/-- Gains of a coil's current loop (R293). -/
abbrev coilKp : Nat := 16
abbrev coilKi : Nat := 17
/-- Filter of `CalTemperature` (R441). -/
abbrev calFilter : Nat := 35
/-- Frequency of a notch (R459). -/
abbrev notchFrequency : Nat := 36
/-- Word of a retuned notch (R459). -/
abbrev notchWord : Nat := 37
/-- Margin of an entry whose limit equals its reference (R458). -/
abbrev margin : Nat := 38
/-- Result of a run whose measurements leave it undefined: a slope, a curvature or a shift of 0 (R443). -/
abbrev calResult : Nat := 39
/-- Laser slope where the two currents of its fit are equal (R453). -/
abbrev laserSlope : Nat := 40
end Tag

end Sys2Proof.Machine
end

