-- ==== Sys2Proof/Config.lean ====
section
/-! DEFINITION. What the manual leaves open: constants without a body, so that nothing in Lean can tell their value, and a claim
about the model is true whatever they are. Each is named in the assumption log. -/

namespace Sys2Proof

/-- Whether a quotient that is not an integer is rounded up (else down), where the manual gives a fixed-point result of a real
formula without its rounding. -/
opaque Config.roundsUp (num : Int) (den : Nat) : Bool
/-- Real-valued functions of the control loops whose number format the manual does not give (Park transforms, PI controllers,
observers, filter coefficients, square roots of power terms), by a tag naming the quantity, of the listed operands. -/
opaque Config.real (tag : Nat) (operands : List Int) : Int
/-- SHA-256 of FIPS 180-4: named by R231, R241, R387 and R524, not restated there. -/
opaque Config.sha256 (bytes : List Byte) : BitVec 256
/-- Bytes of an event payload (R468): the manual gives its fields without their widths. -/
opaque Config.payloadBytes (code : Nat) (fields : List Int) : List Byte
/-- New nonces of `AuthChallenge` (R388): the manual does not say how they are made. -/
opaque Config.nonce (counter : Nat) : BitVec 128
/-- Verdict of the security unit on an image's signature under a firmware key (R524, R525): the keys are not part of the manual. -/
opaque Config.imageSigned (header : List Byte) : Bool
/-- Verdict of the security unit on the signature that ends an authorised write message (R387), against the client's nonce and under the
key in OTP, which is not part of the manual. -/
opaque Config.writeSigned (message : List Byte) (nonce : BitVec 128) (dieIdentity : Nat) : Bool
/-- Session numbers (R369): the manual does not say how sessions are numbered. -/
opaque Config.sessionNumber (counter : Nat) : Nat
/-- Values that the die carries from manufacture (R8, R359, R396, R525): vendor id, serial, revision. -/
opaque Config.perDevice (tag : Nat) : Nat
/-- Shifts of the 128 information circulants, a property of the Worma format that the manual does not list (R178). -/
opaque Config.ldpcShift (blockRow blockColumn : Nat) : Nat
/-- The encoder of the (1,7) code, which the manual names and does not list (R33, R35): the three channel bits of a code group, and the encoder
state after it, from the state, the group's two coded bits and the two that follow. -/
opaque Config.rllGroup (state pair next : Nat) : Nat
opaque Config.rllState (state pair next : Nat) : Nat
/-- The eight RLL termination bits after a stream's last coded bits (R33). -/
opaque Config.rllTermination (last : List Bool) : Nat
/-- The coded bit, the second or the first of its group, that the channel bits of its decoding window spell (R156). -/
opaque Config.rllBit (second : Bool) (pattern : Nat) : Bool
/-- Coefficient of tap k of the four-tap interpolator of R150 for a fractional delay in 2^-20 bit, in 2^-20. -/
opaque Config.interpolatorTap (k : Nat) (delay : Int) : Int
/-- Unit of the samples, in codes and less one, in the products of two samples that R145, R147 and R152 add to a tap, a phase and a coupling. -/
opaque Config.sampleUnit : Nat
/-- Values for which the manual states no result, one for each reading of the free-value counter of the state. -/
opaque Config.freeValue (counter : Nat) : Int
/-- Which way the cache's pseudo-LRU points (R425): the manual does not give the tree. -/
opaque Config.pseudoLru (set_ mask counter : Nat) : Nat

/-- `num / den` narrowed to an integer: exact where it divides, else rounded as `Config.roundsUp` says (the manual gives no
rounding). -/
def rnd (num : Int) (den : Nat) : Int :=
  if num % (den : Int) = 0 then num / (den : Int)
  else num / (den : Int) + (if Config.roundsUp num den then 1 else 0)

/-- Integer square root with the open rounding of `rnd`. -/
def rndSqrt (n : Nat) : Nat :=
  if n.sqrt * n.sqrt = n then n.sqrt else n.sqrt + (if Config.roundsUp n 0 then 1 else 0)

/-- Nearest integer, halves upward: the manual's `round` where it states it (R446) and where no half can occur. -/
def roundHalfUp (num : Int) (den : Nat) : Int := (2 * num + den) / (2 * (den : Int))

end Sys2Proof
end

