-- ==== Sys2Proof/Machine/Dict.lean ====
section
/-! DEFINITION. The object dictionary (R363 to R366): one row for each object of the chapters' tables, with its place,
instances, type, access right, default and range. -/

namespace Sys2Proof.Machine

/-- Types of R364; STR and DOM carry their declared length in bytes. -/
inductive ObjType where
  | u8 | u16 | u32 | u64 | i16 | i32 | q15 | q30 | str (n : Nat) | dom (n : Nat)
deriving DecidableEq, Repr

/-- Access rights of R366. -/
inductive Access where
  | ro | rw | rws | wo | rwa
deriving DecidableEq, Repr

/-- What an instance of an object belongs to, which decides whether it is enabled (R6). -/
inductive Owner where
  | all | pickup | beam | spindle | axis
deriving DecidableEq, Repr

/-- Ranges of the tables; `full` is the whole range of the type. -/
inductive Range where
  | full
  | span (lo hi : Int)
  | spanOr (lo hi other : Int)
  | multiples (lo hi m : Int)
  | values (l : List Int)
deriving DecidableEq, Repr

/-- A row of an object table: instance (a, b) lies at index base + a * stride + b * stride2 for a < count and b < count2, and
the row covers `subs` subindices from `sub`. Element k of instance i has the default at (i * subs + k) modulo the length. -/
structure Row where
  base    : Nat
  count   : Nat
  stride  : Nat
  count2  : Nat
  stride2 : Nat
  owner   : Owner
  sub     : Nat
  subs    : Nat
  type    : ObjType
  access  : Access
  dflt    : List Int
  range   : Range
deriving DecidableEq, Repr

/-- Index of instance i (for two-fold instances i = a * count2 + b). -/
def Row.index (r : Row) (i : Nat) : Nat := r.base + r.stride * (i / r.count2) + r.stride2 * (i % r.count2)

/-- Key of element k of instance i: index * 256 + subindex. -/
def Row.key (r : Row) (i k : Nat) : Nat := r.index i * 256 + r.sub + k

/-- Default of element k of instance i. -/
def Row.default (r : Row) (i k : Nat) : Int := r.dflt.getD ((i * r.subs + k) % r.dflt.length) 0

/-- Size of a value in bytes (R364). -/
def ObjType.size : ObjType → Nat
  | .u8 => 1 | .u16 => 2 | .u32 => 4 | .u64 => 8 | .i16 => 2 | .i32 => 4 | .q15 => 2 | .q30 => 4 | .str n => n | .dom n => n

/-- Type code of R364. -/
def ObjType.code : ObjType → Nat
  | .u8 => 1 | .u16 => 2 | .u32 => 3 | .u64 => 4 | .i16 => 5 | .i32 => 6 | .q15 => 7 | .q30 => 8 | .str _ => 9 | .dom _ => 10

/-- Access code of R375. -/
def Access.code : Access → Nat
  | .ro => 0 | .rw => 1 | .rws => 2 | .wo => 3 | .rwa => 4

/-- Whether values of the type are two's complement. -/
def ObjType.signed : ObjType → Bool
  | .i16 => true | .i32 => true | .q15 => true | .q30 => true | _ => false

/-- Whether the object's value is a byte string. -/
def ObjType.isBytes : ObjType → Bool
  | .str _ => true | .dom _ => true | _ => false

/-- The values that a type can hold. -/
def ObjType.holds (t : ObjType) (v : Int) : Bool :=
  if t.signed then decide (-(2 ^ (8 * t.size - 1)) ≤ v ∧ v < 2 ^ (8 * t.size - 1))
  else decide (0 ≤ v ∧ v < 2 ^ (8 * t.size))

/-- Range check of R366. -/
def Range.admits (r : Range) (v : Int) : Bool :=
  match r with
  | .full => true
  | .span lo hi => decide (lo ≤ v ∧ v ≤ hi)
  | .spanOr lo hi x => decide (lo ≤ v ∧ v ≤ hi) || v == x
  | .multiples lo hi m => decide (lo ≤ v ∧ v ≤ hi ∧ v % m = 0)
  | .values l => l.contains v

/-- Value read from the little-endian bytes of its type (R365). -/
def ObjType.decode (t : ObjType) (bytes : List Byte) : Int :=
  let n : Nat := (bytes.take t.size).foldr (fun b acc => b.toNat + 256 * acc) 0
  if t.signed && decide (2 ^ (8 * t.size - 1) ≤ n) then (n : Int) - 2 ^ (8 * t.size) else n

/-- The n little-endian bytes of a value. -/
def leBytes (n : Nat) (v : Int) : List Byte :=
  (List.range n).map fun i => BitVec.ofInt 8 (v / 256 ^ i)

namespace Obj
-- Scope, R8
/-- `VariantCode`, R8. -/
def variantCode : Row := ⟨0x1001, 1, 0, 1, 0, .all, 0x00, 1, .u8, .ro, [0], .full⟩
/-- `EnabledSpindleMask`, R8. -/
def enabledSpindleMask : Row := ⟨0x1001, 1, 0, 1, 0, .all, 0x01, 1, .u8, .ro, [0], .full⟩
/-- `EnabledPickupMask`, R8. -/
def enabledPickupMask : Row := ⟨0x1001, 1, 0, 1, 0, .all, 0x02, 1, .u8, .ro, [0], .full⟩
/-- `SledEncoderPresent`, R8. -/
def sledEncoderPresent : Row := ⟨0x1001, 1, 0, 1, 0, .all, 0x03, 1, .u8, .ro, [0], .full⟩

-- Servo, R77
/-- `HighestSub`, R77. -/
def highestSub : Row := ⟨0x3010, 8, 0x100, 5, 1, .pickup, 0x00, 1, .u8, .ro, [59], .full⟩
/-- `BiquadCoeff`, R77. -/
def biquadCoeff : Row := ⟨0x3010, 8, 0x100, 5, 1, .pickup, 0x01, 30, .q30, .rws, [1073741824, 0, 0, 0, 0], .full⟩
/-- `SsA`, R77. -/
def ssA : Row := ⟨0x3010, 8, 0x100, 5, 1, .pickup, 0x1F, 16, .q30, .rws, [1073741824, 0, 0, 0, 0, 0, 0, 0, 0, 0, 0, 0, 0, 0, 0, 0], .full⟩
/-- `SsB`, R77. -/
def ssB : Row := ⟨0x3010, 8, 0x100, 5, 1, .pickup, 0x2F, 4, .q30, .rws, [4194304, 0, 0, 0], .full⟩
/-- `SsC`, R77. -/
def ssC : Row := ⟨0x3010, 8, 0x100, 5, 1, .pickup, 0x33, 4, .q30, .rws, [268435456, 0, 0, 0], .full⟩
/-- `SsD`, R77. -/
def ssD : Row := ⟨0x3010, 8, 0x100, 5, 1, .pickup, 0x37, 1, .q30, .rws, [134217728], .full⟩
/-- `SsShift`, R77. -/
def ssShift : Row := ⟨0x3010, 8, 0x100, 5, 1, .pickup, 0x38, 1, .i16, .rws, [0], .span (-8) 8⟩
/-- `BiquadsUsed`, R77. -/
def biquadsUsed : Row := ⟨0x3010, 8, 0x100, 5, 1, .pickup, 0x39, 1, .u8, .rws, [0], .span 0 6⟩
/-- `SsOrder`, R77. -/
def ssOrder : Row := ⟨0x3010, 8, 0x100, 5, 1, .pickup, 0x3A, 1, .u8, .rws, [1], .span 1 4⟩
/-- `IntegratorState`, R77. -/
def integratorState : Row := ⟨0x3010, 8, 0x100, 5, 1, .pickup, 0x3B, 1, .u8, .rws, [0], .spanOr 0 3 0xFF⟩

-- Servo, R98
/-- `EngineState`, R98. -/
def engineState : Row := ⟨0x3000, 8, 0x100, 1, 0, .pickup, 0x00, 1, .u8, .ro, [0], .full⟩
/-- `LoopClosedMask`, R98. -/
def loopClosedMask : Row := ⟨0x3000, 8, 0x100, 1, 0, .pickup, 0x01, 1, .u8, .ro, [0], .full⟩
/-- `DefectHoldCause`, R98. -/
def defectHoldCause : Row := ⟨0x3000, 8, 0x100, 1, 0, .pickup, 0x02, 1, .u16, .ro, [0], .full⟩
/-- `ServoOverrunStatus`, R98. -/
def servoOverrunStatus : Row := ⟨0x3000, 8, 0x100, 1, 0, .pickup, 0x03, 1, .u16, .rw, [0], .full⟩
/-- `TrackingResidualRms`, R98. -/
def trackingResidualRms : Row := ⟨0x3000, 8, 0x100, 1, 0, .pickup, 0x04, 1, .u16, .ro, [0], .full⟩
/-- `FocusResidualRms`, R98. -/
def focusResidualRms : Row := ⟨0x3000, 8, 0x100, 1, 0, .pickup, 0x05, 1, .u16, .ro, [0], .full⟩
/-- `WobbleCount`, R98. -/
def wobbleCount : Row := ⟨0x3000, 8, 0x100, 1, 0, .pickup, 0x06, 1, .u32, .ro, [0], .full⟩
/-- `TrackingOverrunCount`, R98. -/
def trackingOverrunCount : Row := ⟨0x3001, 8, 0x100, 1, 0, .pickup, 0x00, 1, .u32, .ro, [0], .full⟩
/-- `FocusOverrunCount`, R98. -/
def focusOverrunCount : Row := ⟨0x3001, 8, 0x100, 1, 0, .pickup, 0x01, 1, .u32, .ro, [0], .full⟩
/-- `SkewOverrunCount`, R98. -/
def skewOverrunCount : Row := ⟨0x3001, 8, 0x100, 1, 0, .pickup, 0x02, 1, .u32, .ro, [0], .full⟩
/-- `TiltOverrunCount`, R98. -/
def tiltOverrunCount : Row := ⟨0x3001, 8, 0x100, 1, 0, .pickup, 0x03, 1, .u32, .ro, [0], .full⟩
/-- `SledOuterOverrunCount`, R98. -/
def sledOuterOverrunCount : Row := ⟨0x3001, 8, 0x100, 1, 0, .pickup, 0x04, 1, .u32, .ro, [0], .full⟩
/-- `LoopFaultCount`, R98. -/
def loopFaultCount : Row := ⟨0x3001, 8, 0x100, 1, 0, .pickup, 0x05, 1, .u32, .ro, [0], .full⟩
/-- `DefectHoldRequest`, R98. -/
def defectHoldRequest : Row := ⟨0x300A, 8, 0x100, 1, 0, .pickup, 0x00, 1, .u8, .wo, [0], .values [1]⟩

-- Servo, R99
/-- `TrackingErrorGain`, R99. -/
def trackingErrorGain : Row := ⟨0x3002, 8, 0x100, 1, 0, .pickup, 0x00, 1, .q30, .rws, [1048576000], .full⟩
/-- `FocusErrorGain`, R99. -/
def focusErrorGain : Row := ⟨0x3002, 8, 0x100, 1, 0, .pickup, 0x01, 1, .q30, .rws, [1476395008], .full⟩
/-- `SkewErrorGain`, R99. -/
def skewErrorGain : Row := ⟨0x3002, 8, 0x100, 1, 0, .pickup, 0x02, 1, .q30, .rws, [1073741824], .full⟩
/-- `TiltErrorGain`, R99. -/
def tiltErrorGain : Row := ⟨0x3002, 8, 0x100, 1, 0, .pickup, 0x03, 1, .q30, .rws, [1073741824], .full⟩
/-- `LensShiftGain`, R99. -/
def lensShiftGain : Row := ⟨0x3002, 8, 0x100, 1, 0, .pickup, 0x04, 1, .q30, .rws, [0], .full⟩
/-- `LensShiftCorner`, R99. -/
def lensShiftCorner : Row := ⟨0x3002, 8, 0x100, 1, 0, .pickup, 0x05, 1, .u16, .rws, [1000], .span 100 5000⟩
/-- `SumFloor`, R99. -/
def sumFloor : Row := ⟨0x3002, 8, 0x100, 1, 0, .pickup, 0x06, 1, .q15, .rws, [1024], .span 1 32767⟩
/-- `WobbleFloor`, R99. -/
def wobbleFloor : Row := ⟨0x3002, 8, 0x100, 1, 0, .pickup, 0x07, 1, .q15, .rws, [512], .span 1 32767⟩
/-- `TrackingOffset`, R99. -/
def trackingOffset : Row := ⟨0x3003, 8, 0x100, 1, 0, .pickup, 0x00, 1, .q30, .rws, [0], .full⟩
/-- `FocusOffsetL0`, R99. -/
def focusOffset : Row := ⟨0x3003, 8, 0x100, 1, 0, .pickup, 0x01, 4, .q30, .rws, [0], .full⟩
/-- `TiltOffset`, R99. -/
def tiltOffset : Row := ⟨0x3003, 8, 0x100, 1, 0, .pickup, 0x05, 1, .q30, .rws, [0], .full⟩
/-- `SkewFeedforwardK0`, R99. -/
def skewFeedforwardK0 : Row := ⟨0x3003, 8, 0x100, 1, 0, .pickup, 0x06, 1, .q30, .rws, [0], .full⟩
/-- `SkewFeedforwardK1`, R99. -/
def skewFeedforwardK1 : Row := ⟨0x3003, 8, 0x100, 1, 0, .pickup, 0x07, 1, .q30, .rws, [0], .full⟩
/-- `Limit`, R99. -/
def limit : Row := ⟨0x3004, 8, 0x100, 1, 0, .pickup, 0x00, 4, .q15, .rws, [29491], .span 1 32767⟩
/-- `Slew`, R99. -/
def slew : Row := ⟨0x3004, 8, 0x100, 1, 0, .pickup, 0x04, 2, .q15, .rws, [1024], .span 1 32767⟩
/-- `Slew`, R99. -/
def slewSkewTilt : Row := ⟨0x3004, 8, 0x100, 1, 0, .pickup, 0x06, 2, .q15, .rws, [512], .span 1 32767⟩

-- Servo, R100
/-- `RcGain`, R100. -/
def rcGain : Row := ⟨0x3005, 8, 0x100, 1, 0, .pickup, 0x00, 3, .q30, .rws, [1073741824], .full⟩
/-- `RcPhaseAdvance`, R100. -/
def rcPhaseAdvance : Row := ⟨0x3005, 8, 0x100, 1, 0, .pickup, 0x03, 1, .u16, .rws, [4], .span 0 36⟩
/-- `TrackingResidualLimit`, R100. -/
def trackingResidualLimit : Row := ⟨0x3006, 8, 0x100, 1, 0, .pickup, 0x00, 1, .u16, .rw, [400], .span 50 2000⟩
/-- `TrackingResidualCount`, R100. -/
def trackingResidualCount : Row := ⟨0x3006, 8, 0x100, 1, 0, .pickup, 0x01, 1, .u8, .rw, [3], .span 1 16⟩
/-- `FocusResidualLimit`, R100. -/
def focusResidualLimit : Row := ⟨0x3006, 8, 0x100, 1, 0, .pickup, 0x02, 1, .u16, .rw, [1500], .span 100 5000⟩
/-- `FocusResidualCount`, R100. -/
def focusResidualCount : Row := ⟨0x3006, 8, 0x100, 1, 0, .pickup, 0x03, 1, .u8, .rw, [3], .span 1 16⟩
/-- `SumDropLevel`, R100. -/
def sumDropLevel : Row := ⟨0x3006, 8, 0x100, 1, 0, .pickup, 0x04, 1, .q15, .rw, [13107], .span 3277 29491⟩
/-- `SumDropCount`, R100. -/
def sumDropCount : Row := ⟨0x3006, 8, 0x100, 1, 0, .pickup, 0x05, 1, .u8, .rw, [2], .span 1 8⟩
/-- `FocusLostLevel`, R100. -/
def focusLostLevel : Row := ⟨0x3006, 8, 0x100, 1, 0, .pickup, 0x06, 1, .q15, .rw, [22938], .span 8192 29491⟩
/-- `FocusLostCount`, R100. -/
def focusLostCount : Row := ⟨0x3006, 8, 0x100, 1, 0, .pickup, 0x07, 1, .u8, .rw, [8], .span 1 16⟩
/-- `SumMeanShift`, R100. -/
def sumMeanShift : Row := ⟨0x3006, 8, 0x100, 1, 0, .pickup, 0x08, 1, .u8, .rw, [10], .span 6 14⟩
/-- `TrackingPlant`, R100. -/
def trackingPlant : Row := ⟨0x3007, 8, 0x100, 1, 0, .pickup, 0x00, 5, .q30, .rws, [0], .full⟩
/-- `FocusPlant`, R100. -/
def focusPlant : Row := ⟨0x3007, 8, 0x100, 1, 0, .pickup, 0x05, 5, .q30, .rws, [0], .full⟩
/-- `SetpointSource`, R100. -/
def setpointSource : Row := ⟨0x3008, 8, 0x100, 1, 0, .pickup, 0x00, 5, .u8, .rws, [0], .span 0 2⟩
/-- `ExtInjectionMode`, R100. -/
def extInjectionMode : Row := ⟨0x3008, 8, 0x100, 1, 0, .pickup, 0x05, 1, .u8, .rws, [0], .span 0 31⟩
/-- `ExtScale`, R100. -/
def extScale : Row := ⟨0x3009, 8, 0x100, 1, 0, .pickup, 0x00, 5, .q30, .rws, [0], .full⟩
/-- `ExtLimit`, R100. -/
def extLimit : Row := ⟨0x3009, 8, 0x100, 1, 0, .pickup, 0x05, 1, .q15, .rws, [3277], .span 0 32767⟩

-- Acquisition, R133
/-- `MountRequest`, R133. -/
def mountRequest : Row := ⟨0x3880, 1, 0, 1, 0, .all, 0x00, 1, .u8, .wo, [0], .span 1 15⟩
/-- `MountSpindleSpeed`, R133. -/
def mountSpindleSpeed : Row := ⟨0x3880, 1, 0, 1, 0, .all, 0x01, 1, .u16, .rw, [4000], .span 1000 6000⟩
/-- `AcqPhase`, R133. -/
def acqPhase : Row := ⟨0x3800, 8, 0x10, 1, 0, .pickup, 0x00, 1, .u8, .ro, [0], .full⟩
/-- `MountResult`, R133. -/
def mountResult : Row := ⟨0x3800, 8, 0x10, 1, 0, .pickup, 0x01, 1, .u8, .ro, [0], .full⟩
/-- `CurrentLane`, R133. -/
def currentLane : Row := ⟨0x3800, 8, 0x10, 1, 0, .pickup, 0x02, 1, .u16, .ro, [65535], .full⟩
/-- `CurrentLayer`, R133. -/
def currentLayer : Row := ⟨0x3800, 8, 0x10, 1, 0, .pickup, 0x03, 1, .u8, .ro, [255], .full⟩
/-- `LawDiscardRun`, R133. -/
def lawDiscardRun : Row := ⟨0x3800, 8, 0x10, 1, 0, .pickup, 0x04, 1, .u8, .ro, [0], .full⟩
/-- `LawGoodCount`, R133. -/
def lawGoodCount : Row := ⟨0x3800, 8, 0x10, 1, 0, .pickup, 0x05, 1, .u32, .ro, [0], .full⟩
/-- `LawDiscardCount`, R133. -/
def lawDiscardCount : Row := ⟨0x3800, 8, 0x10, 1, 0, .pickup, 0x06, 1, .u32, .ro, [0], .full⟩
/-- `HoldTimeoutCount`, R133. -/
def holdTimeoutCount : Row := ⟨0x3800, 8, 0x10, 1, 0, .pickup, 0x07, 1, .u32, .ro, [0], .full⟩
/-- `RecoveryCount`, R133. -/
def recoveryCount : Row := ⟨0x3800, 8, 0x10, 1, 0, .pickup, 0x08, 1, .u32, .ro, [0], .full⟩
/-- `SeekRequest`, R133. -/
def seekRequest : Row := ⟨0x3801, 8, 0x10, 1, 0, .pickup, 0x00, 1, .u32, .wo, [0], .full⟩
/-- `ParkRequest`, R133. -/
def parkRequest : Row := ⟨0x3801, 8, 0x10, 1, 0, .pickup, 0x01, 1, .u8, .wo, [0], .values [1]⟩
/-- `HoldRelease`, R133. -/
def holdRelease : Row := ⟨0x3801, 8, 0x10, 1, 0, .pickup, 0x02, 1, .u8, .wo, [0], .values [1]⟩
/-- `FocusSearchStart`, R133. -/
def focusSearchStart : Row := ⟨0x3802, 8, 0x10, 1, 0, .pickup, 0x00, 1, .q15, .rw, [24576], .full⟩
/-- `FocusSearchEnd`, R133. -/
def focusSearchEnd : Row := ⟨0x3802, 8, 0x10, 1, 0, .pickup, 0x01, 1, .q15, .rw, [-24576], .full⟩
/-- `FocusSearchTime`, R133. -/
def focusSearchTime : Row := ⟨0x3802, 8, 0x10, 1, 0, .pickup, 0x02, 1, .u16, .rw, [200], .span 50 1000⟩
/-- `FocusSearchSweeps`, R133. -/
def focusSearchSweeps : Row := ⟨0x3802, 8, 0x10, 1, 0, .pickup, 0x03, 1, .u8, .rw, [3], .span 1 8⟩
/-- `LayerSumMin`, R133. -/
def layerSumMin : Row := ⟨0x3802, 8, 0x10, 1, 0, .pickup, 0x04, 1, .q15, .rw, [2048], .span 256 16384⟩
/-- `FocusSettleLevel`, R133. -/
def focusSettleLevel : Row := ⟨0x3802, 8, 0x10, 1, 0, .pickup, 0x05, 1, .u16, .rw, [500], .span 100 2000⟩
/-- `CaptureVelocity`, R133. -/
def captureVelocity : Row := ⟨0x3803, 8, 0x10, 1, 0, .pickup, 0x00, 1, .u16, .rw, [50], .span 5 500⟩
/-- `CaptureTimeout`, R133. -/
def captureTimeout : Row := ⟨0x3803, 8, 0x10, 1, 0, .pickup, 0x01, 1, .u16, .rw, [30], .span 5 200⟩
/-- `CaptureSettleLevel`, R133. -/
def captureSettleLevel : Row := ⟨0x3803, 8, 0x10, 1, 0, .pickup, 0x02, 1, .u16, .rw, [200], .span 50 1000⟩
/-- `CrossWobbleLevel`, R133. -/
def crossWobbleLevel : Row := ⟨0x3803, 8, 0x10, 1, 0, .pickup, 0x03, 1, .q15, .rw, [1024], .span 128 16384⟩
/-- `ShortSeekLanes`, R133. -/
def shortSeekLanes : Row := ⟨0x3803, 8, 0x10, 1, 0, .pickup, 0x04, 1, .u16, .rw, [256], .span 16 512⟩
/-- `ShortSeekAccel`, R133. -/
def shortSeekAccel : Row := ⟨0x3803, 8, 0x10, 1, 0, .pickup, 0x05, 1, .u16, .rw, [100], .span 20 400⟩
/-- `ShortSeekVmax`, R133. -/
def shortSeekVmax : Row := ⟨0x3803, 8, 0x10, 1, 0, .pickup, 0x06, 1, .u16, .rw, [200], .span 50 200⟩
/-- `ShortSeekTimeout`, R133. -/
def shortSeekTimeout : Row := ⟨0x3803, 8, 0x10, 1, 0, .pickup, 0x07, 1, .u16, .rw, [8], .span 2 50⟩
/-- `LongSeekTimeout`, R133. -/
def longSeekTimeout : Row := ⟨0x3803, 8, 0x10, 1, 0, .pickup, 0x08, 1, .u16, .rw, [600], .span 100 2000⟩
/-- `LongSeekPasses`, R133. -/
def longSeekPasses : Row := ⟨0x3803, 8, 0x10, 1, 0, .pickup, 0x09, 1, .u8, .rw, [3], .span 1 8⟩
/-- `LawMissLimit`, R133. -/
def lawMissLimit : Row := ⟨0x3803, 8, 0x10, 1, 0, .pickup, 0x0A, 1, .u8, .rw, [16], .span 4 64⟩
/-- `JumpKick`, R133. -/
def jumpKick : Row := ⟨0x3804, 8, 0x10, 1, 0, .pickup, 0x00, 1, .q15, .rw, [3277], .span 256 16384⟩
/-- `JumpKickTime`, R133. -/
def jumpKickTime : Row := ⟨0x3804, 8, 0x10, 1, 0, .pickup, 0x01, 1, .u16, .rw, [60], .span 10 500⟩
/-- `JumpBrakeTime`, R133. -/
def jumpBrakeTime : Row := ⟨0x3804, 8, 0x10, 1, 0, .pickup, 0x02, 1, .u16, .rw, [60], .span 10 500⟩
/-- `JumpWindow`, R133. -/
def jumpWindow : Row := ⟨0x3804, 8, 0x10, 1, 0, .pickup, 0x03, 1, .u16, .rw, [1000], .span 200 5000⟩
/-- `JumpAttempts`, R133. -/
def jumpAttempts : Row := ⟨0x3804, 8, 0x10, 1, 0, .pickup, 0x04, 1, .u8, .rw, [3], .span 1 8⟩
/-- `HoldExitTrackLevel`, R133. -/
def holdExitTrackLevel : Row := ⟨0x3805, 8, 0x10, 1, 0, .pickup, 0x00, 1, .u16, .rw, [600], .span 100 2000⟩
/-- `HoldExitFocusLevel`, R133. -/
def holdExitFocusLevel : Row := ⟨0x3805, 8, 0x10, 1, 0, .pickup, 0x01, 1, .u16, .rw, [2000], .span 200 5000⟩
/-- `HoldExitSumLevel`, R133. -/
def holdExitSumLevel : Row := ⟨0x3805, 8, 0x10, 1, 0, .pickup, 0x02, 1, .q15, .rw, [22938], .span 8192 29491⟩
/-- `HoldExitCount`, R133. -/
def holdExitCount : Row := ⟨0x3805, 8, 0x10, 1, 0, .pickup, 0x03, 1, .u8, .rw, [16], .span 4 255⟩
/-- `HoldTimeout`, R133. -/
def holdTimeout : Row := ⟨0x3805, 8, 0x10, 1, 0, .pickup, 0x04, 1, .u16, .rw, [2000], .span 200 20000⟩
/-- `RecoveryAttempts`, R133. -/
def recoveryAttempts : Row := ⟨0x3805, 8, 0x10, 1, 0, .pickup, 0x05, 1, .u8, .rw, [3], .span 1 8⟩
/-- `FocusRecoverSpan`, R133. -/
def focusRecoverSpan : Row := ⟨0x3805, 8, 0x10, 1, 0, .pickup, 0x06, 1, .q15, .rw, [2048], .span 256 16384⟩
/-- `RefaultWindow`, R133. -/
def refaultWindow : Row := ⟨0x3805, 8, 0x10, 1, 0, .pickup, 0x07, 1, .u16, .rw, [100], .span 10 10000⟩
/-- `MapLearnMinRevs`, R133. -/
def mapLearnMinRevs : Row := ⟨0x3806, 8, 0x10, 1, 0, .pickup, 0x00, 1, .u8, .rw, [4], .span 2 32⟩
/-- `MapLearnMaxRevs`, R133. -/
def mapLearnMaxRevs : Row := ⟨0x3806, 8, 0x10, 1, 0, .pickup, 0x01, 1, .u8, .rw, [32], .span 4 64⟩
/-- `MapLearnGain`, R133. -/
def mapLearnGain : Row := ⟨0x3806, 8, 0x10, 1, 0, .pickup, 0x02, 1, .q15, .rw, [16384], .span 2048 32767⟩
/-- `MapConvergeLevel`, R133. -/
def mapConvergeLevel : Row := ⟨0x3806, 8, 0x10, 1, 0, .pickup, 0x03, 1, .q15, .rw, [16], .span 1 1024⟩
/-- `MapTrackShift`, R133. -/
def mapTrackShift : Row := ⟨0x3806, 8, 0x10, 1, 0, .pickup, 0x04, 1, .u8, .rw, [8], .values [0, 4, 5, 6, 7, 8, 9, 10, 11, 12]⟩
/-- `SledMicrostepPitch`, R133. -/
def sledMicrostepPitch : Row := ⟨0x3807, 8, 0x10, 1, 0, .pickup, 0x00, 1, .u16, .rw, [5859], .span 1000 20000⟩
/-- `LensShiftPerUnit`, R133. -/
def lensShiftPerUnit : Row := ⟨0x3807, 8, 0x10, 1, 0, .pickup, 0x01, 1, .u32, .rw, [400000], .span 50000 2000000⟩
/-- `SledSlipLimit`, R133. -/
def sledSlipLimit : Row := ⟨0x3807, 8, 0x10, 1, 0, .pickup, 0x02, 1, .u16, .rw, [4], .span 1 256⟩
/-- `SledSearchStep`, R133. -/
def sledSearchStep : Row := ⟨0x3807, 8, 0x10, 1, 0, .pickup, 0x03, 1, .u16, .rw, [500], .span 100 2000⟩
/-- `SledSearchMoves`, R133. -/
def sledSearchMoves : Row := ⟨0x3807, 8, 0x10, 1, 0, .pickup, 0x04, 1, .u8, .rw, [8], .span 1 32⟩
/-- `RunoutMapState`, R133. -/
def runoutMapState : Row := ⟨0x3808, 8, 0x10, 1, 0, .pickup, 0x00, 4, .u8, .ro, [0], .full⟩
/-- `RunoutMap`, R133. -/
def runoutMap : Row := ⟨0x3809, 8, 0x10, 1, 0, .pickup, 0x00, 4, .dom 24576, .ro, [0], .full⟩

-- Channel, R172
/-- `ChannelState`, R172. -/
def channelState : Row := ⟨0x4000, 32, 0x80, 1, 0, .beam, 0x00, 1, .u8, .ro, [0], .full⟩
/-- `FrameLock`, R172. -/
def frameLock : Row := ⟨0x4000, 32, 0x80, 1, 0, .beam, 0x01, 1, .u8, .ro, [0], .full⟩
/-- `ChannelRate`, R172. -/
def channelRate : Row := ⟨0x4000, 32, 0x80, 1, 0, .beam, 0x02, 1, .u32, .ro, [0], .full⟩
/-- `VgaGain`, R172. -/
def vgaGain : Row := ⟨0x4000, 32, 0x80, 1, 0, .beam, 0x03, 1, .i16, .ro, [1200], .full⟩
/-- `TimingFreqOffset`, R172. -/
def timingFreqOffset : Row := ⟨0x4000, 32, 0x80, 1, 0, .beam, 0x04, 1, .i16, .ro, [0], .full⟩
/-- `AdcOffset`, R172. -/
def adcOffset : Row := ⟨0x4000, 32, 0x80, 1, 0, .beam, 0x05, 1, .i16, .ro, [0], .full⟩
/-- `EnvelopeMean`, R172. -/
def envelopeMean : Row := ⟨0x4000, 32, 0x80, 1, 0, .beam, 0x06, 1, .q15, .ro, [0], .full⟩
/-- `WobbleAmplitude`, R172. -/
def wobbleAmplitude : Row := ⟨0x4000, 32, 0x80, 1, 0, .beam, 0x07, 1, .q15, .ro, [0], .full⟩
/-- `PhaseResidualRms`, R172. -/
def phaseResidualRms : Row := ⟨0x4000, 32, 0x80, 1, 0, .beam, 0x08, 1, .u16, .ro, [0], .full⟩
/-- `FrameStatusLast`, R172. -/
def frameStatusLast : Row := ⟨0x4000, 32, 0x80, 1, 0, .beam, 0x09, 1, .u8, .ro, [0], .full⟩
/-- `FramesStored`, R172. -/
def framesStored : Row := ⟨0x4001, 32, 0x80, 1, 0, .beam, 0x00, 1, .u32, .ro, [0], .full⟩
/-- `HeaderFirstCount`, R172. -/
def headerFirstCount : Row := ⟨0x4001, 32, 0x80, 1, 0, .beam, 0x01, 1, .u32, .ro, [0], .full⟩
/-- `SecondCandidateCount`, R172. -/
def secondCandidateCount : Row := ⟨0x4001, 32, 0x80, 1, 0, .beam, 0x02, 1, .u32, .ro, [0], .full⟩
/-- `FlywheelCount`, R172. -/
def flywheelCount : Row := ⟨0x4001, 32, 0x80, 1, 0, .beam, 0x03, 1, .u32, .ro, [0], .full⟩
/-- `HeaderInvalidCount`, R172. -/
def headerInvalidCount : Row := ⟨0x4001, 32, 0x80, 1, 0, .beam, 0x04, 1, .u32, .ro, [0], .full⟩
/-- `HeaderMismatchCount`, R172. -/
def headerMismatchCount : Row := ⟨0x4001, 32, 0x80, 1, 0, .beam, 0x05, 1, .u32, .ro, [0], .full⟩
/-- `ErasedCodedBits`, R172. -/
def erasedCodedBits : Row := ⟨0x4001, 32, 0x80, 1, 0, .beam, 0x06, 1, .u64, .ro, [0], .full⟩
/-- `EnvDropRuns`, R172. -/
def envDropRuns : Row := ⟨0x4001, 32, 0x80, 1, 0, .beam, 0x07, 1, .u32, .ro, [0], .full⟩
/-- `GuideDropRuns`, R172. -/
def guideDropRuns : Row := ⟨0x4001, 32, 0x80, 1, 0, .beam, 0x08, 1, .u32, .ro, [0], .full⟩
/-- `FrameStoreOverflows`, R172. -/
def frameStoreOverflows : Row := ⟨0x4001, 32, 0x80, 1, 0, .beam, 0x09, 1, .u32, .ro, [0], .full⟩
/-- `TimingUnlockCount`, R172. -/
def timingUnlockCount : Row := ⟨0x4001, 32, 0x80, 1, 0, .beam, 0x0A, 1, .u32, .ro, [0], .full⟩
/-- `LockLossCount`, R172. -/
def lockLossCount : Row := ⟨0x4001, 32, 0x80, 1, 0, .beam, 0x0B, 1, .u32, .ro, [0], .full⟩

-- Channel, R173
/-- `AcCorner`, R173. -/
def acCorner : Row := ⟨0x4002, 32, 0x80, 1, 0, .beam, 0x00, 1, .u8, .rw, [1], .span 0 2⟩
/-- `CtfCornerRatio`, R173. -/
def ctfCornerRatio : Row := ⟨0x4002, 32, 0x80, 1, 0, .beam, 0x01, 1, .q15, .rw, [9830], .span 6553 16384⟩
/-- `CtfBoost`, R173. -/
def ctfBoost : Row := ⟨0x4002, 32, 0x80, 1, 0, .beam, 0x02, 1, .u8, .rw, [8], .span 0 24⟩
/-- `AgcTarget`, R173. -/
def agcTarget : Row := ⟨0x4002, 32, 0x80, 1, 0, .beam, 0x03, 1, .u8, .rw, [48], .span 16 96⟩
/-- `AgcMuShift`, R173. -/
def agcMuShift : Row := ⟨0x4002, 32, 0x80, 1, 0, .beam, 0x04, 1, .u8, .rw, [10], .span 6 16⟩
/-- `AgcHold`, R173. -/
def agcHold : Row := ⟨0x4002, 32, 0x80, 1, 0, .beam, 0x05, 1, .u8, .rw, [0], .values [0, 1]⟩
/-- `VgaGainInit`, R173. -/
def vgaGainInit : Row := ⟨0x4002, 32, 0x80, 1, 0, .beam, 0x06, 1, .i16, .rws, [1200], .span (-600) 3000⟩
/-- `OffsetMuShift`, R173. -/
def offsetMuShift : Row := ⟨0x4002, 32, 0x80, 1, 0, .beam, 0x07, 1, .u8, .rw, [14], .span 10 20⟩
/-- `BlankLevel`, R173. -/
def blankLevel : Row := ⟨0x4002, 32, 0x80, 1, 0, .beam, 0x08, 1, .q15, .rw, [2048], .span 256 8192⟩
/-- `FirTap`, R173. -/
def firTap : Row := ⟨0x4003, 32, 0x80, 1, 0, .beam, 0x00, 17, .q15, .ro, [0], .full⟩
/-- `FirTapInit`, R173. -/
def firTapInit : Row := ⟨0x4004, 32, 0x80, 1, 0, .beam, 0x00, 17, .q15, .rws, [0, 0, 0, 0, 0, 0, 0, 0, 24576, 0, 0, 0, 0, 0, 0, 0, 0], .full⟩
/-- `FirMuShift`, R173. -/
def firMuShift : Row := ⟨0x4005, 32, 0x80, 1, 0, .beam, 0x00, 1, .u8, .rw, [16], .span 10 22⟩
/-- `FirAdaptEnable`, R173. -/
def firAdaptEnable : Row := ⟨0x4005, 32, 0x80, 1, 0, .beam, 0x01, 1, .u8, .rw, [1], .values [0, 1]⟩
/-- `TargetScale`, R173. -/
def targetScale : Row := ⟨0x4005, 32, 0x80, 1, 0, .beam, 0x02, 1, .u8, .rw, [12], .span 4 15⟩
/-- `LlrScale`, R173. -/
def llrScale : Row := ⟨0x4005, 32, 0x80, 1, 0, .beam, 0x03, 1, .q15, .rw, [8192], .span 1024 32767⟩
/-- `TimingKpShift`, R173. -/
def timingKpShift : Row := ⟨0x4006, 32, 0x80, 1, 0, .beam, 0x00, 1, .u8, .rw, [6], .span 2 12⟩
/-- `TimingKiShift`, R173. -/
def timingKiShift : Row := ⟨0x4006, 32, 0x80, 1, 0, .beam, 0x01, 1, .u8, .rw, [14], .span 8 20⟩
/-- `TimingAcqKpShift`, R173. -/
def timingAcqKpShift : Row := ⟨0x4006, 32, 0x80, 1, 0, .beam, 0x02, 1, .u8, .rw, [4], .span 2 12⟩
/-- `TimingAcqKiShift`, R173. -/
def timingAcqKiShift : Row := ⟨0x4006, 32, 0x80, 1, 0, .beam, 0x03, 1, .u8, .rw, [10], .span 6 16⟩
/-- `TimingAcqBits`, R173. -/
def timingAcqBits : Row := ⟨0x4006, 32, 0x80, 1, 0, .beam, 0x04, 1, .u16, .rw, [1024], .span 256 8192⟩
/-- `TimingPullRange`, R173. -/
def timingPullRange : Row := ⟨0x4006, 32, 0x80, 1, 0, .beam, 0x05, 1, .u16, .rw, [2000], .span 500 5000⟩
/-- `TimingRelockBits`, R173. -/
def timingRelockBits : Row := ⟨0x4006, 32, 0x80, 1, 0, .beam, 0x06, 1, .u16, .rw, [2048], .span 256 16384⟩
/-- `WobbleRejectEnable`, R173. -/
def wobbleRejectEnable : Row := ⟨0x4007, 32, 0x80, 1, 0, .beam, 0x00, 1, .u8, .rw, [1, 0, 0, 1], .values [0, 1]⟩
/-- `WobbleMuShift`, R173. -/
def wobbleMuShift : Row := ⟨0x4007, 32, 0x80, 1, 0, .beam, 0x01, 1, .u8, .rw, [12], .span 8 16⟩

-- Channel, R174
/-- `ItiCoupling`, R174. -/
def itiCoupling : Row := ⟨0x4008, 32, 0x80, 1, 0, .beam, 0x00, 4, .q15, .ro, [0], .full⟩
/-- `ItiCouplingInit`, R174. -/
def itiCouplingInit : Row := ⟨0x4009, 32, 0x80, 1, 0, .beam, 0x00, 4, .q15, .rws, [0], .full⟩
/-- `ItiMuShift`, R174. -/
def itiMuShift : Row := ⟨0x400A, 32, 0x80, 1, 0, .beam, 0x00, 1, .u8, .rw, [16], .span 10 20⟩
/-- `ItiAdaptEnable`, R174. -/
def itiAdaptEnable : Row := ⟨0x400A, 32, 0x80, 1, 0, .beam, 0x01, 1, .u8, .rw, [1], .values [0, 1]⟩
/-- `ItiLimit`, R174. -/
def itiLimit : Row := ⟨0x400A, 32, 0x80, 1, 0, .beam, 0x02, 1, .q15, .rw, [16384], .span 2048 32767⟩
/-- `ItiFracDelay`, R174. -/
def itiFracDelay : Row := ⟨0x400A, 32, 0x80, 1, 0, .beam, 0x03, 4, .i16, .ro, [0], .full⟩
/-- `EnvDropLevel`, R174. -/
def envDropLevel : Row := ⟨0x400B, 32, 0x80, 1, 0, .beam, 0x00, 1, .q15, .rw, [16384], .span 4096 26214⟩
/-- `EnvDropCount`, R174. -/
def envDropCount : Row := ⟨0x400B, 32, 0x80, 1, 0, .beam, 0x01, 1, .u8, .rw, [8], .span 2 64⟩
/-- `ErasureGuard`, R174. -/
def erasureGuard : Row := ⟨0x400B, 32, 0x80, 1, 0, .beam, 0x02, 1, .u8, .rw, [16], .span 0 128⟩
/-- `GuideDropLevel`, R174. -/
def guideDropLevel : Row := ⟨0x400B, 32, 0x80, 1, 0, .beam, 0x03, 1, .q15, .rw, [19661], .span 4096 26214⟩
/-- `GuideDropCount`, R174. -/
def guideDropCount : Row := ⟨0x400B, 32, 0x80, 1, 0, .beam, 0x04, 1, .u8, .rw, [3], .span 1 16⟩
/-- `GuideFlagEnable`, R174. -/
def guideFlagEnable : Row := ⟨0x400B, 32, 0x80, 1, 0, .beam, 0x05, 1, .u8, .rw, [1], .values [0, 1]⟩
/-- `GuideToBeamDelay`, R174. -/
def guideToBeamDelay : Row := ⟨0x400B, 32, 0x80, 1, 0, .beam, 0x06, 1, .u16, .rw, [0], .span 0 2047⟩
/-- `WaymarkWindow`, R174. -/
def waymarkWindow : Row := ⟨0x400C, 32, 0x80, 1, 0, .beam, 0x00, 1, .u8, .rw, [8], .span 1 32⟩
/-- `WaymarkMinScore`, R174. -/
def waymarkMinScore : Row := ⟨0x400C, 32, 0x80, 1, 0, .beam, 0x01, 1, .u8, .rw, [42], .span 36 48⟩
/-- `WaymarkMissLimit`, R174. -/
def waymarkMissLimit : Row := ⟨0x400C, 32, 0x80, 1, 0, .beam, 0x02, 1, .u8, .rw, [4], .span 1 16⟩

-- Decoding, R201
/-- `LdpcMaxIterations`, R201. -/
def ldpcMaxIterations : Row := ⟨0x5000, 1, 0, 1, 0, .all, 0x00, 1, .u8, .rw, [16], .span 4 40⟩
/-- `LdpcOffset`, R201. -/
def ldpcOffset : Row := ⟨0x5000, 1, 0, 1, 0, .all, 0x01, 1, .u8, .rw, [1], .span 0 3⟩
/-- `AbandonBits`, R201. -/
def abandonBits : Row := ⟨0x5000, 1, 0, 1, 0, .all, 0x02, 1, .u16, .rw, [1536], .span 256 2048⟩
/-- `ByteEraseFloor`, R201. -/
def byteEraseFloor : Row := ⟨0x5000, 1, 0, 1, 0, .all, 0x03, 1, .u8, .rw, [2], .span 1 15⟩
/-- `FillLlr`, R201. -/
def fillLlr : Row := ⟨0x5000, 1, 0, 1, 0, .all, 0x04, 1, .u8, .rw, [24], .span 8 31⟩
/-- `JointRounds`, R201. -/
def jointRounds : Row := ⟨0x5000, 1, 0, 1, 0, .all, 0x05, 1, .u8, .rw, [3], .span 1 4⟩
/-- `OuterMaxErrors`, R201. -/
def outerMaxErrors : Row := ⟨0x5000, 1, 0, 1, 0, .all, 0x06, 1, .u8, .rw, [1], .span 0 3⟩
/-- `ChainFrames`, R201. -/
def chainFrames : Row := ⟨0x5000, 1, 0, 1, 0, .all, 0x07, 1, .u8, .rw, [4], .span 0 16⟩
/-- `LdpcBaseMatrix`, R201. -/
def ldpcBaseMatrix : Row := ⟨0x5001, 1, 0, 1, 0, .all, 0x00, 1, .dom 288, .ro, [0], .full⟩
/-- `PoolBusy`, R201. -/
def poolBusy : Row := ⟨0x5002, 1, 0, 1, 0, .all, 0x00, 1, .u8, .ro, [0], .full⟩
/-- `PoolQueueDepth`, R201. -/
def poolQueueDepth : Row := ⟨0x5002, 1, 0, 1, 0, .all, 0x01, 1, .u16, .ro, [0], .full⟩
/-- `PoolQueueDepthMax`, R201. -/
def poolQueueDepthMax : Row := ⟨0x5002, 1, 0, 1, 0, .all, 0x02, 1, .u16, .rw, [0], .span 0 192⟩
/-- `WorkspaceClusters`, R201. -/
def workspaceClusters : Row := ⟨0x5002, 1, 0, 1, 0, .all, 0x03, 1, .u8, .ro, [0], .full⟩

-- Decoding, R202
/-- `CodewordsDecoded`, R202. -/
def codewordsDecoded : Row := ⟨0x5003, 1, 0, 1, 0, .all, 0x00, 1, .u64, .ro, [0], .full⟩
/-- `CodewordsFirstPassFailed`, R202. -/
def codewordsFirstPassFailed : Row := ⟨0x5003, 1, 0, 1, 0, .all, 0x01, 1, .u64, .ro, [0], .full⟩
/-- `CodewordsAbandoned`, R202. -/
def codewordsAbandoned : Row := ⟨0x5003, 1, 0, 1, 0, .all, 0x02, 1, .u64, .ro, [0], .full⟩
/-- `IterationsTotal`, R202. -/
def iterationsTotal : Row := ⟨0x5003, 1, 0, 1, 0, .all, 0x03, 1, .u64, .ro, [0], .full⟩
/-- `ClusterDecodes`, R202. -/
def clusterDecodes : Row := ⟨0x5003, 1, 0, 1, 0, .all, 0x04, 1, .u64, .ro, [0], .full⟩
/-- `ClustersRecoveredByDecode`, R202. -/
def clustersRecoveredByDecode : Row := ⟨0x5003, 1, 0, 1, 0, .all, 0x05, 1, .u64, .ro, [0], .full⟩
/-- `Ladders`, R202. -/
def ladders : Row := ⟨0x5003, 1, 0, 1, 0, .all, 0x06, 1, .u64, .ro, [0], .full⟩
/-- `ClustersUnrecovered`, R202. -/
def clustersUnrecovered : Row := ⟨0x5003, 1, 0, 1, 0, .all, 0x07, 1, .u64, .ro, [0], .full⟩
/-- `SectorsReadmitted`, R202. -/
def sectorsReadmitted : Row := ⟨0x5003, 1, 0, 1, 0, .all, 0x08, 1, .u64, .ro, [0], .full⟩
/-- `OuterConflicts`, R202. -/
def outerConflicts : Row := ⟨0x5003, 1, 0, 1, 0, .all, 0x09, 1, .u64, .ro, [0], .full⟩
/-- `OverflowRereads`, R202. -/
def overflowRereads : Row := ⟨0x5003, 1, 0, 1, 0, .all, 0x0A, 1, .u64, .ro, [0], .full⟩

-- Decoding, R203
/-- `DetourOrder`, R203. -/
def detourOrder : Row := ⟨0x5020, 1, 0, 1, 0, .all, 0x00, 6, .u8, .rws, [1, 2, 3, 4, 5, 6], .span 0 6⟩
/-- `DetourBudget`, R203. -/
def detourBudget : Row := ⟨0x5021, 1, 0, 1, 0, .all, 0x00, 1, .u16, .rws, [600], .span 50 5000⟩
/-- `DetourIterations`, R203. -/
def detourIterations : Row := ⟨0x5021, 1, 0, 1, 0, .all, 0x01, 1, .u8, .rws, [40], .span 4 40⟩
/-- `DetourTrackStep`, R203. -/
def detourTrackStep : Row := ⟨0x5021, 1, 0, 1, 0, .all, 0x02, 1, .u16, .rws, [80], .span 10 400⟩
/-- `DetourFocusStep`, R203. -/
def detourFocusStep : Row := ⟨0x5021, 1, 0, 1, 0, .all, 0x03, 1, .u16, .rws, [300], .span 50 1500⟩
/-- `DetourEqMuStep`, R203. -/
def detourEqMuStep : Row := ⟨0x5021, 1, 0, 1, 0, .all, 0x04, 1, .u8, .rws, [2], .span 0 6⟩
/-- `DetourSpeedRatio`, R203. -/
def detourSpeedRatio : Row := ⟨0x5021, 1, 0, 1, 0, .all, 0x05, 1, .q15, .rws, [22938], .span 16384 29491⟩
/-- `ReassignSetpoint`, R203. -/
def reassignSetpoint : Row := ⟨0x5021, 1, 0, 1, 0, .all, 0x06, 1, .u16, .rws, [1211], .span 500 2000⟩
/-- `ReassignGainScale`, R203. -/
def reassignGainScale : Row := ⟨0x5021, 1, 0, 1, 0, .all, 0x07, 1, .u16, .rws, [3314], .span 1024 8192⟩
/-- `DetourRungsRun`, R203. -/
def detourRungsRun : Row := ⟨0x5030, 1, 0, 1, 0, .all, 0x00, 6, .u32, .ro, [0], .full⟩
/-- `DetourRungsDecisive`, R203. -/
def detourRungsDecisive : Row := ⟨0x5031, 1, 0, 1, 0, .all, 0x00, 6, .u32, .ro, [0], .full⟩
/-- `DetourRungsSkipped`, R203. -/
def detourRungsSkipped : Row := ⟨0x5032, 1, 0, 1, 0, .all, 0x00, 6, .u32, .ro, [0], .full⟩

-- Write, R245
/-- `WriteRunClusters`, R245. -/
def writeRunClusters : Row := ⟨0x5480, 1, 0, 1, 0, .all, 0x00, 1, .u8, .rw, [64], .span 1 64⟩
/-- `RunFormTimeout`, R245. -/
def runFormTimeout : Row := ⟨0x5480, 1, 0, 1, 0, .all, 0x01, 1, .u16, .rw, [50], .span 1 1000⟩
/-- `VerifyMaxIterations`, R245. -/
def verifyMaxIterations : Row := ⟨0x5480, 1, 0, 1, 0, .all, 0x02, 1, .u8, .rw, [6], .span 2 16⟩
/-- `VerifyMaxErased`, R245. -/
def verifyMaxErased : Row := ⟨0x5480, 1, 0, 1, 0, .all, 0x03, 1, .u16, .rw, [96], .span 0 1024⟩
/-- `ReplaceAttempts`, R245. -/
def replaceAttempts : Row := ⟨0x5480, 1, 0, 1, 0, .all, 0x04, 1, .u8, .rw, [3], .span 1 8⟩
/-- `CheckpointClusters`, R245. -/
def checkpointClusters : Row := ⟨0x5480, 1, 0, 1, 0, .all, 0x05, 1, .u16, .rw, [2048], .span 1024 4096⟩
/-- `OpcMargin`, R245. -/
def opcMargin : Row := ⟨0x5480, 1, 0, 1, 0, .all, 0x06, 1, .u16, .rws, [1075], .span 1024 1331⟩
/-- `PowerLoopShift`, R245. -/
def powerLoopShift : Row := ⟨0x5480, 1, 0, 1, 0, .all, 0x07, 1, .u8, .rw, [4], .span 1 8⟩
/-- `PowerMonitorFrames`, R245. -/
def powerMonitorFrames : Row := ⟨0x5480, 1, 0, 1, 0, .all, 0x08, 1, .u8, .rw, [64], .span 8 255⟩

-- Write, R246
/-- `WriteState`, R246. -/
def writeState : Row := ⟨0x5400, 8, 0x10, 1, 0, .pickup, 0x00, 1, .u8, .ro, [0], .full⟩
/-- `ClusterWriteCount`, R246. -/
def clusterWriteCount : Row := ⟨0x5400, 8, 0x10, 1, 0, .pickup, 0x01, 1, .u32, .ro, [0], .full⟩
/-- `RunStart`, R246. -/
def runStart : Row := ⟨0x5400, 8, 0x10, 1, 0, .pickup, 0x02, 1, .u32, .ro, [0], .full⟩
/-- `RunClusters`, R246. -/
def runClusters : Row := ⟨0x5400, 8, 0x10, 1, 0, .pickup, 0x03, 1, .u8, .ro, [0], .full⟩
/-- `DiscId`, R246. -/
def discId : Row := ⟨0x5400, 8, 0x10, 1, 0, .pickup, 0x04, 1, .dom 16, .ro, [0], .full⟩
/-- `JournalPairsFree`, R246. -/
def journalPairsFree : Row := ⟨0x5400, 8, 0x10, 1, 0, .pickup, 0x05, 1, .u16, .ro, [0], .full⟩
/-- `SparesFree`, R246. -/
def sparesFree : Row := ⟨0x5401, 8, 0x10, 1, 0, .pickup, 0x00, 4, .u16, .ro, [8488], .full⟩
/-- `PcaSegmentsLeft`, R246. -/
def pcaSegmentsLeft : Row := ⟨0x5401, 8, 0x10, 1, 0, .pickup, 0x04, 8, .u16, .ro, [256], .full⟩
/-- `ClustersCommitted`, R246. -/
def clustersCommitted : Row := ⟨0x5402, 8, 0x10, 1, 0, .pickup, 0x00, 1, .u64, .ro, [0], .full⟩
/-- `VerifyFailures`, R246. -/
def verifyFailures : Row := ⟨0x5402, 8, 0x10, 1, 0, .pickup, 0x01, 1, .u64, .ro, [0], .full⟩
/-- `Replacements`, R246. -/
def replacements : Row := ⟨0x5402, 8, 0x10, 1, 0, .pickup, 0x02, 1, .u64, .ro, [0], .full⟩
/-- `RefusedArms`, R246. -/
def refusedArms : Row := ⟨0x5402, 8, 0x10, 1, 0, .pickup, 0x03, 1, .u64, .ro, [0], .full⟩
/-- `GateInhibits`, R246. -/
def gateInhibits : Row := ⟨0x5402, 8, 0x10, 1, 0, .pickup, 0x04, 1, .u64, .ro, [0], .full⟩
/-- `NotBlankTrips`, R246. -/
def notBlankTrips : Row := ⟨0x5402, 8, 0x10, 1, 0, .pickup, 0x05, 1, .u64, .ro, [0], .full⟩
/-- `RawMarginIterations`, R246. -/
def rawMarginIterations : Row := ⟨0x5402, 8, 0x10, 1, 0, .pickup, 0x06, 1, .u16, .ro, [0], .full⟩
/-- `DigestZoneSelect`, R246. -/
def digestZoneSelect : Row := ⟨0x5403, 8, 0x10, 1, 0, .pickup, 0x00, 1, .u16, .rw, [0], .span 0 267⟩
/-- `DigestValue`, R246. -/
def digestValue : Row := ⟨0x5403, 8, 0x10, 1, 0, .pickup, 0x01, 1, .dom 32, .ro, [0], .full⟩
/-- `DigestClusters`, R246. -/
def digestClusters : Row := ⟨0x5403, 8, 0x10, 1, 0, .pickup, 0x02, 1, .u16, .ro, [0], .full⟩
/-- `DigestState`, R246. -/
def digestState : Row := ⟨0x5403, 8, 0x10, 1, 0, .pickup, 0x03, 1, .u8, .ro, [0], .full⟩
/-- `ReadPowerGuide`, R246. -/
def readPowerGuide : Row := ⟨0x5404, 8, 0x10, 1, 0, .pickup, 0x00, 1, .u16, .rws, [70], .span 20 200⟩
/-- `ReadPower`, R246. -/
def readPower : Row := ⟨0x5404, 8, 0x10, 1, 0, .pickup, 0x01, 4, .u16, .rws, [70], .span 20 200⟩

-- Write, R247
/-- `PeakPower`, R247. -/
def peakPower : Row := ⟨0x5500, 8, 0x10, 4, 1, .pickup, 0x00, 4, .u16, .rws, [1400], .span 200 4000⟩
/-- `CoolPower`, R247. -/
def coolPower : Row := ⟨0x5500, 8, 0x10, 4, 1, .pickup, 0x04, 4, .u16, .rws, [0], .span 0 200⟩
/-- `TopStart`, R247. -/
def topStart : Row := ⟨0x5500, 8, 0x10, 4, 1, .pickup, 0x08, 12, .i16, .rws, [6, 4, 2, 4, 2, 0, 2, 0, 0, 0, 0, 0], .span (-16) 16⟩
/-- `EndShift`, R247. -/
def endShift : Row := ⟨0x5500, 8, 0x10, 4, 1, .pickup, 0x14, 4, .i16, .rws, [-8, -12, -14, -16], .span (-32) 0⟩
/-- `CoolLength`, R247. -/
def coolLength : Row := ⟨0x5500, 8, 0x10, 4, 1, .pickup, 0x18, 4, .u16, .rws, [16, 16, 20, 24], .span 0 64⟩

-- Spindle, R285
/-- `SpindleState`, R285. -/
def spindleState : Row := ⟨0x6000, 4, 0x100, 1, 0, .spindle, 0x00, 1, .u8, .ro, [0], .full⟩
/-- `SpeedMeasured`, R285. -/
def speedMeasured : Row := ⟨0x6000, 4, 0x100, 1, 0, .spindle, 0x01, 1, .i32, .ro, [0], .full⟩
/-- `SpeedReference`, R285. -/
def speedReference : Row := ⟨0x6000, 4, 0x100, 1, 0, .spindle, 0x02, 1, .i32, .ro, [0], .full⟩
/-- `SpeedSource`, R285. -/
def speedSource : Row := ⟨0x6000, 4, 0x100, 1, 0, .spindle, 0x03, 1, .u8, .ro, [0], .full⟩
/-- `WobbleSourcePickup`, R285. -/
def wobbleSourcePickup : Row := ⟨0x6000, 4, 0x100, 1, 0, .spindle, 0x04, 1, .u8, .ro, [255], .full⟩
/-- `SpeedErrorPpm`, R285. -/
def speedErrorPpm : Row := ⟨0x6000, 4, 0x100, 1, 0, .spindle, 0x05, 1, .i32, .ro, [0], .full⟩
/-- `VbusMeasured`, R285. -/
def vbusMeasured : Row := ⟨0x6000, 4, 0x100, 1, 0, .spindle, 0x06, 1, .u16, .ro, [0], .full⟩
/-- `TorqueCommand`, R285. -/
def torqueCommand : Row := ⟨0x6000, 4, 0x100, 1, 0, .spindle, 0x07, 1, .i32, .ro, [0], .full⟩
/-- `CurrentD`, R285. -/
def currentD : Row := ⟨0x6000, 4, 0x100, 1, 0, .spindle, 0x08, 1, .i32, .ro, [0], .full⟩
/-- `CurrentQ`, R285. -/
def currentQ : Row := ⟨0x6000, 4, 0x100, 1, 0, .spindle, 0x09, 1, .i32, .ro, [0], .full⟩
/-- `SpindleFault`, R285. -/
def spindleFault : Row := ⟨0x6000, 4, 0x100, 1, 0, .spindle, 0x0A, 1, .u16, .ro, [0], .full⟩
/-- `ActiveMode`, R285. -/
def activeMode : Row := ⟨0x6000, 4, 0x100, 1, 0, .spindle, 0x0B, 1, .u8, .ro, [0], .full⟩
/-- `RateMatchState`, R285. -/
def rateMatchState : Row := ⟨0x6000, 4, 0x100, 1, 0, .spindle, 0x0C, 1, .u8, .ro, [0], .full⟩
/-- `StartsFromRest`, R285. -/
def startsFromRest : Row := ⟨0x6001, 4, 0x100, 1, 0, .spindle, 0x00, 1, .u32, .ro, [0], .full⟩
/-- `CatchSpins`, R285. -/
def catchSpins : Row := ⟨0x6001, 4, 0x100, 1, 0, .spindle, 0x01, 1, .u32, .ro, [0], .full⟩
/-- `BrakedStarts`, R285. -/
def brakedStarts : Row := ⟨0x6001, 4, 0x100, 1, 0, .spindle, 0x02, 1, .u32, .ro, [0], .full⟩
/-- `StartFailures`, R285. -/
def startFailures : Row := ⟨0x6001, 4, 0x100, 1, 0, .spindle, 0x03, 1, .u32, .ro, [0], .full⟩
/-- `ObserverLosses`, R285. -/
def observerLosses : Row := ⟨0x6001, 4, 0x100, 1, 0, .spindle, 0x04, 1, .u32, .ro, [0], .full⟩
/-- `Reacquisitions`, R285. -/
def reacquisitions : Row := ⟨0x6001, 4, 0x100, 1, 0, .spindle, 0x05, 1, .u32, .ro, [0], .full⟩
/-- `GiveUps`, R285. -/
def giveUps : Row := ⟨0x6001, 4, 0x100, 1, 0, .spindle, 0x06, 1, .u32, .ro, [0], .full⟩
/-- `RegenFoldbacks`, R285. -/
def regenFoldbacks : Row := ⟨0x6001, 4, 0x100, 1, 0, .spindle, 0x07, 1, .u32, .ro, [0], .full⟩
/-- `VbusTrips`, R285. -/
def vbusTrips : Row := ⟨0x6001, 4, 0x100, 1, 0, .spindle, 0x08, 1, .u32, .ro, [0], .full⟩
/-- `OvercurrentTrips`, R285. -/
def overcurrentTrips : Row := ⟨0x6001, 4, 0x100, 1, 0, .spindle, 0x09, 1, .u32, .ro, [0], .full⟩
/-- `GateDriverFaults`, R285. -/
def gateDriverFaults : Row := ⟨0x6001, 4, 0x100, 1, 0, .spindle, 0x0A, 1, .u32, .ro, [0], .full⟩
/-- `ChopperOnTime`, R285. -/
def chopperOnTime : Row := ⟨0x6001, 4, 0x100, 1, 0, .spindle, 0x0B, 1, .u32, .ro, [0], .full⟩
/-- `LossBrakeEnergy`, R285. -/
def lossBrakeEnergy : Row := ⟨0x6001, 4, 0x100, 1, 0, .spindle, 0x0C, 1, .u32, .ro, [0], .full⟩
/-- `RevolutionsTotal`, R285. -/
def revolutionsTotal : Row := ⟨0x6001, 4, 0x100, 1, 0, .spindle, 0x0D, 1, .u64, .ro, [0], .full⟩
/-- `SpindleCommand`, R285. -/
def spindleCommand : Row := ⟨0x600A, 4, 0x100, 1, 0, .spindle, 0x00, 1, .u8, .wo, [0], .span 1 4⟩

-- Spindle, R286
/-- `PolePairs`, R286. -/
def polePairs : Row := ⟨0x6002, 4, 0x100, 1, 0, .spindle, 0x00, 1, .u8, .rws, [4], .span 1 12⟩
/-- `PhaseResistance`, R286. -/
def phaseResistance : Row := ⟨0x6002, 4, 0x100, 1, 0, .spindle, 0x01, 1, .u16, .rws, [800], .span 50 10000⟩
/-- `InductanceD`, R286. -/
def inductanceD : Row := ⟨0x6002, 4, 0x100, 1, 0, .spindle, 0x02, 1, .u16, .rws, [200], .span 10 5000⟩
/-- `InductanceQ`, R286. -/
def inductanceQ : Row := ⟨0x6002, 4, 0x100, 1, 0, .spindle, 0x03, 1, .u16, .rws, [200], .span 10 5000⟩
/-- `FluxLinkage`, R286. -/
def fluxLinkage : Row := ⟨0x6002, 4, 0x100, 1, 0, .spindle, 0x04, 1, .u16, .rws, [1100], .span 100 10000⟩
/-- `RotorInertia`, R286. -/
def rotorInertia : Row := ⟨0x6002, 4, 0x100, 1, 0, .spindle, 0x05, 1, .u16, .rws, [300], .span 10 5000⟩
/-- `FrictionTorque`, R286. -/
def frictionTorque : Row := ⟨0x6002, 4, 0x100, 1, 0, .spindle, 0x06, 1, .u16, .rws, [500], .span 0 10000⟩
/-- `CurrentSenseScale`, R286. -/
def spindleSenseScale : Row := ⟨0x6002, 4, 0x100, 1, 0, .spindle, 0x07, 1, .u16, .rws, [10000], .span 1000 40000⟩
/-- `VoltageSenseRatio`, R286. -/
def voltageSenseRatio : Row := ⟨0x6002, 4, 0x100, 1, 0, .spindle, 0x08, 1, .u16, .rws, [100], .span 20 500⟩
/-- `ControlMode`, R286. -/
def controlMode : Row := ⟨0x6003, 4, 0x100, 1, 0, .spindle, 0x00, 1, .u8, .rws, [0], .values [0, 1]⟩
/-- `CurrentKp`, R286. -/
def currentKp : Row := ⟨0x6003, 4, 0x100, 1, 0, .spindle, 0x01, 1, .u16, .rws, [251], .span 1 10000⟩
/-- `CurrentKi`, R286. -/
def currentKi : Row := ⟨0x6003, 4, 0x100, 1, 0, .spindle, 0x02, 1, .u32, .rws, [10053], .span 1 1000000⟩
/-- `PhaseCurrentMax`, R286. -/
def phaseCurrentMax : Row := ⟨0x6003, 4, 0x100, 1, 0, .spindle, 0x03, 1, .u16, .rws, [4000], .span 500 20000⟩
/-- `IqMax`, R286. -/
def iqMax : Row := ⟨0x6003, 4, 0x100, 1, 0, .spindle, 0x04, 1, .u16, .rws, [3500], .span 500 20000⟩
/-- `PhaseCurrentTrip`, R286. -/
def phaseCurrentTrip : Row := ⟨0x6003, 4, 0x100, 1, 0, .spindle, 0x05, 1, .u16, .rws, [6000], .span 1000 30000⟩
/-- `PwmDeadTime`, R286. -/
def pwmDeadTime : Row := ⟨0x6003, 4, 0x100, 1, 0, .spindle, 0x06, 1, .u16, .rws, [200], .span 50 2000⟩
/-- `ObserverBandwidth`, R286. -/
def observerBandwidth : Row := ⟨0x6004, 4, 0x100, 1, 0, .spindle, 0x00, 1, .u16, .rws, [2000], .span 200 10000⟩
/-- `PllBandwidth`, R286. -/
def pllBandwidth : Row := ⟨0x6004, 4, 0x100, 1, 0, .spindle, 0x01, 1, .u16, .rws, [200], .span 20 2000⟩
/-- `BemfTolerance`, R286. -/
def bemfTolerance : Row := ⟨0x6004, 4, 0x100, 1, 0, .spindle, 0x02, 1, .q15, .rws, [8192], .span 2048 16384⟩
/-- `PlausibilityMinSpeed`, R286. -/
def plausibilityMinSpeed : Row := ⟨0x6004, 4, 0x100, 1, 0, .spindle, 0x03, 1, .u16, .rws, [300], .span 100 1000⟩
/-- `ReacquireAttempts`, R286. -/
def reacquireAttempts : Row := ⟨0x6004, 4, 0x100, 1, 0, .spindle, 0x04, 1, .u8, .rws, [3], .span 1 8⟩
/-- `FluxReference`, R286. -/
def fluxReference : Row := ⟨0x6005, 4, 0x100, 1, 0, .spindle, 0x00, 1, .u16, .rws, [1100], .span 100 10000⟩
/-- `FluxBand`, R286. -/
def fluxBand : Row := ⟨0x6005, 4, 0x100, 1, 0, .spindle, 0x01, 1, .u16, .rws, [20], .span 2 500⟩
/-- `TorqueBand`, R286. -/
def torqueBand : Row := ⟨0x6005, 4, 0x100, 1, 0, .spindle, 0x02, 1, .u16, .rws, [1000], .span 100 10000⟩
/-- `FluxDriftCorner`, R286. -/
def fluxDriftCorner : Row := ⟨0x6005, 4, 0x100, 1, 0, .spindle, 0x03, 1, .u16, .rws, [2], .span 1 50⟩

-- Spindle, R287
/-- `SpeedKp`, R287. -/
def speedKp : Row := ⟨0x6006, 4, 0x100, 1, 0, .spindle, 0x00, 1, .u16, .rws, [986], .span 1 65535⟩
/-- `SpeedKi`, R287. -/
def speedKi : Row := ⟨0x6006, 4, 0x100, 1, 0, .spindle, 0x01, 1, .u32, .rws, [77400], .span 1 10000000⟩
/-- `PhaseLockGain`, R287. -/
def phaseLockGain : Row := ⟨0x6006, 4, 0x100, 1, 0, .spindle, 0x02, 1, .u16, .rws, [20], .span 0 1000⟩
/-- `NMax`, R287. -/
def nMax : Row := ⟨0x6006, 4, 0x100, 1, 0, .spindle, 0x03, 1, .u16, .rws, [10000], .span 4000 10000⟩
/-- `TargetChannelRate`, R287. -/
def targetChannelRate : Row := ⟨0x6006, 4, 0x100, 1, 0, .spindle, 0x04, 1, .u32, .rws, [704000], .span 400000 704000⟩
/-- `SpeedSlewLimit`, R287. -/
def speedSlewLimit : Row := ⟨0x6006, 4, 0x100, 1, 0, .spindle, 0x05, 1, .u16, .rws, [5000], .span 500 7000⟩
/-- `SpeedSettleTime`, R287. -/
def speedSettleTime : Row := ⟨0x6006, 4, 0x100, 1, 0, .spindle, 0x06, 1, .u16, .rws, [20], .span 5 500⟩
/-- `ReverseSpeed`, R287. -/
def reverseSpeed : Row := ⟨0x6006, 4, 0x100, 1, 0, .spindle, 0x07, 1, .u16, .rws, [1000], .span 600 3000⟩
/-- `AlignCurrent`, R287. -/
def alignCurrent : Row := ⟨0x6007, 4, 0x100, 1, 0, .spindle, 0x00, 1, .u16, .rws, [2000], .span 200 20000⟩
/-- `AlignTime`, R287. -/
def alignTime : Row := ⟨0x6007, 4, 0x100, 1, 0, .spindle, 0x01, 1, .u16, .rws, [300], .span 100 1000⟩
/-- `RampCurrent`, R287. -/
def rampCurrent : Row := ⟨0x6007, 4, 0x100, 1, 0, .spindle, 0x02, 1, .u16, .rws, [3000], .span 200 20000⟩
/-- `RampAccel`, R287. -/
def rampAccel : Row := ⟨0x6007, 4, 0x100, 1, 0, .spindle, 0x03, 1, .u16, .rws, [2000], .span 200 5000⟩
/-- `HandoverSpeed`, R287. -/
def handoverSpeed : Row := ⟨0x6007, 4, 0x100, 1, 0, .spindle, 0x04, 1, .u16, .rws, [600], .span 400 1500⟩
/-- `RampLimitSpeed`, R287. -/
def rampLimitSpeed : Row := ⟨0x6007, 4, 0x100, 1, 0, .spindle, 0x05, 1, .u16, .rws, [900], .span 500 3000⟩
/-- `StartAttempts`, R287. -/
def startAttempts : Row := ⟨0x6007, 4, 0x100, 1, 0, .spindle, 0x06, 1, .u8, .rws, [3], .span 1 8⟩
/-- `RegenLimit`, R287. -/
def regenLimit : Row := ⟨0x6008, 4, 0x100, 1, 0, .spindle, 0x00, 1, .u16, .rws, [13200], .span 10000 20000⟩
/-- `RegenBand`, R287. -/
def regenBand : Row := ⟨0x6008, 4, 0x100, 1, 0, .spindle, 0x01, 1, .u16, .rws, [400], .span 100 2000⟩
/-- `LossBrakeLevel`, R287. -/
def lossBrakeLevel : Row := ⟨0x6008, 4, 0x100, 1, 0, .spindle, 0x02, 1, .u16, .rws, [12800], .span 10000 20000⟩
/-- `LossBrakeMode`, R287. -/
def lossBrakeMode : Row := ⟨0x6008, 4, 0x100, 1, 0, .spindle, 0x03, 1, .u8, .rws, [2], .span 0 2⟩
/-- `LossBrakeRate`, R287. -/
def lossBrakeRate : Row := ⟨0x6008, 4, 0x100, 1, 0, .spindle, 0x04, 1, .u16, .rws, [20000], .span 100 65535⟩
/-- `IdBrakeMax`, R287. -/
def idBrakeMax : Row := ⟨0x6008, 4, 0x100, 1, 0, .spindle, 0x05, 1, .u16, .rws, [3000], .span 0 20000⟩
/-- `ShortBrakeCurrent`, R287. -/
def shortBrakeCurrent : Row := ⟨0x6008, 4, 0x100, 1, 0, .spindle, 0x06, 1, .u16, .rws, [3000], .span 200 20000⟩
/-- `VbusTrip`, R287. -/
def vbusTrip : Row := ⟨0x6008, 4, 0x100, 1, 0, .spindle, 0x07, 1, .u16, .rws, [15000], .span 11000 30000⟩
/-- `VbusLow`, R287. -/
def vbusLow : Row := ⟨0x6008, 4, 0x100, 1, 0, .spindle, 0x08, 1, .u16, .rws, [9000], .span 5000 15000⟩
/-- `ChopperEnable`, R287. -/
def chopperEnable : Row := ⟨0x6008, 4, 0x100, 1, 0, .spindle, 0x09, 1, .u8, .rws, [0], .values [0, 1]⟩
/-- `ChopperOn`, R287. -/
def chopperOn : Row := ⟨0x6008, 4, 0x100, 1, 0, .spindle, 0x0A, 1, .u16, .rws, [13000], .span 10000 20000⟩
/-- `ChopperOff`, R287. -/
def chopperOff : Row := ⟨0x6008, 4, 0x100, 1, 0, .spindle, 0x0B, 1, .u16, .rws, [12700], .span 10000 20000⟩
/-- `RateMatchEnable`, R287. -/
def rateMatchEnable : Row := ⟨0x6009, 4, 0x100, 1, 0, .spindle, 0x00, 1, .u8, .rws, [3], .span 0 3⟩
/-- `RateMatchMinRate`, R287. -/
def rateMatchMinRate : Row := ⟨0x6009, 4, 0x100, 1, 0, .spindle, 0x01, 1, .u32, .rws, [450000], .span 400000 704000⟩
/-- `RateMatchFillWrite`, R287. -/
def rateMatchFillWrite : Row := ⟨0x6009, 4, 0x100, 1, 0, .spindle, 0x02, 1, .u8, .rws, [72], .span 64 128⟩
/-- `RateMatchFillRead`, R287. -/
def rateMatchFillRead : Row := ⟨0x6009, 4, 0x100, 1, 0, .spindle, 0x03, 1, .u8, .rws, [16], .span 4 128⟩
/-- `RateMatchGain`, R287. -/
def rateMatchGain : Row := ⟨0x6009, 4, 0x100, 1, 0, .spindle, 0x04, 1, .q15, .rws, [4096], .span 256 16384⟩
/-- `RateMatchWindow`, R287. -/
def rateMatchWindow : Row := ⟨0x6009, 4, 0x100, 1, 0, .spindle, 0x05, 1, .u16, .rws, [100], .span 10 2000⟩
/-- `StreamRuns`, R287. -/
def streamRuns : Row := ⟨0x6009, 4, 0x100, 1, 0, .spindle, 0x06, 1, .u8, .rws, [2], .span 1 8⟩
/-- `StreamReads`, R287. -/
def streamReads : Row := ⟨0x6009, 4, 0x100, 1, 0, .spindle, 0x07, 1, .u8, .rws, [8], .span 2 64⟩

-- Axis, R316
/-- `AxisState`, R316. -/
def axisState : Row := ⟨0x6400, 20, 0x10, 1, 0, .axis, 0x00, 1, .u8, .ro, [0], .full⟩
/-- `PositionValid`, R316. -/
def positionValid : Row := ⟨0x6400, 20, 0x10, 1, 0, .axis, 0x01, 1, .u8, .ro, [0], .full⟩
/-- `SetpointPosition`, R316. -/
def setpointPosition : Row := ⟨0x6400, 20, 0x10, 1, 0, .axis, 0x02, 1, .i32, .ro, [0], .full⟩
/-- `EncoderPosition`, R316. -/
def encoderPosition : Row := ⟨0x6400, 20, 0x10, 1, 0, .axis, 0x03, 1, .i32, .ro, [0], .full⟩
/-- `Deviation`, R316. -/
def deviation : Row := ⟨0x6400, 20, 0x10, 1, 0, .axis, 0x04, 1, .i32, .ro, [0], .full⟩
/-- `AxisSpeed`, R316. -/
def axisSpeed : Row := ⟨0x6400, 20, 0x10, 1, 0, .axis, 0x05, 1, .i32, .ro, [0], .full⟩
/-- `CoilCurrent`, R316. -/
def coilCurrent : Row := ⟨0x6400, 20, 0x10, 1, 0, .axis, 0x06, 1, .u16, .ro, [0], .full⟩
/-- `LoadAngle`, R316. -/
def loadAngle : Row := ⟨0x6400, 20, 0x10, 1, 0, .axis, 0x07, 1, .i16, .ro, [0], .full⟩
/-- `AxisFault`, R316. -/
def axisFault : Row := ⟨0x6400, 20, 0x10, 1, 0, .axis, 0x08, 1, .u16, .ro, [0], .full⟩
/-- `LastCommandResult`, R316. -/
def lastCommandResult : Row := ⟨0x6400, 20, 0x10, 1, 0, .axis, 0x09, 1, .u8, .ro, [0], .full⟩
/-- `SetpointWord`, R316. -/
def setpointWord : Row := ⟨0x6400, 20, 0x10, 1, 0, .axis, 0x0A, 1, .u64, .ro, [288230376151711744], .full⟩
/-- `MovesCompleted`, R316. -/
def movesCompleted : Row := ⟨0x6401, 20, 0x10, 1, 0, .axis, 0x00, 1, .u32, .ro, [0], .full⟩
/-- `StallCount`, R316. -/
def axisStalls : Row := ⟨0x6401, 20, 0x10, 1, 0, .axis, 0x01, 1, .u32, .ro, [0], .full⟩
/-- `PositionLossCount`, R316. -/
def positionLossCount : Row := ⟨0x6401, 20, 0x10, 1, 0, .axis, 0x02, 1, .u32, .ro, [0], .full⟩
/-- `EncoderErrorCount`, R316. -/
def encoderErrorCount : Row := ⟨0x6401, 20, 0x10, 1, 0, .axis, 0x03, 1, .u32, .ro, [0], .full⟩
/-- `AxisVmax`, R316. -/
def axisVmax : Row := ⟨0x6402, 20, 0x10, 1, 0, .axis, 0x00, 1, .u32, .rw,
    [1700000, 1700000, 1700000, 1700000, 1700000, 1700000, 1700000, 1700000, 1700000, 1700000, 1700000, 1700000, 1700000, 
     1700000, 1700000, 1700000, 800000, 800000, 800000, 800000], .span 1000 4000000⟩
/-- `AxisAccel`, R316. -/
def axisAccel : Row := ⟨0x6402, 20, 0x10, 1, 0, .axis, 0x01, 1, .u32, .rw,
    [34000000, 34000000, 34000000, 34000000, 34000000, 34000000, 34000000, 34000000, 34000000, 34000000, 34000000, 
     34000000, 34000000, 34000000, 34000000, 34000000, 4000000, 4000000, 4000000, 4000000], .span 100000 100000000⟩
/-- `AxisDecel`, R316. -/
def axisDecel : Row := ⟨0x6402, 20, 0x10, 1, 0, .axis, 0x02, 1, .u32, .rw,
    [34000000, 34000000, 34000000, 34000000, 34000000, 34000000, 34000000, 34000000, 34000000, 34000000, 34000000, 
     34000000, 34000000, 34000000, 34000000, 34000000, 4000000, 4000000, 4000000, 4000000], .span 100000 100000000⟩
/-- `SledOuterMaxStep`, R316. -/
def sledOuterMaxStep : Row := ⟨0x6402, 20, 0x10, 1, 0, .axis, 0x03, 1, .u16, .rw,
    [64, 64, 64, 64, 64, 64, 64, 64, 64, 64, 64, 64, 64, 64, 64, 64, 0, 0, 0, 0], .span 1 512⟩
/-- `SoftLimitMin`, R316. -/
def softLimitMin : Row := ⟨0x6402, 20, 0x10, 1, 0, .axis, 0x04, 1, .i32, .rw, [-8388607], .span (-8388607) 8388607⟩
/-- `SoftLimitMax`, R316. -/
def softLimitMax : Row := ⟨0x6402, 20, 0x10, 1, 0, .axis, 0x05, 1, .i32, .rw, [8388607], .span (-8388607) 8388607⟩
/-- `AxisMoveTarget`, R316. -/
def axisMoveTarget : Row := ⟨0x6405, 20, 0x10, 1, 0, .axis, 0x00, 1, .i32, .wo, [0], .span (-8388607) 8388607⟩
/-- `AxisCommand`, R316. -/
def axisCommand : Row := ⟨0x6405, 20, 0x10, 1, 0, .axis, 0x01, 1, .u8, .wo, [0], .span 1 7⟩

-- Axis, R317
/-- `RunCurrent`, R317. -/
def runCurrent : Row := ⟨0x6403, 20, 0x10, 1, 0, .axis, 0x00, 1, .u16, .rws,
    [800, 800, 800, 800, 800, 800, 800, 800, 800, 800, 800, 800, 800, 800, 800, 800, 1500, 1500, 1500, 1500], .span 100 4000⟩
/-- `HoldCurrent`, R317. -/
def holdCurrent : Row := ⟨0x6403, 20, 0x10, 1, 0, .axis, 0x01, 1, .u16, .rws,
    [300, 300, 300, 300, 300, 300, 300, 300, 300, 300, 300, 300, 300, 300, 300, 300, 500, 500, 500, 500], .span 0 4000⟩
/-- `HoldDelay`, R317. -/
def holdDelay : Row := ⟨0x6403, 20, 0x10, 1, 0, .axis, 0x02, 1, .u16, .rws, [100], .span 0 5000⟩
/-- `CoilCurrentMin`, R317. -/
def coilCurrentMin : Row := ⟨0x6403, 20, 0x10, 1, 0, .axis, 0x03, 1, .u16, .rws,
    [200, 200, 200, 200, 200, 200, 200, 200, 200, 200, 200, 200, 200, 200, 200, 200, 500, 500, 500, 500], .span 100 4000⟩
/-- `CoilCurrentMax`, R317. -/
def coilCurrentMax : Row := ⟨0x6403, 20, 0x10, 1, 0, .axis, 0x04, 1, .u16, .rws,
    [1200, 1200, 1200, 1200, 1200, 1200, 1200, 1200, 1200, 1200, 1200, 1200, 1200, 1200, 1200, 1200, 2500, 2500, 2500, 
     2500], .span 100 4000⟩
/-- `CoilCurrentTrip`, R317. -/
def coilCurrentTrip : Row := ⟨0x6403, 20, 0x10, 1, 0, .axis, 0x05, 1, .u16, .rws,
    [2000, 2000, 2000, 2000, 2000, 2000, 2000, 2000, 2000, 2000, 2000, 2000, 2000, 2000, 2000, 2000, 3500, 3500, 3500, 
     3500], .span 200 6000⟩
/-- `CoilResistance`, R317. -/
def coilResistance : Row := ⟨0x6403, 20, 0x10, 1, 0, .axis, 0x06, 1, .u16, .rws, [4000], .span 100 50000⟩
/-- `CoilInductance`, R317. -/
def coilInductance : Row := ⟨0x6403, 20, 0x10, 1, 0, .axis, 0x07, 1, .u16, .rws, [3000], .span 100 50000⟩
/-- `CurrentSenseScale`, R317. -/
def axisSenseScale : Row := ⟨0x6403, 20, 0x10, 1, 0, .axis, 0x08, 1, .u16, .rws, [3000], .span 500 8000⟩
/-- `StallWindow`, R317. -/
def stallWindow : Row := ⟨0x6404, 20, 0x10, 1, 0, .axis, 0x00, 1, .u16, .rws, [384], .span 64 4096⟩
/-- `StallCount`, R317. -/
def stallCountLimit : Row := ⟨0x6404, 20, 0x10, 1, 0, .axis, 0x01, 1, .u8, .rws, [3], .span 1 64⟩
/-- `EncoderMicrosteps`, R317. -/
def encoderMicrosteps : Row := ⟨0x6404, 20, 0x10, 1, 0, .axis, 0x02, 1, .u32, .rws, [65536], .span 256 16777216⟩
/-- `EncoderDirection`, R317. -/
def encoderDirection : Row := ⟨0x6404, 20, 0x10, 1, 0, .axis, 0x03, 1, .u8, .rws, [0], .values [0, 1]⟩
/-- `LoadAngleLimit`, R317. -/
def loadAngleLimit : Row := ⟨0x6404, 20, 0x10, 1, 0, .axis, 0x04, 1, .u16, .rws, [900], .span 300 1500⟩
/-- `LoadAngleTarget`, R317. -/
def loadAngleTarget : Row := ⟨0x6404, 20, 0x10, 1, 0, .axis, 0x05, 1, .u16, .rws, [450], .span 100 1200⟩
/-- `LoadAngleMinSpeed`, R317. -/
def loadAngleMinSpeed : Row := ⟨0x6404, 20, 0x10, 1, 0, .axis, 0x06, 1, .u32, .rws, [20000], .span 2000 500000⟩
/-- `BackEmfConstant`, R317. -/
def backEmfConstant : Row := ⟨0x6404, 20, 0x10, 1, 0, .axis, 0x07, 1, .u16, .rws, [500], .span 10 10000⟩
/-- `StallEmfRatio`, R317. -/
def stallEmfRatio : Row := ⟨0x6404, 20, 0x10, 1, 0, .axis, 0x08, 1, .q15, .rws, [8192], .span 2048 24576⟩
/-- `CurrentAdaptGain`, R317. -/
def currentAdaptGain : Row := ⟨0x6404, 20, 0x10, 1, 0, .axis, 0x09, 1, .u16, .rws, [50], .span 1 1000⟩
/-- `StallRetryDelay`, R317. -/
def stallRetryDelay : Row := ⟨0x6404, 20, 0x10, 1, 0, .axis, 0x0A, 1, .u16, .rws, [20], .span 1 1000⟩
/-- `StallRetries`, R317. -/
def stallRetries : Row := ⟨0x6404, 20, 0x10, 1, 0, .axis, 0x0B, 1, .u8, .rws, [3], .span 1 16⟩
/-- `EncoderEnable`, R317. -/
def encoderEnable : Row := ⟨0x6404, 20, 0x10, 1, 0, .axis, 0x0C, 1, .u8, .rws, [1], .values [0, 1]⟩

-- Axis, R318
/-- `HomeDirection`, R318. -/
def homeDirection : Row := ⟨0x6506, 4, 0x10, 1, 0, .all, 0x00, 1, .u8, .rws, [0], .values [0, 1]⟩
/-- `HomingSpeed`, R318. -/
def homingSpeed : Row := ⟨0x6506, 4, 0x10, 1, 0, .all, 0x01, 1, .u32, .rws, [40000], .span 1000 400000⟩
/-- `HomePosition`, R318. -/
def homePosition : Row := ⟨0x6506, 4, 0x10, 1, 0, .all, 0x02, 1, .i32, .rws, [0], .span (-8388607) 8388607⟩
/-- `InputFilter`, R318. -/
def inputFilter : Row := ⟨0x6506, 4, 0x10, 1, 0, .all, 0x03, 1, .u8, .rws, [10], .span 1 100⟩
/-- `HomeLockout`, R318. -/
def homeLockout : Row := ⟨0x6506, 4, 0x10, 1, 0, .all, 0x04, 1, .u16, .rws, [50], .span 1 1000⟩
/-- `ChatterLimit`, R318. -/
def chatterLimit : Row := ⟨0x6506, 4, 0x10, 1, 0, .all, 0x05, 1, .u8, .rws, [4], .span 0 64⟩
/-- `InputPolarity`, R318. -/
def inputPolarity : Row := ⟨0x6506, 4, 0x10, 1, 0, .all, 0x06, 1, .u8, .rws, [0], .span 0 7⟩
/-- `ChatterCount`, R318. -/
def chatterCount : Row := ⟨0x6506, 4, 0x10, 1, 0, .all, 0x07, 1, .u16, .ro, [0], .full⟩
/-- `AxisSource`, R318. -/
def axisSource : Row := ⟨0x6507, 4, 0x10, 1, 0, .all, 0x00, 1, .u8, .rws, [0], .span 0 2⟩
/-- `ExtStepScale`, R318. -/
def extStepScale : Row := ⟨0x6507, 4, 0x10, 1, 0, .all, 0x01, 1, .i32, .rws, [256], .span (-16777216) 16777216⟩
/-- `ExtAnalogScale`, R318. -/
def extAnalogScale : Row := ⟨0x6507, 4, 0x10, 1, 0, .all, 0x02, 1, .i32, .rws, [0], .span (-8388607) 8388607⟩
/-- `ExtCentre`, R318. -/
def extCentre : Row := ⟨0x6507, 4, 0x10, 1, 0, .all, 0x03, 1, .i32, .rws, [0], .span (-8388607) 8388607⟩

-- Host, R359
/-- `TollgateEntriesUsed`, R359. -/
def tollgateEntriesUsed : Row := ⟨0x2000, 1, 0, 1, 0, .all, 0x00, 1, .u16, .ro, [0], .full⟩
/-- `TollgateEntriesMax`, R359. -/
def tollgateEntriesMax : Row := ⟨0x2000, 1, 0, 1, 0, .all, 0x01, 1, .u16, .rw, [0], .span 0 1024⟩
/-- `TollgateStalls`, R359. -/
def tollgateStalls : Row := ⟨0x2000, 1, 0, 1, 0, .all, 0x02, 1, .u64, .ro, [0], .full⟩
/-- `TollgateFullStalls`, R359. -/
def tollgateFullStalls : Row := ⟨0x2000, 1, 0, 1, 0, .all, 0x03, 1, .u64, .ro, [0], .full⟩
/-- `QueuePoolSqUsed`, R359. -/
def queuePoolSqUsed : Row := ⟨0x2000, 1, 0, 1, 0, .all, 0x04, 1, .u16, .ro, [0], .full⟩
/-- `QueuePoolCqUsed`, R359. -/
def queuePoolCqUsed : Row := ⟨0x2000, 1, 0, 1, 0, .all, 0x05, 1, .u16, .ro, [0], .full⟩
/-- `PowerState`, R359. -/
def powerState : Row := ⟨0x2000, 1, 0, 1, 0, .all, 0x06, 1, .u8, .ro, [0], .full⟩
/-- `SelfTestState`, R359. -/
def selfTestState : Row := ⟨0x2000, 1, 0, 1, 0, .all, 0x07, 1, .u8, .ro, [0], .full⟩
/-- `SelfTestSegment`, R359. -/
def selfTestSegment : Row := ⟨0x2000, 1, 0, 1, 0, .all, 0x08, 1, .u8, .ro, [0], .full⟩
/-- `PciVendorId`, R359. -/
def pciVendorId : Row := ⟨0x2001, 1, 0, 1, 0, .all, 0x00, 1, .u16, .ro, [0], .full⟩
/-- `PciDeviceId`, R359. -/
def pciDeviceId : Row := ⟨0x2001, 1, 0, 1, 0, .all, 0x01, 1, .u16, .ro, [25728], .full⟩
/-- `SerialNumber`, R359. -/
def serialNumber : Row := ⟨0x2001, 1, 0, 1, 0, .all, 0x02, 1, .str 20, .ro, [0], .full⟩
/-- `ModelNumber`, R359. -/
def modelNumber : Row := ⟨0x2001, 1, 0, 1, 0, .all, 0x03, 1, .str 40, .ro, [0], .full⟩

-- Host, R360
/-- `LinkState`, R360. -/
def linkState : Row := ⟨0x2100, 2, 0x100, 1, 0, .all, 0x00, 1, .u8, .ro, [0], .full⟩
/-- `LinkRate`, R360. -/
def linkRate : Row := ⟨0x2100, 2, 0x100, 1, 0, .all, 0x01, 1, .u8, .ro, [0], .full⟩
/-- `LinkWidth`, R360. -/
def linkWidth : Row := ⟨0x2100, 2, 0x100, 1, 0, .all, 0x02, 1, .u8, .ro, [0], .full⟩
/-- `ControllerState`, R360. -/
def controllerState : Row := ⟨0x2100, 2, 0x100, 1, 0, .all, 0x03, 1, .u8, .ro, [0], .full⟩
/-- `SqCount`, R360. -/
def sqCount : Row := ⟨0x2100, 2, 0x100, 1, 0, .all, 0x04, 1, .u16, .ro, [0], .full⟩
/-- `CqCount`, R360. -/
def cqCount : Row := ⟨0x2100, 2, 0x100, 1, 0, .all, 0x05, 1, .u16, .ro, [0], .full⟩
/-- `CommandsCompleted`, R360. -/
def commandsCompleted : Row := ⟨0x2101, 2, 0x100, 1, 0, .all, 0x00, 1, .u64, .ro, [0], .full⟩
/-- `ErrorCompletions`, R360. -/
def errorCompletions : Row := ⟨0x2101, 2, 0x100, 1, 0, .all, 0x01, 1, .u64, .ro, [0], .full⟩
/-- `AbortsSucceeded`, R360. -/
def abortsSucceeded : Row := ⟨0x2101, 2, 0x100, 1, 0, .all, 0x02, 1, .u32, .ro, [0], .full⟩
/-- `AbortsNotAborted`, R360. -/
def abortsNotAborted : Row := ⟨0x2101, 2, 0x100, 1, 0, .all, 0x03, 1, .u32, .ro, [0], .full⟩
/-- `ControllerResets`, R360. -/
def controllerResets : Row := ⟨0x2101, 2, 0x100, 1, 0, .all, 0x04, 1, .u32, .ro, [0], .full⟩
/-- `UrgentBoundMisses`, R360. -/
def urgentBoundMisses : Row := ⟨0x2101, 2, 0x100, 1, 0, .all, 0x05, 1, .u64, .ro, [0], .full⟩
/-- `FetchRoundTripMax`, R360. -/
def fetchRoundTripMax : Row := ⟨0x2101, 2, 0x100, 1, 0, .all, 0x06, 1, .u32, .rw, [0], .full⟩

-- Host, R361
/-- `LatencyHistogram`, R361. -/
def latencyHistogram : Row := ⟨0x2400, 1, 0, 1, 0, .all, 0x00, 16, .dom 256, .ro, [0], .full⟩
/-- `LatencyReset`, R361. -/
def latencyReset : Row := ⟨0x2400, 1, 0, 1, 0, .all, 0x10, 1, .u8, .wo, [0], .values [1]⟩
/-- `NamespaceState`, R361. -/
def namespaceState : Row := ⟨0x2500, 8, 0x10, 1, 0, .pickup, 0x00, 1, .u8, .ro, [0], .full⟩
/-- `OpenZones`, R361. -/
def openZones : Row := ⟨0x2500, 8, 0x10, 1, 0, .pickup, 0x01, 1, .u8, .ro, [0], .full⟩
/-- `ActiveZones`, R361. -/
def activeZones : Row := ⟨0x2500, 8, 0x10, 1, 0, .pickup, 0x02, 1, .u8, .ro, [0], .full⟩
/-- `FullZones`, R361. -/
def fullZones : Row := ⟨0x2500, 8, 0x10, 1, 0, .pickup, 0x03, 1, .u16, .ro, [0], .full⟩
/-- `ReadOnlyZones`, R361. -/
def readOnlyZones : Row := ⟨0x2500, 8, 0x10, 1, 0, .pickup, 0x04, 1, .u16, .ro, [0], .full⟩
/-- `WriteBufferClusters`, R361. -/
def writeBufferClusters : Row := ⟨0x2500, 8, 0x10, 1, 0, .pickup, 0x05, 1, .u16, .ro, [0], .full⟩
/-- `FillerBlocks`, R361. -/
def fillerBlocks : Row := ⟨0x2500, 8, 0x10, 1, 0, .pickup, 0x06, 1, .u64, .ro, [0], .full⟩

-- Signpost, R396
/-- `VendorName`, R396. -/
def vendorName : Row := ⟨0x1000, 1, 0, 1, 0, .all, 0x00, 1, .str 32, .ro, [0], .full⟩
/-- `DeviceName`, R396. -/
def deviceName : Row := ⟨0x1000, 1, 0, 1, 0, .all, 0x01, 1, .str 32, .ro, [0], .full⟩
/-- `HardwareRevision`, R396. -/
def hardwareRevision : Row := ⟨0x1000, 1, 0, 1, 0, .all, 0x02, 1, .u16, .ro, [0], .full⟩
/-- `FirmwareRevision`, R396. -/
def firmwareRevision : Row := ⟨0x1000, 1, 0, 1, 0, .all, 0x03, 1, .str 8, .ro, [0], .full⟩
/-- `DieIdentity`, R396. -/
def dieIdentity : Row := ⟨0x1000, 1, 0, 1, 0, .all, 0x04, 1, .u64, .ro, [0], .full⟩
/-- `DictionaryVersion`, R396. -/
def dictionaryVersion : Row := ⟨0x1000, 1, 0, 1, 0, .all, 0x05, 1, .u16, .ro, [256], .full⟩
/-- `EnumeratedCount`, R396. -/
def enumeratedCount : Row := ⟨0x1000, 1, 0, 1, 0, .all, 0x06, 1, .u16, .ro, [0], .full⟩

-- Signpost, R397
/-- `CanEnable`, R397. -/
def canEnable : Row := ⟨0x1100, 2, 0x10, 1, 0, .all, 0x00, 1, .u8, .rw, [1], .values [0, 1]⟩
/-- `CanNominalRate`, R397. -/
def canNominalRate : Row := ⟨0x1100, 2, 0x10, 1, 0, .all, 0x01, 1, .u16, .rw, [500], .values [125, 250, 500, 1000]⟩
/-- `CanDataRate`, R397. -/
def canDataRate : Row := ⟨0x1100, 2, 0x10, 1, 0, .all, 0x02, 1, .u16, .rw, [5000], .values [1000, 2000, 4000, 5000]⟩
/-- `CanIdFormat`, R397. -/
def canIdFormat : Row := ⟨0x1100, 2, 0x10, 1, 0, .all, 0x03, 1, .u8, .rw, [0], .values [0, 1]⟩
/-- `CanRequestId`, R397. -/
def canRequestId : Row := ⟨0x1100, 2, 0x10, 1, 0, .all, 0x04, 1, .u32, .rw, [1952], .span 0 0x1FFFFFFF⟩
/-- `CanResponseId`, R397. -/
def canResponseId : Row := ⟨0x1100, 2, 0x10, 1, 0, .all, 0x05, 1, .u32, .rw, [1960], .span 0 0x1FFFFFFF⟩
/-- `CanState`, R397. -/
def canState : Row := ⟨0x1100, 2, 0x10, 1, 0, .all, 0x06, 1, .u8, .ro, [0], .full⟩
/-- `CanBusOffCount`, R397. -/
def canBusOffCount : Row := ⟨0x1100, 2, 0x10, 1, 0, .all, 0x07, 1, .u32, .ro, [0], .full⟩
/-- `CanMessagesReceived`, R397. -/
def canMessagesReceived : Row := ⟨0x1100, 2, 0x10, 1, 0, .all, 0x08, 1, .u32, .ro, [0], .full⟩
/-- `CanFramesIgnored`, R397. -/
def canFramesIgnored : Row := ⟨0x1100, 2, 0x10, 1, 0, .all, 0x09, 1, .u32, .ro, [0], .full⟩

-- Signpost, R398
/-- `EthEnable`, R398. -/
def ethEnable : Row := ⟨0x1180, 1, 0, 1, 0, .all, 0x00, 1, .u8, .rw, [1], .values [0, 1]⟩
/-- `MacAddress`, R398. -/
def macAddress : Row := ⟨0x1180, 1, 0, 1, 0, .all, 0x01, 1, .u64, .ro, [0], .full⟩
/-- `Ipv4Address`, R398. -/
def ipv4Address : Row := ⟨0x1180, 1, 0, 1, 0, .all, 0x02, 1, .u32, .rw, [0], .full⟩
/-- `Ipv4Netmask`, R398. -/
def ipv4Netmask : Row := ⟨0x1180, 1, 0, 1, 0, .all, 0x03, 1, .u32, .rw, [4294967040], .full⟩
/-- `Ipv4Gateway`, R398. -/
def ipv4Gateway : Row := ⟨0x1180, 1, 0, 1, 0, .all, 0x04, 1, .u32, .rw, [0], .full⟩
/-- `Ipv6Enable`, R398. -/
def ipv6Enable : Row := ⟨0x1180, 1, 0, 1, 0, .all, 0x05, 1, .u8, .rw, [1], .values [0, 1]⟩
/-- `Ipv6Address`, R398. -/
def ipv6Address : Row := ⟨0x1180, 1, 0, 1, 0, .all, 0x06, 1, .dom 16, .rw, [0], .full⟩
/-- `Ipv6PrefixLength`, R398. -/
def ipv6PrefixLength : Row := ⟨0x1180, 1, 0, 1, 0, .all, 0x07, 1, .u8, .rw, [64], .span 1 128⟩
/-- `UdpPort`, R398. -/
def udpPort : Row := ⟨0x1180, 1, 0, 1, 0, .all, 0x08, 1, .u16, .rw, [48980], .span 1024 65535⟩
/-- `EthLinkState`, R398. -/
def ethLinkState : Row := ⟨0x1180, 1, 0, 1, 0, .all, 0x09, 1, .u8, .ro, [0], .full⟩
/-- `UdpRequests`, R398. -/
def udpRequests : Row := ⟨0x1180, 1, 0, 1, 0, .all, 0x0A, 1, .u32, .ro, [0], .full⟩
/-- `UdpDuplicates`, R398. -/
def udpDuplicates : Row := ⟨0x1180, 1, 0, 1, 0, .all, 0x0B, 1, .u32, .ro, [0], .full⟩
/-- `UdpDropped`, R398. -/
def udpDropped : Row := ⟨0x1180, 1, 0, 1, 0, .all, 0x0C, 1, .u32, .ro, [0], .full⟩

-- Signpost, R399
/-- `CarrierWriteMask`, R399. -/
def carrierWriteMask : Row := ⟨0x1200, 1, 0, 1, 0, .all, 0x00, 1, .u8, .rwa, [15], .span 0 15⟩
/-- `ServerQueueDepth`, R399. -/
def serverQueueDepth : Row := ⟨0x1200, 1, 0, 1, 0, .all, 0x01, 1, .u8, .ro, [0], .full⟩
/-- `RequestsServed`, R399. -/
def requestsServed : Row := ⟨0x1200, 1, 0, 1, 0, .all, 0x02, 1, .u64, .ro, [0], .full⟩
/-- `RequestsAborted`, R399. -/
def requestsAborted : Row := ⟨0x1200, 1, 0, 1, 0, .all, 0x03, 1, .u64, .ro, [0], .full⟩
/-- `LastAbortCode`, R399. -/
def lastAbortCode : Row := ⟨0x1200, 1, 0, 1, 0, .all, 0x04, 1, .u32, .ro, [0], .full⟩
/-- `SessionsOpen`, R399. -/
def sessionsOpen : Row := ⟨0x1200, 1, 0, 1, 0, .all, 0x05, 1, .u8, .ro, [0], .full⟩
/-- `SessionTimeout`, R399. -/
def sessionTimeout : Row := ⟨0x1200, 1, 0, 1, 0, .all, 0x06, 1, .u16, .rw, [5000], .span 500 60000⟩
/-- `ServiceTimeMax`, R399. -/
def serviceTimeMax : Row := ⟨0x1200, 1, 0, 1, 0, .all, 0x07, 1, .u32, .rw, [0], .full⟩
/-- `AuthChallenge`, R399. -/
def authChallenge : Row := ⟨0x1240, 1, 0, 1, 0, .all, 0x00, 1, .dom 16, .ro, [0], .full⟩
/-- `AuthNonceLifetime`, R399. -/
def authNonceLifetime : Row := ⟨0x1240, 1, 0, 1, 0, .all, 0x01, 1, .u16, .rw, [60], .span 10 600⟩
/-- `AuthFailLimit`, R399. -/
def authFailLimit : Row := ⟨0x1240, 1, 0, 1, 0, .all, 0x02, 1, .u8, .rw, [8], .span 1 64⟩
/-- `AuthFailCount`, R399. -/
def authFailCount : Row := ⟨0x1240, 1, 0, 1, 0, .all, 0x03, 1, .u8, .ro, [0], .full⟩
/-- `AuthLockoutTime`, R399. -/
def authLockoutTime : Row := ⟨0x1240, 1, 0, 1, 0, .all, 0x04, 1, .u16, .rw, [60], .span 10 3600⟩
/-- `AuthWrites`, R399. -/
def authWrites : Row := ⟨0x1240, 1, 0, 1, 0, .all, 0x05, 1, .u32, .ro, [0], .full⟩

-- Signpost, R401
/-- `SwitchoverRequest`, R401. -/
def switchoverRequest : Row := ⟨0x1300, 1, 0, 1, 0, .all, 0x00, 1, .u8, .wo, [0], .span 1 3⟩
/-- `SwitchoverState`, R401. -/
def switchoverState : Row := ⟨0x1300, 1, 0, 1, 0, .all, 0x01, 1, .u8, .ro, [0], .full⟩
/-- `StagingOwner`, R401. -/
def stagingOwner : Row := ⟨0x1300, 1, 0, 1, 0, .all, 0x02, 1, .u32, .ro, [0], .full⟩
/-- `StagedCount`, R401. -/
def stagedCount : Row := ⟨0x1300, 1, 0, 1, 0, .all, 0x03, 1, .u16, .ro, [0], .full⟩
/-- `SwitchoverResult`, R401. -/
def switchoverResult : Row := ⟨0x1300, 1, 0, 1, 0, .all, 0x04, 1, .u8, .ro, [0], .full⟩
/-- `SwitchoverFailRule`, R401. -/
def switchoverFailRule : Row := ⟨0x1300, 1, 0, 1, 0, .all, 0x05, 1, .u8, .ro, [0], .full⟩
/-- `SwitchoverFailObject`, R401. -/
def switchoverFailObject : Row := ⟨0x1300, 1, 0, 1, 0, .all, 0x06, 1, .u32, .ro, [0], .full⟩
/-- `SwitchoverTick`, R401. -/
def switchoverTick : Row := ⟨0x1300, 1, 0, 1, 0, .all, 0x07, 1, .u64, .ro, [0], .full⟩
/-- `SwitchoverScope`, R401. -/
def switchoverScope : Row := ⟨0x1300, 1, 0, 1, 0, .all, 0x08, 1, .u8, .ro, [255], .full⟩
/-- `SwitchoverCount`, R401. -/
def switchoverCount : Row := ⟨0x1300, 1, 0, 1, 0, .all, 0x09, 1, .u32, .ro, [0], .full⟩
/-- `SwitchoverLead`, R401. -/
def switchoverLead : Row := ⟨0x1301, 1, 0, 1, 0, .all, 0x00, 1, .u16, .rw, [4000], .span 2000 50000⟩
/-- `StagingIdleTimeout`, R401. -/
def stagingIdleTimeout : Row := ⟨0x1301, 1, 0, 1, 0, .all, 0x01, 1, .u16, .rw, [10], .span 1 600⟩
/-- `StagedList`, R401. -/
def stagedList : Row := ⟨0x1302, 1, 0, 1, 0, .all, 0x00, 1, .dom 16384, .ro, [0], .full⟩

-- Memory, R437
/-- `CorrectedWords`, R437. -/
def correctedWords : Row := ⟨0x7000, 1, 0, 1, 0, .all, 0x00, 1, .u64, .ro, [0], .full⟩
/-- `UncorrectableWords`, R437. -/
def uncorrectableWords : Row := ⟨0x7000, 1, 0, 1, 0, .all, 0x01, 1, .u64, .ro, [0], .full⟩
/-- `LastUncorrectableAddress`, R437. -/
def lastUncorrectableAddress : Row := ⟨0x7000, 1, 0, 1, 0, .all, 0x02, 1, .u64, .ro, [0], .full⟩
/-- `LastUncorrectableSyndrome`, R437. -/
def lastUncorrectableSyndrome : Row := ⟨0x7000, 1, 0, 1, 0, .all, 0x03, 1, .u8, .ro, [0], .full⟩
/-- `CacheLineRepairs`, R437. -/
def cacheLineRepairs : Row := ⟨0x7000, 1, 0, 1, 0, .all, 0x04, 1, .u32, .ro, [0], .full⟩
/-- `SpareRowsFree`, R437. -/
def spareRowsFree : Row := ⟨0x7001, 1, 0, 1, 0, .all, 0x00, 16, .u8, .ro, [16], .full⟩
/-- `RetiredRows`, R437. -/
def retiredRows : Row := ⟨0x7001, 1, 0, 1, 0, .all, 0x10, 1, .u16, .ro, [0], .full⟩
/-- `SelfTestResult`, R437. -/
def selfTestResult : Row := ⟨0x7010, 1, 0, 1, 0, .all, 0x00, 1, .u8, .ro, [0], .full⟩
/-- `SelfTestFailBanks`, R437. -/
def selfTestFailBanks : Row := ⟨0x7010, 1, 0, 1, 0, .all, 0x01, 1, .u16, .ro, [0], .full⟩
/-- `SelfTestTime`, R437. -/
def selfTestTime : Row := ⟨0x7010, 1, 0, 1, 0, .all, 0x02, 1, .u32, .ro, [0], .full⟩
/-- `SplitWriteEnable`, R437. -/
def splitWriteEnable : Row := ⟨0x7020, 1, 0, 1, 0, .all, 0x00, 1, .u8, .rw, [0], .values [0, 1]⟩
/-- `SplitAddress`, R437. -/
def splitAddress : Row := ⟨0x7020, 1, 0, 1, 0, .all, 0x01, 1, .u32, .rw, [16776192], .multiples 16776192 16777208 8⟩
/-- `SplitData`, R437. -/
def splitData : Row := ⟨0x7020, 1, 0, 1, 0, .all, 0x02, 1, .u64, .rw, [0], .full⟩
/-- `SplitCheck`, R437. -/
def splitCheck : Row := ⟨0x7020, 1, 0, 1, 0, .all, 0x03, 1, .u8, .rw, [0], .full⟩
/-- `SplitCommand`, R437. -/
def splitCommand : Row := ⟨0x7020, 1, 0, 1, 0, .all, 0x04, 1, .u8, .wo, [0], .span 1 3⟩
/-- `SplitReadData`, R437. -/
def splitReadData : Row := ⟨0x7020, 1, 0, 1, 0, .all, 0x05, 1, .u64, .ro, [0], .full⟩
/-- `SplitReadCheck`, R437. -/
def splitReadCheck : Row := ⟨0x7020, 1, 0, 1, 0, .all, 0x06, 1, .u8, .ro, [0], .full⟩
/-- `SplitSyndrome`, R437. -/
def splitSyndrome : Row := ⟨0x7020, 1, 0, 1, 0, .all, 0x07, 1, .u8, .ro, [0], .full⟩
/-- `SplitClass`, R437. -/
def splitClass : Row := ⟨0x7020, 1, 0, 1, 0, .all, 0x08, 1, .u8, .ro, [0], .full⟩
/-- `MergeEntriesUsed`, R437. -/
def mergeEntriesUsed : Row := ⟨0x7030, 1, 0, 1, 0, .all, 0x00, 1, .u8, .ro, [0], .full⟩
/-- `MergeDrainTime`, R437. -/
def mergeDrainTime : Row := ⟨0x7030, 1, 0, 1, 0, .all, 0x01, 1, .u16, .rw, [1000], .span 100 10000⟩
/-- `MergeReadModifyWrites`, R437. -/
def mergeReadModifyWrites : Row := ⟨0x7030, 1, 0, 1, 0, .all, 0x02, 1, .u64, .ro, [0], .full⟩
/-- `MergePoisoned`, R437. -/
def mergePoisoned : Row := ⟨0x7030, 1, 0, 1, 0, .all, 0x03, 1, .u32, .ro, [0], .full⟩

-- Memory, R438
/-- `ScrubStart`, R438. -/
def scrubStart : Row := ⟨0x7040, 1, 0, 1, 0, .all, 0x00, 1, .u32, .rw, [0], .multiples 0 16776184 8⟩
/-- `ScrubLength`, R438. -/
def scrubLength : Row := ⟨0x7040, 1, 0, 1, 0, .all, 0x01, 1, .u32, .rw, [16776192], .multiples 8 16776192 8⟩
/-- `ScrubShare`, R438. -/
def scrubShare : Row := ⟨0x7040, 1, 0, 1, 0, .all, 0x02, 1, .u8, .rw, [8], .span 1 64⟩
/-- `ScrubCommand`, R438. -/
def scrubCommand : Row := ⟨0x7040, 1, 0, 1, 0, .all, 0x03, 1, .u8, .wo, [0], .values [1, 2]⟩
/-- `ScrubState`, R438. -/
def scrubState : Row := ⟨0x7040, 1, 0, 1, 0, .all, 0x04, 1, .u8, .ro, [0], .full⟩
/-- `ScrubSummary`, R438. -/
def scrubSummary : Row := ⟨0x7040, 1, 0, 1, 0, .all, 0x05, 1, .dom 32, .ro, [0], .full⟩
/-- `TrackerEntriesUsed`, R438. -/
def trackerEntriesUsed : Row := ⟨0x7050, 1, 0, 1, 0, .all, 0x00, 1, .u8, .ro, [0], .full⟩
/-- `TrackerWriteBacks`, R438. -/
def trackerWriteBacks : Row := ⟨0x7050, 1, 0, 1, 0, .all, 0x01, 1, .u64, .ro, [0], .full⟩
/-- `TrackerPinned`, R438. -/
def trackerPinned : Row := ⟨0x7050, 1, 0, 1, 0, .all, 0x02, 1, .u8, .ro, [0], .full⟩
/-- `TrackerTable`, R438. -/
def trackerTable : Row := ⟨0x7050, 1, 0, 1, 0, .all, 0x03, 1, .dom 512, .ro, [0], .full⟩
/-- `CacheEnable`, R438. -/
def cacheEnable : Row := ⟨0x7060, 1, 0, 1, 0, .all, 0x00, 1, .u8, .rw, [1], .values [0, 1]⟩
/-- `WayMask`, R438. -/
def wayMask : Row := ⟨0x7060, 1, 0, 1, 0, .all, 0x01, 4, .u16, .rws, [255, 3840, 12288, 49152], .full⟩
/-- `LayByEnableMask`, R438. -/
def layByEnableMask : Row := ⟨0x7060, 1, 0, 1, 0, .all, 0x05, 1, .u8, .rws, [15], .span 0 15⟩
/-- `LayByFillThreshold`, R438. -/
def layByFillThreshold : Row := ⟨0x7060, 1, 0, 1, 0, .all, 0x06, 1, .u16, .rws, [7168], .span 1024 8192⟩
/-- `LayByLines`, R438. -/
def layByLines : Row := ⟨0x7060, 1, 0, 1, 0, .all, 0x07, 1, .u16, .ro, [0], .full⟩
/-- `CacheHits`, R438. -/
def cacheHits : Row := ⟨0x7061, 1, 0, 1, 0, .all, 0x00, 4, .u64, .ro, [0], .full⟩
/-- `CacheMisses`, R438. -/
def cacheMisses : Row := ⟨0x7061, 1, 0, 1, 0, .all, 0x04, 4, .u64, .ro, [0], .full⟩
/-- `LayByHits`, R438. -/
def layByHits : Row := ⟨0x7061, 1, 0, 1, 0, .all, 0x08, 4, .u64, .ro, [0], .full⟩
/-- `MaintenanceAddress`, R438. -/
def maintenanceAddress : Row := ⟨0x7062, 1, 0, 1, 0, .all, 0x00, 1, .u64, .rw, [0], .full⟩
/-- `MaintenanceCommand`, R438. -/
def maintenanceCommand : Row := ⟨0x7062, 1, 0, 1, 0, .all, 0x01, 1, .u8, .wo, [0], .span 1 7⟩
/-- `ZeroLineRefused`, R438. -/
def zeroLineRefused : Row := ⟨0x7062, 1, 0, 1, 0, .all, 0x02, 1, .u32, .ro, [0], .full⟩

-- Memory, R439
/-- `OnRampMode`, R439. -/
def onRampMode : Row := ⟨0x7100, 64, 1, 1, 0, .all, 0x00, 1, .u8, .rws, [0], .values [0, 1]⟩
/-- `OnRampActiveMode`, R439. -/
def onRampActiveMode : Row := ⟨0x7100, 64, 1, 1, 0, .all, 0x01, 1, .u8, .ro, [0], .full⟩
/-- `OnRampIdleTimeout`, R439. -/
def onRampIdleTimeout : Row := ⟨0x7100, 64, 1, 1, 0, .all, 0x02, 1, .u16, .rw, [20], .span 1 1000⟩
/-- `OnRampDepth`, R439. -/
def onRampDepth : Row := ⟨0x7100, 64, 1, 1, 0, .all, 0x03, 1, .u8, .ro, [0], .full⟩
/-- `OnRampCorrected`, R439. -/
def onRampCorrected : Row := ⟨0x7100, 64, 1, 1, 0, .all, 0x04, 1, .u32, .ro, [0], .full⟩
/-- `OnRampItemsLost`, R439. -/
def onRampItemsLost : Row := ⟨0x7100, 64, 1, 1, 0, .all, 0x05, 1, .u32, .ro, [0], .full⟩
/-- `IdleTimeoutsFired`, R439. -/
def idleTimeoutsFired : Row := ⟨0x7100, 64, 1, 1, 0, .all, 0x06, 1, .u32, .ro, [0], .full⟩
/-- `OnRampFullStalls`, R439. -/
def onRampFullStalls : Row := ⟨0x7100, 64, 1, 1, 0, .all, 0x07, 1, .u32, .ro, [0], .full⟩

-- Calibration, R463
/-- `CalEnable`, R463. -/
def calEnable : Row := ⟨0x7800, 1, 0, 1, 0, .all, 0x00, 1, .u8, .rw, [1], .values [0, 1]⟩
/-- `CalDeltaT`, R463. -/
def calDeltaT : Row := ⟨0x7800, 1, 0, 1, 0, .all, 0x01, 1, .u8, .rw, [4], .span 1 20⟩
/-- `CalTemperature`, R463. -/
def calTemperature : Row := ⟨0x7800, 1, 0, 1, 0, .all, 0x02, 1, .i16, .ro, [0], .full⟩
/-- `CalMaxDefer`, R463. -/
def calMaxDefer : Row := ⟨0x7800, 1, 0, 1, 0, .all, 0x03, 1, .u16, .rw, [60], .span 5 3600⟩
/-- `CalRetryDelay`, R463. -/
def calRetryDelay : Row := ⟨0x7800, 1, 0, 1, 0, .all, 0x04, 1, .u16, .rw, [60], .span 5 3600⟩
/-- `CalRetries`, R463. -/
def calRetries : Row := ⟨0x7800, 1, 0, 1, 0, .all, 0x05, 1, .u8, .rw, [3], .span 1 8⟩
/-- `CalMaxInterval`, R463. -/
def calMaxInterval : Row := ⟨0x7800, 1, 0, 1, 0, .all, 0x06, 1, .u16, .rw, [168], .span 0 8760⟩
/-- `CalRequest`, R463. -/
def calRequest : Row := ⟨0x7800, 1, 0, 1, 0, .all, 0x07, 1, .u16, .wo, [0], .full⟩
/-- `CalRestoreForeign`, R463. -/
def calRestoreForeign : Row := ⟨0x7800, 1, 0, 1, 0, .all, 0x08, 1, .u8, .rw, [0], .values [0, 1]⟩
/-- `CalRunsAgreed`, R463. -/
def calRunsAgreed : Row := ⟨0x7800, 1, 0, 1, 0, .all, 0x09, 1, .u32, .ro, [0], .full⟩
/-- `CalDisagreements`, R463. -/
def calDisagreements : Row := ⟨0x7800, 1, 0, 1, 0, .all, 0x0A, 1, .u32, .ro, [0], .full⟩
/-- `CalFailures`, R463. -/
def calFailures : Row := ⟨0x7800, 1, 0, 1, 0, .all, 0x0B, 1, .u32, .ro, [0], .full⟩
/-- `CalTolerance`, R463. -/
def calTolerance : Row := ⟨0x7801, 1, 0, 1, 0, .all, 0x01, 11, .u16, .rw, [20, 20, 80, 15, 33, 10, 10, 1, 30, 66, 50], .span 1 1000⟩
/-- `CalFocusScan`, R463. -/
def calFocusScan : Row := ⟨0x7802, 1, 0, 1, 0, .all, 0x00, 1, .u16, .rw, [600], .span 100 2000⟩
/-- `CalTrackScan`, R463. -/
def calTrackScan : Row := ⟨0x7802, 1, 0, 1, 0, .all, 0x01, 1, .u16, .rw, [200], .span 50 800⟩
/-- `CalTiltScan`, R463. -/
def calTiltScan : Row := ⟨0x7802, 1, 0, 1, 0, .all, 0x02, 1, .q15, .rw, [1024], .span 128 8192⟩

-- Calibration, R464
/-- `CalItemState`, R464. -/
def calItemState : Row := ⟨0x7810, 8, 1, 1, 0, .pickup, 0x01, 10, .u8, .ro, [0], .full⟩
/-- `CalItemState` of a spindle: item 11 only, R464. -/
def calItemStateSpindle : Row := ⟨0x7818, 4, 1, 1, 0, .spindle, 0x0B, 1, .u8, .ro, [0], .full⟩
/-- `CalItemTemperature`, R464. -/
def calItemTemperature : Row := ⟨0x7820, 8, 1, 1, 0, .pickup, 0x01, 10, .i16, .ro, [-32768], .full⟩
/-- `CalItemTemperature` of a spindle: item 11 only, R464. -/
def calItemTemperatureSpindle : Row := ⟨0x7828, 4, 1, 1, 0, .spindle, 0x0B, 1, .i16, .ro, [-32768], .full⟩

-- Calibration, R465
/-- `OperatingHours`, R465. -/
def operatingHours : Row := ⟨0x7840, 1, 0, 1, 0, .all, 0x00, 1, .u32, .ro, [0], .full⟩
/-- `LedgerInterval`, R465. -/
def ledgerInterval : Row := ⟨0x7840, 1, 0, 1, 0, .all, 0x01, 1, .u16, .rw, [24], .span 1 720⟩
/-- `LedgerTempWindow`, R465. -/
def ledgerTempWindow : Row := ⟨0x7840, 1, 0, 1, 0, .all, 0x02, 1, .u8, .rw, [5], .span 1 20⟩
/-- `AgeingLedger`, R465. -/
def ageingLedger : Row := ⟨0x7840, 1, 0, 1, 0, .all, 0x03, 1, .dom 36928, .rw, [0], .full⟩
/-- `LedgerEntriesUsed`, R465. -/
def ledgerEntriesUsed : Row := ⟨0x7840, 1, 0, 1, 0, .all, 0x04, 1, .u16, .ro, [0], .full⟩
/-- `AgeLimit`, R465. -/
def ageLimit : Row := ⟨0x7841, 1, 0, 1, 0, .all, 0x01, 11, .i32, .rw, [300, -300, 200, 200, 150, 150, 1000, -400, 100, 512, -2147483649], .full⟩
/-- `MarginPlanMode`, R465. -/
def marginPlanMode : Row := ⟨0x7860, 1, 0, 1, 0, .all, 0x00, 1, .u8, .rw, [2], .span 0 2⟩
/-- `MarginPlanRequest`, R465. -/
def marginPlanRequest : Row := ⟨0x7860, 1, 0, 1, 0, .all, 0x01, 1, .u8, .wo, [0], .values [1]⟩
/-- `RemainingMargin`, R465. -/
def remainingMargin : Row := ⟨0x7860, 1, 0, 1, 0, .all, 0x02, 1, .u8, .ro, [100], .full⟩
/-- `LimitingItem`, R465. -/
def limitingItem : Row := ⟨0x7860, 1, 0, 1, 0, .all, 0x03, 1, .u16, .ro, [0], .full⟩
/-- `MarginHoursLeft`, R465. -/
def marginHoursLeft : Row := ⟨0x7860, 1, 0, 1, 0, .all, 0x04, 1, .u32, .ro, [4294967295], .full⟩
/-- `PlanCount`, R465. -/
def planCount : Row := ⟨0x7860, 1, 0, 1, 0, .all, 0x05, 1, .u32, .ro, [0], .full⟩
/-- `PlanRefusals`, R465. -/
def planRefusals : Row := ⟨0x7860, 1, 0, 1, 0, .all, 0x06, 1, .u32, .ro, [0], .full⟩
/-- `PlanProposal`, R465. -/
def planProposal : Row := ⟨0x7860, 1, 0, 1, 0, .all, 0x07, 1, .dom 4096, .ro, [0], .full⟩
/-- `NotchWidth`, R465. -/
def notchWidth : Row := ⟨0x7860, 1, 0, 1, 0, .all, 0x08, 1, .u16, .rw, [2000], .span 200 10000⟩

-- Calibration, R466
/-- `NotchSlotTracking`, R466. -/
def notchSlotTracking : Row := ⟨0x7870, 8, 1, 1, 0, .pickup, 0x00, 1, .u8, .rw, [2], .spanOr 0 5 0xFF⟩
/-- `NotchSlotFocus`, R466. -/
def notchSlotFocus : Row := ⟨0x7870, 8, 1, 1, 0, .pickup, 0x01, 1, .u8, .rw, [255], .spanOr 0 5 0xFF⟩
/-- `PlanGainScale`, R466. -/
def planGainScale : Row := ⟨0x7870, 8, 1, 1, 0, .pickup, 0x02, 2, .u16, .ro, [1024], .full⟩
/-- `GainBase`, R466. -/
def gainBase : Row := ⟨0x7870, 8, 1, 1, 0, .pickup, 0x04, 2, .u32, .ro, [0], .full⟩
/-- `ReassignSetpointMeasured`, R466. -/
def reassignSetpointMeasured : Row := ⟨0x7870, 8, 1, 1, 0, .pickup, 0x06, 1, .u16, .ro, [1211], .full⟩
/-- `ReassignGainScaleMeasured`, R466. -/
def reassignGainScaleMeasured : Row := ⟨0x7870, 8, 1, 1, 0, .pickup, 0x07, 1, .u16, .ro, [3314], .full⟩
/-- `TrackingResonance`, R466. -/
def resonance : Row := ⟨0x7870, 8, 1, 1, 0, .pickup, 0x08, 2, .u16, .ro, [0], .full⟩
/-- `FocusLensTravelPerUnit`, R466. -/
def focusLensTravelPerUnit : Row := ⟨0x7870, 8, 1, 1, 0, .pickup, 0x0A, 1, .u32, .rw, [500000], .span 50000 2000000⟩
/-- `CalibrationSet`, R466. -/
def calibrationSet : Row := ⟨0x7880, 1, 0, 1, 0, .all, 0x00, 9, .dom 8256, .rw, [0], .full⟩
/-- `CalSetGeneration`, R466. -/
def calSetGeneration : Row := ⟨0x7881, 1, 0, 1, 0, .all, 0x00, 9, .u32, .ro, [0], .full⟩

-- Recorder, R499
/-- `NextSequence`, R499. -/
def nextSequence : Row := ⟨0x8000, 1, 0, 1, 0, .all, 0x00, 1, .u64, .ro, [0], .full⟩
/-- `BacklogRecords`, R499. -/
def backlogRecords : Row := ⟨0x8000, 1, 0, 1, 0, .all, 0x01, 1, .u16, .ro, [0], .full⟩
/-- `BacklogLimit`, R499. -/
def backlogLimit : Row := ⟨0x8000, 1, 0, 1, 0, .all, 0x02, 1, .u16, .ro, [168], .full⟩
/-- `OriginRecords`, R499. -/
def originRecords : Row := ⟨0x8000, 1, 0, 1, 0, .all, 0x03, 1, .u16, .ro, [0], .full⟩
/-- `RunningFirstSequence`, R499. -/
def runningFirstSequence : Row := ⟨0x8000, 1, 0, 1, 0, .all, 0x04, 1, .u64, .ro, [0], .full⟩
/-- `RunningLastSequence`, R499. -/
def runningLastSequence : Row := ⟨0x8000, 1, 0, 1, 0, .all, 0x05, 1, .u64, .ro, [0], .full⟩
/-- `RunningCapacity`, R499. -/
def runningCapacity : Row := ⟨0x8000, 1, 0, 1, 0, .all, 0x06, 1, .u16, .ro, [32768], .full⟩
/-- `NorState`, R499. -/
def norState : Row := ⟨0x8000, 1, 0, 1, 0, .all, 0x07, 1, .u8, .ro, [0], .full⟩
/-- `RecordsSuppressed`, R499. -/
def recordsSuppressed : Row := ⟨0x8000, 1, 0, 1, 0, .all, 0x08, 1, .u64, .ro, [0], .full⟩
/-- `QueueOverflows`, R499. -/
def queueOverflows : Row := ⟨0x8000, 1, 0, 1, 0, .all, 0x09, 1, .u64, .ro, [0], .full⟩
/-- `NorGapRecords`, R499. -/
def norGapRecords : Row := ⟨0x8000, 1, 0, 1, 0, .all, 0x0A, 1, .u64, .ro, [0], .full⟩
/-- `FlushTimeMax`, R499. -/
def flushTimeMax : Row := ⟨0x8000, 1, 0, 1, 0, .all, 0x0B, 1, .u32, .rw, [0], .full⟩
/-- `EventReadSequence`, R499. -/
def eventReadSequence : Row := ⟨0x8001, 1, 0, 1, 0, .all, 0x00, 1, .u64, .rw, [0], .full⟩
/-- `EventWindow`, R499. -/
def eventWindow : Row := ⟨0x8001, 1, 0, 1, 0, .all, 0x01, 1, .dom 4096, .ro, [0], .full⟩
/-- `OriginReadIndex`, R499. -/
def originReadIndex : Row := ⟨0x8001, 1, 0, 1, 0, .all, 0x02, 1, .u16, .rw, [0], .span 0 4095⟩
/-- `OriginWindow`, R499. -/
def originWindow : Row := ⟨0x8001, 1, 0, 1, 0, .all, 0x03, 1, .dom 4096, .ro, [0], .full⟩
/-- `FlushRequest`, R499. -/
def flushRequest : Row := ⟨0x8002, 1, 0, 1, 0, .all, 0x00, 1, .u8, .wo, [0], .values [1]⟩
/-- `RunningAreaClear`, R499. -/
def runningAreaClear : Row := ⟨0x8002, 1, 0, 1, 0, .all, 0x01, 1, .u64, .rwa, [0], .full⟩
/-- `EventStoreInit`, R499. -/
def eventStoreInit : Row := ⟨0x8002, 1, 0, 1, 0, .all, 0x02, 1, .u8, .rwa, [0], .values [1]⟩
/-- `TickMarkInterval`, R499. -/
def tickMarkInterval : Row := ⟨0x8003, 1, 0, 1, 0, .all, 0x00, 1, .u16, .rw, [60], .span 1 3600⟩
/-- `SummaryMaxDelay`, R499. -/
def summaryMaxDelay : Row := ⟨0x8003, 1, 0, 1, 0, .all, 0x01, 1, .u16, .rw, [1000], .span 100 60000⟩
/-- `FreezeBefore`, R499. -/
def freezeBefore : Row := ⟨0x8003, 1, 0, 1, 0, .all, 0x02, 1, .u8, .rws, [64], .span 0 72⟩
/-- `FreezeAfter`, R499. -/
def freezeAfter : Row := ⟨0x8003, 1, 0, 1, 0, .all, 0x03, 1, .u8, .rws, [64], .span 0 72⟩
/-- `RatePolicy`, R499. -/
def ratePolicy : Row := ⟨0x8100, 1, 0, 1, 0, .all, 0x00, 64, .u64, .rw,
    [937029097958146051, 864971503920218115, 73464964626778125, 433752934816417805, 434878830428293133, 
     435441784676681741, 649362766977568781, 505247578900924421, 365073040499017733, 361695336484311045, 
     290482171671486469, 73183489650331649, 649081292000333825, 612771020005187585, 578712547824246785, 0, 0, 0, 0, 0, 0, 
     0, 0, 0, 0, 0, 0, 0, 0, 0, 0, 0, 0, 0, 0, 0, 0, 0, 0, 0, 0, 0, 0, 0, 0, 0, 0, 0, 0, 0, 0, 0, 0, 0, 0, 0, 0, 0, 0, 0, 
     0, 0, 0, 1056769], .full⟩

-- Recorder, R500
/-- `MilestoneTriggerEnable`, R500. -/
def milestoneTriggerEnable : Row := ⟨0x8200, 1, 0, 1, 0, .all, 0x00, 1, .u8, .rw, [31], .span 0 31⟩
/-- `MilestoneRequest`, R500. -/
def milestoneRequest : Row := ⟨0x8200, 1, 0, 1, 0, .all, 0x01, 1, .u8, .wo, [0], .values [1]⟩
/-- `MilestoneMatchCode`, R500. -/
def milestoneMatchCode : Row := ⟨0x8200, 1, 0, 1, 0, .all, 0x02, 1, .u16, .rw, [0], .full⟩
/-- `MilestoneMatchMask`, R500. -/
def milestoneMatchMask : Row := ⟨0x8200, 1, 0, 1, 0, .all, 0x03, 1, .u16, .rw, [0], .full⟩
/-- `MilestoneDefectMask`, R500. -/
def milestoneDefectMask : Row := ⟨0x8200, 1, 0, 1, 0, .all, 0x04, 1, .u8, .rw, [0], .span 0 255⟩
/-- `MilestoneDefectCauses`, R500. -/
def milestoneDefectCauses : Row := ⟨0x8200, 1, 0, 1, 0, .all, 0x05, 1, .u16, .rw, [7], .span 0 0x1FF⟩
/-- `MilestoneBallOut`, R500. -/
def milestoneBallOut : Row := ⟨0x8200, 1, 0, 1, 0, .all, 0x06, 1, .u8, .rw, [0], .values [0, 1]⟩
/-- `MilestoneState`, R500. -/
def milestoneState : Row := ⟨0x8200, 1, 0, 1, 0, .all, 0x07, 1, .u8, .ro, [0], .full⟩
/-- `MilestoneRelease`, R500. -/
def milestoneRelease : Row := ⟨0x8200, 1, 0, 1, 0, .all, 0x08, 1, .u8, .wo, [0], .values [1]⟩
/-- `MilestonesMissed`, R500. -/
def milestonesMissed : Row := ⟨0x8200, 1, 0, 1, 0, .all, 0x09, 1, .u32, .ro, [0], .full⟩
/-- `MilestoneCapture`, R500. -/
def milestoneCapture : Row := ⟨0x8200, 1, 0, 1, 0, .all, 0x0A, 1, .dom 3136, .ro, [0], .full⟩
/-- `TraceSource`, R500. -/
def traceSource : Row := ⟨0x8300, 8, 1, 1, 0, .all, 0x00, 1, .u16, .rw, [8192], .full⟩
/-- `TraceDecimation`, R500. -/
def traceDecimation : Row := ⟨0x8300, 8, 1, 1, 0, .all, 0x01, 1, .u8, .rw, [0], .span 0 12⟩
/-- `TraceMode`, R500. -/
def traceMode : Row := ⟨0x8300, 8, 1, 1, 0, .all, 0x02, 1, .u8, .rw, [0], .span 0 2⟩
/-- `TracePostSamples`, R500. -/
def tracePostSamples : Row := ⟨0x8300, 8, 1, 1, 0, .all, 0x03, 1, .u16, .rw, [32768], .span 0 65535⟩
/-- `TraceCommand`, R500. -/
def traceCommand : Row := ⟨0x8300, 8, 1, 1, 0, .all, 0x04, 1, .u8, .wo, [0], .values [1, 2]⟩
/-- `TraceState`, R500. -/
def traceState : Row := ⟨0x8300, 8, 1, 1, 0, .all, 0x05, 1, .u8, .ro, [0], .full⟩
/-- `TraceStartN`, R500. -/
def traceStartN : Row := ⟨0x8300, 8, 1, 1, 0, .all, 0x06, 1, .u64, .ro, [0], .full⟩
/-- `TraceStopN`, R500. -/
def traceStopN : Row := ⟨0x8300, 8, 1, 1, 0, .all, 0x07, 1, .u64, .ro, [0], .full⟩
/-- `TraceWindowSelect`, R500. -/
def traceWindowSelect : Row := ⟨0x8300, 8, 1, 1, 0, .all, 0x08, 1, .u8, .rw, [0], .span 0 15⟩
/-- `TraceWindow`, R500. -/
def traceWindow : Row := ⟨0x8300, 8, 1, 1, 0, .all, 0x09, 1, .dom 16384, .ro, [0], .full⟩

-- Power, R529
/-- `VergeTick`, R529. -/
def vergeTick : Row := ⟨0x1A00, 1, 0, 1, 0, .all, 0x00, 1, .u64, .ro, [0], .full⟩
/-- `VergeTickBase`, R529. -/
def vergeTickBase : Row := ⟨0x1A00, 1, 0, 1, 0, .all, 0x01, 1, .u64, .ro, [0], .full⟩
/-- `TimeOfDay`, R529. -/
def timeOfDay : Row := ⟨0x1A00, 1, 0, 1, 0, .all, 0x02, 1, .u64, .rw, [0], .full⟩
/-- `VergePowerLost`, R529. -/
def vergePowerLost : Row := ⟨0x1A00, 1, 0, 1, 0, .all, 0x03, 1, .u8, .ro, [1], .full⟩
/-- `WakeCause`, R529. -/
def wakeCause : Row := ⟨0x1A00, 1, 0, 1, 0, .all, 0x04, 1, .u8, .ro, [0], .full⟩
/-- `DoorTripped`, R529. -/
def doorTripped : Row := ⟨0x1A00, 1, 0, 1, 0, .all, 0x05, 1, .u8, .ro, [0], .full⟩
/-- `LeaseEndKept`, R529. -/
def leaseEndKept : Row := ⟨0x1A00, 1, 0, 1, 0, .all, 0x06, 1, .u64, .ro, [0], .full⟩
/-- `CompState`, R529. -/
def compState : Row := ⟨0x1A10, 4, 1, 1, 0, .all, 0x00, 1, .u8, .ro, [0], .full⟩
/-- `CompThreshold`, R529. -/
def compThreshold : Row := ⟨0x1A10, 4, 1, 1, 0, .all, 0x01, 1, .u16, .rw, [1000, 900, 900, 10500], .span 100 11000⟩
/-- `CompFilter`, R529. -/
def compFilter : Row := ⟨0x1A10, 4, 1, 1, 0, .all, 0x02, 1, .u16, .rw, [100], .span 10 10000⟩
/-- `CompWakeEnable`, R529. -/
def compWakeEnable : Row := ⟨0x1A10, 4, 1, 1, 0, .all, 0x03, 1, .u8, .rw, [1], .values [0, 1]⟩
/-- `CompTripCount`, R529. -/
def compTripCount : Row := ⟨0x1A10, 4, 1, 1, 0, .all, 0x04, 1, .u32, .ro, [0], .full⟩

-- Power, R530
/-- `QuietPllLocked`, R530. -/
def quietPllLocked : Row := ⟨0x9000, 1, 0, 1, 0, .all, 0x00, 1, .u8, .ro, [0], .full⟩
/-- `SystemPllLocked`, R530. -/
def systemPllLocked : Row := ⟨0x9000, 1, 0, 1, 0, .all, 0x01, 1, .u8, .ro, [0], .full⟩
/-- `SpreadDepth`, R530. -/
def spreadDepth : Row := ⟨0x9000, 1, 0, 1, 0, .all, 0x02, 1, .u8, .rws, [4], .span 0 4⟩
/-- `SpreadRate`, R530. -/
def spreadRate : Row := ⟨0x9000, 1, 0, 1, 0, .all, 0x03, 1, .u16, .rws, [31500], .span 30000 33000⟩
/-- `DieTemperature`, R530. -/
def dieTemperature : Row := ⟨0x9000, 1, 0, 1, 0, .all, 0x04, 1, .i16, .ro, [0], .full⟩
/-- `QuietUnlockCount`, R530. -/
def quietUnlockCount : Row := ⟨0x9000, 1, 0, 1, 0, .all, 0x05, 1, .u32, .ro, [0], .full⟩
/-- `CrossingForward`, R530. -/
def crossingForward : Row := ⟨0x9001, 1, 0, 1, 0, .all, 0x00, 48, .u16, .ro, [0], .full⟩
/-- `RingOscDelay`, R530. -/
def ringOscDelay : Row := ⟨0x9002, 1, 0, 1, 0, .all, 0x00, 48, .u16, .ro, [0], .full⟩

-- Power, R531
/-- `LastResetCause`, R531. -/
def lastResetCause : Row := ⟨0x9010, 1, 0, 1, 0, .all, 0x00, 1, .u8, .ro, [0], .full⟩
/-- `StartupTime`, R531. -/
def startupTime : Row := ⟨0x9010, 1, 0, 1, 0, .all, 0x01, 1, .u32, .ro, [0], .full⟩
/-- `StartupFailCause`, R531. -/
def startupFailCause : Row := ⟨0x9010, 1, 0, 1, 0, .all, 0x02, 1, .u8, .ro, [0], .full⟩
/-- `WatchdogTimeout`, R531. -/
def watchdogTimeout : Row := ⟨0x9010, 1, 0, 1, 0, .all, 0x03, 1, .u16, .rw, [500], .span 100 10000⟩
/-- `IslandResetRequest`, R531. -/
def islandResetRequest : Row := ⟨0x9010, 1, 0, 1, 0, .all, 0x04, 1, .u8, .rwa, [0], .span 0 44⟩
/-- `ResetCount`, R531. -/
def resetCount : Row := ⟨0x9011, 1, 0, 1, 0, .all, 0x00, 6, .u32, .ro, [0], .full⟩

-- Power, R532
/-- `BootSlot`, R532. -/
def bootSlot : Row := ⟨0xA000, 1, 0, 1, 0, .all, 0x00, 1, .u8, .ro, [0], .full⟩
/-- `PendingSlot`, R532. -/
def pendingSlot : Row := ⟨0xA000, 1, 0, 1, 0, .all, 0x01, 1, .u8, .ro, [255], .full⟩
/-- `RollbackCounter`, R532. -/
def rollbackCounter : Row := ⟨0xA000, 1, 0, 1, 0, .all, 0x02, 1, .u8, .ro, [0], .full⟩
/-- `KeyRevokeMask`, R532. -/
def keyRevokeMask : Row := ⟨0xA000, 1, 0, 1, 0, .all, 0x03, 1, .u8, .ro, [0], .full⟩
/-- `FirmwareKeyRevoke`, R532. -/
def firmwareKeyRevoke : Row := ⟨0xA000, 1, 0, 1, 0, .all, 0x04, 1, .u8, .rwa, [0], .span 0 3⟩
/-- `SlotState`, R532. -/
def slotState : Row := ⟨0xA001, 1, 0, 1, 0, .all, 0x00, 2, .u8, .ro, [0], .full⟩
/-- `SlotHeader`, R532. -/
def slotHeader : Row := ⟨0xA002, 1, 0, 1, 0, .all, 0x00, 2, .dom 128, .ro, [0], .full⟩

-- Pads, R551
/-- `PdQuadrantGain`, R551. -/
def pdQuadrantGain : Row := ⟨0x3020, 8, 0x100, 1, 0, .pickup, 0x00, 1, .u8, .rws, [1], .span 0 3⟩
/-- `PdHalfSumGain`, R551. -/
def pdHalfSumGain : Row := ⟨0x3020, 8, 0x100, 1, 0, .pickup, 0x01, 1, .u8, .rws, [1], .span 0 3⟩
/-- `PadDrive`, R551. -/
def padDrive : Row := ⟨0x9100, 1, 0, 1, 0, .all, 0x00, 7, .u8, .rw, [4, 4, 4, 4, 9, 9, 4], .span 0 13⟩
/-- `RgmiiTxDelay`, R551. -/
def rgmiiTxDelay : Row := ⟨0x9101, 1, 0, 1, 0, .all, 0x00, 1, .u8, .rw, [1], .values [0, 1]⟩
/-- `LvdsSwing`, R551. -/
def lvdsSwing : Row := ⟨0x9102, 1, 0, 1, 0, .all, 0x00, 1, .u8, .rws, [1], .span 0 2⟩

/-- Objects of the chapter "Scope". -/
def rowsScope : List Row :=
  [variantCode, enabledSpindleMask, enabledPickupMask, sledEncoderPresent]
/-- Objects of the chapter "Servo". -/
def rowsServo : List Row :=
  [highestSub, biquadCoeff, ssA, ssB, ssC, ssD, ssShift, biquadsUsed, ssOrder, integratorState, engineState,
   loopClosedMask, defectHoldCause, servoOverrunStatus, trackingResidualRms, focusResidualRms, wobbleCount,
   trackingOverrunCount, focusOverrunCount, skewOverrunCount, tiltOverrunCount, sledOuterOverrunCount,
   loopFaultCount, defectHoldRequest, trackingErrorGain, focusErrorGain, skewErrorGain, tiltErrorGain,
   lensShiftGain, lensShiftCorner, sumFloor, wobbleFloor, trackingOffset, focusOffset, tiltOffset,
   skewFeedforwardK0, skewFeedforwardK1, limit, slew, slewSkewTilt] ++
  [rcGain, rcPhaseAdvance, trackingResidualLimit, trackingResidualCount, focusResidualLimit, focusResidualCount,
   sumDropLevel, sumDropCount, focusLostLevel, focusLostCount, sumMeanShift, trackingPlant, focusPlant,
   setpointSource, extInjectionMode, extScale, extLimit]
/-- Objects of the chapter "Acquisition". -/
def rowsAcquisition : List Row :=
  [mountRequest, mountSpindleSpeed, acqPhase, mountResult, currentLane, currentLayer, lawDiscardRun, lawGoodCount,
   lawDiscardCount, holdTimeoutCount, recoveryCount, seekRequest, parkRequest, holdRelease, focusSearchStart,
   focusSearchEnd, focusSearchTime, focusSearchSweeps, layerSumMin, focusSettleLevel, captureVelocity,
   captureTimeout, captureSettleLevel, crossWobbleLevel, shortSeekLanes, shortSeekAccel, shortSeekVmax,
   shortSeekTimeout, longSeekTimeout, longSeekPasses, lawMissLimit, jumpKick, jumpKickTime, jumpBrakeTime,
   jumpWindow, jumpAttempts, holdExitTrackLevel, holdExitFocusLevel, holdExitSumLevel, holdExitCount] ++
  [holdTimeout, recoveryAttempts, focusRecoverSpan, refaultWindow, mapLearnMinRevs, mapLearnMaxRevs, mapLearnGain,
   mapConvergeLevel, mapTrackShift, sledMicrostepPitch, lensShiftPerUnit, sledSlipLimit, sledSearchStep,
   sledSearchMoves, runoutMapState, runoutMap]
/-- Objects of the chapter "Channel". -/
def rowsChannel : List Row :=
  [channelState, frameLock, channelRate, vgaGain, timingFreqOffset, adcOffset, envelopeMean, wobbleAmplitude,
   phaseResidualRms, frameStatusLast, framesStored, headerFirstCount, secondCandidateCount, flywheelCount,
   headerInvalidCount, headerMismatchCount, erasedCodedBits, envDropRuns, guideDropRuns, frameStoreOverflows,
   timingUnlockCount, lockLossCount, acCorner, ctfCornerRatio, ctfBoost, agcTarget, agcMuShift, agcHold,
   vgaGainInit, offsetMuShift, blankLevel, firTap, firTapInit, firMuShift, firAdaptEnable, targetScale, llrScale,
   timingKpShift, timingKiShift, timingAcqKpShift] ++
  [timingAcqKiShift, timingAcqBits, timingPullRange, timingRelockBits, wobbleRejectEnable, wobbleMuShift,
   itiCoupling, itiCouplingInit, itiMuShift, itiAdaptEnable, itiLimit, itiFracDelay, envDropLevel, envDropCount,
   erasureGuard, guideDropLevel, guideDropCount, guideFlagEnable, guideToBeamDelay, waymarkWindow, waymarkMinScore,
   waymarkMissLimit]
/-- Objects of the chapter "Decoding". -/
def rowsDecoding : List Row :=
  [ldpcMaxIterations, ldpcOffset, abandonBits, byteEraseFloor, fillLlr, jointRounds, outerMaxErrors, chainFrames,
   ldpcBaseMatrix, poolBusy, poolQueueDepth, poolQueueDepthMax, workspaceClusters, codewordsDecoded,
   codewordsFirstPassFailed, codewordsAbandoned, iterationsTotal, clusterDecodes, clustersRecoveredByDecode,
   ladders, clustersUnrecovered, sectorsReadmitted, outerConflicts, overflowRereads, detourOrder, detourBudget,
   detourIterations, detourTrackStep, detourFocusStep, detourEqMuStep, detourSpeedRatio, reassignSetpoint,
   reassignGainScale, detourRungsRun, detourRungsDecisive, detourRungsSkipped]
/-- Objects of the chapter "Write". -/
def rowsWrite : List Row :=
  [writeRunClusters, runFormTimeout, verifyMaxIterations, verifyMaxErased, replaceAttempts, checkpointClusters,
   opcMargin, powerLoopShift, powerMonitorFrames, writeState, clusterWriteCount, runStart, runClusters, discId,
   journalPairsFree, sparesFree, pcaSegmentsLeft, clustersCommitted, verifyFailures, replacements, refusedArms,
   gateInhibits, notBlankTrips, rawMarginIterations, digestZoneSelect, digestValue, digestClusters, digestState,
   readPowerGuide, readPower, peakPower, coolPower, topStart, endShift, coolLength]
/-- Objects of the chapter "Spindle". -/
def rowsSpindle : List Row :=
  [spindleState, speedMeasured, speedReference, speedSource, wobbleSourcePickup, speedErrorPpm, vbusMeasured,
   torqueCommand, currentD, currentQ, spindleFault, activeMode, rateMatchState, startsFromRest, catchSpins,
   brakedStarts, startFailures, observerLosses, reacquisitions, giveUps, regenFoldbacks, vbusTrips,
   overcurrentTrips, gateDriverFaults, chopperOnTime, lossBrakeEnergy, revolutionsTotal, spindleCommand, polePairs,
   phaseResistance, inductanceD, inductanceQ, fluxLinkage, rotorInertia, frictionTorque, spindleSenseScale,
   voltageSenseRatio, controlMode, currentKp, currentKi] ++
  [phaseCurrentMax, iqMax, phaseCurrentTrip, pwmDeadTime, observerBandwidth, pllBandwidth, bemfTolerance,
   plausibilityMinSpeed, reacquireAttempts, fluxReference, fluxBand, torqueBand, fluxDriftCorner, speedKp, speedKi,
   phaseLockGain, nMax, targetChannelRate, speedSlewLimit, speedSettleTime, reverseSpeed, alignCurrent, alignTime,
   rampCurrent, rampAccel, handoverSpeed, rampLimitSpeed, startAttempts, regenLimit, regenBand, lossBrakeLevel,
   lossBrakeMode, lossBrakeRate, idBrakeMax, shortBrakeCurrent, vbusTrip, vbusLow, chopperEnable, chopperOn,
   chopperOff] ++
  [rateMatchEnable, rateMatchMinRate, rateMatchFillWrite, rateMatchFillRead, rateMatchGain, rateMatchWindow,
   streamRuns, streamReads]
/-- Objects of the chapter "Axis". -/
def rowsAxis : List Row :=
  [axisState, positionValid, setpointPosition, encoderPosition, deviation, axisSpeed, coilCurrent, loadAngle,
   axisFault, lastCommandResult, setpointWord, movesCompleted, axisStalls, positionLossCount, encoderErrorCount,
   axisVmax, axisAccel, axisDecel, sledOuterMaxStep, softLimitMin, softLimitMax, axisMoveTarget, axisCommand,
   runCurrent, holdCurrent, holdDelay, coilCurrentMin, coilCurrentMax, coilCurrentTrip, coilResistance,
   coilInductance, axisSenseScale, stallWindow, stallCountLimit, encoderMicrosteps, encoderDirection,
   loadAngleLimit, loadAngleTarget, loadAngleMinSpeed, backEmfConstant] ++
  [stallEmfRatio, currentAdaptGain, stallRetryDelay, stallRetries, encoderEnable, homeDirection, homingSpeed,
   homePosition, inputFilter, homeLockout, chatterLimit, inputPolarity, chatterCount, axisSource, extStepScale,
   extAnalogScale, extCentre]
/-- Objects of the chapter "Host". -/
def rowsHost : List Row :=
  [tollgateEntriesUsed, tollgateEntriesMax, tollgateStalls, tollgateFullStalls, queuePoolSqUsed, queuePoolCqUsed,
   powerState, selfTestState, selfTestSegment, pciVendorId, pciDeviceId, serialNumber, modelNumber, linkState,
   linkRate, linkWidth, controllerState, sqCount, cqCount, commandsCompleted, errorCompletions, abortsSucceeded,
   abortsNotAborted, controllerResets, urgentBoundMisses, fetchRoundTripMax, latencyHistogram, latencyReset,
   namespaceState, openZones, activeZones, fullZones, readOnlyZones, writeBufferClusters, fillerBlocks]
/-- Objects of the chapter "Signpost". -/
def rowsSignpost : List Row :=
  [vendorName, deviceName, hardwareRevision, firmwareRevision, dieIdentity, dictionaryVersion, enumeratedCount,
   canEnable, canNominalRate, canDataRate, canIdFormat, canRequestId, canResponseId, canState, canBusOffCount,
   canMessagesReceived, canFramesIgnored, ethEnable, macAddress, ipv4Address, ipv4Netmask, ipv4Gateway, ipv6Enable,
   ipv6Address, ipv6PrefixLength, udpPort, ethLinkState, udpRequests, udpDuplicates, udpDropped, carrierWriteMask,
   serverQueueDepth, requestsServed, requestsAborted, lastAbortCode, sessionsOpen, sessionTimeout, serviceTimeMax,
   authChallenge, authNonceLifetime] ++
  [authFailLimit, authFailCount, authLockoutTime, authWrites, switchoverRequest, switchoverState, stagingOwner,
   stagedCount, switchoverResult, switchoverFailRule, switchoverFailObject, switchoverTick, switchoverScope,
   switchoverCount, switchoverLead, stagingIdleTimeout, stagedList]
/-- Objects of the chapter "Memory". -/
def rowsMemory : List Row :=
  [correctedWords, uncorrectableWords, lastUncorrectableAddress, lastUncorrectableSyndrome, cacheLineRepairs,
   spareRowsFree, retiredRows, selfTestResult, selfTestFailBanks, selfTestTime, splitWriteEnable, splitAddress,
   splitData, splitCheck, splitCommand, splitReadData, splitReadCheck, splitSyndrome, splitClass, mergeEntriesUsed,
   mergeDrainTime, mergeReadModifyWrites, mergePoisoned, scrubStart, scrubLength, scrubShare, scrubCommand,
   scrubState, scrubSummary, trackerEntriesUsed, trackerWriteBacks, trackerPinned, trackerTable, cacheEnable,
   wayMask, layByEnableMask, layByFillThreshold, layByLines, cacheHits, cacheMisses] ++
  [layByHits, maintenanceAddress, maintenanceCommand, zeroLineRefused, onRampMode, onRampActiveMode,
   onRampIdleTimeout, onRampDepth, onRampCorrected, onRampItemsLost, idleTimeoutsFired, onRampFullStalls]
/-- Objects of the chapter "Calibration". -/
def rowsCalibration : List Row :=
  [calEnable, calDeltaT, calTemperature, calMaxDefer, calRetryDelay, calRetries, calMaxInterval, calRequest,
   calRestoreForeign, calRunsAgreed, calDisagreements, calFailures, calTolerance, calFocusScan, calTrackScan,
   calTiltScan, calItemState, calItemStateSpindle, calItemTemperature, calItemTemperatureSpindle, operatingHours, ledgerInterval, ledgerTempWindow, ageingLedger,
   ledgerEntriesUsed, ageLimit, marginPlanMode, marginPlanRequest, remainingMargin, limitingItem, marginHoursLeft,
   planCount, planRefusals, planProposal, notchWidth, notchSlotTracking, notchSlotFocus, planGainScale, gainBase,
   reassignSetpointMeasured, reassignGainScaleMeasured, resonance] ++
  [focusLensTravelPerUnit, calibrationSet, calSetGeneration]
/-- Objects of the chapter "Recorder". -/
def rowsRecorder : List Row :=
  [nextSequence, backlogRecords, backlogLimit, originRecords, runningFirstSequence, runningLastSequence,
   runningCapacity, norState, recordsSuppressed, queueOverflows, norGapRecords, flushTimeMax, eventReadSequence,
   eventWindow, originReadIndex, originWindow, flushRequest, runningAreaClear, eventStoreInit, tickMarkInterval,
   summaryMaxDelay, freezeBefore, freezeAfter, ratePolicy, milestoneTriggerEnable, milestoneRequest,
   milestoneMatchCode, milestoneMatchMask, milestoneDefectMask, milestoneDefectCauses, milestoneBallOut,
   milestoneState, milestoneRelease, milestonesMissed, milestoneCapture, traceSource, traceDecimation, traceMode,
   tracePostSamples, traceCommand] ++
  [traceState, traceStartN, traceStopN, traceWindowSelect, traceWindow]
/-- Objects of the chapter "Power". -/
def rowsPower : List Row :=
  [vergeTick, vergeTickBase, timeOfDay, vergePowerLost, wakeCause, doorTripped, leaseEndKept, compState,
   compThreshold, compFilter, compWakeEnable, compTripCount, quietPllLocked, systemPllLocked, spreadDepth,
   spreadRate, dieTemperature, quietUnlockCount, crossingForward, ringOscDelay, lastResetCause, startupTime,
   startupFailCause, watchdogTimeout, islandResetRequest, resetCount, bootSlot, pendingSlot, rollbackCounter,
   keyRevokeMask, firmwareKeyRevoke, slotState, slotHeader]
/-- Objects of the chapter "Pads". -/
def rowsPads : List Row :=
  [pdQuadrantGain, pdHalfSumGain, padDrive, rgmiiTxDelay, lvdsSwing]
/-- Every object. -/
def rows : List Row :=

     rowsScope ++ rowsServo ++ rowsAcquisition ++ rowsChannel ++ rowsDecoding ++ rowsWrite ++ rowsSpindle ++ rowsAxis ++ rowsHost ++ rowsSignpost ++ rowsMemory ++ rowsCalibration ++ rowsRecorder ++ rowsPower ++ rowsPads

end Obj

/-- Instance of the row at an index. -/
def Row.instanceAt (r : Row) (idx : Nat) : Option Nat :=
  (List.range (r.count * r.count2)).find? fun i => r.index i == idx

/-- Row, instance and element at index:subindex, for the rows of the dictionary. -/
def findRow (idx sub : Nat) : Option (Row × Nat × Nat) :=
  Obj.rows.findSome? fun r =>
    if r.base ≤ idx ∧ r.sub ≤ sub ∧ sub < r.sub + r.subs then
      (r.instanceAt idx).map fun i => (r, i, sub - r.sub)
    else none

/-- Whether some row has the index (check 7 of R371). -/
def indexExists (idx : Nat) : Bool := Obj.rows.any fun r => (r.instanceAt idx).isSome

end Sys2Proof.Machine
end

