-- ==== Sys2Proof/Machine/State.lean ====
section
/-! DEFINITION. The state of the VP6480 as the manual gives it: plain data, grouped by chapter, and its value at reset.
INVENTORY.md lists every piece with the rule that names it and its reset value. -/

namespace Sys2Proof.Machine

/-! ### Outcomes -/

/-- Reasons a step can stop with a fault. -/
inductive Fault where
  /-- An access to a memory address that R403, R405 or R407 says does not exist. Raised by UNCORRECTABLE_READ and
  CORRECTED_READ on such an address; safe. -/
  | noSuchAddress (memory place : Nat)
deriving DecidableEq, Repr

/-- Reasons a step can be refused. -/
inductive Refusal where
  /-- The command has no meaning in the model yet. Raised by exec's arms only; safe. -/
  | notModelled (mnemonic : String)
deriving DecidableEq, Repr

/-! ### Events (R468 to R474) -/

/-- A report on its way to the recorder: the code and the payload's fields in the order of the code's table. `errorCmd` names
the completion whose Error Information entry waits for the record's sequence number (R337); `reserved` is the number the
record takes when one was reserved for it (R472). -/
structure Report where
  code : Nat
  payload : List Int
  reserved : Option Nat
  errorEntry : Option Nat
deriving DecidableEq, Repr

/-- An event record (R468); the payload is kept as its fields. -/
structure Record where
  seq : Nat
  code : Nat
  source : Nat
  continued : Bool
  summary : Bool
  frozen : Bool
  payload : List Int
deriving DecidableEq, Repr

/-- A record waiting to be programmed: whether it also goes to the origin area and whether it lies in the page being programmed
(R483, R484). -/
structure BacklogEntry where
  record : Record
  toOrigin : Bool
  inPage : Bool
deriving DecidableEq, Repr

/-- Report queue of one island (R471, R472). -/
structure ReportQueue where
  reports : List Report := []
  overflow : Nat := 0
  reservedNumber : Nat := 0
deriving DecidableEq, Repr

/-- Token bucket of one code (R473): tokens in 1/1,600,000, last refill instant. -/
structure Bucket where
  code : Nat
  level : Nat
  since : Nat
deriving DecidableEq, Repr

/-- Open summary of one code (R474). -/
structure OpenSummary where
  code : Nat
  number : Nat
  count : Nat
  openedAt : Nat
deriving DecidableEq, Repr

/-- Causes of a flush (R479, R501). -/
inductive FlushCause where
  | fault | request | powerFail | powerState | reset
deriving DecidableEq, Repr

/-- A flush in progress with its held EV_REC_FLUSH (R479). -/
structure FlushState where
  cause : FlushCause
  number : Nat
  dropped : Nat
  pagesLeft : Option Nat
  /-- whether the held record lies in the page that was programmed last -/
  written : Bool
  startedAt : Nat
deriving DecidableEq, Repr

/-- `NorState` (R499). -/
inductive NorState where
  | ready | flushing | clearing | foreign | failed
deriving DecidableEq, Repr

/-- Store header (R481). -/
structure StoreHeader where
  originCount : Nat
  generation : Nat
  dieIdentity : Nat
  leaseEnd : Nat
  clearSequence : Nat
  clearCount : Nat
deriving DecidableEq, Repr

/-- The recorder (R468 to R488). -/
structure Recorder where
  running : Bool := false
  queues : Vector ReportQueue 48 := .replicate 48 {}
  nextSeq : Nat := 0
  leaseEnd : Nat := 0
  buckets : List Bucket := []
  summaries : List OpenSummary := []
  buffer : List Record := []
  backlog : List BacklogEntry := []
  page : List Record := []
  gapFirst : Option (Nat × Nat) := none
  gapLast : Nat := 0
  gapCount : Nat := 0
  freezeLeft : Nat := 0
  flush : Option FlushState := none
  norState : NorState := .ready
  header : Option StoreHeader := none
  storeForeign : Bool := false
  origin : List Record := []
  runningArea : List Record := []
  /-- sectors that a clear still has to erase; V and client of a clear that waits for a flush -/
  clearing : Option Nat := none
  clearWaits : Option (Nat × Nat) := none
  eraseSuspended : Bool := false
  originFullRecorded : Bool := false
  /-- write position in the running area, in record slots of its 258 sectors, and the sectors skipped -/
  writeSlot : Nat := 0
  badSectors : List Nat := []
  /-- records that have entered the ring, and the sequence numbers of those whose word cannot be read (R436) -/
  ringCount : Nat := 0
  /-- the last tick mark, or the start-up record -/
  tickMarkAt : Nat := 0
  unreadable : List Nat := []
deriving DecidableEq, Repr

/-! ### Milestones and traces (R489 to R497) -/

/-- One capture block (R493). -/
structure CaptureBlock where
  valid : Bool := false
  measured : Bool := false
  uncertainty : Nat := 0
  latencyNs : Nat := 0
  latchN : Nat := 0
  latchCycle : Nat := 0
  words : List Int := []
deriving DecidableEq, Repr

/-- `MilestoneState` (R492). -/
inductive MilestoneState where
  | idle | capturing | held
deriving DecidableEq, Repr

/-- The milestone unit (R489 to R494). -/
structure Milestone where
  state : MilestoneState := .idle
  pendingSources : BitVec 8 := 0
  pendingDetail : Nat := 0
  seq : Nat := 0
  sources : BitVec 8 := 0
  detail : Nat := 0
  t0N : Nat := 0
  t0Cycle : Nat := 0
  tick : Nat := 0
  blocks : Vector CaptureBlock 48 := .replicate 48 {}
  ballDriven : Bool := false
  /-- Uncertainty of HOST, CORE, MEM and Verge as start-up measured it (R491) -/
  uncertainty : List Nat := []
deriving DecidableEq, Repr

/-- `TraceState` (R500). -/
inductive TraceState where
  | idle | armed | stopped
deriving DecidableEq, Repr

/-- One trace channel (R495 to R497). -/
structure Trace where
  state : TraceState := .idle
  startN : Nat := 0
  stopN : Nat := 0
  samples : List Int := []
  postLeft : Option Nat := none
deriving DecidableEq, Repr

/-! ### Servo engine and sequencer (chapters 2 and 3) -/

/-- `EngineState` (R98). -/
inductive EngineState where
  | off | acquiring | following | defectHold | parked
deriving DecidableEq, Repr

/-- Condition of one loop (R102). -/
inductive LoopMode where
  | opened | closed | held
deriving DecidableEq, Repr

/-- A bank of coefficients as the engine uses it (R62, R77): `biquads` lists b0, b1, b2, a1, a2 of the slots in use. -/
structure Bank where
  order : Nat
  a : List (List Int)
  b : List Int
  c : List Int
  d : Int
  shift : Int
  biquads : List (List Int)
  integrator : Nat
deriving DecidableEq, Repr

/-- One servo loop: states of R62, what the state phase prepared for the next sample (R63, R64), overruns (R88, R89), set-point
route (R93 to R95). Values are Q2.30 words. `wfb`, `added` and `inject` are the three parts of w: the cascade output for a zero error,
the repetitive-control and feedforward terms, and an external contribution at the output; `offset` and `factor` are the offset term and
the error gain g of R64. -/
structure LoopState where
  mode : LoopMode := .opened
  x : List Int := []
  s1 : List Int := []
  wfb : Int := 0
  added : Int := 0
  inject : Int := 0
  offset : Int := 0
  factor : Int := 0
  u : Int := 0
  dac : Int := 0
  ufb : Int := 0
  holdUfb : Int := 0
  history : List Int := []
  seqOutput : Int := 0
  lateRun : Nat := 0
  faultRaised : Bool := false
  onTimeRun : Nat := 0
  saturatedRun : Nat := 0
  pulseCount : Int := 0
  contribution : Int := 0
  /-- the bank before an activation whose adjustment is still due, and whether the activation's own sample overran (R79, R80) -/
  fromBank : Option Bank := none
  edgeLate : Bool := false
  lastError : Int := 0
deriving DecidableEq, Repr

/-- `AcqPhase` (R133). -/
inductive AcqPhase where
  | idle | focusSearch | focusSettle | trackCapture | lawCheck | arrayAlign | mapLearn | layerJump | shortSeek | longSeek
  | sledSearch | recovery | parking
deriving DecidableEq, Repr

/-- The sequence that SVp runs (R102). -/
inductive Sequence where
  | none | mount | seek | recovery | park
deriving DecidableEq, Repr

/-- `MountResult` (R133). -/
inductive MountResult where
  | notMounted | mounting | mounted | wrongSide | focusFail | noGuide | recoveryFail | aborted
deriving DecidableEq, Repr

/-- Reason of EV_ACQ_PARKED (R134). -/
inductive ParkReason where
  | request | wrongSide | focusFail | noGuide | repeatFault | spindleLost | recoveryFail | aborted
deriving DecidableEq, Repr

/-- `RunoutMapState` (R133). -/
inductive MapState where
  | notLearned | learning | learned | notConverged
deriving DecidableEq, Repr

/-- A runout map (R112): points not listed are 0; each point holds focus, tracking, tilt in Q1.15. -/
structure RunoutMap where
  state : MapState := .notLearned
  points : List (Nat × Int × Int × Int) := []
deriving DecidableEq, Repr

/-- Sum and count of ufb over the samples of one bin (R113), per column. -/
structure BinSums where
  bin : Nat
  sums : List Int
  counts : List Nat
deriving DecidableEq, Repr

/-- The sums of a whole revolution from one AngularIndex 0 to the next, and whether a hold or an overrun fell into it (R113, R115). -/
structure RevolutionSums where
  bins : List BinSums
  disturbed : Bool
deriving DecidableEq, Repr

/-- A target of a seek or a recovery: layer and lane. -/
structure Target where
  layer : Nat
  lane : Nat
deriving DecidableEq, Repr

/-- A focus sweep (R107, R127): from one output to another over a number of tracking periods; it runs from the edge at which the output
has reached its start. -/
structure Sweep where
  start : Int
  stop : Int
  span : Nat
  since : Option Nat
deriving DecidableEq, Repr

/-- Servo engine and sequencer of one pickup. -/
structure Pickup where
  -- engine (chapter 2)
  engine : EngineState := .off
  loops : Vector LoopState 5 := .replicate 5 {}
  lastEdge : Option Nat := none
  holdCause : BitVec 16 := 0
  holdPending : BitVec 16 := 0
  sum : Int := 0
  /-- running mean of Σ in 2^-16 code -/
  sumMean : Int := 0
  /-- FE and FE · recip of the last focus sample (R56, R57), FE of the one before, the direction in which FE crossed zero between
  them, and the peak Σ since FE turned negative (R107) -/
  fe : Int := 0
  feNorm : Int := 0
  fePrev : Int := 0
  feCross : Int := 0
  curvePeak : Int := 0
  /-- PP of the last tracking sample and the direction in which it crossed zero (R108, R118) -/
  pp : Int := 0
  ppCross : Int := 0
  lensShift : Int := 0
  /-- part of the sled's set-point that an external set-point in reference mode has added (R94) -/
  sledExt : Int := 0
  /-- wobble phase counter (R58), its fraction and its advance in one tracking period, both in 2^-16 count -/
  wobble : Nat := 0
  wobbleFrac : Nat := 0
  wobbleRate : Nat := 0
  wobbleSeen : Bool := false
  /-- wobble components of PDp_SI and PDp_SO summed since the last tilt sample, in phase and in quadrature, the tilt phase Φ (R56, R71),
  the wobble amplitude in WPP over the last period (R108) and the guide sums of that period (R56) -/
  tiltSums : Int × Int × Int × Int := (0, 0, 0, 0)
  phi : Int := 0
  wobbleLevel : Int := 0
  guideSums : List Int := []
  xT : Int := 0
  xF : Int := 0
  rT : Int := 0
  rF : Int := 0
  plantT : List Int := []
  plantF : List Int := []
  runTracking : Nat := 0
  runFocus : Nat := 0
  runSum : Nat := 0
  runLost : Nat := 0
  /-- consecutive samples below the settle levels of focus and tracking, and below the lock level of the skew error (R106, R108, R110) -/
  settleF : Nat := 0
  settleT : Nat := 0
  lockRun : Nat := 0
  xTHistory : List Int := []
  xFHistory : List Int := []
  postedW0 : Option Nat := none
  postedW3 : Option Nat := none
  skewFrozen : Bool := false
  exitRun : Nat := 0
  detourTrack : Int := 0
  detourFocus : Int := 0
  /-- direction in which BeamReassign has shifted the array, with the set-point and the gain scale of its ladder (R196) -/
  reassign : Int := 0
  reassignSetpoint : Int := 0
  reassignScale : Int := 1024
  detourEq : Nat := 0
  holdEnteredAt : Nat := 0
  holdReleased : Bool := false
  rotorBack : Bool := false
  lastFaultExit : Option Nat := none
  -- sequencer (chapter 3)
  seq : Sequence := .none
  phase : AcqPhase := .idle
  mountResult : MountResult := .notMounted
  mountedAlone : Bool := false
  mountStart : Nat := 0
  lane : Option Nat := none
  layer : Option Nat := none
  angular : Nat := 0
  lawDiscardRun : Nat := 0
  firstLawDue : Bool := false
  sweeps : Nat := 0
  passageSeen : Bool := false
  /-- instant of the last guide passage and the crossing velocity that it gave, in µm/s (R108, R119) -/
  lastPassage : Option Nat := none
  crossVelocity : Int := 0
  sweep : Option Sweep := none
  /-- layer and lane followed when the sequence that runs began (R127) -/
  heldTarget : Option Target := none
  sledMoves : Nat := 0
  sledInward : Bool := false
  target : Option Target := none
  queuedSeek : Option Target := none
  passagesLeft : Int := 0
  longPasses : Nat := 0
  shortPasses : Nat := 0
  jumpTo : Nat := 0
  jumpTries : Nat := 0
  /-- stage within the phase: of a jump 1 kick, 2 coast, 3 brake, 4 settle, 5 capture, 6 LAW; of a long seek 0 sled moves, 1
  capture -/
  jumpStage : Nat := 0
  brakeUntil : Option Nat := none
  /-- instants at which the step of a sequence, the pass of a seek and the attempt of a recovery that run began (R106 to R108, R110, R111, R116,
  R121, R127, R128) -/
  stepFrom : Nat := 0
  passFrom : Nat := 0
  attemptFrom : Nat := 0
  parkReason : Option ParkReason := none
  rung : Nat := 0
  attempts : Nat := 0
  recoveryTarget : Option Target := none
  recoveryStart : Nat := 0
  abortedMount : Bool := false
  arrayLocked : Bool := false
  maps : Vector RunoutMap 4 := .replicate 4 {}
  mapRevs : Nat := 0
  mapGood : Nat := 0
  /-- the revolution that runs: sums since AngularIndex 0, whether they reach back to it, whether a hold or an overrun fell into it; and the
  sums of the revolution that ended last (R113, R115) -/
  bins : List BinSums := []
  binsWhole : Bool := false
  mapDisturbed : Bool := false
  revolution : Option RevolutionSums := none
  readPower : Bool := false
  /-- focus output that each layer's map learning of the last mount ended with (R453), and hold entries, lane slips and seek failures since
  reset (R447) -/
  heldFocus : Vector (Option Int) 4 := .replicate 4 none
  disturbed : Nat := 0
  lastLaw : Option (BitVec 32) := none
deriving DecidableEq, Repr

/-! ### Read channel (chapter 4) -/

/-- `ChannelState` (R172). -/
inductive ChannelMode where
  | off | idle | acquiring | locked | writing | hold
deriving DecidableEq, Repr

/-- `FrameStatus` (R166). -/
inductive FrameStatus where
  | headerFirst | headerSecond | headerInvalid | flywheel | blank | overflow | truncated
deriving DecidableEq, Repr

/-- Taps at reset: `FirTapInit`, in 2^-20 of Q1.15. -/
def initialTaps : List Int := [0, 0, 0, 0, 0, 0, 0, 0, 0x6000 * 2 ^ 20, 0, 0, 0, 0, 0, 0, 0, 0]

/-- A state set of R153: gain in 2^-20 of 0.01 dB, taps and row of K in 2^-20 of Q1.15, f row in 1/64 bit. -/
structure ChannelSet where
  gain : Int := 1200 * 2 ^ 20
  taps : List Int := initialTaps
  coupling : List Int := [0, 0, 0, 0]
  frac : List Int := [0, 0, 0, 0]
deriving DecidableEq, Repr

/-- A frame in a slot of the frame store (R168): where it belongs, its status, its alignment and the second candidate, both
relative to the frame start, the candidates' scores, what of it was offered. `base` is the place of its first channel bit along the lane,
`soft` its soft values from channel bit -32 on, the newest first. `chain` counts the frames back to the valid and
matching header from which it was placed (R187); `verify` says that it is read back for R223. -/
structure FrameSlot where
  system : Bool
  base : Int
  soft : List Int
  layer : Nat
  q : Nat
  k : Nat
  searched : Bool
  status : FrameStatus
  matched : Bool
  chain : Option Nat
  align : Int
  align2 : Option Int
  score1 : Nat
  score2 : Nat
  triedSecond : Bool
  offered : BitVec 2
  erased0 : Nat
  erased1 : Nat
  verify : Bool
deriving DecidableEq, Repr

/-- A path of the tentative detector (R154): its metric and its last levels, the newest first. -/
structure Survivor where
  metric : Int
  levels : List Int
deriving DecidableEq, Repr

/-- A run of samples on one side of a drop level (R157, R158): whether they lie below, how many, the place of the first one. -/
structure DropRun where
  low : Bool := false
  length : Nat := 0
  start : Int := 0
deriving DecidableEq, Repr

/-- What cancellation took from one neighbour for one sample (R150, R151): the interpolated sample in 2^-20 code at f, at f - 1/64 and at
f + 1/64, and whether the term was applied. -/
structure NearSample where
  here : Int
  minus : Int
  plus : Int
  applied : Bool
deriving DecidableEq, Repr

/-- What the channel has summed for the fractional delay of one neighbour: unflagged samples and ε² at f - 1/64, f and f + 1/64 (R150). -/
structure FracSums where
  count : Nat := 0
  minus : Int := 0
  here : Int := 0
  plus : Int := 0
deriving DecidableEq, Repr

/-- Read channel of one beam. Places count channel bits along the lane from the origin of its area (R42): `place` is that of the next ADC
sample, `delay` is A_b (R149). The lists of a pipeline stage hold its last values, the newest first: x′, y and z (R135), the neighbours'
samples in z, the decisions with the beam's blankness, the soft values; a stage's newest value lies its latency before `place`. -/
structure Channel where
  mode : ChannelMode := .off
  frameLock : Bool := false
  rate : Nat := 0
  /-- front end as its registers set it: corner of the AC coupling and of the continuous-time filter in Hz, boost in 0.5 dB (R138, R140) -/
  acCorner : Nat := 0
  ctfCorner : Nat := 0
  ctfBoost : Nat := 0
  gain : Int := 1200 * 2 ^ 20
  /-- phase of the interpolator and frequency against the prediction, in 2^-20 channel bit and 2^-20 bit a bit (R147) -/
  phase : Int := 0
  freq : Int := 0
  acquiringLoops : Bool := false
  /-- samples since acquisition of the loops started, flagged samples in a row, whether a run longer than `TimingRelockBits` has ended
  (R147, R148), samples in a row at an end of the gain's span (R139) -/
  acqSamples : Nat := 0
  flagRun : Nat := 0
  relockDue : Bool := false
  limitRun : Nat := 0
  offset : Int := 0
  /-- wobble estimator (R142); samples since the tracking edge numbered `edgeN`; W summed since the last skew edge, and over how many samples
  (R143) -/
  wobI : Int := 0
  wobQ : Int := 0
  edgeN : Nat := 0
  sinceEdge : Nat := 0
  wobbleSum : Int := 0
  wobbleCount : Nat := 0
  wobbleAmplitude : Nat := 0
  taps : List Int := initialTaps
  place : Int := 0
  delay : Nat := 0
  xs : List Int := []
  ys : List Int := []
  zs : List Int := []
  near : List (List NearSample) := []
  survivors : List Survivor := []
  levels : List (Int × Bool) := []
  forward : List Int := []
  softs : List Int := []
  tPrev : Int := 0
  /-- sum of the squared phase errors since the frame start, in 2^-40 bit², and their number (R172) -/
  phaseSquares : Nat := 0
  phaseCount : Nat := 0
  coupling : List Int := [0, 0, 0, 0]
  frac : List Int := [0, 0, 0, 0]
  fracSums : Vector FracSums 4 := .replicate 4 {}
  sets : Vector ChannelSet 4 := .replicate 4 {}
  envelope : Int := 0
  envelopeMean : Int := 0
  /-- running mean of the guide sum in 2^-16 code (R158) -/
  guideMean : Int := 0
  /-- runs against the drop levels, and the flag changes that they have brought due: set or end, place of the run's first sample -/
  envRun : DropRun := {}
  guideRun : DropRun := {}
  envDue : List (Bool × Int) := []
  guideDue : List (Bool × Int) := []
  envFlag : Bool := false
  guideFlagged : Bool := false
  flaggedFrom : Option Int := none
  guideFrom : Option Int := none
  holdFrom : Option Int := none
  regions : List (Int × Int) := []
  blank : Bool := false
  stream : Nat := 0
  wanted : Bool := false
  slot : Option (Fin 3) := none
  slots : Vector (Option FrameSlot) 3 := .replicate 3 none
  expected : Int := 0
  wideWindow : Bool := false
  misses : Nat := 0
  sinceGood : Option Nat := none
  /-- NRZ levels of the frame that the beam writes (R210) -/
  written : List Bool := []
  /-- whether the waymark of the present frame has been searched, and whether the frame found no slot (R168) -/
  searched : Bool := false
  overflowed : Bool := false
  agcLimited : Bool := false
  itiRecorded : Bool := false
  lastStatus : FrameStatus := .headerFirst
  phaseResidual : Nat := 0
  setLayer : Nat := 0
  pendingAcquire : Bool := false
  /-- x, y, ε and the phase detector's output of the last sample, for the trace points of R496 -/
  lastX : Int := 0
  lastY : Int := 0
  lastEps : Int := 0
  lastPhi : Int := 0
  /-- objects RW changed since the last frame start (R171): key and the value still in use -/
  inUse : List (Nat × Int) := []
deriving DecidableEq, Repr

/-! ### Decoding (chapter 5) -/

/-- Class of work of the decoder pool (R183). -/
inductive PoolClass where
  | firstPass | cluster | detour
deriving DecidableEq, Repr

/-- Settings of the decoders and of the outer stage that a codeword or a cluster decode works with (R201). -/
structure DecodeSettings where
  limit : Nat
  offset : Nat
  floor : Nat
  fill : Nat
  maxErrors : Nat
  chain : Nat
deriving DecidableEq, Repr

/-- A codeword at work or waiting. `slot` is the slot of the frame store that holds it, if one does. `llrs` are the LLRs that it is decoded
from, in hand once a decoder has fetched them, or from the workspace; `limit` and `offset` the settings that it works with (R179, R201). -/
structure Job where
  cls : PoolClass
  beam : BeamId
  slot : Option (Fin 3)
  half : Fin 2
  layer : Nat
  q : Nat
  k : Nat
  system : Bool
  verifying : Bool
  /-- offered at the frame's second candidate -/
  second : Bool := false
  /-- the sum of new and stored LLRs of a reread codeword, and how the new ones alone ended: unsatisfied checks and LLRs (R194) -/
  alone : Option (Nat × List Int) := none
  /-- the read that wanted it has ended -/
  orphan : Bool := false
  llrs : List Int := []
  limit : Nat := 0
  offset : Nat := 0
deriving DecidableEq, Repr

/-- Standing of a codeword (R185). -/
inductive Standing where
  | converged (info : HalfBlock) | failed (unsatisfied : Nat) | abandoned | absent | pending
deriving DecidableEq, Repr

/-- One sector of a cluster being read: its codewords with the stored LLRs of R184, whether its header vouches for it (R185), whether it
may be readmitted (R187), whether it has been. -/
structure SectorRead where
  k : Nat
  c0 : Standing
  c1 : Standing
  llr0 : List Int
  llr1 : List Int
  vouched : Bool
  chain : Option Nat
  readmitted : Bool
  overflow : Bool
  delivered : Bool
deriving DecidableEq, Repr

/-- Reason a rung was skipped (R204). -/
inductive SkipReason where
  | budget | partnerWriting | firmwareActivation | limitedRetry
deriving DecidableEq, Repr

/-- The objects of R203 as they stood when a ladder started. -/
structure DetourSettings where
  iterations : Nat
  trackStep : Int
  focusStep : Int
  eqMuStep : Nat
  speedRatio : Int
  setpoint : Int
  gainScale : Int
deriving DecidableEq, Repr

/-- A detour ladder (R192 to R199). -/
structure Ladder where
  settings : DetourSettings
  order : List Nat
  position : Nat
  budgetMs : Int
  /-- instants at which the ladder and its present rung started -/
  startedAt : Nat
  rungAt : Nat
  running : Bool
  rereadsLeft : Nat
  failedRung : Bool
  endAtBoundary : Bool
deriving DecidableEq, Repr

/-- A cluster being read, decoded or rescued. -/
structure ClusterRead where
  layer : Nat
  q : Nat
  homeLayer : Nat
  homeQ : Nat
  sectors : List SectorRead
  decoding : Bool
  settings : DecodeSettings
  round : Nat
  roundLimit : Nat
  queued : Nat
  firstUnaccepted : Nat
  ladder : Option Ladder
  inWorkspace : Bool
  waiting : List CmdRef
deriving DecidableEq, Repr

/-- Decoder pool and counters (chapter 5). -/
structure Decoding where
  decoders : Vector (Option Job) 24 := .replicate 24 none
  queue : List Job := []
deriving DecidableEq, Repr

/-! ### Write path (chapters 1 and 6) -/

/-- State of a cluster-map entry (R51). -/
inductive MapEntryState where
  | blank | written | retired | spareFree | spareInUse | unusable | absent
deriving DecidableEq, Repr

/-- A cluster-map entry (R51); `poisoned` is the standing of R436. -/
structure MapEntry where
  state : MapEntryState
  sealed : Bool
  linkLayer : Nat
  link : Nat
  zone : Nat
  cluster : Nat
  serial : Nat
  detourReads : Nat
  worstErasures : Nat
  poisoned : Bool
deriving DecidableEq, Repr

/-- Zone states (R333). -/
inductive ZoneState where
  | empty | implicitlyOpened | explicitlyOpened | closed | full | readOnly
deriving DecidableEq, Repr

/-- `DigestState` (R246). -/
inductive DigestState where
  | empty | running | sealed | rebuilding
deriving DecidableEq, Repr

/-- A zone: offsets count blocks from the zone start (R225, R330), digest chain (R231, R232). `filler` lists the first filler
block of each partial cluster (R331). -/
structure Zone where
  state : ZoneState := .empty
  wp : Nat := 0
  committed : Nat := 0
  opened : Bool := false
  sealRequested : Bool := false
  digestClusters : Nat := 0
  digest : Option (BitVec 256) := none
  digestState : DigestState := .empty
  filler : List Nat := []
  fillerBlocks : Nat := 0
  firstSerial : Option Nat := none
  lastSerial : Nat := 0
  waitingCommits : List (Nat × Nat × BitVec 256) := []
deriving DecidableEq, Repr

/-- One block in a write buffer. -/
structure BufferedBlock where
  lba : Nat
  data : Block
  owner : CmdRef
  /-- when its data arrived -/
  since : Nat
  inRun : Bool
  /-- its data are still on the way from host memory -/
  filling : Bool
deriving DecidableEq, Repr

/-- Standing of a cluster in a run (R224, R230). -/
inductive RunClusterState where
  | unlit | lit | committed | failed | cut | notBlank
deriving DecidableEq, Repr

/-- A cluster of a run; `passed` lists the codewords that verify has passed, as 2 * sector + half. -/
structure RunCluster where
  q : Nat
  zone : Nat
  cluster : Nat
  homeLayer : Nat
  homeQ : Nat
  serial : Nat
  blocks : List (Nat × Block)
  fillers : Nat
  passed : List Nat
  state : RunClusterState
deriving DecidableEq, Repr

/-- Kind of a run (R206). -/
inductive RunArea where
  | user | spare | journalPrimary | journalCopy | control
deriving DecidableEq, Repr

/-- A write run (R206). -/
structure Run where
  area : RunArea
  layer : Nat
  clusters : List RunCluster
  commands : List CmdRef
  armed : Bool
deriving DecidableEq, Repr

/-- `WriteState` (R246). -/
inductive WriteState where
  | idle | pass1 | pass2 | pass3 | resuming
deriving DecidableEq, Repr

/-- A cluster that waits for a spare (R227, R228). -/
structure Replacement where
  layer : Nat
  homeQ : Nat
  zone : Nat
  cluster : Nat
  attempts : Nat
  reason : Nat
  blocks : List (Nat × Block)
  fillers : Nat
  commands : List CmdRef
deriving DecidableEq, Repr

/-- Journal records (R237), fields as in its table. -/
inductive JournalRecord where
  | replacement (homeLayer spareLayer zone homeQ spareQ cluster reason serial : Nat)
  | zoneOpened (zone firstSerial tick : Nat)
  | sealZone (zone clusterCount fillerBlocks firstSerial lastSerial tick eventSequence : Nat) (digest : BitVec 256)
  | checkpoint (zone lastCluster serial : Nat) (digest : BitVec 256)
  | unusable (layer reason q : Nat)
  | discControl (discId : BitVec 128) (die tick : Nat)
deriving DecidableEq, Repr

/-- A journal pair (R238, R239). -/
structure JournalPair where
  records : List (Nat × JournalRecord)
  primaryAt : Option Nat
  copyAt : Option Nat
  primaryDone : Bool
  copyDone : Bool
  waiting : List CmdRef
deriving DecidableEq, Repr

/-- What a run takes at its start from the objects of R245 and R247: verify limits, spare attempts, checkpoint distance, power loop, and the powers and
strategy of its layer; reset values are the objects' defaults. -/
structure RunSettings where
  verifyIterations : Nat := 6
  verifyErased : Nat := 96
  replaceAttempts : Nat := 3
  checkpointClusters : Nat := 2048
  powerShift : Nat := 4
  monitorFrames : Nat := 64
  peakPower : List Int := [1400, 1400, 1400, 1400]
  coolPower : List Int := [0, 0, 0, 0]
  topStart : List Int := [6, 4, 2, 4, 2, 0, 2, 0, 0, 0, 0, 0]
  endShift : List Int := [-8, -12, -14, -16]
  coolLength : List Int := [16, 16, 20, 24]
deriving DecidableEq, Repr

/-- The disc side under one pickup with its namespace, and the write path of that pickup. -/
structure Side where
  -- cluster map (R50 to R53): entries that differ from `MapEntry.unwritten` of the position, by layer * 2^19 + q
  built : Bool := false
  building : Bool := false
  map : List (Nat × MapEntry) := []
  zones : List (Nat × Zone) := []
  -- write path
  writeState : WriteState := .idle
  runs : List Run := []
  current : Option Run := none
  /-- the pass of R206 that runs or is to be resumed, 1 to 3 -/
  pass : Nat := 0
  replacements : List Replacement := []
  writeCount : Nat := 0
  gatesInhibited : Bool := false
  slipSincePass : Bool := false
  driverId : BitVec 16 := 0
  driverFault : BitVec 16 := 0
  powerCorrection : Vector Int 4 := .replicate 4 0
  /-- what the run in progress took at its start; the driver's PeakPower registers and the frames since the last power-monitor read of each
  beam (R213, R218); instant at which the map build began (R244) -/
  settings : RunSettings := {}
  peakWritten : Vector Int 4 := .replicate 4 0
  writtenFrames : Vector Nat 4 := .replicate 4 0
  buildFrom : Nat := 0
  discId : BitVec 128 := 0
  controlBlank : List Bool := []
  controlReads : List Bool := []
  controlArmed : List Bool := []
  markPrimary : Nat := 0
  markCopy : Nat := 0
  journalSeq : Nat := 0
  pendingRecords : List (Nat × JournalRecord) := []
  pair : Option JournalPair := none
  pairQueue : List JournalPair := []
  journalFullRecorded : Bool := false
  sparesExhaustedRecorded : Bool := false
  pcaUsed : List Nat := []
  pcaExhaustedRecorded : List Nat := []
  opcDone : List Nat := []
  verifyIterations : Nat := 0
  verifyCodewords : Nat := 0
  -- namespace
  buffer : List BufferedBlock := []
  changedZones : List Nat := []
  /-- runs in a row that began where the run before ended, and the zone, layer and position after the last one; reads in a row that
  began after the read before, and the block after the last one (R280) -/
  streamRuns : Nat := 0
  lastRunEnd : Option (Nat × Nat × Nat) := none
  streamReads : Nat := 0
  lastReadEnd : Option Nat := none
  /-- host bytes of writes and of reads since the last evaluation of R281; instant, user bytes and revolutions, in 1 / 300,000,000, of the
  stream's runs and of its reads; the spindle's revolutions at which the one under way began -/
  hostWritten : Nat := 0
  hostRead : Nat := 0
  movedWrites : List (Nat × Nat × Nat) := []
  movedReads : List (Nat × Nat × Nat) := []
  moveFrom : Nat := 0
  doorKept : Bool := false
  -- reading
  reads : List ClusterRead := []
  workspaceStopped : Bool := false
deriving DecidableEq, Repr

/-! ### Spindles (chapter 7) -/

/-- `SpindleState` (R285). -/
inductive SpindleMode where
  | stopped | sensing | aligning | ramping | running | braking | reacquiring | coasting | fault
deriving DecidableEq, Repr

/-- What a spindle does once braking has brought it to rest (R267, R271, R275, R279, R283). -/
inductive AfterBrake where
  | stop | startFromRest | retry | faultObserver
deriving DecidableEq, Repr

/-- One edge of a gate: nanoseconds after the instant at which the leg's pattern began, the high-side switch or the low-side one, on or off
(R252). -/
structure GateEdge where
  ns : Int
  high : Bool
  on : Bool
deriving DecidableEq, Repr

/-- The gates of one phase: levels of both at the instant at which the pattern began, the edges since then in their order, and the duty error
in ns that the next PWM period takes (R252). -/
structure Leg where
  high : Bool := false
  low : Bool := false
  edges : List GateEdge := []
  carry : Int := 0
deriving DecidableEq, Repr

/-- One spindle. Speeds are in 0.001 rpm, torques in µN·m, currents in mA, voltages of the current loop in µV, angles in 2^-32 of an
electrical turn, fluxes in pWb. -/
structure Spindle where
  mode : SpindleMode := .stopped
  -- port (R250, R252): SPs_EN, gates driven, SPs_BRK, SPs_FLT_N, the three legs; a low-side pulse of R278; gates released for a period (R274)
  enabled : Bool := false
  gatesDriven : Bool := false
  chopper : Bool := false
  fltHigh : Bool := true
  legs : Vector Leg 3 := .replicate 3 {}
  pulse : Bool := false
  released : Bool := false
  measured : Int := 0
  reference : Int := 0
  goal : Int := 0
  source : Nat := 0
  wobbleSource : Option PickupId := none
  wobbleSince : Nat := 0
  errorPpm : Int := 0
  vbus : Nat := 0
  torque : Int := 0
  -- current loop (R253 to R255): last samples of the phase currents, i_d and i_q, integrators in nV, applied vector, and what the q
  -- integrator holds of the back-EMF since it was preset (R270)
  currents : List Int := []
  currentD : Int := 0
  currentQ : Int := 0
  integralD : Int := 0
  integralQ : Int := 0
  seededEmf : Int := 0
  appliedA : Int := 0
  appliedB : Int := 0
  -- observer (R256, R257): back-EMF estimate, speed, angle, lock
  emfA : Int := 0
  emfB : Int := 0
  observed : Int := 0
  angle : Nat := 0
  locked : Bool := false
  implausibleRun : Nat := 0
  plausibleRun : Nat := 0
  integralSpeed : Int := 0
  phaseRef : Int := 0
  phaseMeas : Int := 0
  settledSince : Option Nat := none
  fault : BitVec 16 := 0
  -- DTC (R258)
  dtc : Bool := false
  fluxA : Int := 0
  fluxB : Int := 0
  fluxHigh : Int := 1
  torqueState : Int := 0
  vector : Nat := 0
  zeroVector : Nat := 0
  rateMatch : Nat := 0
  matched : Option Int := none
  lossTrim : Int := 0
  -- starts (R267 to R270): sensed vector, its turn and the samples taken, instant of the phase that runs, forced angle, i_d that
  -- falls after the handover
  sensedAngle : Nat := 0
  sensedTurn : Int := 0
  sensedCount : Nat := 0
  amplitude : Int := 0
  phaseAt : Nat := 0
  forcedAngle : Nat := 0
  fallFrom : Int := 0
  failedAt : Nat := 0
  startAttempts : Nat := 0
  -- lost rotor (R276 to R279): line voltages of the last period, instants of their zero crossings in ns, newest first, the speed they
  -- gave, and the instants of the loss and of the attempt
  lines : List Int := []
  crossings : List Int := []
  found : Option Int := none
  lossAt : Nat := 0
  attemptAt : Nat := 0
  reacquireAttempts : Nat := 0
  reverse : Bool := false
  stopping : Bool := false
  coastCommanded : Bool := false
  afterBrake : AfterBrake := .stop
  method : Nat := 0
  startedAt : Nat := 0
  forMount : Bool := false
  startWaits : Bool := false
  /-- a start waits for the edge of a committed set (R395) -/
  startHeld : Bool := false
  detourBase : Option Int := none
  detourRatio : Int := 0
  detourUsers : Nat := 0
  foldbackRecorded : Bool := false
  peakVbus : Nat := 0
  lowRun : Nat := 0
  lowRecorded : Bool := false
  torqueBeforeLoss : Int := 0
  pendingFriction : Option Int := none
  -- rate matching (R281): per pickup of the spindle, since when nm has sat at its floor, whether it was recorded, and the host rate in
  -- bytes/s; the instant of the last evaluation
  floorSince : List (Option Nat) := []
  floorRecorded : List Bool := []
  hostRates : List Int := []
  evaluatedAt : Nat := 0
  /-- sums of measured and reference speed over the revolution that runs (R263), fractions of the counters of R285, whether a
  start has not yet ended Running -/
  accN : Int := 0
  accRef : Int := 0
  revAcc : Nat := 0
  chopAcc : Nat := 0
  lossAcc : Nat := 0
  foldbackSince : Nat := 0
  starting : Bool := false
deriving DecidableEq, Repr

/-! ### Axes (chapter 8) -/

/-- `AxisState` (R316). -/
inductive AxisMode where
  | disabled | standstill | moving | slaved | homing | halting | fault
deriving DecidableEq, Repr

/-- `LastCommandResult` (R316). -/
inductive AxisResult where
  | accepted | busy | fault | positionLost | softLimit | limitActive | disabled | notSupported
deriving DecidableEq, Repr

/-- Source field of the set-point word (R294). -/
inductive WordSource where
  | hold | profile | sledOuter | external
deriving DecidableEq, Repr

/-- One axis. Positions are in 1/256 microstep, speeds and decelerations in 2^-16 of that per profile period,
the coil current in µA; `forward` is the
direction of travel, `frozen` that the microstep angle is frozen and no word is issued (R306). -/
structure Axis where
  mode : AxisMode := .disabled
  positionValid : Bool := false
  position : Int := 0
  target : Int := 0
  speed : Int := 0
  forward : Bool := true
  down : Bool := false
  rampDecel : Int := 0
  pendingMove : Option Int := none
  wordSource : WordSource := .hold
  wordFinal : Bool := false
  wordVelocity : Int := 0
  encoder : Int := 0
  deviation : Int := 0
  coil : Int := 0
  loadAngle : Option Int := none
  stallRun : Nat := 0
  limitRun : Nat := 0
  limitRecorded : Bool := false
  fault : BitVec 16 := 0
  lastResult : AxisResult := .accepted
  stallTimes : List Nat := []
  retryDue : Bool := false
  frozen : Bool := false
  limitPos : Bool := false
  limitNeg : Bool := false
  homeFound : Bool := false
  homeAt : Nat := 0
  homeCorrection : Int := 0
  extCount : Int := 0
  extOrigin : Int := 0
  moveEndedAt : Nat := 0
  -- drive (R291 to R293, R304): _FLT_N; coil currents of the last sample in mA, voltages and integrators of both loops in µV; positions of
  -- the last periods, newest first (R311)
  fltHigh : Bool := true
  coilA : Int := 0
  coilB : Int := 0
  voltA : Int := 0
  voltB : Int := 0
  integA : Int := 0
  integB : Int := 0
  trail : List Int := []
deriving DecidableEq, Repr

/-! ### Host interface (chapter 9) -/

/-- Status values of the NVMe completions that the manual names. -/
inductive Status where
  | success | invalidOpcode | invalidField | invalidNamespace | lbaOutOfRange | sglTypeInvalid | sglLengthInvalid
  | namespaceNotReady (dnr : Bool) | zoneBoundary | zoneFull | zoneReadOnly | invalidZoneTransition | zoneInvalidWrite
  | tooManyActive | tooManyOpen | abortRequested | abortedSqDeletion | internalError | transferError | writeFault
  | unrecoveredRead | unwrittenBlock | invalidQueueId | invalidQueueSize | invalidQueueDeletion | invalidVector
  | cqInvalid | abortLimit | notSaveable | invalidImage | activationProhibited | selfTestInProgress | invalidLogPage | aerLimit | signpostAbort
deriving DecidableEq, Repr

/-- Where a command stands between fetch and completion. -/
inductive CmdStage where
  | fetched | waiting | stalled | onRamp | taken | done
deriving DecidableEq, Repr

/-- A command in flight (R336 to R341). `cls` is 0 Urgent to 3 Low; `committed` says that its completion-queue slot is reserved (R340); `fetchOrder` counts the fetches of both controllers. -/
structure Cmd where
  ref : CmdRef
  sqe : Sqe
  cls : Nat
  fetchOrder : Nat
  dispatchOrder : Nat
  stage : CmdStage
  /-- its own result, once known -/
  result : Option Status
  dw0 : Nat
  dw1 : Nat
  tollgate : Option Nat
  lba : Nat
  committed : Bool
  dataIn : Bool
  dataOut : List (Nat × Block)
  covers : List CmdRef
  clustersLeft : Nat
  signpost : List Byte
deriving DecidableEq, Repr

/-- A tollgate entry (R338), `mode` 0 to 3. -/
structure Toll where
  mode : Nat
  cmd : CmdRef
  ns : Nat
  start : Nat
  count : Nat
  order : Nat
deriving DecidableEq, Repr

/-- A submission queue. -/
structure Sq where
  id : Nat
  cq : Nat
  size : Nat
  prio : Nat
  head : Nat
  tail : Nat
  deleting : Option CmdRef
deriving DecidableEq, Repr

/-- A completion queue: entries posted and not yet consumed, slots reserved (R340). -/
structure Cq where
  id : Nat
  size : Nat
  vector : Nat
  head : Nat
  tail : Nat
  reserved : Nat
  interruptHeld : Nat
deriving DecidableEq, Repr

/-- A completion entry as posted. -/
structure Completion where
  ref : CmdRef
  status : Status
  dw0 : Nat
  dw1 : Nat
deriving DecidableEq, Repr

/-- An Error Information entry (R337). -/
structure ErrorEntry where
  tag : Nat
  ref : CmdRef
  status : Status
  eventSeq : Option Nat
deriving DecidableEq, Repr

/-- `ControllerState` (R360). -/
inductive ControllerMode where
  | disabled | ready | resetting | shuttingDown | paused
deriving DecidableEq, Repr

/-- Arbitration of a controller's submission queues (R324). The groups are 0 every queue, under round robin, and 1 Urgent, 2 High, 3 Medium,
4 Low: of each the queue served last and the commands of its burst; `left` is what High, Medium and Low may still take in the round. -/
structure Arbiter where
  last : Vector Nat 5 := .replicate 5 0
  burst : Vector Nat 5 := .replicate 5 0
  left : Vector Nat 3 := .replicate 3 0
deriving DecidableEq, Repr

/-- One controller with its port. `posted` holds the completions of the last posts, newest first, as the host's memory receives
them; `shst` is CSTS.SHST. -/
structure Controller where
  mode : ControllerMode := .disabled
  link : Nat := 0
  linkRate : Nat := 0
  linkWidth : Nat := 0
  weighted : Bool := false
  shst : Nat := 0
  cfs : Bool := false
  processingPaused : Bool := false
  sqs : List Sq := []
  cqs : List Cq := []
  posted : List Completion := []
  interrupts : Nat := 0
  features : List (Nat × Nat) := []
  aers : List CmdRef := []
  notices : List (Nat × Nat) := []
  errors : List ErrorEntry := []
  changedNs : List Nat := []
  abortMarks : List CmdRef := []
  logPage : List Nat := []
  arbiter : Arbiter := {}
deriving DecidableEq, Repr

/-- An item in an on-ramp (R431). -/
structure RampItem where
  cmd : CmdRef
  cls : Nat
  order : Nat
  tollgate : Nat
  aborted : Bool
  /-- slot of its bank -/
  slot : Nat
  /-- mode in force when it entered, for the change of R435 -/
  oldMode : Option Nat
deriving DecidableEq, Repr

/-- One on-ramp (R430 to R435). -/
structure Ramp where
  filling : List RampItem := []
  draining : List RampItem := []
  waiting : List RampItem := []
  attention : Bool := false
  timer : Bool := false
  /-- which of the two banks is the filling one, and the slots of it used since the last swap -/
  fillBank : Bool := false
  used : Nat := 0
  /-- when the timer started -/
  timerFrom : Nat := 0
deriving DecidableEq, Repr

/-- Self-test in progress (R350 to R352). -/
structure SelfTest where
  extended : Bool
  ctrl : CtrlId
  nsid : Nat
  segment : Nat
deriving DecidableEq, Repr

/-- An image in a firmware slot or being gathered: header fields of R524 and the digest of its body. -/
structure Image where
  magic : Nat
  format : Nat
  device : Nat
  bodyLength : Nat
  securityVersion : Nat
  keyIndex : Nat
  revision : Nat
  bodyDigest : BitVec 256
  body : List Byte
  signature : BitVec 512
  /-- verdict of the security unit on the signature under key `keyIndex` -/
  signed : Bool
deriving DecidableEq, Repr

/-- Whether an image passes the checks of R526 that do not depend on revocation and rollback; `bodyDigest` is compared with the
SHA-256 of the body. -/
def Image.passes (m : Image) : Bool :=
  decide (m.magic = 0x4B565036 ∧ m.format = 1 ∧ m.device = 0x6480) && m.bodyDigest == Config.sha256 m.body && m.signed

/-- Power-state entry in progress (R348). -/
structure PowerEntry where
  toState : Nat
  cmd : Option CmdRef
  started : Bool
  suspendedBy : Option CmdRef
deriving DecidableEq, Repr

/-- Firmware activation in progress (R346). -/
structure Activation where
  slot : Nat
  cmd : CmdRef
  loaded : Bool
  /-- t0: when the image had been verified -/
  startedAt : Nat
  extraRunLeft : List PickupId
deriving DecidableEq, Repr

/-- The host side shared by both controllers. -/
structure HostSide where
  ctrls : Vector Controller 2 := .replicate 2 {}
  cmds : List Cmd := []
  tolls : List (Nat × Toll) := []
  /-- when a dispatched command of a namespace ended last (R445) -/
  mediaEnded : List (Nat × Nat) := []
  tollFullRun : Bool := false
  fetchCount : Nat := 0
  dispatchCount : Nat := 0
  powerState : Nat := 0
  lastOperational : Nat := 0
  powerEntry : Option PowerEntry := none
  /-- spindles are being mounted again after PS2 or a suspended entry (R348, R349) -/
  powerExit : Bool := false
  /-- spindles that were mounted when entry began and are still to be mounted again -/
  remount : List SpindleId := []
  activation : Option Activation := none
  selfTest : Option SelfTest := none
  selfTestLog : List (Nat × Nat × Nat) := []
  download : List (Nat × List Byte) := []
  mediaErrors : Nat := 0
  unsafeShutdowns : Nat := 0
  errorTags : Nat := 0
  /-- buckets of the histograms that are not 0, by 64 * (4 * kind + class) + bucket (R361) -/
  latency : List (Nat × Nat) := []
  /-- queue and value of the last doorbell written -/
  lastDoorbell : Nat × Nat := (0, 0)
  /-- whether the image being gathered holds an uncorrectable word (R436) -/
  downloadBad : Bool := false
deriving DecidableEq, Repr

/-! ### Signpost, staging and carriers (chapter 10) -/

/-- What a reply carries (R370): 0 done with data, or an abort code. -/
structure Reply where
  txid : Nat
  service : Nat
  abort : Option Nat
  session : Nat
  data : List Byte
deriving DecidableEq, Repr

/-- A client's store of R373, the request whose reply waits for an apply instant, the repeats that came in while the first request was
being served, and its nonce of R388 (issue instant, value). -/
structure ClientState where
  client : Client
  stored : List (Request × Reply)
  serving : Option Request
  repeats : List Request
  nonce : Option (Nat × BitVec 128)
deriving DecidableEq, Repr

/-- A session (R376 to R378). -/
structure Session where
  number : Nat
  client : Client
  write : Bool
  index : Nat
  sub : Nat
  total : Nat
  data : List Byte
  /-- its client's last request on it -/
  lastAt : Nat
deriving DecidableEq, Repr

/-- A staged value (R389, R390). -/
structure Staged where
  key : Nat
  value : Int
  carried : Bool
deriving DecidableEq, Repr

/-- `SwitchoverState` (R401). -/
inductive SwitchMode where
  | empty | staging | checking | committed
deriving DecidableEq, Repr

/-- The staging area and the switchover unit (R389 to R394). -/
structure Staging where
  mode : SwitchMode := .empty
  owner : Option Client := none
  entries : List Staged := []
  /-- the owner's last request to the area (R389) -/
  lastAt : Nat := 0
  /-- edge chosen for a committed set (n_a or n_T) and the island resets that fell between (R395) -/
  edge : Nat := 0
  resetIslands : List IslandId := []
  /-- servo loops of a pickup whose banks of the committed set are active already (R79) -/
  activated : List (PickupId × BitVec 5) := []
  replyTo : Option Client := none
deriving DecidableEq, Repr

/-- A message being received under ISO 15765-2 (R380): announced length, bytes so far, next sequence number. -/
structure IsoRx where
  expected : Nat
  got : List Byte
  nextSn : Nat
deriving DecidableEq, Repr

/-- A message being sent under ISO 15765-2 (R380): bytes left, next sequence number, Wait frames in a row. -/
structure IsoTx where
  left : List Byte
  nextSn : Nat
  waits : Nat
deriving DecidableEq, Repr

/-- One CAN port (R379 to R381). `toSend` holds replies that wait for the one being sent; `sent` the payloads of the frames that the port
sent last. -/
structure CanPort where
  state : Nat := 0
  txErrors : Nat := 0
  rxErrors : Nat := 0
  rx : Option IsoRx := none
  tx : Option IsoTx := none
  /-- the last frame of the message that comes in, and of the one that goes out -/
  rxAt : Nat := 0
  txAt : Nat := 0
  toSend : List (List Byte) := []
  held : Option Request := none
  sent : List (List Byte) := []
deriving DecidableEq, Repr

/-- What the Ethernet carrier answered or sent last (R382, R383). -/
inductive EthSent where
  | message (slot : Nat) (bytes : List Byte)
  | arpReply (targetMac sender mac : Nat)
  | echoReply (v6 : Bool) (source target : Nat) (payload : List Byte)
  | advertisement (target address mac : Nat)
deriving DecidableEq, Repr

/-- Ethernet and IP carrier (R382, R383): client slots as number, source address and source port, most recently used first; what it sent
last. -/
structure Eth where
  link : Nat := 0
  slots : List (Nat × Nat × Nat) := []
  sent : List EthSent := []
deriving DecidableEq, Repr

/-- A communication setting that is written and not in effect yet (R381, R383): the object, the value in use until then, who wrote it. -/
structure CommPending where
  key : Nat
  inUse : Int
  client : Client
deriving DecidableEq, Repr

/-- The Signpost server (R373 to R376) with authorisation (R388). -/
structure Signpost where
  clients : List ClientState := []
  queue : List (Client × Request) := []
  sessions : Vector (Option Session) 8 := .replicate 8 none
  sessionCount : Nat := 0
  lastReply : Option Reply := none
  nonces : Nat := 0
  locked : Bool := false
  /-- when the failures of R388 locked -/
  lockedAt : Nat := 0
  can : Vector CanPort 2 := .replicate 2 {}
  eth : Eth := {}
  commPending : List CommPending := []
  /-- sessions that expired, by number, newest first (R376) -/
  expired : List (Nat × Client) := []
deriving DecidableEq, Repr

/-! ### Memory (chapter 11) -/

/-- A stored word: data and check bits (R406). -/
structure Cell where
  data : Word64
  check : Byte
deriving DecidableEq, Repr

/-- State of a tracker entry (R419). -/
inductive TrackState where
  | counting | writtenBack | pinned
deriving DecidableEq, Repr

/-- A tracker entry; `ddr` is bit 31 of the table's address. -/
structure Track where
  ddr : Bool
  word : Nat
  count : Nat
  state : TrackState
deriving DecidableEq, Repr

/-- A merge-buffer entry (R415): 64-byte span, valid bytes. -/
structure MergeEntry where
  ddr : Bool
  span : Nat
  bytes : List (Nat × Byte)
  /-- when the entry was taken -/
  since : Nat
deriving DecidableEq, Repr

/-- A scrub pass (R422, R423). -/
structure Scrub where
  start : Nat
  next : Nat
  stop : Nat
  wordsRead : Nat
  corrected : Nat
  uncorrectable : Nat
  firstFail : Option (Nat × Nat × Nat)
  stopping : Bool
deriving DecidableEq, Repr

/-- A maintenance operation that waits for a fill of its line or way (R429): 1 to 7 as `MaintenanceCommand`, its
`MaintenanceAddress`. -/
structure Maintenance where
  op : Nat
  address : Nat
deriving DecidableEq, Repr

/-- The memories of the MEM island (R403 to R429). `sram` and `ddr` list the words that differ from what an unlisted word holds:
for shared SRAM the background that level 1 leaves (R410, R414), for the LPDDR5 a word of zeros with its check bits. -/
structure Mem where
  sram : List (Nat × Cell) := []
  ddr : List (Nat × Cell) := []
  merge : List MergeEntry := []
  tracker : List Track := []
  retired : List (Nat × Nat × Nat) := []
  badSpares : List (Nat × Nat) := []
  sparesExhausted : List Nat := []
  scrub : Option Scrub := none
  scrubPasses : Nat := 0
  scrubSummary : List Nat := []
  cacheOn : Bool := false
  cacheDisabling : Bool := false
  cache : List (Nat × Nat) := []
  layby : List Nat := []
  waitingMaintenance : List Maintenance := []
  selfRefresh : Bool := false
  lruCounter : Nat := 0
deriving DecidableEq, Repr

/-! ### Calibration and ageing (chapter 12) -/

/-- `CalItemState` (R464). -/
inductive CalState where
  | neverRun | valid | due | running | failed
deriving DecidableEq, Repr

/-- One calibration item of one instance (R442 to R447). -/
structure CalItem where
  state : CalState := .neverRun
  temperature : Int := -32768
  activeDelta : Int := 0
  results : List (List Int) := []
  lastAgreed : List Int := []
  agreedRuns : Nat := 0
  voids : Nat := 0
  failures : Nat := 0
  deferredRecorded : Bool := false
  /-- operating hours at the last agreed run, temperature at the start of the first of the present runs, steps of the present run, wait
  for `CalRetryDelay`, layer and lane to return to -/
  agreedAtHours : Nat := 0
  startTemperature : Int := 0
  steps : Nat := 0
  retryWaits : Bool := false
  /-- when the item became Due, when an attempt failed last, and `State.disturbance` at the start of the present run -/
  dueSince : Nat := 0
  failedAt : Nat := 0
  disturbance : Nat := 0
  returnTarget : Option Target := none
deriving DecidableEq, Repr

/-- One ledger entry (R455): points oldest first, none for 0x8000_0000. -/
structure LedgerEntry where
  code : Nat
  inst : Nat
  decimation : Nat
  reference : Int
  referenceTemp : Int
  firstHours : Nat
  points : List (Option Int)
  dueAt : Nat
deriving DecidableEq, Repr

/-- Calibration, ledger and margin plan. Items are indexed by 11 * instance + item - 1 for pickups and 88 + s for item 11. -/
structure Calibration where
  /-- state of the filter of R441, in 2^-20 of 0.01 °C, and the time of its last sample -/
  filtered : Int := 0
  sampledAt : Nat := 0
  items : Vector CalItem 92 := .replicate 92 {}
  ledger : List LedgerEntry := []
  planDue : Bool := false
  heldSets : List (PickupId × List Staged) := []
  proposal : List (Nat × Int) := []
  lowRecorded : Nat := 0
  /-- laser slopes at the last OPC, by 5 * pickup + beam (R459) -/
  slopeAtOpc : List (Nat × Int) := []
  /-- agreed results whose set is not applied yet: item, instance, set, temperature -/
  unapplied : List (Nat × Nat × List Staged × Int) := []
  /-- a restored set that waits for its edge: number, kept temperatures by item and instance -/
  restoring : Option (Nat × List (Nat × Nat × Int)) := none
  /-- sets of internal clients that wait for the staging area (R389): client, entries -/
  waiting : List (Fin 3 × List Staged) := []
deriving DecidableEq, Repr

/-! ### Power, clocks, reset, firmware (chapter 14) -/

/-- What start-up has made of the die. -/
inductive RunPhase where
  | unpowered | held | running | failed | ps3 | resetFlush
deriving DecidableEq, Repr

/-- Comparator k (R511). -/
structure Comparator where
  tripped : Bool := false
deriving DecidableEq, Repr

/-- The Verge domain (R508 to R513). -/
structure Verge where
  powered : Bool := false
  /-- instant at which the counter stood at 0 -/
  since : Nat := 0
  base : Nat := 0
  baseSet : Bool := false
  offset : Int := 0
  powerLost : Bool := false
  wakeCause : Nat := 0
  doorTripped : Bool := false
  leaseKept : Nat := 0
  comps : Vector Comparator 4 := .replicate 4 {}
  pwrEn : Bool := false
deriving DecidableEq, Repr

/-- Variant of R3. -/
inductive Variant where
  | s | d | q
deriving DecidableEq, Repr

/-- OTP contents (R525). -/
structure Otp where
  variant : Variant
  dieIdentity : Nat
  mac : Nat
  keyRevoked : BitVec 4
  rollback : Nat
deriving DecidableEq, Repr

/-- Power, clock and firmware state. -/
structure Power where
  phase : RunPhase := .held
  gridBase : Nat := 0
  quietLocked : Bool := false
  systemLocked : Bool := false
  coreResets : List Nat := []
  coreDown : Bool := false
  activeSlot : Nat := 0
  pendingSlot : Option Nat := none
  /-- Generation of the current copy of the boot record (R523) -/
  bootGeneration : Nat := 0
  slots : Vector (Option Image) 2 := .replicate 2 none
  revision : Nat := 0
  norBlocks : List (Nat × List Byte) := []
  /-- what the debug port read last: `StartupFailCause` and `SelfTestFailBanks` (R518) -/
  debugRead : List Nat := []
deriving DecidableEq, Repr

/-! ### The machine -/

/-- The whole state. `objs` and `doms` list the objects of the dictionary that hold a value of their own and differ from their
default, by key = index * 256 + subindex; every other object is computed from the state (R363). `time` counts tracking
periods of 625 ns; `freeCount` counts the free values taken; `pending` is the queue of commands that wait. The last two and
`time` are the model's own. -/
structure State where
  time : Nat
  freeCount : Nat
  pending : List Instr
  objs : List (Nat × Int)
  doms : List (Nat × List Byte)
  pickups : Vector Pickup 8
  channels : Vector Channel 32
  decoding : Decoding
  sides : Vector Side 8
  spindles : Vector Spindle 4
  axes : Vector Axis 12
  host : HostSide
  ramps : Vector Ramp 64
  signpost : Signpost
  staging : Staging
  mem : Mem
  cal : Calibration
  recorder : Recorder
  milestone : Milestone
  traces : Vector Trace 8
  /-- last code of the analogue set-point input (R92) and last level of XSP_DIR (R93) -/
  xspAin : Nat
  xspDir : Bool
  verge : Verge
  power : Power
  otp : Otp
deriving DecidableEq, Repr

/-- The machine at power-on, before start-up has run: every register at the value the manual gives for reset, every queue and
table empty (R502, R517), the OTP of a VP6480-Q. -/
def State.reset : State where
  time := 0
  freeCount := 0
  pending := []
  objs := []
  doms := []
  pickups := .replicate 8 {}
  channels := .replicate 32 {}
  decoding := {}
  sides := .replicate 8 {}
  spindles := .replicate 4 {}
  axes := .replicate 12 {}
  host := {}
  ramps := .replicate 64 {}
  signpost := {}
  staging := {}
  mem := {}
  cal := {}
  recorder := {}
  milestone := {}
  traces := .replicate 8 {}
  xspAin := 0
  xspDir := false
  verge := {}
  power := {}
  otp := { variant := .q, dieIdentity := 0, mac := 0, keyRevoked := 0, rollback := 0 }

end Sys2Proof.Machine
end

