-- ==== Sys2Proof/Machine/Ops.lean ====
section
/-! DEFINITION. Shared operations: sparse tables in canonical form, the object store, fixed-point words, which islands run,
reports to the recorder and milestone triggers. -/

namespace Sys2Proof.Machine

/-- Outcome of a command. -/
abbrev Out := Host.Outcome State Fault Refusal

/-! ### Sparse tables: keys strictly rising, no entry equal to the default -/

/-- Value listed at a key. -/
def Sparse.find {α : Type} (k : Nat) : List (Nat × α) → Option α
  | [] => none
  | (j, a) :: l => if j = k then some a else if k < j then none else Sparse.find k l

/-- Value at a key, or what an unlisted key reads as. -/
def Sparse.get {α : Type} (d : α) (l : List (Nat × α)) (k : Nat) : α := (Sparse.find k l).getD d

/-- Table without a key. -/
def Sparse.erase {α : Type} (k : Nat) : List (Nat × α) → List (Nat × α)
  | [] => []
  | (j, a) :: l => if j = k then l else if k < j then (j, a) :: l else (j, a) :: Sparse.erase k l

/-- Table with a key set. -/
def Sparse.insert {α : Type} (k : Nat) (a : α) : List (Nat × α) → List (Nat × α)
  | [] => [(k, a)]
  | (j, b) :: l => if j = k then (k, a) :: l else if k < j then (k, a) :: (j, b) :: l else (j, b) :: Sparse.insert k a l

/-- Table with a value written: writing what an unlisted key reads as removes the entry. -/
def Sparse.put {α : Type} [DecidableEq α] (d : α) (l : List (Nat × α)) (k : Nat) (a : α) : List (Nat × α) :=
  if a = d then Sparse.erase k l else Sparse.insert k a l

/-- All keys lie above a bound and rise strictly. -/
def Sparse.rising {α : Type} : Option Nat → List (Nat × α) → Bool
  | _, [] => true
  | none, (j, _) :: l => Sparse.rising (some j) l
  | some b, (j, _) :: l => decide (b < j) && Sparse.rising (some j) l

/-- The canonical form of a table. -/
def Sparse.wf {α : Type} [DecidableEq α] (d : α) (l : List (Nat × α)) : Bool :=
  Sparse.rising none l && l.all fun e => decide (e.2 ≠ d)

/-! ### The object store (R363, R366) -/

/-- Stored value of element k of instance i of an object. -/
def State.ob (s : State) (r : Row) (i : Nat := 0) (k : Nat := 0) : Int :=
  Sparse.get (r.default i k) s.objs (r.key i k)

/-- The same as a natural number. -/
def State.obN (s : State) (r : Row) (i : Nat := 0) (k : Nat := 0) : Nat := (s.ob r i k).toNat

/-- The object with a new stored value. -/
def State.setOb (s : State) (r : Row) (i k : Nat) (v : Int) : State :=
  { s with objs := Sparse.put (r.default i k) s.objs (r.key i k) v }

/-- The object of a key with a new stored value. -/
def State.setKey (s : State) (key : Nat) (v : Int) : State :=
  match findRow (key / 256) (key % 256) with
  | some (r, i, k) => s.setOb r i k v
  | none => s

/-- Counter objects count from reset and wrap at their size. -/
def State.bump (s : State) (r : Row) (i k : Nat) (n : Nat := 1) : State :=
  s.setOb r i k ((s.ob r i k + n) % 2 ^ (8 * r.type.size))

/-- An object that holds a largest value seen takes a sample. -/
def State.maxOb (s : State) (r : Row) (i k : Nat) (v : Int) : State :=
  if s.ob r i k < v then s.setOb r i k v else s

/-- Byte string of a STR or DOM object that is written as a whole; its declared length in zeros until then. -/
def State.dom (s : State) (r : Row) (i k : Nat) : List Byte :=
  Sparse.get (List.replicate r.type.size 0) s.doms (r.key i k)

/-- The same with new bytes. -/
def State.setDom (s : State) (r : Row) (i k : Nat) (b : List Byte) : State :=
  { s with doms := Sparse.put (List.replicate r.type.size 0) s.doms (r.key i k) b }

/-- Natural number of little-endian bytes (R365). -/
def leNat (b : List Byte) : Nat := b.foldr (fun x acc => x.toNat + 256 * acc) 0

/-- Field of `n` bytes at an offset. -/
def leField (b : List Byte) (offset n : Nat) : Nat := leNat ((b.drop offset).take n)

/-! ### Fixed-point words (R75) -/

/-- Largest Q2.30 word. -/
def q30Max : Int := 2 ^ 31 - 1
/-- Smallest Q2.30 word. -/
def q30Min : Int := -(2 ^ 31)
/-- Saturation to the Q2.30 range. -/
def q30Sat (x : Int) : Int := clampInt q30Min q30Max x
/-- Q2.30 word of a sum of products of two Q2.30 words. -/
def q30OfAcc (acc : Int) : Int := q30Sat (rnd acc (2 ^ 30))
/-- Product of two Q2.30 words. -/
def q30Mul (a b : Int) : Int := q30OfAcc (a * b)
/-- Whether an accumulator lies outside the Q2.30 range. -/
def q30Over (acc : Int) : Bool := decide (rnd acc (2 ^ 30) < q30Min ∨ q30Max < rnd acc (2 ^ 30))
/-- Q1.15 word as Q2.30. -/
def q15 (x : Int) : Int := x * 2 ^ 15
/-- Q2.30 word of a length in 0.1 nm, for a unit of `unit` 0.1 nm. -/
def lengthWord (v : Int) (unit : Nat) : Int := rnd (v * 2 ^ 30) unit
/-- Product with 2 to the power of an exponent of either sign. -/
def shiftPow (x e : Int) : Int := if 0 ≤ e then x * 2 ^ e.toNat else rnd x (2 ^ (-e).toNat)
/-- Nearest integer; a half goes where `Config.roundsUp` says, since the manual does not. -/
def roundNear (num : Int) (den : Nat) : Int :=
  if (2 * num) % (2 * (den : Int)) = (den : Int) then num / (den : Int) + (if Config.roundsUp num den then 1 else 0)
  else roundHalfUp num den

/-! ### Time: tracking periods of 625 ns -/

/-- Periods of a time in microseconds, rounded up. -/
def usTicks (us : Nat) : Nat := (us * 8 + 4) / 5
/-- Periods of a time in milliseconds. -/
def msTicks (ms : Nat) : Nat := ms * 1600
/-- Periods of a time in seconds. -/
def sTicks (sec : Nat) : Nat := sec * 1600000
/-- Milliseconds that lie between an earlier instant and now. -/
def State.msSince (s : State) (t : Nat) : Nat := (s.time - t) / 1600
/-- Number of the present tracking sampling edge (R59). -/
def State.gridN (s : State) : Nat := s.time - s.power.gridBase

/-! ### Instances and islands (R3, R514) -/

/-- Number of spindles of a variant (R3). -/
def Variant.spindles : Variant → Nat
  | .s => 1 | .d => 2 | .q => 4

/-- Whether spindle s is enabled. -/
def State.spindleOn (s : State) (i : SpindleId) : Bool := decide (i.val < s.otp.variant.spindles)
/-- Whether pickup p is enabled. -/
def State.pickupOn (s : State) (p : PickupId) : Bool := decide (p.val < 2 * s.otp.variant.spindles)
/-- Whether beam g is enabled. -/
def State.beamOn (s : State) (g : BeamId) : Bool := decide (g.val < 8 * s.otp.variant.spindles)
/-- Whether start-up has ended and the die is powered. -/
def State.running (s : State) : Bool := s.power.phase == .running
/-- Whether SVp runs: PS0 and PS1 only. -/
def State.svUp (s : State) (p : PickupId) : Bool := s.running && s.pickupOn p && decide (s.host.powerState < 2)
/-- Whether CHg runs: PS0 and PS1 only. -/
def State.chUp (s : State) (g : BeamId) : Bool := s.running && s.beamOn g && decide (s.host.powerState < 2)
/-- Whether MTs runs: MT0 in PS0 to PS2, the others in PS0 and PS1. -/
def State.mtUp (s : State) (i : SpindleId) : Bool :=
  s.running && s.spindleOn i && (i == 0 || decide (s.host.powerState < 2))
/-- Whether HOST runs. -/
def State.hostUp (s : State) : Bool := s.running
/-- Whether CORE runs its image. -/
def State.coreUp (s : State) : Bool := s.running && !s.power.coreDown
/-- Whether MEM runs: also while it makes the flush of a system reset (R520). -/
def State.memUp (s : State) : Bool := s.running || s.power.phase == .resetFlush
/-- Whether the island that drives an axis runs. -/
def State.axisUp (s : State) (a : AxisId) : Bool :=
  if h : a.val < 8 then s.svUp ⟨a.val, h⟩ else s.mtUp 0
/-- Whether an island runs; Verge runs while VDDV is present. -/
def State.islandUp (s : State) (i : IslandId) : Bool :=
  if h : i.val < 32 then s.chUp ⟨i.val, h⟩
  else if h : i.val < 40 then s.svUp ⟨i.val - 32, by omega⟩
  else if h : i.val < 44 then s.mtUp ⟨i.val - 40, by omega⟩
  else if i = 47 then s.verge.powered
  else s.running

/-- A command whose island does not run has no effect. -/
def State.when (s : State) (c : Bool) (f : State → State) : Out := .next (if c then f s else s)

/-- Value of an object RW of a beam that is in force since the last frame start (R171). -/
def State.chOb (s : State) (r : Row) (g : BeamId) (k : Nat := 0) : Int :=
  (Sparse.find (r.key g k) (s.channels[g]).inUse).getD (s.ob r g k)

/-- Lane that a pickup's spot lies on: unit 0 of a lane has begun before its LAW advances the lane that the sequencer holds (R31, R58). -/
def Pickup.laneNow (k : Pickup) : Nat := (k.lane.getD 0) + if k.angular = 255 ∧ k.wobble < 288 then 1 else 0

/-! ### Updates of instances -/

/-- Pickup p with a change. -/
def State.updP (s : State) (p : PickupId) (f : Pickup → Pickup) : State := { s with pickups := upd s.pickups p f }
/-- Channel of beam g with a change. -/
def State.updC (s : State) (g : BeamId) (f : Channel → Channel) : State := { s with channels := upd s.channels g f }
/-- The four channels of a pickup with a change. -/
def State.updChannels (s : State) (p : PickupId) (f : Channel → Channel) : State :=
  { s with channels := (allFin 4).foldl (fun v b => upd v (p.beam b) f) s.channels }
/-- Side of pickup p with a change. -/
def State.updS (s : State) (p : PickupId) (f : Side → Side) : State := { s with sides := upd s.sides p f }
/-- Spindle i with a change. -/
def State.updM (s : State) (i : SpindleId) (f : Spindle → Spindle) : State := { s with spindles := upd s.spindles i f }
/-- Axis a with a change. -/
def State.updA (s : State) (a : AxisId) (f : Axis → Axis) : State := { s with axes := upd s.axes a f }
/-- Controller c with a change. -/
def State.updCtrl (s : State) (c : CtrlId) (f : Controller → Controller) : State :=
  { s with host := { s.host with ctrls := upd s.host.ctrls c f } }
/-- Recorder with a change. -/
def State.updR (s : State) (f : Recorder → Recorder) : State := { s with recorder := f s.recorder }
/-- Memory with a change. -/
def State.updMem (s : State) (f : Mem → Mem) : State := { s with mem := f s.mem }
/-- A state change repeated over a list. -/
def State.forEach {α : Type} (s : State) (l : List α) (f : State → α → State) : State := l.foldl f s

/-! ### Free values -/

/-- The next value that the manual leaves open. -/
def State.free (s : State) : Int := Config.freeValue s.freeCount
/-- The counter of free values moves on. -/
def State.freeNext (s : State) : State := { s with freeCount := s.freeCount + 1 }

/-! ### Reports (R471) -/

/-- Entries of a report queue (R471). -/
def reportQueueDepth : Nat := 512

/-- A report is put on its island's queue, or lost and counted when the queue is full (R471). -/
def State.push (s : State) (src : IslandId) (r : Report) : State :=
  let q := s.recorder.queues[src]
  if q.reports.length < reportQueueDepth then
    s.updR fun x => { x with queues := upd x.queues src fun q => { q with reports := q.reports ++ [r] } }
  else
    (s.updR fun x => { x with queues := upd x.queues src fun q => { q with overflow := q.overflow + 1 } }).bump
      Obj.queueOverflows 0 0

/-- An island reports an event with the fields of its payload. -/
def State.report (s : State) (src : IslandId) (code : Nat) (payload : List Int) : State :=
  s.push src { code := code, payload := payload, reserved := none, errorEntry := none }

/-! ### Milestone triggers (R489) -/

/-- A trigger that `MilestoneTriggerEnable` admits is registered at the milestone unit; the detail is that of the first. -/
def State.trigger (s : State) (bit detail : Nat) : State :=
  if (s.obN Obj.milestoneTriggerEnable).testBit bit then
    { s with milestone := { s.milestone with
        pendingSources := s.milestone.pendingSources ||| BitVec.ofNat 8 (2 ^ bit)
        pendingDetail := if s.milestone.pendingSources = 0 then detail else s.milestone.pendingDetail } }
  else s

/-! ### Cyclic redundancy checks (R30, R38, R481) -/

/-- CRC of bits, most significant first: generator without its top term, width, initial value. -/
def crcBits (width poly init : Nat) (bits : List Bool) : Nat :=
  bits.foldl (fun c b =>
    let top := Nat.testBit c (width - 1) != b
    let sh := (c * 2) % 2 ^ width
    if top then Nat.xor sh poly else sh) init

/-- Bits of a number, most significant first. -/
def msbBits (n v : Nat) : List Bool := (List.range n).map fun i => Nat.testBit v (n - 1 - i)

/-- The LAW check of R30: x^5 + x^2 + 1, initial value 0b11111. -/
def lawCrc (law : BitVec 32) : Nat := crcBits 5 0b00101 0b11111 (msbBits 27 (law.toNat / 32))

/-- HeaderCrc of R38: x^16 + x^12 + x^5 + 1, initial value 0xFFFF, over the bytes. -/
def crc16 (bytes : List Byte) : Nat := crcBits 16 0x1021 0xFFFF (bytes.flatMap fun b => msbBits 8 b.toNat)

/-- CRC-32 of IEEE 802.3 (R481): reflected, initial value and final inversion of all ones. -/
def crc32 (bytes : List Byte) : Nat :=
  let lsb (b : Byte) : List Bool := (List.range 8).map fun i => Nat.testBit b.toNat i
  let c := crcBits 32 0x04C11DB7 0xFFFFFFFF (bytes.flatMap lsb)
  let r := (List.range 32).foldl (fun a i => if Nat.testBit c i then a + 2 ^ (31 - i) else a) 0
  0xFFFFFFFF - r

/-- Bytes of a block. -/
def bytesPerBlock : Nat := 4096

/-- Revolutions of a spindle since reset, in 1 / 300,000,000 (R285). -/
def State.revolutions (s : State) (i : SpindleId) : Nat := s.obN Obj.revolutionsTotal i * 300000000 + (s.spindles[i]).revAcc

/-! ### Geometry of the disc (R27, R32, R47 to R49) -/

/-- Lanes of a layer. -/
def lanes : Nat := 43750
/-- Mean radius of a lane in 0.1 µm (R27). -/
def meanRadius (lane : Nat) : Nat := 230004 + 8 * lane
/-- Channel bits of a frame (R33). -/
def frameBits : Nat := 56016
/-- Spacing of frame starts along the lane (R42). -/
def slotBits : Nat := 14004
/-- Sectors of a cluster (R41). -/
def sectors : Nat := 70
/-- Blocks of a zone (R47). -/
def zoneBlocks : Nat := 262144
/-- Zones of a namespace (R47). -/
def zoneCount : Nat := 268
/-- Blocks of a namespace (R47). -/
def namespaceBlocks : Nat := 70254592
/-- Clusters of a zone. -/
def zoneClusters : Nat := 4096
/-- Cluster positions of a layer (R44). -/
def positions : Nat := 282920
/-- First position of the spare pool (R45). -/
def spareFrom : Nat := 274432

/-- Channel bits per revolution of a lane: B(L) = round(2 pi r / 40 nm) (R32). pi is taken to 30 digits, so that no lane's
value is near a half. -/
def bitsPerRev (lane : Nat) : Nat :=
  (roundHalfUp (2 * 3141592653589793238462643383279 * meanRadius lane * 100) (40 * 10 ^ 30)).toNat

/-- Layer of a zone (R48). -/
def zoneLayer (z : Nat) : Nat := z / 67
/-- Home position of cluster c of zone z (R49). -/
def homeQ (z c : Nat) : Nat := (z % 67) * zoneClusters + c
/-- Key of a position in a side's cluster map: layer * 2^19 + q (R50). -/
def posKey (layer q : Nat) : Nat := layer * 2 ^ 19 + q

/-- Maps and lists: the item at a position with a change. -/
def modifyAt {α : Type} (l : List α) (i : Nat) (f : α → α) : List α :=
  l.mapIdx fun j a => if j = i then f a else a

end Sys2Proof.Machine
end

