-- ==== Sys2Proof/Machine/Coding.lean ====
section
/-! DEFINITION. The codes of the medium: GF(2^8), the header code RS(32,16) decoded for erasures and errors (R36, R167), the
parity of the outer code RS(70,64) (R41) and the frame header (R37, R38). -/

namespace Sys2Proof.Machine

/-! ### GF(2^8) with x^8 + x^4 + x^3 + x^2 + 1 (R36) -/

/-- Product with α. -/
def gfTwice (a : Nat) : Nat := if a < 128 then 2 * a else Nat.xor (2 * a) 0x11D

/-- Product of two field elements, by the bits of the second from bit 7 down. -/
def gfMul (a b : Nat) : Nat :=
  (List.range 8).foldl (fun acc i =>
    let t := gfTwice acc
    if b.testBit (7 - i) then Nat.xor t a else t) 0

/-- α to a power. -/
def gfAlpha : Nat → Nat
  | 0 => 1
  | n + 1 => gfTwice (gfAlpha n)

/-- Inverse: a^254. -/
def gfInv (a : Nat) : Nat :=
  (List.range 6).foldl (fun acc _ => gfMul (gfMul acc acc) a) a |> fun r => gfMul r r

/-! ### Polynomials, constant term first -/

/-- Polynomial without leading zeros. -/
def polyTrim (p : List Nat) : List Nat := (p.reverse.dropWhile (· == 0)).reverse

/-- Sum. -/
def polyAdd : List Nat → List Nat → List Nat
  | [], q => q
  | p, [] => p
  | a :: p, b :: q => Nat.xor a b :: polyAdd p q

/-- Product. -/
def polyMul : List Nat → List Nat → List Nat
  | [], _ => []
  | a :: p, q => polyAdd (q.map (gfMul a)) (0 :: polyMul p q)

/-- Value at a point. -/
def polyEval (p : List Nat) (x : Nat) : Nat := p.foldr (fun a acc => Nat.xor a (gfMul acc x)) 0

/-- Formal derivative. -/
def polyDeriv (p : List Nat) : List Nat := (p.drop 1).mapIdx fun i a => if i % 2 = 0 then a else 0

/-- Quotient and remainder of a by b, with fuel for the degree. -/
def polyDiv : Nat → List Nat → List Nat → List Nat × List Nat
  | 0, a, _ => ([], a)
  | n + 1, a, b =>
    let a := polyTrim a
    if a.length < b.length || b.isEmpty then ([], a)
    else
      let c := gfMul (a.getLastD 0) (gfInv (b.getLastD 0))
      let m := List.replicate (a.length - b.length) 0 ++ [c]
      let (q, r) := polyDiv n (polyAdd a (polyMul m b)) b
      (polyAdd m q, r)

/-- The key equation by Euclid's algorithm: the steps run until the remainder's degree is below half of `roots + erasures`. -/
def rsKey (limit : Nat) : Nat → List Nat → List Nat → List Nat → List Nat → List Nat × List Nat
  | 0, _, r1, _, t1 => (r1, t1)
  | n + 1, r0, r1, t0, t1 =>
    let r1 := polyTrim r1
    if 2 * r1.length < limit + 2 then (r1, t1)
    else
      let (q, r) := polyDiv 64 r0 r1
      rsKey limit n r1 r t1 (polyAdd t0 (polyMul q t1))

/-- Syndromes of a word whose first byte has the highest power. -/
def rsSyndromes (roots : Nat) (word : List Nat) : List Nat :=
  (List.range roots).map fun j => polyEval word.reverse (gfAlpha j)

/-- Reed-Solomon decode with generator roots α^0 to α^(roots-1): the given positions are erasures; besides e of them, at most
`roots` in number, up to floor((roots - e) / 2) errors are corrected. None where the decode fails. -/
def rsDecode (roots : Nat) (word : List Nat) (erased : List Nat) : Option (List Nat) :=
  let n := word.length
  let e := erased.length
  let s := rsSyndromes roots word
  if roots < e then none
  else if s.all (· == 0) then some word
  else
    let locator (i : Nat) : Nat := gfAlpha (n - 1 - i)
    let gamma := erased.foldl (fun g i => polyMul g [1, locator i]) [1]
    let modified := (polyMul gamma s).take roots
    let (omega, lambda) := rsKey (roots + e) (roots + 1) (List.replicate roots 0 ++ [1]) modified [] [1]
    let c := lambda.getD 0 0
    let psi := polyMul gamma lambda
    let deriv := polyDeriv psi
    let fixed := word.mapIdx fun i v =>
      let x := locator i
      let xi := gfInv x
      if polyEval psi xi = 0 then
        Nat.xor v (gfMul x (gfMul (polyEval omega xi) (gfInv (polyEval deriv xi))))
      else v
    let errors := ((List.range n).filter fun i => !(erased.contains i) && (fixed.getD i 0 != word.getD i 0)).length
    if c ≠ 0 ∧ (rsSyndromes roots fixed).all (· == 0) ∧ 2 * errors + e ≤ roots then some fixed else none

/-- Parity bytes of a systematic Reed-Solomon word, highest power first: the remainder by Π (x - α^i). -/
def rsParity (roots : Nat) (message : List Nat) : List Nat :=
  let g := (List.range roots).foldl (fun p i => polyMul p [gfAlpha i, 1]) [1]
  let low := (g.take roots).reverse
  message.foldl (fun reg m =>
    let f := Nat.xor m (reg.headD 0)
    (reg.drop 1 ++ [0]).zipWith (fun a b => Nat.xor a (gfMul f b)) low) (List.replicate roots 0)

/-! ### Frame headers (R36 to R39) -/

/-- The fields of a header (R37). -/
structure Header where
  layer : Nat
  side : Nat
  q : Nat
  sector : Nat
  zone : Nat
  cluster : Nat
  parity : Bool
  replacement : Bool
  systemArea : Bool
  filler : Bool
  serial : Nat
deriving DecidableEq, Repr

/-- A header is valid when its RS decode succeeds, HeaderCrc matches and FormatId is 0xA7 (R38): from the 32 coded bytes and the positions that
are erasures; header byte 0 is bits [127:120]. -/
def decodeHeader (coded erased : List Nat) : Option Header :=
  match rsDecode 16 coded erased with
  | none => none
  | some l =>
    let h := l.take 16
    let v := h.foldl (fun acc b => acc * 256 + b) 0
    let field (hi lo : Nat) : Nat := v / 2 ^ lo % 2 ^ (hi + 1 - lo)
    if crc16 ((h.take 14).map fun b => BitVec.ofNat 8 b) = field 15 0 ∧ field 127 120 = 0xA7 then
      some { layer := field 119 118, side := field 117 117, q := field 115 97, sector := field 96 90, zone := field 89 81,
             cluster := field 80 69, parity := v.testBit 68, replacement := v.testBit 67, systemArea := v.testBit 66,
             filler := v.testBit 65, serial := field 63 32 }
    else none

/-- The 32 coded header bytes that a frame is written with (R36 to R38, R210). -/
def encodeHeader (h : Header) : List Nat :=
  let b (x : Bool) : Nat := if x then 1 else 0
  let v := 0xA7 * 2 ^ 120 + h.layer * 2 ^ 118 + h.side * 2 ^ 117 + h.q * 2 ^ 97 + h.sector * 2 ^ 90 + h.zone * 2 ^ 81
    + h.cluster * 2 ^ 69 + b h.parity * 2 ^ 68 + b h.replacement * 2 ^ 67 + b h.systemArea * 2 ^ 66 + b h.filler * 2 ^ 65
    + h.serial * 2 ^ 32
  let bytes := (List.range 14).map fun i => v / 2 ^ (120 - 8 * i) % 256
  let crc := crc16 (bytes.map fun b => BitVec.ofNat 8 b)
  let m := bytes ++ [crc / 256, crc % 256]
  m ++ rsParity 16 m

end Sys2Proof.Machine
end

