-- ==== Sys2Proof/Machine/Detect.lean ====
section
/-! DEFINITION. The detectors of the read channel: the target PR(1,2,2,2,1), the trellis of ten states, the tentative Viterbi detector and
the windowed max-log-MAP (R144, R154, R155). Metrics are squared distances of z from the target, in 2^-40 code². -/

namespace Sys2Proof.Machine

/-- The unit of the values that adapt and of the samples behind the ADC: 2^-20. -/
def fine : Int := 2 ^ 20

/-- The target of R144 for the levels a[n] to a[n-4], in 2^-20 code. -/
def targetOf (scale : Int) (l : List Int) : Int :=
  scale * (l.getD 0 0 + 2 * l.getD 1 0 + 2 * l.getD 2 0 + 2 * l.getD 3 0 + l.getD 4 0) * fine

/-- The ten states: the last four levels as bits, the newest as bit 0, with no run of length 1 inside (R154). -/
def trellisStates : List Nat := [0b0000, 0b0001, 0b0011, 0b0110, 0b0111, 0b1000, 0b1001, 0b1100, 0b1110, 0b1111]

/-- Level of bit i of a state. -/
def levelOf (state i : Nat) : Int := if state.testBit i then 1 else -1

/-- A branch of the trellis: the state it leaves, the level it adds. -/
structure Branch where
  source : Nat
  high : Bool

/-- The state that a branch enters. -/
def Branch.target (b : Branch) : Nat := (2 * b.source + if b.high then 1 else 0) % 16

/-- The branches between states of the trellis. -/
def branches : List Branch :=
  (trellisStates.flatMap fun s => [⟨s, false⟩, ⟨s, true⟩]).filter fun b => trellisStates.contains b.target

/-- Whether a branch carries a transition, the NRZI bit 1 of R33. -/
def Branch.transition (b : Branch) : Bool := b.high != b.source.testBit 0

/-- Squared distance of a sample from the target on a branch. -/
def Branch.distance (b : Branch) (scale z : Int) : Int :=
  let t := targetOf scale ((if b.high then 1 else -1) :: (List.range 4).map (levelOf b.source))
  (z - t) * (z - t)

/-- The least of a list of numbers; `none` of no numbers. -/
def least (l : List Int) : Option Int := l.foldl (fun acc x => some (match acc with | none => x | some a => min a x)) none

/-- Value of a state in a list over the ten states. -/
def perState (l : List Int) (state : Nat) : Int := l.getD (trellisStates.idxOf state) 0

/-! ### Tentative detector (R154) -/

/-- Bits of the tentative detector's traceback (R135). -/
def traceback : Nat := 16

/-- The survivors before any sample: every state is as likely. -/
def freshSurvivors : List Survivor := trellisStates.map fun s => { metric := 0, levels := (List.range 4).map (levelOf s) }

/-- Survivor of a state. -/
def survivorOf (l : List Survivor) (state : Nat) : Survivor := l.getD (trellisStates.idxOf state) { metric := 0, levels := [] }

/-- Of two survivors the one with the lesser metric, the first on equal metrics. -/
def Survivor.better (a b : Survivor) : Survivor := if b.metric < a.metric then b else a

/-- The best of a list of survivors. -/
def bestSurvivor : List Survivor → Survivor
  | [] => { metric := 0, levels := [] }
  | a :: l => l.foldl Survivor.better a

/-- The survivors after one more sample; metrics count from the least one. -/
def viterbiStep (l : List Survivor) (scale z : Int) : List Survivor :=
  let l := if l.isEmpty then freshSurvivors else l
  let extend (b : Branch) : Survivor :=
    let v := survivorOf l b.source
    { metric := v.metric + b.distance scale z, levels := ((if b.high then 1 else -1) :: v.levels).take (traceback + 4) }
  let next := trellisStates.map fun s => bestSurvivor ((branches.filter fun b => b.target == s).map extend)
  let floor := (bestSurvivor next).metric
  next.map fun v => { v with metric := v.metric - floor }

/-- The decision that the traceback reaches: the level of the bit 16 samples back. -/
def decisionOf (l : List Survivor) : Int := (bestSurvivor l).levels.getD traceback (-1)

/-! ### Soft detector (R155) -/

/-- Bits of the soft detector's window. -/
def softWindow : Nat := 64

/-- Metrics of the states one sample on: the least over the branches that enter each. -/
def forwardStep (l : List Int) (scale z : Int) : List Int :=
  let next := trellisStates.map fun s =>
    (least ((branches.filter fun b => b.target == s).map fun b => perState l b.source + b.distance scale z)).getD 0
  let floor := (least next).getD 0
  next.map fun v => v - floor

/-- Metrics of the states one sample earlier: the least over the branches that leave each. -/
def backwardStep (l : List Int) (scale z : Int) : List Int :=
  trellisStates.map fun s =>
    (least ((branches.filter fun b => b.source == s).map fun b => perState l b.target + b.distance scale z)).getD 0

/-- Metrics of the states before a window of samples, the last sample first. -/
def backward (scale : Int) (window : List Int) : List Int :=
  window.foldl (fun l z => backwardStep l scale z) (List.replicate 10 0)

/-- The soft value of a channel bit: the metric of "transition" less that of "no transition", in units of the square of `TargetScale`, times
`LlrScale`, saturated to 5 bits; positive for "no transition" (R155, log entry 154). -/
def softValue (scale llrScale : Int) (before : List Int) (z : Int) (after : List Int) : Int :=
  let metric (transition : Bool) : Int :=
    (least ((branches.filter fun b => b.transition == transition).map fun b =>
      perState before b.source + b.distance scale z + perState after b.target)).getD 0
  clampInt (-15) 15 (rnd ((metric true - metric false) * llrScale) (2 ^ 55 * (scale * scale).toNat))

end Sys2Proof.Machine
end

