-- ==== Sys2Proof/Machine/Ldpc.lean ====
section
/-! DEFINITION. The inner code: its base matrix, its encoder, its syndrome and the layered offset min-sum decoder (R40, R176 to R180). -/

namespace Sys2Proof.Machine

/-! ### The code (R176 to R178) -/

/-- Lifting size Z, and bits of a codeword and of its information part (R40, R176). -/
def lifting : Nat := 512
def codeBits : Nat := 18432
def infoBits : Nat := 16384

/-- Entry of the base matrix: a circulant's shift, or -1 for a zero block (R177, R201). -/
def ldpcEntry (row column : Nat) : Int :=
  if column < 32 then ((Config.ldpcShift row column % lifting : Nat) : Int)
  else if row = column - 32 ∨ row = column - 31 then 0 else -1

/-- The circulants of a block row: block column and shift. -/
def circulants (row : Nat) : List (Nat × Nat) :=
  (List.range 36).filterMap fun c => if ldpcEntry row c < 0 then none else some (c, (ldpcEntry row c).toNat)

/-- The codeword bits in check x of a block row: row x of a circulant connects to column (x + v) mod 512 (R176). -/
def ldpcCheck (row x : Nat) : List Nat := (circulants row).map fun e => lifting * e.1 + (x + e.2) % lifting

/-- Checks that the hard decisions of LLRs or posteriors do not satisfy. -/
def unsatisfied (v : Array Int) : Nat :=
  ((List.range 4).flatMap fun row => (List.range lifting).filter fun x =>
    ((ldpcCheck row x).filter fun b => decide (v.getD b 0 < 0)).length % 2 == 1).length

/-- Block of 512 parity bits p_i of a codeword's 32 information blocks, bit x of a block first (R178). -/
def ldpcParity (info : List (BitVec 512)) : List (BitVec 512) :=
  let sums := (List.range 4).map fun i =>
    info.mapIdx (fun c (b : BitVec 512) => b.rotateRight (ldpcEntry i c).toNat) |>.foldl (· ^^^ ·) 0
  (sums.foldl (fun acc s => match acc with
    | [] => [s]
    | p :: _ => (s ^^^ p) :: acc) []).reverse

/-- Information bits of 2,048 bytes, in byte order and most significant bit first (R40). -/
def bitsOfHalf (v : HalfBlock) : List Bool := (List.range infoBits).map fun i => v.getLsbD (8 * (i / 8) + 7 - i % 8)

/-- The 2,048 bytes of information bits (R40). -/
def halfOfBits (l : List Bool) : HalfBlock :=
  l.zipIdx.foldl (fun acc p => if p.1 then acc ||| (1#16384).shiftLeft (8 * (p.2 / 8) + 7 - p.2 % 8) else acc) 0

/-- A block of 512 bits, bit x of the block at bit x. -/
def blockOfBits (l : List Bool) : BitVec 512 :=
  l.zipIdx.foldl (fun acc p => if p.1 then acc ||| (1#512).shiftLeft p.2 else acc) 0

/-- A systematic codeword: 16,384 information bits, then 2,048 parity bits (R40, R178). -/
def ldpcEncode (v : HalfBlock) : List Bool :=
  let bits := bitsOfHalf v
  let blocks := (List.range 32).map fun c => blockOfBits ((bits.drop (lifting * c)).take lifting)
  bits ++ (ldpcParity blocks).flatMap fun p => (List.range lifting).map fun x => p.getLsbD x

/-! ### Layered offset min-sum (R179, R180) -/

/-- How a decoder ended a codeword (R180): syndrome zero or not, iterations run, unsatisfied checks, the 2,048 user bytes of the hard
decisions. -/
structure DecodeResult where
  converged : Bool
  iterations : Nat
  unsatisfied : Nat
  info : HalfBlock
deriving DecidableEq, Repr

/-- A decoder at work: posteriors of 9 bits for each bit, messages of 6 bits for each edge of the graph. -/
structure MinSum where
  posterior : Array Int
  message : Array Int

/-- Number of an edge: circulant at (row, column), row x of it. -/
def edgeOf (row column x : Nat) : Nat := (36 * row + column) * lifting + x

/-- The message of a check to a bit, from what the other bits of the check say: the product of their signs, the least magnitude less the offset
and not below 0. -/
def checkMessage (offset : Nat) (others : List Int) : Int :=
  let sign : Int := if (others.filter fun v => decide (v < 0)).length % 2 = 0 then 1 else -1
  sign * max 0 (((least (others.map fun v => (v.natAbs : Int))).getD 0) - offset)

/-- One check of a block row: each of its bits takes the check's new message in place of the old one. -/
def MinSum.check (m : MinSum) (offset row x : Nat) : MinSum :=
  let edges := (circulants row).map fun e => (lifting * e.1 + (x + e.2) % lifting, edgeOf row e.1 x)
  let told := edges.map fun e => clampInt (-31) 31 (m.posterior.getD e.1 0 - m.message.getD e.2 0)
  edges.zipIdx.foldl (fun acc e =>
    let new := checkMessage offset (told.eraseIdx e.2)
    let base := m.posterior.getD e.1.1 0 - m.message.getD e.1.2 0
    { posterior := acc.posterior.setIfInBounds e.1.1 (clampInt (-255) 255 (base + new))
      message := acc.message.setIfInBounds e.1.2 new }) m

/-- One iteration: block rows 0 to 3 in order. -/
def MinSum.iterate (m : MinSum) (offset : Nat) : MinSum :=
  (List.range 4).foldl (fun m row => (List.range lifting).foldl (fun m x => m.check offset row x) m) m

/-- Iterations until the syndrome is zero or the limit is reached (R180): `left` more may run, `done` have run. -/
def minSumRun (offset : Nat) : Nat → Nat → MinSum → DecodeResult
  | 0, done, m =>
    { converged := false, iterations := done, unsatisfied := unsatisfied m.posterior, info := halfOf m }
  | left + 1, done, m =>
    let m := m.iterate offset
    let u := unsatisfied m.posterior
    if u = 0 then { converged := true, iterations := done + 1, unsatisfied := 0, info := halfOf m }
    else minSumRun offset left (done + 1) m
where
  halfOf (m : MinSum) : HalfBlock := halfOfBits ((List.range infoBits).map fun i => decide (m.posterior.getD i 0 < 0))

/-- A decoder runs a codeword of 18,432 LLRs. -/
def ldpcDecode (llrs : List Int) (offset limit : Nat) : DecodeResult :=
  minSumRun offset limit 0 { posterior := llrs.toArray, message := Array.replicate (4 * 36 * lifting) 0 }

end Sys2Proof.Machine
end

