-- ==== Sys2Proof/Machine/Rll.lean ====
section
/-! DEFINITION. The frame as channel bits (R33 to R35) and its coded bits as LLRs (R156). The manual names the (1,7) code of rate 2/3 and does
not list it: its encoder's table and the bits that its decoding windows spell are open (log entry 155). -/

namespace Sys2Proof.Machine

/-! ### Encoding (R33, R35) -/

/-- Coded bits of the RLL stream of a frame (R35). -/
def streamBits : Nat := 37120

/-- Channel bits of a code group, as its three bits of a number, most significant first. -/
def groupBits (v : Nat) : List Bool := msbBits 3 v

/-- The encoder over the code groups: two coded bits and the two that follow give three channel bits and the next encoder state. -/
def rllGroups : Nat → List Bool → List Bool
  | state, a :: b :: rest =>
    let two (x y : Bool) : Nat := 2 * x.toNat + y.toNat
    let here := two a b
    let next := two (rest.getD 0 false) (rest.getD 1 false)
    groupBits (Config.rllGroup state here next) ++ rllGroups (Config.rllState state here next) rest
  | _, _ => []

/-- The NRZI channel bits of a stream of coded bits: the encoder state is reset where the stream starts (R35). -/
def rllEncode (coded : List Bool) : List Bool := rllGroups 0 coded

/-- NRZ levels of NRZI bits after a level: a 1 is a transition (R33). -/
def nrzOf : Bool → List Bool → List Bool
  | _, [] => []
  | level, b :: l => (level != b) :: nrzOf (level != b) l

/-- NRZ levels of runs of the given lengths, the first one a mark. -/
def runsOf (l : List Nat) : List Bool := (l.mapIdx fun i n => List.replicate n (i % 2 == 0)).flatten

/-- The waymark: runs of 9, 9, 2, 3, 4, 5, 7 and 9 channel bits, starting with a mark (R33). -/
def waymark : List Bool := runsOf [9, 9, 2, 3, 4, 5, 7, 9]

/-- The preamble: 24 periods of 4T marks and spaces, starting with a mark (R33). -/
def preamble : List Bool := runsOf (List.replicate 48 4)

/-- The tail of the pad: 11 periods of 4T marks and spaces (R33); it starts with the level that the termination does not end on. -/
def tail (before : Bool) : List Bool := (runsOf (List.replicate 22 4)).map fun b => b != before

/-- A frame as NRZ levels of its 56,016 channel bits: preamble, waymark, the RLL stream of header and codewords, termination, tail (R33). -/
def frameLevels (coded : List Bool) : List Bool :=
  let head := preamble ++ waymark
  let stream := nrzOf false (rllEncode coded)
  let last := stream.getLastD false
  let stop := nrzOf last (msbBits 8 (Config.rllTermination (coded.drop (streamBits - 4))))
  head ++ stream ++ stop ++ tail (stop.getLastD last)

/-! ### Coded bits as LLRs (R35, R156) -/

/-- First channel bit of the decoding window of coded bit m, counted from where the RLL stream starts: floor(1.5 m) - 3. -/
def windowStart (m : Nat) : Int := (3 * m / 2 : Nat) - 3

/-- Channel bits of a decoding window: from floor(1.5 m) - 3 to floor(1.5 m) + 4. -/
def windowLength : Nat := 8

/-- Soft values of the window of coded bit m; `soft` counts channel bits from where the stream starts. -/
def windowSofts (soft : Int → Int) (m : Nat) : List Int := (List.range windowLength).map fun i => soft (windowStart m + i)

/-- Whether coded bit m is erased: a channel bit of its window is (R156). -/
def codedErased (soft : Int → Int) (m : Nat) : Bool := (windowSofts soft m).any fun v => v == 0

/-- The patterns of a window: transitions at least two channel bits apart. -/
def windowPatterns : List Nat := (List.range (2 ^ windowLength)).filter fun v => Nat.land v (v / 2) == 0

/-- How well soft values agree with a pattern, the first channel bit most significant. -/
def agreement (softs : List Int) (pattern : Nat) : Int :=
  ((msbBits windowLength pattern).zip softs).foldl (fun acc x => acc + if x.1 then -x.2 else x.2) 0

/-- The greatest agreement of the patterns that spell a coded bit. -/
def bestAgreement (softs : List Int) (odd value : Bool) : Option Int :=
  (least ((windowPatterns.filter fun v => Config.rllBit odd v == value).map fun v => -agreement softs v)).map fun x => -x

/-- The LLR of coded bit m: the max-log difference over the patterns of its window, saturated to 6 bits, positive for 0; 0 where the bit is
erased (R156). -/
def codedLlr (soft : Int → Int) (m : Nat) : Int :=
  if codedErased soft m then 0
  else
    let softs := windowSofts soft m
    match bestAgreement softs (m % 2 == 1) false, bestAgreement softs (m % 2 == 1) true with
    | some a, some b => clampInt (-31) 31 (rnd (a - b) 2)
    | some _, none => 31
    | none, some _ => -31
    | none, none => 0

/-- LLRs of coded bits from `first` on. -/
def codedLlrs (soft : Int → Int) (first n : Nat) : List Int := (List.range n).map fun i => codedLlr soft (first + i)

/-- Erased coded bits among n from `first` on. -/
def erasedCount (soft : Int → Int) (first n : Nat) : Nat := ((List.range n).filter fun i => codedErased soft (first + i)).length

/-- First coded bit of a codeword in the stream: the header has 256 (R35). -/
def codewordStart (h : Fin 2) : Nat := 256 + 18432 * h.val

/-- Bytes of LLRs, eight to a byte, most significant bit first: a negative LLR is a 1. -/
def llrBytes : List Int → List Nat
  | a :: b :: c :: d :: e :: f :: g :: h :: l =>
    [a, b, c, d, e, f, g, h].foldl (fun acc x => 2 * acc + if x < 0 then 1 else 0) 0 :: llrBytes l
  | _ => []

end Sys2Proof.Machine
end

