-- ==== Sys2Proof/Machine/Access.lean ====
section
/-! DEFINITION. Writes to objects as clients make them: identities, abort codes, the checks of R371 that every write to an
object with a row of its own passes, and the record of an accepted write. -/

namespace Sys2Proof

/-- Identity of a client in the layout of `StagingOwner` (R400). -/
def Client.identity : Client → Nat
  | .can port => (if port = 0 then 1 else 2) * 2 ^ 28
  | .udp slot => 3 * 2 ^ 28 + slot.val
  | .nvme c => 4 * 2 ^ 28 + c.val + 1
  | .internal k => 0xF * 2 ^ 28 + k.val

/-- Bit of `CarrierWriteMask` for the client's carrier (R399); internal clients have none. -/
def Client.carrierBit : Client → Option Nat
  | .can port => some port.val
  | .udp _ => some 2
  | .nvme _ => some 3
  | .internal _ => none

end Sys2Proof

namespace Sys2Proof.Machine

namespace Abort
abbrev versionUnsupported : Nat := 0x01010000
abbrev serviceUnknown : Nat := 0x01010001
abbrev requestMalformed : Nat := 0x01010002
abbrev objectNotFound : Nat := 0x01020000
abbrev subindexNotFound : Nat := 0x01020001
abbrev readOnly : Nat := 0x01030000
abbrev writeOnly : Nat := 0x01030001
abbrev carrierWriteDisabled : Nat := 0x01030002
abbrev authorisationRequired : Nat := 0x01030003
abbrev authorisationFailed : Nat := 0x01030004
abbrev authorisationLocked : Nat := 0x01030005
abbrev lengthTooLarge : Nat := 0x01040000
abbrev lengthMismatch : Nat := 0x01040001
abbrev offsetInvalid : Nat := 0x01040002
abbrev segmentedRequired : Nat := 0x01040003
abbrev valueOutOfRange : Nat := 0x01050000
abbrev objectBusy : Nat := 0x01050001
abbrev stagingOwned : Nat := 0x01060000
abbrev stagingFull : Nat := 0x01060001
abbrev switchoverBusy : Nat := 0x01060002
abbrev switchoverCheckFailed : Nat := 0x01060003
abbrev sessionUnknown : Nat := 0x01070000
abbrev sessionsExhausted : Nat := 0x01070001
abbrev sessionExpired : Nat := 0x01070002
abbrev serverBusy : Nat := 0x01080000
abbrev internalError : Nat := 0x01090000
end Abort

/-- Whether the carrier may write (check 10 of R371); `CarrierWriteMask` itself may be written from every carrier (R386). -/
def State.carrierMayWrite (s : State) (cl : Client) (key : Nat) : Bool :=
  match cl.carrierBit with
  | none => true
  | some b => (s.obN Obj.carrierWriteMask).testBit b || key == Obj.carrierWriteMask.key 0 0

/-- The server replies to a client: counters of R399 and the reply's abort code, if any. The service time, of which `ServiceTimeMax` keeps
the largest, is a free value (R374). -/
def State.answer (s : State) (abort : Option Nat) (data : List Byte := []) (session : Nat := 0) : State :=
  let s := { s with signpost := { s.signpost with
    lastReply := some { txid := 0, service := 0, abort := abort, session := session, data := data } } }
  let s := (s.bump Obj.requestsServed 0 0).maxOb Obj.serviceTimeMax 0 0 (s.free.natAbs % 2 ^ 32 : Nat)
  let s := s.freeNext
  match abort with
  | none => s
  | some a => (s.bump Obj.requestsAborted 0 0).setOb Obj.lastAbortCode 0 0 a

/-- EV_SIGNPOST_WRITE: a write to an RW, RWA or WO object is accepted (R402). -/
def State.recordWrite (s : State) (cl : Client) (key : Nat) : State :=
  s.report Isl.core Ev.signpostWrite [cl.identity, (key / 256 : Nat), (key % 256 : Nat)]

/-- A write of a WO or RW object that has a row of its own: checks 10, 13 and 15 of R371 in their order, then the object's
effect. `bad` is a further range condition of the owner chapter, `busy` its state condition, `onBusy` what the chapter adds to
that refusal. -/
def State.hostWriteOr (s : State) (cl : Client) (r : Row) (i k : Nat) (v : Int) (bad busy : Bool) (onBusy effect : State → State) :
    State :=
  if !s.coreUp then s
  else if !s.carrierMayWrite cl (r.key i k) then s.answer (some Abort.carrierWriteDisabled)
  else if !(r.type.holds v && r.range.admits v) || bad then s.answer (some Abort.valueOutOfRange)
  else if busy then onBusy (s.answer (some Abort.objectBusy))
  else (effect (s.recordWrite cl (r.key i k))).answer none

/-- The same with nothing added to a refusal. -/
def State.hostWrite (s : State) (cl : Client) (r : Row) (i k : Nat) (v : Int) (bad busy : Bool) (effect : State → State) : State :=
  s.hostWriteOr cl r i k v bad busy (fun s => s) effect

end Sys2Proof.Machine
end

