-- ==== Sys2Proof/Machine/HostOps.lean ====
section
/-! DEFINITION. Commands in flight, zones, notices and the cluster map: the shared operations that the chapters of the media side
use on the host side's state. -/

namespace Sys2Proof.Machine

/-! ### Commands in flight (R337, R340) -/

/-- The command in flight under a reference. -/
def State.cmd? (s : State) (k : CmdRef) : Option Cmd := s.host.cmds.find? fun c => c.ref == k

/-- The commands in flight with a change to one. -/
def State.updCmd (s : State) (k : CmdRef) (f : Cmd → Cmd) : State :=
  { s with host := { s.host with cmds := s.host.cmds.map fun c => if c.ref = k then f c else c } }

/-- Order of R337 among the statuses that can meet during and after execution; any other status stands first. -/
def Status.rank : Status → Nat
  | .abortRequested => 1 | .abortedSqDeletion => 1 | .internalError => 2 | .transferError => 3 | .writeFault => 4
  | .unrecoveredRead => 5 | .zoneInvalidWrite => 6 | .unwrittenBlock => 7 | .success => 8 | _ => 0

/-- Whether a command stands between dispatch and its end. -/
def Cmd.dispatched (c : Cmd) : Bool := match c.stage with
  | .stalled => true | .onRamp => true | .taken => true | _ => false

/-- Dispatched commands end: the time stands for their namespaces (R445). -/
def State.noteEnded (s : State) (ends : Cmd → Bool) : State :=
  let l := s.host.cmds.filter fun c => ends c && c.result.isNone && c.dispatched
  { s with host := { s.host with mediaEnded := l.foldl (fun m c => Sparse.insert c.sqe.nsid s.time m) s.host.mediaEnded } }

/-- A command gets a result; with several, the first in the order of R337 stands. -/
def State.finishCmd (s : State) (k : CmdRef) (st : Status) : State :=
  (s.noteEnded fun c => c.ref == k).updCmd k fun c =>
    match c.result with
    | none => { c with result := some st }
    | some old => if st.rank < old.rank then { c with result := some st } else c

/-- Namespace of a pickup's side (R13). -/
def nsidOf (p : PickupId) : Nat := p.val + 1
/-- Pickup of a namespace. -/
def pickupOf (nsid : Nat) : Option PickupId := if h : 1 ≤ nsid ∧ nsid ≤ 8 then some ⟨nsid - 1, by omega⟩ else none

/-- Opcode of Write (R327). -/
abbrev opWrite : Nat := 0x01
/-- Opcode of Zone Append. -/
abbrev opZoneAppend : Nat := 0x7D

/-- Opcode of Read. -/
abbrev opRead : Nat := 0x02
/-- Opcode of Verify. -/
abbrev opVerify : Nat := 0x0C
/-- Opcode of Flush. -/
abbrev opFlush : Nat := 0x00
/-- Opcode of Zone Management Send. -/
abbrev opZoneSend : Nat := 0x79
/-- Opcode of Zone Management Receive. -/
abbrev opZoneReceive : Nat := 0x7A
/-- NSID that names every namespace. -/
abbrev allNamespaces : Nat := 0xFFFFFFFF

/-- Whether a command is the I/O command of an opcode; queue 0 is the admin queue. -/
def Cmd.io (c : Cmd) (op : Nat) : Bool := c.ref.sq != 0 && c.sqe.opcode == op

/-- Whether a command writes blocks. -/
def Cmd.isWrite (c : Cmd) : Bool := c.io opWrite || c.io opZoneAppend

/-- Whether a command is a Flush of a namespace (R342). -/
def Cmd.flushes (c : Cmd) (nsid : Nat) : Bool := c.io opFlush && (c.sqe.nsid == nsid || c.sqe.nsid == allNamespaces)

/-! ### Commit points (R340) -/

/-- Completion-queue slots that are neither filled nor reserved. -/
def Cq.free (q : Cq) : Nat := q.size - 1 - (q.tail + q.size - q.head) % q.size - q.reserved

/-- The completion queue of a command. -/
def State.cqOf (s : State) (k : CmdRef) : Option Cq :=
  let c := s.host.ctrls[k.ctrl]
  (c.sqs.find? fun q => q.id == k.sq).bind fun q => c.cqs.find? fun x => x.id == q.cq

/-- Whether a command is at its commit point or its completion queue has a slot for it. -/
def State.mayCommit (s : State) (k : CmdRef) : Bool :=
  match s.cmd? k with
  | none => true
  | some c => c.committed || c.result.isSome || match s.cqOf k with
    | some q => decide (0 < q.free)
    | none => false

/-- A command reaches its commit point: its slot is reserved. -/
def State.commit (s : State) (k : CmdRef) : State :=
  match s.cmd? k, s.cqOf k with
  | some c, some q =>
    if c.committed then s
    else (s.updCmd k fun c => { c with committed := true }).updCtrl k.ctrl fun x => { x with
      cqs := x.cqs.map fun y => if y.id = q.id then { y with reserved := y.reserved + 1 } else y }
  | _, _ => s

/-! ### Notices (R329, R353, R354) -/

/-- Controller with an asynchronous event: an outstanding request completes with it, or it waits. -/
def State.asyncEvent (s : State) (c : CtrlId) (kind info : Nat) : State :=
  match s.host.ctrls[c].aers with
  | [] => s.updCtrl c fun x => { x with notices := x.notices ++ [(kind, info)] }
  | k :: rest =>
    ((s.updCtrl c fun x => { x with aers := rest }).updCmd k fun m => { m with dw0 := info * 2 ^ 8 + kind }).finishCmd k .success

/-- Whether a bit of Asynchronous Event Configuration (feature 0x0B) is set; bit 8 Namespace Attribute, 9 Firmware Activation
Starting, 27 Zone Descriptor Changed (the NVMe specifications that R15 names). -/
def Controller.notifies (c : Controller) (bit : Nat) : Bool := (Sparse.get 0 c.features 0x0B).testBit bit

/-- A namespace becomes ready or stops being ready (R329). -/
def State.namespaceNotice (s : State) (p : PickupId) : State :=
  s.forEach (allFin 2) fun s c =>
    if s.host.ctrls[c].notifies 8 then
      (s.updCtrl c fun x => { x with changedNs := if x.changedNs.contains (nsidOf p) then x.changedNs else x.changedNs ++ [nsidOf p] })
        |>.asyncEvent c 2 0
    else s

/-! ### Zones (R330 to R333) -/

/-- Zone z of pickup p's namespace. -/
def State.zone (s : State) (p : PickupId) (z : Nat) : Zone := Sparse.get {} s.sides[p].zones z

/-- The zone with a change. -/
def State.updZone (s : State) (p : PickupId) (z : Nat) (f : Zone → Zone) : State :=
  s.updS p fun x => { x with zones := Sparse.put {} x.zones z (f (Sparse.get {} x.zones z)) }

/-- A zone becomes Full by Finish or Read Only: Changed Zone List, notice and EV_HOST_ZONE_STATE (R353, R362). `ctrl` is the number of
the controller whose command caused it, 0 where none did (DESIGN CHOICE). -/
def State.zoneNotice (s : State) (p : PickupId) (z ctrl : Nat) : State :=
  let s := s.updS p fun x => { x with changedZones := if x.changedZones.contains z then x.changedZones else x.changedZones ++ [z] }
  let s := s.forEach (allFin 2) fun s c => if s.host.ctrls[c].notifies 27 then s.asyncEvent c 2 0xEF else s
  s.report Isl.host Ev.hostZoneState [(ctrl : Nat), (nsidOf p : Nat), (z : Nat)]

/-- A zone enters Read Only (R333). -/
def State.zoneReadOnly (s : State) (p : PickupId) (z : Nat) : State :=
  if (s.zone p z).state == .readOnly then s else (s.updZone p z fun x => { x with state := .readOnly }).zoneNotice p z 0

/-- A zone whose write pointer falls back; one that had become Full by its capacity alone is open again. -/
def Zone.fallBack (z : Zone) (wp : Nat) : Zone :=
  { z with wp := wp, state := if z.state = .full ∧ wp < zoneBlocks ∧ !z.sealRequested then .implicitlyOpened else z.state }

/-! ### The cluster map (R50 to R53) -/

/-- Entry of a position that is Blank or SpareFree. -/
def MapEntry.unwritten (layer q : Nat) : MapEntry :=
  if q < spareFrom then
    { state := .blank, sealed := false, linkLayer := 0, link := 0, zone := layer * 67 + q / zoneClusters,
      cluster := q % zoneClusters, serial := 0, detourReads := 0, worstErasures := 0, poisoned := false }
  else
    { state := .spareFree, sealed := false, linkLayer := 0, link := 0, zone := 0x1FF, cluster := 0, serial := 0,
      detourReads := 0, worstErasures := 0, poisoned := false }

/-- Entry of a position that no disc holds (R50). -/
def MapEntry.absentEntry : MapEntry :=
  { state := .absent, sealed := false, linkLayer := 0, link := 0, zone := 0, cluster := 0, serial := 0, detourReads := 0,
    worstErasures := 0, poisoned := false }

/-- Map entry of position q on a layer of the side of pickup p. -/
def State.entry (s : State) (p : PickupId) (layer q : Nat) : MapEntry :=
  let side := s.sides[p]
  if (side.built || side.building) && decide (q < positions) && decide (layer < 4) then
    Sparse.get (MapEntry.unwritten layer q) side.map (posKey layer q)
  else MapEntry.absentEntry

/-- Cache line of an entry of the map: entry p · 2^21 + layer · 2^19 + q, of 16 bytes (R50, R405). -/
def mapLine (p layer q : Nat) : Nat := (p * 2 ^ 21 + layer * 2 ^ 19 + q) / 4

/-- A line leaves the cache and the lay-by. -/
def State.dropLine (s : State) (line : Nat) : State :=
  s.updMem fun m => { m with cache := m.cache.filter fun e => e.2 != line, layby := m.layby.filter fun l => l != line }

/-- The map with one entry changed; an entry that stands poisoned is written no more until the next mount (R436). -/
def State.setEntry (s : State) (p : PickupId) (layer q : Nat) (e : MapEntry) : State :=
  if (s.entry p layer q).poisoned then s
  else s.updS p fun x => { x with map := Sparse.put (MapEntry.unwritten layer q) x.map (posKey layer q) e }

/-- Where a logical cluster's data lie: its home position, or the spare that stands in for it (R49). -/
def State.place (s : State) (p : PickupId) (z c : Nat) : Nat × Nat :=
  let layer := zoneLayer z
  let e := s.entry p layer (homeQ z c)
  if e.state == .retired then (e.linkLayer, e.link) else (layer, homeQ z c)

end Sys2Proof.Machine
end

