-- ==== Sys2Proof/Machine/RunOps.lean ====
section
/-! DEFINITION. Write runs: shared operations of the write path that other chapters call: position along the stream, clusters
that fail, commit or are cut, journal records, the digest chain and the interruptions of R230. -/

namespace Sys2Proof.Machine

/-! ### Bytes -/

/-- The n big-endian bytes of a number. -/
def beBytes (n v : Nat) : List Byte := (List.range n).map fun i => BitVec.ofNat 8 (v / 256 ^ (n - 1 - i))

/-- Bytes of a block, byte 0 first. -/
def blockBytes (b : Block) : List Byte := (List.range 4096).map fun i => b.extractLsb' (8 * i) 8

/-! ### Position along the stream (R42, R44) -/

/-- Channel bits along the lane from the start of lane `origin` to the start of `lane`. -/
def bitsBetween (origin lane : Nat) : Nat :=
  (List.range (lane - origin)).foldl (fun acc i => acc + bitsPerRev (origin + i)) 0

/-- Lane at which the stream of an area begins (R44). -/
def RunArea.origin : RunArea → Nat
  | .user => 256 | .spare => 256 | .journalPrimary => 32 | .journalCopy => 32 | .control => 32

/-- Cluster position under the spot of pickup p: the position carried forward, in clusters from the area's origin. -/
def State.clusterUnder (s : State) (p : PickupId) (a : RunArea) : Nat :=
  let k := s.pickups[p]
  let lane := k.laneNow
  (bitsBetween a.origin lane + bitsPerRev lane * k.wobble / 73728) / 980280

/-! ### Journal (R236 to R240, R557) -/

/-- Positions of a journal area (R557). -/
def journalPositions : Nat := 1657
/-- Layer and position of index m of the primary area; the copy lies two layers on. -/
def journalPlace (m : Nat) (copy : Bool) : Nat × Nat :=
  let base := if copy then 2 else 0
  if m < 828 then (base, m + 1) else (base + 1, m - 828)

/-- A record takes the side's next JournalSequence and waits for the next pair (R237, R238). -/
def State.pendRecord (s : State) (p : PickupId) (r : JournalRecord) : State :=
  s.updS p fun x => { x with pendingRecords := x.pendingRecords ++ [(x.journalSeq, r)], journalSeq := x.journalSeq + 1 }

/-- A pair is formed with a record of its own; pending records travel with it (R238). -/
def State.formPair (s : State) (p : PickupId) (rs : List JournalRecord) (waiting : List CmdRef) : State :=
  let s := s.forEach rs fun s r => s.pendRecord p r
  s.updS p fun x => { x with
    pairQueue := x.pairQueue ++ [{ records := x.pendingRecords, primaryAt := none, copyAt := none, primaryDone := false,
                                   copyDone := false, waiting := waiting }]
    pendingRecords := [] }

/-- EV_WR_JOURNAL_FULL, once per side, and every Empty zone becomes Read Only (R240, R558). -/
def State.journalFull (s : State) (p : PickupId) : State :=
  let x := s.sides[p]
  let s := if x.journalFullRecorded then s else
    (s.updS p fun x => { x with journalFullRecorded := true }).report Isl.mem Ev.wrJournalFull
      [(p.val : Int), (journalPositions - x.markPrimary : Nat), (journalPositions - x.markCopy : Nat)]
  s.forEach (List.range zoneCount) fun s z => if (s.zone p z).state == .empty then s.zoneReadOnly p z else s

/-- Whether a record stays pending when its pair cannot be written (R558). -/
def JournalRecord.survives : JournalRecord → Bool
  | .replacement .. => true
  | .unusable .. => true
  | _ => false

/-- Zone that a pair's own record names, if any. -/
def JournalRecord.zone? : JournalRecord → Option Nat
  | .zoneOpened z _ _ => some z
  | .sealZone z .. => some z
  | .checkpoint z .. => some z
  | _ => none

/-- A zone whose ZoneOpened pair cannot be written: none of its runs may be written (R238), so every write of it that is dispatched
waits for the pair and completes with Write Fault, and its data leaves the buffer. -/
def State.dropOpening (s : State) (p : PickupId) (z : Nat) : State :=
  let s := s.forEach (s.host.cmds.filter fun c =>
      c.isWrite && c.sqe.nsid == nsidOf p && decide (c.lba / zoneBlocks = z) && c.result.isNone
        && (c.stage == .taken || c.stage == .onRamp || c.stage == .stalled)) fun s c => s.finishCmd c.ref .writeFault
  let s := s.updS p fun x => { x with
    runs := x.runs.filter fun r => !((r.area == .user || r.area == .spare) && r.clusters.any fun c => c.zone == z)
    replacements := x.replacements.filter fun w => w.zone != z
    buffer := x.buffer.filter fun b => b.lba / zoneBlocks != z }
  s.updZone p z fun y => y.fallBack y.committed

/-- A pair that cannot be written (R558): waiting commands complete with Write Fault, its zones become Read Only, Replacement and
Unusable records stay pending. -/
def State.dropPair (s : State) (p : PickupId) (j : JournalPair) : State :=
  let s := s.forEach j.waiting fun s k => s.finishCmd k .writeFault
  let s := s.forEach j.records fun s r => match r.2 with | .zoneOpened z _ _ => s.dropOpening p z | _ => s
  let s := s.forEach j.records fun s r => match r.2.zone? with | some z => s.zoneReadOnly p z | none => s
  s.updS p fun x => { x with pendingRecords := j.records.filter (fun r => r.2.survives) ++ x.pendingRecords }

/-! ### Spares (R46, R229) -/

/-- Layers in the order in which R46 takes spares for a position of a layer. -/
def spareLayers (layer : Nat) : List Nat := layer :: (List.range 4).filter (fun l => l ≠ layer)

/-- Whether a position lies in a run that is formed or in progress. -/
def Side.inRuns (x : Side) (layer q : Nat) : Bool :=
  (x.runs ++ x.current.toList).any fun r =>
    (r.area == .user || r.area == .spare) && r.layer == layer && r.clusters.any fun c => c.q == q

/-- Lowest free spare of a layer: SpareFree, readable in the map (R436), and in no run. -/
def State.freeSpare (s : State) (p : PickupId) (layer : Nat) : Option Nat :=
  ((List.range (positions - spareFrom)).map fun i => spareFrom + i).find? fun q =>
    (s.entry p layer q).state == .spareFree && !(s.entry p layer q).poisoned && !(s.sides[p]).inRuns layer q

/-- The spare that R46 gives for a position of a layer. -/
def State.nextSpare (s : State) (p : PickupId) (layer : Nat) : Option (Nat × Nat) :=
  (spareLayers layer).findSome? fun l => (s.freeSpare p l).map fun q => (l, q)

/-! ### Clusters that fail or are cut (R224, R227 to R229, R239) -/

/-- Every command that holds blocks of a cluster completes with Write Fault and the zone enters Read Only (R228). -/
def State.giveUpCluster (s : State) (p : PickupId) (zone cluster : Nat) (cmds : List CmdRef) : State :=
  let s := s.forEach cmds fun s k => s.finishCmd k .writeFault
  let s := s.updS p fun x => { x with
    replacements := x.replacements.filter fun r => !(r.zone == zone && r.cluster == cluster)
    buffer := x.buffer.filter fun b => !(b.lba / zoneBlocks == zone && b.lba % zoneBlocks / 64 == cluster) }
  s.zoneReadOnly p zone

/-- EV_WR_SPARES_EXHAUSTED, once per side (R229). -/
def State.recordSparesExhausted (s : State) (p : PickupId) : State :=
  if (s.sides[p]).sparesExhaustedRecorded then s
  else (s.updS p fun x => { x with sparesExhaustedRecorded := true }).report Isl.mem Ev.wrSparesExhausted [(p.val : Int)]

/-- A logical cluster needs a spare: it waits as a replacement, or is given up when no spare of the side is free (R227, R229). -/
def State.needSpare (s : State) (p : PickupId) (r : Replacement) : State :=
  match s.nextSpare p r.layer with
  | some _ => s.updS p fun x => { x with replacements := x.replacements ++ [r] }
  | none => (s.recordSparesExhausted p).giveUpCluster p r.zone r.cluster r.commands

/-- A position becomes Unusable with Zone 0x1FF (R51, R224) and the journal will say so (R237). -/
def State.markUnusable (s : State) (p : PickupId) (layer q reason : Nat) : State :=
  let e := MapEntry.unwritten layer q
  (s.setEntry p layer q { e with state := .unusable, zone := 0x1FF, cluster := 0 }).pendRecord p (.unusable layer reason q)

/-- Commands with blocks in a cluster, by the buffer. -/
def Side.ownersOf (x : Side) (zone cluster : Nat) : List CmdRef :=
  ((x.buffer.filter fun b => b.lba / zoneBlocks == zone && b.lba % zoneBlocks / 64 == cluster).map fun b => b.owner).eraseDups

/-- A system-area cluster that is cut records EV_WR_VERIFY_FAIL as a failed one does (R239); sector 0 and criterion 4 are the
model's, since no frame of it was judged. -/
def State.systemCut (s : State) (p : PickupId) (r : Run) (c : RunCluster) (reason : Nat) : State :=
  if reason = 0 then s
  else s.report Isl.mem Ev.wrVerifyFail [(p.val : Int), (r.layer : Int), (c.q : Int), 0, 4]

/-- A cluster whose spare has failed waits behind the clusters whose failures were detected before: spares are allocated in the order of the
failures (R46, R228). -/
def requeue (l : List Replacement) (zone cluster : Nat) : List Replacement :=
  let hit (w : Replacement) : Bool := w.zone == zone && w.cluster == cluster
  l.filter (fun w => !hit w) ++ (l.filter hit).map fun w => { w with attempts := w.attempts + 1 }

/-- A cluster of a run has failed verify (reason 0), was cut (1) or was not blank (2). -/
def State.clusterFails (s : State) (p : PickupId) (r : Run) (c : RunCluster) (reason : Nat) : State :=
  match r.area with
  | .user =>
    (s.markUnusable p r.layer c.q reason).needSpare p
      { layer := c.homeLayer, homeQ := c.homeQ, zone := c.zone, cluster := c.cluster, attempts := 0, reason := reason,
        blocks := c.blocks, fillers := c.fillers, commands := (s.sides[p]).ownersOf c.zone c.cluster }
  | .spare =>
    let s := s.markUnusable p r.layer c.q reason
    let s := s.updS p fun x => { x with replacements := requeue x.replacements c.zone c.cluster }
    match (s.sides[p]).replacements.find? (fun w => w.zone == c.zone && w.cluster == c.cluster) with
    | none => s
    | some w =>
      if (s.sides[p]).settings.replaceAttempts ≤ w.attempts then s.giveUpCluster p c.zone c.cluster w.commands
      else if (s.nextSpare p w.layer).isNone then (s.recordSparesExhausted p).giveUpCluster p c.zone c.cluster w.commands
      else s
  | .journalPrimary => (s.systemCut p r c reason).updS p fun x => { x with pair := x.pair.map fun j => { j with primaryAt := none } }
  | .journalCopy => (s.systemCut p r c reason).updS p fun x => { x with pair := x.pair.map fun j => { j with copyAt := none } }
  | .control => (s.systemCut p r c reason).report Isl.mem Ev.wrDcbSingle [(p.val : Int), (p.side : Int), (r.layer : Int)]

/-! ### The digest chain (R231 to R233) -/

/-- L_c: SHA-256 of the 64 data sectors, filler sectors as zeros. -/
def contentDigest (blocks : List (Nat × Block)) : BitVec 256 :=
  Config.sha256 ((List.range 64).flatMap fun k =>
    match blocks.find? (fun b => b.1 == k) with
    | some b => blockBytes b.2
    | none => List.replicate 4096 0)

/-- D_init of a zone (R231). -/
def State.digestInit (s : State) (p : PickupId) (z : Nat) : BitVec 256 :=
  Config.sha256 (beBytes 16 (s.sides[p]).discId.toNat ++ beBytes 1 p.side ++ beBytes 2 z)

/-- D_c from D_(c-1) (R231). -/
def digestNext (d : BitVec 256) (c serial : Nat) (l : BitVec 256) : BitVec 256 :=
  Config.sha256 (beBytes 32 d.toNat ++ beBytes 2 c ++ beBytes 4 serial ++ beBytes 32 l.toNat)

/-- One advance of the chain over a cluster that waits (R232), and the checkpoint that R233 asks for; a checkpoint on the cluster
that seals the zone travels in the seal's pair (R238). -/
def State.digestStep (s : State) (p : PickupId) (z : Nat) : State :=
  let x := s.zone p z
  match x.waitingCommits.find? (fun w => w.1 == x.digestClusters) with
  | none => s
  | some (c, serial, l) =>
    let d := digestNext (x.digest.getD (s.digestInit p z)) c serial l
    let s := s.updZone p z fun x => { x with
      digest := some d, digestClusters := c + 1, digestState := .running
      waitingCommits := x.waitingCommits.filter fun w => w.1 ≠ c
      firstSerial := some (min serial (x.firstSerial.getD serial)), lastSerial := max serial x.lastSerial }
    if (c + 1) % (s.sides[p]).settings.checkpointClusters = 0 then
      let s := s.report Isl.mem Ev.wrCheckpoint [(p.val : Int), (z : Int), (c : Int)]
      let seals := decide (c + 1 = zoneClusters) || (x.sealRequested && !(s.sides[p]).buffer.any fun b => b.lba / zoneBlocks == z)
      if seals then s.pendRecord p (.checkpoint z c serial d)
      else s.formPair p [.checkpoint z c serial d] []
    else s

/-- The chain advances over every cluster that has committed without a gap. -/
def State.digestAdvance (s : State) (p : PickupId) (z : Nat) : State :=
  s.forEach (List.range (s.zone p z).waitingCommits.length) fun s _ => s.digestStep p z

/-- Clusters of a zone that have committed without a gap, from cluster c on. -/
def State.committedFrom (s : State) (p : PickupId) (z : Nat) : Nat → Nat → Nat
  | _, 0 => 0
  | c, fuel + 1 =>
    let e := s.entry p (zoneLayer z) (homeQ z c)
    if c < zoneClusters && (e.state == .written || e.state == .retired) then 1 + s.committedFrom p z (c + 1) fuel else 0

/-! ### Commit (R224, R225, R53) -/

/-- Commands of a cluster complete once none of their blocks is left to commit (R225); those that wait on a change of a poisoned entry
complete with Internal Error (R436). -/
def State.completeOwners (s : State) (p : PickupId) (owners : List CmdRef) (poisoned : Bool) : State :=
  s.forEach owners fun s k =>
    if poisoned then s.finishCmd k .internalError else
    if (s.sides[p]).buffer.any (fun b => b.owner == k) then s else s.finishCmd k .success

/-- A user or spare cluster commits: map entries (both at once under R53, with cached copies of their lines invalidated, R418), pointers, digest chain, buffer and commands. -/
def State.commitData (s : State) (p : PickupId) (r : Run) (c : RunCluster) : State :=
  let written : MapEntry := { MapEntry.unwritten c.homeLayer c.homeQ with
    state := .written, zone := c.zone, cluster := c.cluster, serial := c.serial }
  let s := match r.area with
    | .spare =>
      let reason : Nat := match (s.sides[p]).replacements.find? (fun w : Replacement => w.zone == c.zone && w.cluster == c.cluster) with
        | some w => w.reason
        | none => 0
      let s := s.setEntry p c.homeLayer c.homeQ { written with state := .retired, linkLayer := r.layer, link := c.q }
      let s := s.setEntry p r.layer c.q { written with state := .spareInUse, linkLayer := c.homeLayer, link := c.homeQ }
      let s := (s.dropLine (mapLine p c.homeLayer c.homeQ)).dropLine (mapLine p r.layer c.q)
      let s := s.pendRecord p (.replacement c.homeLayer r.layer c.zone c.homeQ c.q c.cluster reason c.serial)
      let s := s.updS p fun x => { x with replacements := x.replacements.filter fun w => !(w.zone == c.zone && w.cluster == c.cluster) }
      (s.bump Obj.replacements p 0).report Isl.mem Ev.wrReplaced
        [(p.val : Int), (c.homeLayer : Int), (c.homeQ : Int), (r.layer : Int), (c.q : Int)]
    | _ => s.setEntry p r.layer c.q written
  let s := s.bump Obj.clustersCommitted p 0
  let owners := (s.sides[p]).ownersOf c.zone c.cluster
  let s := s.updS p fun x => { x with buffer := x.buffer.filter fun b =>
    !(b.lba / zoneBlocks == c.zone && b.lba % zoneBlocks / 64 == c.cluster) }
  let s := s.updZone p c.zone fun z => { z with
    waitingCommits := z.waitingCommits ++ [(c.cluster, c.serial, contentDigest c.blocks)]
    filler := if c.fillers = 0 then z.filler else z.filler ++ [c.cluster * 64 + (64 - c.fillers)]
    fillerBlocks := z.fillerBlocks + c.fillers }
  let done := (s.zone p c.zone).committed / 64
  let s := s.updZone p c.zone fun z => { z with committed := 64 * (done + s.committedFrom p c.zone done zoneClusters) }
  let s := s.updZone p c.zone fun z => { z with wp := max z.wp z.committed }
  let bad := (s.entry p c.homeLayer c.homeQ).poisoned || (s.entry p r.layer c.q).poisoned
  (s.digestAdvance p c.zone).completeOwners p owners bad

/-- A cluster of a run commits. -/
def State.clusterCommits (s : State) (p : PickupId) (r : Run) (c : RunCluster) : State :=
  match r.area with
  | .user => s.commitData p r c
  | .spare => s.commitData p r c
  | .journalPrimary => s.updS p fun x => { x with pair := x.pair.map fun j => { j with primaryDone := true } }
  | .journalCopy => s.updS p fun x => { x with pair := x.pair.map fun j => { j with copyDone := true } }
  | .control => s.updS p fun x => { x with controlReads := modifyAt x.controlReads (r.layer / 2) fun _ => true }

/-! ### Interruptions (R230) -/

/-- What interrupts a run, as EV_WR_RUN_INTERRUPTED carries it (numbering of the model). -/
inductive Interrupt where
  | gates | notBlank | park | controllerReset | powerFail
deriving DecidableEq, Repr

/-- Number of a cause. -/
def Interrupt.code : Interrupt → Int
  | .gates => 0 | .notBlank => 1 | .park => 2 | .controllerReset => 3 | .powerFail => 4

/-- The run with the light that pass 1 has given its clusters by the position under the spot. -/
def State.litRun (s : State) (p : PickupId) (r : Run) : Run :=
  if (s.sides[p]).writeState == .pass1 then
    let q := s.clusterUnder p r.area
    { r with clusters := r.clusters.map fun c => if c.state == .unlit && decide (c.q ≤ q) then { c with state := .lit } else c }
  else r

/-- Whether a cluster of a run has been lit and has not reached its end. -/
def RunCluster.open_ (c : RunCluster) : Bool := c.state == .lit

/-- EV_WR_RUN_INTERRUPTED with the counts of committed, Unusable and Blank clusters of the run (R248). -/
def State.recordInterrupted (s : State) (p : PickupId) (r : Run) (i : Interrupt) (unusable : RunCluster → Bool) : State :=
  s.report (Isl.sv p) Ev.wrRunInterrupted
    [(p.val : Int), i.code, ((r.clusters.filter fun c => c.state == .committed).length : Int),
     ((r.clusters.filter unusable).length : Int), ((r.clusters.filter fun c => c.state == .unlit).length : Int)]

/-- The beams of a pickup that write stop; their channels acquire again at the next frame start (R170). -/
def State.stopBeams (s : State) (p : PickupId) : State :=
  s.updChannels p fun c => if c.mode == .writing then { c with mode := .idle, pendingAcquire := true } else c

/-- The gates are inhibited during a pass, for a defect hold, lane slip, driver fault or rate out of range: in pass 1 or 2 the
cluster whose frame was cut leaves the run for R227; the pass resumes when the pickup follows again. In pass 3 nothing is
lit. -/
def State.interruptGates (s : State) (p : PickupId) (i : Interrupt) : State :=
  let s := s.stopBeams p
  let x := s.sides[p]
  match x.current with
  | none => s
  | some r0 =>
    if x.writeState == .pass1 || x.writeState == .pass2 then
      let q := s.clusterUnder p r0.area
      let r := s.litRun p r0
      let hit : RunCluster → Bool := fun c => c.q == q && c.open_
      let r' := { r with clusters := r.clusters.map fun c => if hit c then { c with state := .cut } else c }
      let s := s.updS p fun x => { x with current := some r', writeState := .resuming, gatesInhibited := true }
      let s := s.forEach (r.clusters.filter hit) fun s c => s.clusterFails p r c 1
      s.recordInterrupted p r' i fun c => c.state == .failed || c.state == .cut || c.state == .notBlank
    else if x.writeState == .pass3 then
      (s.updS p fun x => { x with writeState := .resuming }).recordInterrupted p r0 i
        fun c => c.state == .failed || c.state == .cut
    else s

/-- The run ends for good: lit clusters become Unusable, unlit ones stay Blank, committed ones stay Written. -/
def State.abandonRun (s : State) (p : PickupId) (i : Interrupt) : State :=
  let s := s.stopBeams p
  match (s.sides[p]).current with
  | none => s
  | some r0 =>
    let r := s.litRun p r0
    let data := r.area == .user || r.area == .spare
    let s := s.forEach (r.clusters.filter fun c => c.open_ || (!data && c.state == .unlit)) fun s c =>
      if data then s.markUnusable p r.layer c.q 1 else s.clusterFails p r c (if c.open_ then 1 else 0)
    let s := s.updS p fun x => { x with
      current := none, writeState := .idle, pass := 0, gatesInhibited := false, streamRuns := 0, lastRunEnd := none }
    s.recordInterrupted p r i fun c => c.state == .failed || c.state == .cut || c.open_

/-- Zones with a cluster in one of the runs. -/
def runZones (rs : List Run) : List Nat :=
  ((rs.filter fun r => r.area == .user || r.area == .spare).flatMap fun r => r.clusters.map fun c => c.zone).eraseDups

/-- Blocks of a zone leave the buffer from an offset on, as far as no formed run holds them: the write pointer falls back, and later
writes of the zone before their commit points complete with Zone Invalid Write (R230, R341). -/
def State.withdrawFrom (s : State) (p : PickupId) (z first : Nat) : State :=
  let wp := max first (s.zone p z).committed
  let gone (lba : Nat) : Bool := decide (lba / zoneBlocks = z ∧ wp ≤ lba % zoneBlocks)
  let s := s.updS p fun x => { x with buffer := x.buffer.filter fun b => !(gone b.lba && !b.inRun) }
  let s := if wp < (s.zone p z).wp then s.updZone p z fun x => x.fallBack wp else s
  s.forEach (s.host.cmds.filter fun c =>
      c.isWrite && c.sqe.nsid == nsidOf p && gone c.lba && !c.committed && c.result.isNone
        && (c.stage == .taken || c.stage == .onRamp || c.stage == .stalled)) fun s c => s.finishCmd c.ref .zoneInvalidWrite

/-- A cluster of the write buffer is lost (R436): it is not lit and leaves its run, its commands complete with Internal Error, and the
zone stands as after an aborted write. -/
def State.bufferLost (s : State) (p : PickupId) (z c : Nat) : State :=
  let owners := (s.sides[p]).ownersOf z c
  let hit : RunCluster → Bool := fun x => x.zone == z && x.cluster == c
  let data (r : Run) : Bool := r.area == .user || r.area == .spare
  let s := match (s.sides[p]).current with
    | none => s
    | some r0 =>
      let r := s.litRun p r0
      if data r && r.clusters.any (fun x => hit x && x.state != RunClusterState.committed) then
        let lit := r.clusters.filter fun x => hit x && x.open_
        let s := s.forEach lit fun s x => s.markUnusable p r.layer x.q 1
        let cut (y : RunCluster) : RunCluster := if hit y && y.state != RunClusterState.committed then { y with state := .cut } else y
        s.updS p fun x => { x with current := some { r with clusters := r.clusters.map cut } }
      else s
  let left (r : Run) : Run := if data r then { r with clusters := r.clusters.filter fun y => !hit y } else r
  let s := s.updS p fun x => { x with
    runs := (x.runs.map left).filter fun r => r.clusters != []
    replacements := x.replacements.filter fun w => !(w.zone == z && w.cluster == c)
    buffer := x.buffer.filter fun b => !(b.lba / zoneBlocks == z && b.lba % zoneBlocks / 64 == c) }
  let s := s.forEach owners fun s k => s.finishCmd k .internalError
  let first := (owners.filterMap fun k => (s.cmd? k).map fun (m : Cmd) => m.lba % zoneBlocks).min?.getD (64 * c)
  s.withdrawFrom p z (min first (64 * c))

/-- A pickup parks while runs are in progress or formed (R230): the current run ends, commands with blocks in it or in a run
formed behind it complete with Write Fault, their data leaves the buffer, the write pointers of the zones concerned are set
back and later writes of those zones before their commit points complete with Zone Invalid Write. -/
def State.parkRuns (s : State) (p : PickupId) : State :=
  let x := s.sides[p]
  let rs := x.current.toList ++ x.runs
  let zs := (runZones rs ++ x.replacements.map fun w => w.zone).eraseDups
  let cmds := (rs.flatMap fun r => r.commands).eraseDups ++ (x.replacements.flatMap fun w => w.commands)
  let pairs := x.pair.toList ++ x.pairQueue
  let s := s.abandonRun p .park
  let s := s.forEach cmds fun s k => s.finishCmd k .writeFault
  let s := s.updS p fun y => { y with
    runs := [], replacements := [], pair := none, pairQueue := []
    buffer := y.buffer.filter fun b => !(cmds.contains b.owner) && !(zs.contains (b.lba / zoneBlocks)) }
  let s := s.forEach pairs fun s j => s.dropPair p j
  let s := s.forEach zs fun s z => s.updZone p z fun y => y.fallBack y.committed
  s.forEach (s.host.cmds.filter fun c =>
      c.isWrite && c.sqe.nsid == nsidOf p && zs.contains (c.lba / zoneBlocks) && !c.committed && c.result.isNone
        && (c.stage == .taken || c.stage == .onRamp || c.stage == .stalled)) fun s c => s.finishCmd c.ref .zoneInvalidWrite

end Sys2Proof.Machine
end

