-- ==== Sys2Proof/Machine/FrameOps.lean ====
section
/-! DEFINITION. Frames on their way from a read channel to decoding: standings of codewords and sectors (R185), verify of a frame
of a run (R223), frames cut short by a write or a loss of the spot (R166, R170), state sets (R153). -/

namespace Sys2Proof.Machine

/-! ### Codewords and sectors (R185 to R189) -/

/-- Whether a codeword is Converged. -/
def Standing.done : Standing → Bool
  | .converged _ => true
  | _ => false

/-- Whether the workspace holds LLRs of a codeword (R184). -/
def Standing.stored : Standing → Bool
  | .failed _ => true
  | .abandoned => true
  | _ => false

/-- A codeword that has converged stays converged (R194). -/
def Standing.next (old new : Standing) : Standing := if old.done then old else new

/-- Standing of codeword 0 or 1 of a sector. -/
def SectorRead.half (x : SectorRead) (h : Fin 2) : Standing := if h = 0 then x.c0 else x.c1

/-- The sector with a new standing of a codeword. -/
def SectorRead.setHalf (x : SectorRead) (h : Fin 2) (st : Standing) : SectorRead :=
  if h = 0 then { x with c0 := x.c0.next st } else { x with c1 := x.c1.next st }

/-- Stored LLRs of codeword 0 or 1 of a sector; none are stored where the list is empty (R184). -/
def SectorRead.llrs (x : SectorRead) (h : Fin 2) : List Int := if h = 0 then x.llr0 else x.llr1

/-- The sector with the stored LLRs of a codeword. -/
def SectorRead.keep (x : SectorRead) (h : Fin 2) (l : List Int) : SectorRead :=
  if h = 0 then { x with llr0 := l } else { x with llr1 := l }

/-- A sector is accepted (R189). -/
def SectorRead.accepted (x : SectorRead) : Bool := x.c0.done && x.c1.done && (x.vouched || x.readmitted)

/-- A codeword that has not been read becomes Absent. -/
def Standing.absentIfPending : Standing → Standing
  | .pending => .absent
  | st => st

/-- Whether both codewords of a sector have ended their first pass. -/
def SectorRead.ended (x : SectorRead) : Bool := decide (x.c0 ≠ .pending ∧ x.c1 ≠ .pending) && !x.overflow

/-- Data sectors of a cluster that are not accepted. -/
def ClusterRead.open_ (r : ClusterRead) : List SectorRead := r.sectors.filter fun x => decide (x.k < 64) && !x.accepted

/-- The read of a cluster in progress on pickup p. -/
def State.read? (s : State) (p : PickupId) (layer q : Nat) : Option ClusterRead :=
  (s.sides[p]).reads.find? fun r => r.layer == layer && r.q == q

/-- The read of a cluster with a change. -/
def State.updRead (s : State) (p : PickupId) (layer q : Nat) (f : ClusterRead → ClusterRead) : State :=
  s.updS p fun x => { x with reads := x.reads.map fun r => if r.layer = layer ∧ r.q = q then f r else r }

/-- One sector of a read with a change. -/
def State.updSector (s : State) (p : PickupId) (layer q k : Nat) (f : SectorRead → SectorRead) : State :=
  s.updRead p layer q fun r => { r with sectors := r.sectors.map fun x => if x.k = k then f x else x }

/-! ### Verify (R223, R224) -/

/-- Number of the criterion that a frame fails in EV_WR_VERIFY_FAIL (order of R223). -/
inductive Criterion where
  | header | decode | erased | bytes
deriving DecidableEq, Repr

/-- Code of a criterion. -/
def Criterion.code : Criterion → Int
  | .header => 0 | .decode => 1 | .erased => 2 | .bytes => 3

/-- The cluster of the current run at a position. -/
def State.runCluster? (s : State) (p : PickupId) (layer q : Nat) : Option (Run × RunCluster) :=
  match (s.sides[p]).current with
  | none => none
  | some r => if r.layer = layer then (r.clusters.find? fun c => c.q == q).map fun c => (r, c) else none

/-- The current run with a change to one cluster. -/
def State.updRunCluster (s : State) (p : PickupId) (q : Nat) (f : RunCluster → RunCluster) : State :=
  s.updS p fun x => { x with current := x.current.map fun r =>
    { r with clusters := r.clusters.map fun c => if c.q = q then f c else c } }

/-- VERIFY_FAIL: the cluster of a frame that fails verify becomes Unusable and is queued for a spare run, or rewritten as R239
says (R224, R227). -/
def State.verifyFails (s : State) (p : PickupId) (layer q k : Nat) (why : Criterion) : State :=
  match s.runCluster? p layer q with
  | none => s
  | some (r, c) =>
    if c.state == .lit then
      let s := s.updRunCluster p q fun c => { c with state := .failed }
      let s := (s.bump Obj.verifyFailures p 0).report Isl.mem Ev.wrVerifyFail
        [(p.val : Int), (layer : Int), (q : Int), (k : Int), why.code]
      s.clusterFails p r c 0
    else s

/-- Bytes of a codeword of a cluster that is written: the logical block or zeros of a data sector, the outer parity of a parity
sector (R41, R210). -/
def RunCluster.halfOf (c : RunCluster) (k : Nat) (h : Fin 2) : HalfBlock :=
  let dataHalf (j : Nat) : HalfBlock := match c.blocks.find? (fun b : Nat × Block => b.1 == j) with
    | some b => b.2.extractLsb' (16384 * h.val) 16384
    | none => 0
  if k < 64 then dataHalf k
  else (List.range 2048).foldl (fun acc j =>
    let column := (List.range 64).map fun i => ((dataHalf i).extractLsb' (8 * j) 8).toNat
    acc ||| (BitVec.ofNat 16384 ((rsParity 6 column).getD (k - 64) 0)).shiftLeft (8 * j)) 0

/-- Whether a run's clusters lie in the system area. -/
def RunArea.system (a : RunArea) : Bool := a != .user && a != .spare

/-- Header of sector k of a cluster that is written (R37, R210). -/
def RunCluster.header (c : RunCluster) (area : RunArea) (layer side k : Nat) : Header where
  layer := layer
  side := side
  q := c.q
  sector := k
  zone := if area.system then 0x1FF else c.zone
  cluster := if area.system then 0 else c.cluster
  parity := decide (64 ≤ k)
  replacement := area == .spare
  systemArea := area.system
  filler := decide (k < 64) && (c.blocks.find? fun b => b.1 == k).isNone
  serial := c.serial % 2 ^ 32

/-- The frame of sector k of a cluster that is written, as NRZ levels of its channel bits: header and both codewords through their encoders, in
the layout of R33 (R210). -/
def RunCluster.frame (c : RunCluster) (area : RunArea) (layer side k : Nat) : List Bool :=
  frameLevels ((encodeHeader (c.header area layer side k)).flatMap (msbBits 8) ++ ldpcEncode (c.halfOf k 0) ++ ldpcEncode (c.halfOf k 1))

/-- FRAME_VERIFY for one codeword of a frame (R223); the last one of a cluster commits it (R224). -/
def State.verifyCodeword (s : State) (p : PickupId) (f : FrameSlot) (h : Fin 2) (r : DecodeResult) : State :=
  let s := s.updS p fun x => { x with verifyIterations := x.verifyIterations + r.iterations, verifyCodewords := x.verifyCodewords + 1 }
  match s.runCluster? p f.layer f.q with
  | none => s
  | some (run, c) =>
    if c.state ≠ .lit then s
    else if !r.converged || decide ((s.sides[p]).settings.verifyIterations < r.iterations) then s.verifyFails p f.layer f.q f.k .decode
    else if (s.sides[p]).settings.verifyErased < (if h = 0 then f.erased0 else f.erased1) then s.verifyFails p f.layer f.q f.k .erased
    else if r.info ≠ c.halfOf f.k h then s.verifyFails p f.layer f.q f.k .bytes
    else
      let n := 2 * f.k + h.val
      let passed := if c.passed.contains n then c.passed else c.passed ++ [n]
      let all := decide (passed.length = 2 * sectors)
      let s := s.updRunCluster p f.q fun c => { c with passed := passed, state := if all then .committed else c.state }
      if all then s.clusterCommits p run { c with passed := passed, state := .committed } else s

/-! ### Frames handed over (R166, R185) -/

/-- Whether the last channel bit of a codeword is in the store (R169); a frame must have been
searched for that to be known. -/
def FrameSlot.complete (f : FrameSlot) (h : Fin 2) : Bool :=
  f.searched && decide (f.align - 192 + 28272 + 27648 * (h.val : Int) + 32 ≤ f.soft.length)

/-- What the header of a frame says of its sector. -/
def FrameSlot.good (f : FrameSlot) : Bool := (f.status == .headerFirst || f.status == .headerSecond) && f.matched

/-- Sector k as a frame's status leaves it (R185). A header read again counts for a sector that no header has vouched for yet. -/
def SectorRead.handed (x : SectorRead) (f : FrameSlot) : SectorRead :=
  match f.status with
  | .overflow => if x.c0 = .pending ∧ x.c1 = .pending then { x with overflow := true } else x
  | .blank => { x with c0 := x.c0.absentIfPending, c1 := x.c1.absentIfPending }
  | .truncated => { x with c0 := if f.complete 0 then x.c0 else x.c0.absentIfPending
                           c1 := if f.complete 1 then x.c1 else x.c1.absentIfPending }
  | .headerFirst => if f.matched then { x with vouched := true }
      else { x with c0 := x.c0.absentIfPending, c1 := x.c1.absentIfPending }
  | .headerSecond => if f.matched then { x with vouched := true }
      else { x with c0 := x.c0.absentIfPending, c1 := x.c1.absentIfPending }
  | .headerInvalid => { x with chain := if x.vouched then x.chain else f.chain }
  | .flywheel => { x with chain := if x.vouched then x.chain else f.chain }

/-- A frame is handed over with its status: to the read of its cluster, or to verify when the run is read back. `serial` is the
WriteSerial of its header, which completes a map entry that a build left at 0 (R243). -/
def State.handFrame (s : State) (p : PickupId) (f : FrameSlot) (serial : Option Nat) : State :=
  if f.verify then
    if f.good && f.status == .headerFirst then s
    else if f.status == .truncated then s
    else s.verifyFails p f.layer f.q f.k .header
  else if f.system then s
  else
    let s := s.updSector p f.layer f.q f.k fun x => x.handed f
    match serial with
    | some n =>
      let e := s.entry p f.layer f.q
      if f.good && e.serial == 0 && (e.state == .written || e.state == .spareInUse) then
        s.setEntry p f.layer f.q { e with serial := n }
      else s
    | none => s

/-! ### Frames cut short and beams that write (R166, R170) -/

/-- The frame whose storing is in progress ends as Truncated. -/
def State.truncateFrame (s : State) (g : BeamId) : State :=
  let c := s.channels[g]
  match c.slot with
  | none => s
  | some i =>
    match c.slots[i] with
    | none => s.updC g fun c => { c with slot := none }
    | some f =>
      if f.complete 1 then s.updC g fun c => { c with slot := none }
      else
        let f := { f with status := .truncated }
        let s := s.updC g fun c => { c with slot := none, slots := upd c.slots i (fun _ => some f), lastStatus := .truncated }
        (s.report (Isl.ch g) Ev.chFrameTruncated [(g.val : Int)]).handFrame g.pickup f none

/-- A seek or a jump starts: the channels of a pickup become Idle; beams that write stop (R170). -/
def State.idleChannels (s : State) (p : PickupId) : State :=
  let s := s.forEach (allFin 4) fun s b => s.truncateFrame (p.beam b)
  s.updChannels p fun c => if c.mode == .off then c else { c with mode := .idle, frameLock := false, pendingAcquire := true, sinceGood := none }

/-- BEAM_WRITE_START: the channel enters Writing (R170). -/
def State.beamWriteStart (s : State) (g : BeamId) : State :=
  (s.truncateFrame g).updC g fun c => { c with mode := .writing, frameLock := false, sinceGood := none }

/-- BEAM_WRITE_STOP: the channel acquires again at the next frame start (R170). -/
def State.beamWriteStop (s : State) (g : BeamId) : State :=
  s.updC g fun c => if c.mode == .writing then { c with mode := .idle, pendingAcquire := true } else c

/-! ### Detours (R192, R195 to R198) -/

/-- The change of a rung is removed: offsets, equaliser step, array shift, and the share in a reduced speed (R192, R197). -/
def State.endDetour (s : State) (p : PickupId) : State :=
  let speed := (s.sides[p]).reads.any fun r => match r.ladder with
    | some l => l.running && decide (0 < l.rereadsLeft) && l.order.getD l.position 0 == 6
    | none => false
  let s := s.updP p fun k => { k with
    detourTrack := 0, detourFocus := 0, reassign := 0, reassignSetpoint := 0, reassignScale := 1024, detourEq := 0 }
  if speed then
    s.updM p.spindle fun m => { m with
      detourUsers := m.detourUsers - 1, detourBase := if m.detourUsers ≤ 1 then none else m.detourBase }
  else s

/-- A rung ends failed: a seek of it failed (R198). -/
def State.rungFails (s : State) (p : PickupId) : State :=
  (s.endDetour p).updS p fun x => { x with reads := x.reads.map fun r =>
    { r with ladder := r.ladder.map fun l => if l.running then { l with failedRung := true, rereadsLeft := 0 } else l } }

/-! ### State sets (R153) -/

/-- The starting set of a beam, from `VgaGainInit`, `FirTapInit` and `ItiCouplingInit`; none of them gives f_ij, which starts at 0 (log entry
156). -/
def State.initialSet (s : State) (g : BeamId) : ChannelSet where
  gain := s.ob Obj.vgaGainInit g * 2 ^ 20
  taps := (List.range 17).map fun k => s.ob Obj.firTapInit g k * 2 ^ 20
  coupling := (List.range 4).map fun j => s.ob Obj.itiCouplingInit g j * 2 ^ 20
  frac := [0, 0, 0, 0]

/-- All four sets of a beam are loaded, at mount and when one of the three objects becomes active. -/
def State.loadSets (s : State) (g : BeamId) : State :=
  let n := s.initialSet g
  s.updC g fun c => { c with
    sets := .replicate 4 n, gain := n.gain, taps := n.taps, coupling := n.coupling, frac := n.frac, fracSums := .replicate 4 {} }

end Sys2Proof.Machine
end

