-- ==== Sys2Proof/Machine/AxisOps.lean ====
section
/-! DEFINITION. Shared operations of the axes: unit conversions, the start and the end of moves, Halt, the stop of R306 and
faults. -/

namespace Sys2Proof

/-- Instance number of an axis in the object tables: sleds 0 to 7, auxiliary axes from 0x6500 on. -/
def AxisId.inst (a : AxisId) : Nat := if a.val < 8 then a.val else a.val + 8
/-- Auxiliary axis number. -/
def AxisId.aux (a : AxisId) : Nat := a.val - 8
/-- Whether the axis is a sled. -/
def AxisId.isSled (a : AxisId) : Bool := decide (a.val < 8)

end Sys2Proof

namespace Sys2Proof.Machine

/-- Microsteps as a position of the state. -/
def ustep (x : Int) : Int := x * 256
/-- Speed of microsteps/s in the state's unit (period 40 µs). -/
def speedUnits (v : Int) : Int := rnd (v * 2 ^ 26) 100000
/-- Acceleration of microsteps/s² in the state's unit. -/
def accelUnits (v : Int) : Int := rnd (v * 2 ^ 28) 10000000000
/-- Speed in microsteps/s of a speed of the state, for `AxisSpeed`. -/
def speedOfUnits (u : Int) : Int := rnd (u * 100000) (2 ^ 26)
/-- Position in whole microsteps. -/
def usteps (x : Int) : Int := rnd x 256

/-- The set-point word of R294. -/
def Axis.word (a : Axis) : Int :=
  let src : Int := match a.wordSource with | .hold => 0 | .profile => 1 | .sledOuter => 2 | .external => 3
  src * 2 ^ 60 + (if a.wordFinal then 2 ^ 59 else 0) + (if a.positionValid then 0 else 2 ^ 58)
    + (a.wordVelocity % 2 ^ 24) * 2 ^ 32 + a.position % 2 ^ 32

/-- Signed direction of travel. -/
def Axis.dir (a : Axis) : Int := if a.forward then 1 else -1

/-- A move starts from standstill: acceleration, run current (R299, R305). DESIGN CHOICE: a move that ends a frozen angle finds the
encoder count aligned to the set-point. -/
def Axis.begin (a : Axis) (target : Int) (run : Int) : Axis :=
  { a with mode := .moving, target := target, speed := 0, forward := decide (a.position ≤ target), down := false, rampDecel := 0,
           pendingMove := none, coil := run, limitRecorded := false, limitRun := 0, frozen := false, stallRun := 0, retryDue := false
           encoder := if a.frozen then a.position else a.encoder }

/-- The axis starts a move to a position. -/
def State.startMove (s : State) (a : AxisId) (target : Int) : State :=
  s.updA a fun x => x.begin target (s.ob Obj.runCurrent a.inst * 1000)

/-- A relative move of a sequence, in microsteps; it is accepted while the position is lost (R297, R307). -/
def State.moveRelative (s : State) (a : AxisId) (d : Int) : State :=
  let x := s.axes[a]
  if x.mode == .disabled || x.mode == .fault then s else s.startMove a (x.position + ustep d)

/-- A Halt begins a down ramp at `AxisDecel`, unless one is running (R301). -/
def State.haltAxis (s : State) (a : AxisId) : State :=
  s.updA a fun x =>
    if x.mode == .moving || x.mode == .homing then
      { x with mode := if x.mode == .homing then .homing else .halting, down := true,
               rampDecel := if x.down then x.rampDecel else accelUnits (s.ob Obj.axisDecel a.inst) }
    else x

/-- Causes of a lost position, as EV_AX_POSITION_LOST carries them (numbering of the model). -/
inductive LossCause where
  | stop | stall | fault | disable | reset | supply
deriving DecidableEq, Repr

/-- Number of a cause in the payload. -/
def LossCause.code : LossCause → Int
  | .stop => 0 | .stall => 1 | .fault => 2 | .disable => 3 | .reset => 4 | .supply => 5

/-- The position becomes lost (R306). -/
def State.losePosition (s : State) (a : AxisId) (c : LossCause) : State :=
  let pos := s.axes[a].position
  ((s.updA a fun x => { x with positionValid := false }).bump Obj.positionLossCount a.inst 0).report (Isl.axis a)
    Ev.axPositionLost [(a.val : Int), c.code, usteps pos]

/-- The step output stops at once (R306): the angle freezes, the current falls, no further word. -/
def State.stopAxis (s : State) (a : AxisId) (c : LossCause) (m : AxisMode) : State :=
  (s.updA a fun x => { x with mode := m, speed := 0, down := false, frozen := true, pendingMove := none, homeFound := false,
                              coil := s.ob Obj.holdCurrent a.inst * 1000 }).losePosition a c

/-- Fault bits of `AxisFault` (R315). -/
inductive AxisFaultBit where
  | stall | encoderError | limitReached | homeNotFound | wrongLimit | chatter | overcurrent | driverFault
deriving DecidableEq, Repr

/-- Mask of a fault bit. -/
def AxisFaultBit.mask : AxisFaultBit → BitVec 16
  | .stall => 0x01 | .encoderError => 0x02 | .limitReached => 0x04 | .homeNotFound => 0x08 | .wrongLimit => 0x10
  | .chatter => 0x20 | .overcurrent => 0x40 | .driverFault => 0x80

/-- A fault of R308: the axis stops, its position is lost and EV_AX_FAULT carries the fault bits. -/
def State.faultAxis (s : State) (a : AxisId) (b : AxisFaultBit) : State :=
  let s := s.updA a fun x => { x with fault := x.fault ||| b.mask }
  (s.stopAxis a .fault .fault).report (Isl.axis a) Ev.axFault [(a.val : Int), (s.axes[a].fault.toNat : Int)]

/-- The axis is disabled and its position lost (R306, R314). -/
def State.disableAxis (s : State) (a : AxisId) (c : LossCause) : State :=
  (s.stopAxis a c .disabled).updA a fun x => { x with coil := 0 }

/-- Numbers of the results (R316). -/
def AxisResult.code : AxisResult → Int
  | .accepted => 0 | .busy => 1 | .fault => 2 | .positionLost => 3 | .softLimit => 4 | .limitActive => 5 | .disabled => 6
  | .notSupported => 7

end Sys2Proof.Machine
end

