-- ==== Sys2Proof/Machine/Waves.lean ====
section
/-! DEFINITION. Cosine and sine of a phase, and the wobble component of a stretch of samples (R56, R71, R142): what the manual names without
a number format is formed here in Q2.30 from the nearest values (log entry 147). -/

namespace Sys2Proof.Machine

/-- A quarter turn in 2^-60 radian. -/
def quarterTurn : Int := 1811004864519280711

/-- cos x for x² in 2^-60, by its series up to x^22, in 2^-60. -/
def cosSeries (x2 : Int) : Int :=
  [11, 10, 9, 8, 7, 6, 5, 4, 3, 2, 1].foldl (fun (acc : Int) (k : Int) => 2 ^ 60 - x2 * acc / 2 ^ 60 / ((2 * k - 1) * (2 * k))) (2 ^ 60)

/-- cos of j / 16,384 of a quarter turn, in Q2.30. -/
def cosQuarter (j : Nat) : Int :=
  let x := quarterTurn * j / 16384
  roundHalfUp (cosSeries (x * x / 2 ^ 60)) (2 ^ 30)

/-- Cosine of a phase in 1 / 65,536 of a turn, in Q2.30. -/
def cosine (phase : Nat) : Int :=
  let r := phase % 65536
  let j := r % 16384
  match r / 16384 with
  | 0 => cosQuarter j
  | 1 => -cosQuarter (16384 - j)
  | 2 => -cosQuarter j
  | _ => cosQuarter (16384 - j)

/-- Sine of a phase in 1 / 65,536 of a turn, in Q2.30. -/
def sine (phase : Nat) : Int := cosine (phase + 49152)

/-- Sums of samples times cosine and sine of a phase that starts at `phase` and advances by `advance` over the whole stretch, both in
1 / 65,536 of a turn. -/
def demodulate (phase advance : Nat) (l : List Int) : Int × Int :=
  l.zipIdx.foldl (fun acc x =>
    let t := phase + advance * x.2 / l.length
    (acc.1 + x.1 * cosine t, acc.2 + x.1 * sine t)) (0, 0)

/-- Quadrature product of two components over the product of their amplitudes, in Q2.30 (R71); an open value while one of them is 0. -/
def quadratureRatio (a b : Int × Int) : Int :=
  let m := rndSqrt ((a.1 * a.1 + a.2 * a.2) * (b.1 * b.1 + b.2 * b.2)).toNat
  if m = 0 then Config.real Tag.tiltPhase [] else rnd ((a.1 * b.2 - a.2 * b.1) * 2 ^ 30) m

/-- Amplitude of a component of n samples of `full` codes full scale, in Q1.15: 2 · √(I² + Q²) / n. -/
def amplitudeOf (c : Int × Int) (n full : Nat) : Int :=
  if n = 0 then 0 else rnd (rndSqrt (c.1 * c.1 + c.2 * c.2).toNat * 2 ^ 16) (n * full * 2 ^ 30)

end Sys2Proof.Machine
end

