-- ==== Sys2Proof/Machine/LoopOps.lean ====
section
/-! DEFINITION. The computation of a servo loop: active bank, cascade, direct and zero-error terms, bumpless adjustment, map and
feedforward terms, set-points (R62 to R72, R79, R81, R92 to R95). -/

namespace Sys2Proof

/-- Number L of the loop's bank object (R77). -/
def ServoLoop.bank : ServoLoop → Nat
  | .tracking => 0 | .focus => 1 | .skew => 2 | .tilt => 3 | .sledOuter => 4
/-- Ratio of R60: the loop samples where n is a multiple. -/
def ServoLoop.ratio : ServoLoop → Nat
  | .tracking => 1 | .focus => 2 | .skew => 8 | .tilt => 32 | .sledOuter => 64
/-- Biquads of R76. -/
def ServoLoop.biquads : ServoLoop → Nat
  | .tracking => 6 | .focus => 6 | .skew => 2 | .tilt => 2 | .sledOuter => 1
/-- Largest state-space order of R76. -/
def ServoLoop.maxOrder : ServoLoop → Nat
  | .tracking => 4 | .focus => 4 | _ => 2
/-- The five loops in the order of `LoopClosedMask`. -/
def allLoops : List ServoLoop := [.focus, .tracking, .skew, .tilt, .sledOuter]

/-- Column of a loop, none for skew and sled outer. -/
def ServoLoop.column : ServoLoop → Int × Int × Int → Int
  | .focus, m => m.1
  | .tracking, m => m.2.1
  | .tilt, m => m.2.2
  | _, _ => 0

/-- Subindex of `RcGain` for a loop. -/
def ServoLoop.rcSub : ServoLoop → Option Nat
  | .focus => some 0 | .tracking => some 1 | .tilt => some 2 | _ => none

end Sys2Proof

namespace Sys2Proof.Machine

/-! ### Banks (R62, R75 to R77) -/

/-- Loop of an instance of the bank objects: five for each pickup (R77). -/
def bankLoop (i : Nat) : ServoLoop :=
  match i % 5 with
  | 0 => .tracking | 1 => .focus | 2 => .skew | 3 => .tilt | _ => .sledOuter

/-- Instance number of a loop's bank object. -/
def bankInst (p : PickupId) (l : ServoLoop) : Nat := p.val * 5 + l.bank

/-- Bank formed from the values that a reader of bank words gives (active, or as a staged set would make it). -/
def bankFrom (m nb : Nat) (ssA ssB ssC biquad : Nat → Int) (d shift : Int) (k : Nat) : Bank where
  order := m
  a := (List.range m).map fun r => (List.range m).map fun c => ssA (4 * r + c)
  b := (List.range m).map ssB
  c := (List.range m).map ssC
  d := d
  shift := shift
  biquads := (List.range nb).map fun i => (List.range 5).map fun j => biquad (5 * i + j)
  integrator := k

/-- The active bank of a loop. -/
def State.bank (s : State) (p : PickupId) (l : ServoLoop) : Bank :=
  let i := bankInst p l
  bankFrom (s.obN Obj.ssOrder i) (s.obN Obj.biquadsUsed i) (s.ob Obj.ssA i) (s.ob Obj.ssB i) (s.ob Obj.ssC i)
    (s.ob Obj.biquadCoeff i) (s.ob Obj.ssD i) (s.ob Obj.ssShift i) (s.obN Obj.integratorState i)

/-- Dot product. -/
def dot (u v : List Int) : Int := (List.zipWith (fun x y => x * y) u v).foldl (fun x y => x + y) 0

/-- Internal Q2.30 word of an accumulator; outside the range the manual states no value. -/
def stateWord (acc : Int) : Int :=
  let r := rnd acc (2 ^ 30)
  if q30Min ≤ r ∧ r ≤ q30Max then r else Config.real Tag.stateWord [acc]

/-- Output of the state-space section for an error. The sum stays exact beyond 64 bits: what a 64-bit accumulator does past its range is the
model's choice (log entry 148). -/
def Bank.section_ (k : Bank) (x : List Int) (e : Int) : Int := shiftPow (k.d * e + dot k.c x) k.shift

/-- States of the section after an error. -/
def Bank.advance (k : Bank) (x : List Int) (e : Int) : List Int :=
  List.zipWith (fun row b => stateWord (dot row x + b * e)) k.a k.b

/-- One biquad with its two states: output, new states, whether the output saturates. -/
def biquadStep (co : List Int) (s1 s2 y : Int) : Int × Int × Int × Bool :=
  let acc := co.getD 0 0 * y + s1 * 2 ^ 30
  let z := q30OfAcc acc
  (z, stateWord (co.getD 1 0 * y - co.getD 3 0 * z + s2 * 2 ^ 30), stateWord (co.getD 2 0 * y - co.getD 4 0 * z), q30Over acc)

/-- The cascade over its states s1, s2 of each biquad in turn: output, new states, whether a section saturates. -/
def cascadeRun : List (List Int) → List Int → Int → Int × List Int × Bool
  | [], _, y => (y, [], false)
  | co :: rest, st, y =>
    let (z, n1, n2, sat) := biquadStep co (st.getD 0 0) (st.getD 1 0) y
    let (u, st', sat') := cascadeRun rest (st.drop 2) z
    (u, n1 :: n2 :: st', sat || sat')

/-- One whole sample of R62: feedback output, new states x and s, saturation. -/
def Bank.sample (k : Bank) (x st : List Int) (e : Int) : Int × List Int × List Int × Bool :=
  let acc := k.section_ x e
  let (u, st', sat) := cascadeRun k.biquads st (q30OfAcc acc)
  (u, k.advance x e, st', sat || q30Over acc)

/-- Cascade output for a zero error: the part of w that the states fix (R63). -/
def Bank.zeroOutput (k : Bank) (x st : List Int) : Int := (k.sample x st 0).1

/-- Product of the b0 of the biquads in use, over 2 to the power 30 · nb. -/
def Bank.b0Product (k : Bank) : Int := k.biquads.foldl (fun acc co => acc * co.getD 0 0) 1

/-- dtot = d · 2^shift · b0[0] · … (R63). -/
def Bank.dtot (k : Bank) : Int := shiftPow (rnd (k.d * k.b0Product * 2 ^ 8) (2 ^ (30 * k.biquads.length))) (k.shift - 8)

/-- Change of x[k] that changes the zero-error output by `dv` (R79). -/
def Bank.adjustment (k : Bank) (dv : Int) : Int :=
  let num := dv * 2 ^ (30 * (k.biquads.length + 1)) * 2 ^ 8
  let den := k.c.getD k.integrator 0 * k.b0Product * 2 ^ (k.shift + 8).toNat
  if den = 0 then Config.real Tag.adjust [dv, k.shift]
  else if 0 < den then rnd num den.toNat else rnd (-num) (-den).toNat

/-- States with the integrator state of the bank changed so that the zero-error output goes from `vNew` to `vOld` (R79). -/
def Bank.bumpless (k : Bank) (x : List Int) (vOld vNew : Int) : List Int :=
  if k.integrator = 0xFF then x
  else modifyAt x k.integrator fun v => stateWord ((v + k.adjustment (vOld - vNew)) * 2 ^ 30)

/-- States in the places of this bank: what another bank left, and 0 in a state or slot that only this bank uses. R79 does not say what such a
state starts from; 0 is the model's choice (log entry 149). -/
def Bank.fit (k : Bank) (x st : List Int) : List Int × List Int :=
  ((List.range k.order).map fun j => x.getD j 0, (List.range (2 * k.biquads.length)).map fun j => st.getD j 0)

/-- States of a loop that a sequence closes: all cleared but the integrator state, so that the first `ufb` is `u` (R104). -/
def Bank.closed (k : Bank) (u : Int) : List Int := k.bumpless (List.replicate k.order 0) u 0

/-! ### Map and feedforward terms (R69, R81, R83) -/

/-- Point m of a map: focus, tracking, tilt. -/
def RunoutMap.at (r : RunoutMap) (m : Nat) : Int × Int × Int := Sparse.get (0, 0, 0) r.points (m % 4096)

/-- AngularIndex 0 passes: the sums of the revolution that ends are those of a whole revolution if they reach back to the one before; a hold
that lasts across it falls into the next one too (R113, R115). -/
def Pickup.turn (k : Pickup) : Pickup :=
  { k with
    revolution := if k.binsWhole then some { bins := k.bins, disturbed := k.mapDisturbed } else none
    bins := [], binsWhole := k.phase == .mapLearn || k.engine == .following, mapDisturbed := k.engine == .defectHold }

/-- The wobble counter takes a value; it has turned over where it falls by more than half a revolution. -/
def Pickup.setWobble (k : Pickup) (count frac : Nat) : Pickup :=
  let n := { k with wobble := count, wobbleFrac := frac }
  if count + 36864 < k.wobble then n.turn else n

/-- Map of the layer that a pickup follows. -/
def Pickup.map (k : Pickup) : RunoutMap :=
  match k.layer with
  | some l => if h : l < 4 then k.maps[l] else {}
  | none => {}

/-- The repetitive-control term for a wobble count (R81). -/
def State.rcTerm (s : State) (p : PickupId) (l : ServoLoop) (wobble : Nat) : Int :=
  match l.rcSub with
  | none => 0
  | some g =>
    let wa := (wobble + s.obN Obj.rcPhaseAdvance p) % 73728
    let m := wa / 18
    let f : Int := ((wa % 18 : Nat) : Int)
    let map := (s.pickups[p]).map
    let v0 := ServoLoop.column l (map.at m)
    let v1 := ServoLoop.column l (map.at (m + 1))
    rnd (s.ob Obj.rcGain p g * ((18 - f) * v0 + f * v1) * 2 ^ 15) (18 * 2 ^ 30)

/-- The skew feedforward K0 + K1 · (23.0 mm / r) of the lane followed (R69); K0 alone while no lane is known. -/
def State.skewFeedforward (s : State) (p : PickupId) : Int :=
  s.ob Obj.skewFeedforwardK0 p +
    match (s.pickups[p]).lane with
    | some lane => rnd (s.ob Obj.skewFeedforwardK1 p * 230000) (meanRadius lane)
    | none => 0

/-- The repetitive-control and feedforward terms that w adds to the zero-error output (R63). -/
def State.addedTerms (s : State) (p : PickupId) (l : ServoLoop) (wobble : Nat) : Int :=
  s.rcTerm p l wobble + (if l = .skew then s.skewFeedforward p else 0)

/-- Advance of the wobble counter in one tracking period that the spindle speed predicts, in 2^-16 count (R58). -/
def State.wobblePredicted (s : State) (p : PickupId) : Nat := (rnd ((s.spindles[p.spindle]).measured.natAbs * 3145728) 62500000).toNat

/-- Wobble count that will hold `r` sampling edges later, at the advance of the present one (R58, R81). -/
def Pickup.wobbleAhead (k : Pickup) (r : Nat) : Nat := (k.wobble + (k.wobbleFrac + r * k.wobbleRate) / 65536) % 73728

/-! ### External set-points (R92 to R95) -/

/-- Normalised analogue value a, in 1/2^30, of a 12-bit code (R92): 2,048 is 0.6 V. -/
def analogNorm (code : Nat) : Int := ((code : Int) - 2048) * 2 ^ 19
/-- Normalised pulse count c · 2^-16, in 1/2^30 (R93). -/
def pulseNorm (c : Int) : Int := c * 2 ^ 14

/-- The contribution that a loop's route gives now (R94). -/
def State.routeValue (s : State) (p : PickupId) (l : ServoLoop) : Int :=
  let k := l.idx.val
  let norm : Int := match s.obN Obj.setpointSource p k with
    | 1 => analogNorm s.xspAin
    | 2 => pulseNorm (s.pickups[p]).loops[l.idx].pulseCount
    | _ => 0
  let lim := q15 (s.ob Obj.extLimit p)
  clampInt (-lim) lim (rnd (s.ob Obj.extScale p k * norm) (2 ^ 30))

/-- Whether a loop's route injects at the output (R94). -/
def State.outputMode (s : State) (p : PickupId) (l : ServoLoop) : Bool := (s.obN Obj.extInjectionMode p).testBit l.idx.val

/-- Contribution of a route, frozen in defect hold at its value on entry (R94, R95). -/
def State.contributionOf (s : State) (p : PickupId) (l : ServoLoop) : Int :=
  if (s.pickups[p]).engine == .defectHold then (s.pickups[p]).loops[l.idx].contribution else s.routeValue p l

/-! ### What the state phase prepares (R57, R63, R64, R67 to R72) -/

/-- Error gain g of a loop; the sled outer loop has none. -/
def State.errorGain (s : State) (p : PickupId) : ServoLoop → Int
  | .tracking => s.ob Obj.trackingErrorGain p
  | .focus => s.ob Obj.focusErrorGain p
  | .skew => s.ob Obj.skewErrorGain p
  | .tilt => s.ob Obj.tiltErrorGain p
  | .sledOuter => 0

/-- Offset term of a loop: set-point contributions, offset and, for tracking, the lens-shift compensation of x_T (R67 to R72, R94, R192,
R196). -/
def State.offsetTerm (s : State) (p : PickupId) (l : ServoLoop) : Int :=
  let k := s.pickups[p]
  let ref := if s.outputMode p l then 0 else s.contributionOf p l
  match l with
  | .tracking =>
    ref + k.detourTrack - k.reassign * k.reassignSetpoint + s.ob Obj.trackingOffset p
      + q30Mul (s.ob Obj.lensShiftGain p) k.lensShift
  | .focus => ref + k.detourFocus + s.ob Obj.focusOffset p (k.layer.getD 0)
  | .skew => ref
  | .tilt => ref + s.ob Obj.tiltOffset p
  | .sledOuter => -k.lensShift

/-- w of R63, in its three parts. -/
def LoopState.w (v : LoopState) : Int := v.wfb + v.added + v.inject

/-- A loop with all that its state phase prepares for its next own sample: offset term, gain, contribution and the terms of w beside the
cascade's. -/
def State.prepared (s : State) (p : PickupId) (l : ServoLoop) (v : LoopState) : LoopState :=
  let c := s.contributionOf p l
  { v with
    added := s.addedTerms p l ((s.pickups[p]).wobbleAhead l.ratio), inject := if s.outputMode p l then c else 0, contribution := c
    offset := s.offsetTerm p l, factor := s.errorGain p l }

/-! ### Output stage (R65) -/

/-- Output limit of a loop as Q2.30; the sled outer loop has none. -/
def State.outLimit (s : State) (p : PickupId) (l : ServoLoop) : Option Int :=
  if l = .sledOuter then none else some (q15 (s.ob Obj.limit p l.idx.val))

/-- Slew limit per sample as Q2.30. -/
def State.outSlew (s : State) (p : PickupId) (l : ServoLoop) : Option Int :=
  match l with
  | .focus => some (q15 (s.ob Obj.slew p 0))
  | .tracking => some (q15 (s.ob Obj.slew p 1))
  | .skew => some (q15 (s.ob Obj.slewSkewTilt p 0))
  | .tilt => some (q15 (s.ob Obj.slewSkewTilt p 1))
  | .sledOuter => none

/-- Limit and slew clamp of an output against the previous one; also whether it sits at the limit. -/
def State.clampOut (s : State) (p : PickupId) (l : ServoLoop) (prev u : Int) : Int × Bool :=
  match s.outLimit p l, s.outSlew p l with
  | some lim, some sl =>
    let v := clampInt (prev - sl) (prev + sl) (clampInt (-lim) lim u)
    (v, decide (lim ≤ v ∨ v ≤ -lim))
  | _, _ => (u, false)

/-- DAC code of an output (R65): 18 bits for focus and tracking, 16 for skew and tilt. -/
def dacCode (l : ServoLoop) (u : Int) : Int :=
  match l with
  | .focus => clampInt (-131071) 131071 (roundNear (u * 131072) (2 ^ 30))
  | .tracking => clampInt (-131071) 131071 (roundNear (u * 131072) (2 ^ 30))
  | .skew => clampInt (-32767) 32767 (roundNear (u * 32768) (2 ^ 30))
  | .tilt => clampInt (-32767) 32767 (roundNear (u * 32768) (2 ^ 30))
  | .sledOuter => 0

/-! ### Loops of a pickup -/

/-- One loop of a pickup with a change. -/
def Pickup.updLoop (k : Pickup) (l : ServoLoop) (f : LoopState → LoopState) : Pickup := { k with loops := upd k.loops l.idx f }

/-- One loop of a pickup with a change, in the state. -/
def State.updLoop (s : State) (p : PickupId) (l : ServoLoop) (f : LoopState → LoopState) : State :=
  s.updP p fun k => k.updLoop l f

/-- A sequence closes a loop: its first `ufb` equals the output that the sequence last supplied (R104). -/
def State.closeLoop (s : State) (p : PickupId) (l : ServoLoop) : State :=
  let k := s.bank p l
  let u := (s.pickups[p]).loops[l.idx].ufb
  let x := k.closed u
  let st := List.replicate (2 * k.biquads.length) 0
  s.updLoop p l fun v => s.prepared p l { v with
    mode := .closed, x := x, s1 := st, wfb := k.zeroOutput x st, ufb := u, saturatedRun := 0, fromBank := none, edgeLate := false }

/-- Overrun counter of a loop (R98). -/
def overrunRow : ServoLoop → Row
  | .tracking => Obj.trackingOverrunCount | .focus => Obj.focusOverrunCount | .skew => Obj.skewOverrunCount
  | .tilt => Obj.tiltOverrunCount | .sledOuter => Obj.sledOuterOverrunCount

/-- The mean of ufb over the 64 samples that end `skip` samples ago; the last value while the history is short (R86). -/
def LoopState.holdMean (v : LoopState) (skip : Nat) : Int :=
  let h := (v.history.drop skip).take 64
  if h = [] then v.ufb else rnd (h.foldl (fun a b => a + b) 0) h.length

/-- A sequence opens a loop with an output of its own. -/
def State.openLoop (s : State) (p : PickupId) (l : ServoLoop) (u : Int) : State :=
  s.updLoop p l fun v => { v with mode := .opened, seqOutput := u, fromBank := none, edgeLate := false }

/-- A sequence opens a loop at the output it has. -/
def State.openHere (s : State) (p : PickupId) (l : ServoLoop) : State := s.openLoop p l (s.pickups[p]).loops[l.idx].ufb

/-- Focus is opened for a sweep (R107). -/
def State.startSweep (s : State) (p : PickupId) (start stop : Int) : State :=
  (s.openLoop p .focus start).updP p fun k => { k with
    sweep := some { start := start, stop := stop, span := msTicks (s.obN Obj.focusSearchTime p), since := none }, feCross := 0, curvePeak := 0 }

/-- The sweep of a focus search: from `FocusSearchStart` to `FocusSearchEnd` (R107). -/
def State.searchSweep (s : State) (p : PickupId) : State :=
  s.startSweep p (q15 (s.ob Obj.focusSearchStart p)) (q15 (s.ob Obj.focusSearchEnd p))

/-- The sweep of focus recovery: over ±`FocusRecoverSpan` around the held focus output (R127). -/
def State.recoverSweep (s : State) (p : PickupId) : State :=
  let f := (s.pickups[p]).loops[ServoLoop.focus.idx]
  let held := if f.mode == .closed then f.holdMean 0 else f.holdUfb
  s.startSweep p (held + q15 (s.ob Obj.focusRecoverSpan p)) (held - q15 (s.ob Obj.focusRecoverSpan p))

/-- Output of a sweep at an edge: linear over its span once the output has reached its start. -/
def Sweep.output (w : Sweep) (edge : Nat) : Int :=
  match w.since with
  | none => w.start
  | some t => if w.span ≤ edge - t then w.stop else w.start + rnd ((w.stop - w.start) * ((edge - t : Nat) : Int)) w.span

/-- A pickup whose sweep moves on to an edge. -/
def Pickup.sweepOn (k : Pickup) (edge : Nat) : Pickup :=
  match k.sweep with
  | none => k
  | some w =>
    let w := if w.since = none ∧ k.loops[ServoLoop.focus.idx].u = w.start then { w with since := some edge } else w
    { k.updLoop .focus (fun v => { v with seqOutput := w.output edge }) with sweep := some w }

/-- A loop leaves its condition for defect hold: a closed one with the mean as its hold value (R86), an opened one with the feedback output
it had. What the state phase had prepared beside the cascade stays. -/
def LoopState.hold (v : LoopState) (mean : Int) : LoopState :=
  match v.mode with
  | .closed => { v with mode := .held, holdUfb := mean, wfb := mean, ufb := mean }
  | .held => v
  | .opened => { v with mode := .held, holdUfb := v.ufb, wfb := v.ufb }

/-- A held loop leaves hold. Tracking and focus: the integrator state is adjusted so that the first ufb equals the hold value (R87). The
others go on from their frozen states; a bank that became active meanwhile is adjusted for as under R79 (R80). -/
def State.unholdLoop (s : State) (p : PickupId) (l : ServoLoop) : State :=
  let v := (s.pickups[p]).loops[l.idx]
  if v.mode == .held then
    let k := s.bank p l
    let (x0, st) := k.fit v.x v.s1
    let x :=
      if l = .focus || l = .tracking then k.bumpless x0 v.holdUfb (k.zeroOutput x0 st)
      else match v.fromBank with
        | some old => k.bumpless x0 (old.zeroOutput v.x v.s1) (k.zeroOutput x0 st)
        | none => x0
    s.updLoop p l fun v => s.prepared p l { v with
      mode := .closed, x := x, s1 := st, wfb := k.zeroOutput x st, fromBank := none, edgeLate := false }
  else s

/-- `LoopClosedMask` (R98). -/
def Pickup.closedMask (k : Pickup) : Nat :=
  (allLoops.map fun l => if k.loops[l.idx].mode == .closed then 2 ^ l.idx.val else 0).foldl (fun a b => a + b) 0

end Sys2Proof.Machine
end

