-- ==== Sys2Proof/Machine/AcqOps.lean ====
section
/-! DEFINITION. The sequencer's shared operations: defect hold, following, seek passes, layer jumps, recovery and park (R84 to R87,
R102 to R132). -/

namespace Sys2Proof.Machine

/-! ### Cause bits of R96 -/

namespace Hold
abbrev trackingResidual : BitVec 16 := 0x001
abbrev focusResidual : BitVec 16 := 0x002
abbrev sumDropout : BitVec 16 := 0x004
abbrev focusLost : BitVec 16 := 0x008
abbrev trackingLoopFault : BitVec 16 := 0x010
abbrev focusLoopFault : BitVec 16 := 0x020
abbrev spindleObserverLoss : BitVec 16 := 0x040
abbrev acquisitionRequest : BitVec 16 := 0x080
abbrev hostRequest : BitVec 16 := 0x100
/-- Causes that abort a running sequence (R103, R105). -/
abbrev aborting : BitVec 16 := 0x170
end Hold

/-- Whether cause bits meet a mask. -/
def hasAny (c m : BitVec 16) : Bool := decide (c &&& m ≠ 0)

/-- Numbers of the reasons in the order of R134. -/
def ParkReason.code : ParkReason → Int
  | .request => 0 | .wrongSide => 1 | .focusFail => 2 | .noGuide => 3 | .repeatFault => 4 | .spindleLost => 5
  | .recoveryFail => 6 | .aborted => 7

/-! ### Engine states -/

/-- Whether the engine is Off or Parked. -/
def Pickup.idle (k : Pickup) : Bool := k.engine == .off || k.engine == .parked

/-- Every supervision run starts again: a sample that a hold or a sequence separates from the present ones counts no longer (R84). -/
def Pickup.freshRuns (k : Pickup) : Pickup :=
  { k with runTracking := 0, runFocus := 0, runSum := 0, runLost := 0, holdPending := 0, settleF := 0, settleT := 0, lockRun := 0 }

/-- The engine follows; the next waymark window of each channel is wide (R161). -/
def State.follow (s : State) (p : PickupId) : State :=
  (s.updP p fun k => { k.freshRuns with
      engine := .following, seq := .none, phase := .idle, jumpStage := 0, target := none, sweep := none, holdCause := 0, heldTarget := none
      bins := [], binsWhole := false, revolution := none }).updChannels p fun c => { c with wideWindow := true }

/-- A sled move of a sequence ends as a Halt (R314). -/
def State.haltSled (s : State) (p : PickupId) : State :=
  if (s.axes[p.sled]).mode == .moving then s.haltAxis p.sled else s

/-- The channels save the state set of the layer they leave and load that of the target layer (R153), then acquire again at the
next frame start (R163, R170). -/
def State.switchSets (s : State) (p : PickupId) (layer : Nat) : State :=
  s.updChannels p fun c =>
    let saved : ChannelSet := { gain := c.gain, taps := c.taps, coupling := c.coupling, frac := c.frac }
    let sets := if h : c.setLayer < 4 then upd c.sets ⟨c.setLayer, h⟩ (fun _ => saved) else c.sets
    let new : ChannelSet := if h : layer < 4 then sets[layer] else saved
    { c with sets := sets, gain := new.gain, taps := new.taps, coupling := new.coupling, frac := new.frac, setLayer := layer,
             pendingAcquire := true, fracSums := .replicate 4 {} }

/-! ### Defect hold (R85, R86, R103, R105) -/

/-- All loops of a pickup go into hold; `skipT` and `skipF` are the tracking and focus samples counted toward the rule. -/
def Pickup.holdLoops (k : Pickup) (skipT skipF : Nat) : Pickup :=
  let k := k.updLoop .tracking fun v => v.hold (v.holdMean skipT)
  let k := k.updLoop .focus fun v => v.hold (v.holdMean skipF)
  let k := k.updLoop .skew fun v => v.hold v.ufb
  let k := k.updLoop .tilt fun v => v.hold v.ufb
  k.updLoop .sledOuter fun v => v.hold 0

/-- The sequence that runs is aborted; an aborted mount ends as R103 states. -/
def State.abortSequence (s : State) (p : PickupId) : State :=
  let k := s.pickups[p]
  if k.seq == .none then s
  else
    let mount := k.seq == .mount || k.mountResult == .mounting
    (s.haltSled p).updP p fun k => { k with
      seq := .none, phase := .idle, jumpStage := 0, target := none, firstLawDue := false, parkReason := none, sweep := none, brakeUntil := none
      mountResult := if mount then .aborted else k.mountResult
      abortedMount := if mount then true else k.abortedMount }

/-- Defect hold is entered with cause bits, or they accumulate in a hold that runs (R85). A cause that aborts a sequence aborts it in either
case (R103, R105); with any other cause the sequence stays and goes on at the exit, which the manual does not say (log entry 150). -/
def State.enterHold (s : State) (p : PickupId) (causes : BitVec 16) (skipT skipF : Nat) : State :=
  let k := s.pickups[p]
  if k.idle || (k.seq == .park && !hasAny causes Hold.aborting) || causes = 0 then s
  else if k.engine == .defectHold then
    let s := if hasAny causes Hold.aborting then s.abortSequence p else s
    s.updP p fun k => { k with
      holdCause := k.holdCause ||| causes, exitRun := 0
      holdReleased := if hasAny causes Hold.hostRequest then false else k.holdReleased
      rotorBack := if hasAny causes Hold.spindleObserverLoss then false else k.rotorBack }
  else
    let s := if hasAny causes Hold.aborting then s.abortSequence p else s
    let s := s.updP p fun k => { (k.holdLoops skipT skipF).freshRuns with
      engine := .defectHold, holdCause := causes, exitRun := 0, holdEnteredAt := s.time,
      holdReleased := false, rotorBack := false
      mapDisturbed := true, disturbed := k.disturbed + 1 }
    let s := s.updChannels p fun c => { c with
      sinceGood := none }
    let s := s.report (Isl.sv p) Ev.servoHoldEntered [(p.val : Int), (causes.toNat : Int), (s.gridN : Int)]
    if (s.obN Obj.milestoneDefectMask).testBit p.val && hasAny causes (BitVec.ofNat 16 (s.obN Obj.milestoneDefectCauses)) then
      s.trigger 4 p.val
    else s

/-- Defect hold is left, in whichever way: EV_SERVO_HOLD_LEFT with the accumulated causes and the duration in tracking samples (R87, R101). -/
def State.endHold (s : State) (p : PickupId) : State :=
  let k := s.pickups[p]
  if k.engine == .defectHold then
    (s.report (Isl.sv p) Ev.servoHoldLeft [(p.val : Int), (k.holdCause.toNat : Int), (s.time - k.holdEnteredAt : Nat)]).updP p
      fun k => { k.freshRuns with engine := .acquiring, holdCause := 0 }
  else s

/-! ### Park (R128, R134) -/

/-- `MountResult` that a park reason leaves; none keeps what stands. -/
def ParkReason.result : ParkReason → MountResult
  | .wrongSide => .wrongSide | .focusFail => .focusFail | .noGuide => .noGuide | .recoveryFail => .recoveryFail
  | .aborted => .aborted | .request => .notMounted | .repeatFault => .notMounted | .spindleLost => .notMounted

/-- Parking begins: any sequence is aborted, runs are interrupted as for a park (R230), a queued seek is discarded, the outputs
ramp to 0 and the focus to `FocusSearchStart` (R105, R128). -/
def State.park (s : State) (p : PickupId) (r : ParkReason) : State :=
  let k := s.pickups[p]
  if k.idle || k.seq == .park then s
  else
    let s := ((s.endHold p).haltSled p).endDetour p
    let s := s.parkRuns p
    let s := if k.queuedSeek.isSome then s.report (Isl.sv p) Ev.acqRequestIgnored [(p.val : Int)] else s
    let s := s.updP p fun k => { k with
      engine := .acquiring, seq := .park, phase := .parking, stepFrom := s.time, jumpStage := 0, target := none, queuedSeek := none, sweep := none, brakeUntil := none
      heldTarget := none, recoveryTarget := none, firstLawDue := false, holdCause := 0, holdPending := 0, parkReason := some r
      lane := none, layer := none, lawDiscardRun := 0, arrayLocked := false
      mountResult := if k.abortedMount then .aborted else r.result
      abortedMount := false, reassign := 0, reassignSetpoint := 0, reassignScale := 1024, detourTrack := 0, detourFocus := 0 }
    let s := s.openLoop p .tracking 0
    let s := s.openLoop p .skew 0
    let s := s.openLoop p .tilt 0
    let s := s.openLoop p .sledOuter 0
    (s.openLoop p .focus (q15 (s.ob Obj.focusSearchStart p))).idleChannels p

/-- The side of a parked pickup is unmounted: map, runout maps and namespace (R50, R112, R329). The map is kept while the door of
the cartridge is known to have stayed shut. A Read or Verify that waits on a cluster then has unaccepted blocks (R337). -/
def State.unmount (s : State) (p : PickupId) : State :=
  let ready := (s.sides[p]).built
  let s := s.updP p fun k => { k with maps := .replicate 4 {}, bins := [], binsWhole := false, revolution := none }
  let s := s.forEach ((s.sides[p]).reads.flatMap fun r => r.waiting) fun s k =>
    (s.updCmd k fun c => { c with clustersLeft := 0 }).finishCmd k .unrecoveredRead
  let s := s.updS p fun x => { x with opcDone := [], reads := [], workspaceStopped := false }
  if (s.sides[p]).doorKept then s
  else
    let s := s.updS p fun x => { x with
      built := false, building := false, map := [], zones := [], replacements := [], runs := [], current := none
      pendingRecords := [], pair := none, pairQueue := [], discId := 0, pcaUsed := [], pcaExhaustedRecorded := [] }
    if ready then s.namespaceNotice p else s

/-- The park ramps have ended (R128). -/
def State.parked (s : State) (p : PickupId) : State :=
  let r := ((s.pickups[p]).parkReason).getD .request
  let s := s.updP p fun k => { k with
    engine := .parked, seq := .none, phase := .idle, readPower := false, parkReason := none, wobbleSeen := false }
  let s := s.updChannels p fun c => { c with mode := .off, frameLock := false }
  (s.report (Isl.sv p) Ev.acqParked [(p.val : Int), r.code]).unmount p

/-! ### Sled position from the lane address (R131, R132) -/

/-- P of R131 in microsteps: 800 nm per lane and D in nm, over a pitch in 0.01 nm. -/
def State.sledFromLane (s : State) (p : PickupId) (lane : Nat) : Int :=
  let d2 := (s.pickups[p]).lensShift * s.ob Obj.lensShiftPerUnit p
  roundNear ((80000 * (lane : Int)) * 2 ^ 30 - d2 * 100) (s.obN Obj.sledMicrostepPitch p * 2 ^ 30)

/-- The sled position takes a value: in the S and D variants the encoder count is aligned to it (R131). A sled that waits after a
stall resumes with it (R309). -/
def State.setSled (s : State) (p : PickupId) (pos : Int) : State :=
  s.updA p.sled fun a => { a with
    position := ustep pos, positionValid := true
    encoder := if s.otp.variant == .q then a.encoder else ustep pos
    frozen := if a.retryDue then false else a.frozen, retryDue := false
    mode := a.mode }

/-- The rebase at a first good LAW after a capture (R131). -/
def State.rebaseSled (s : State) (p : PickupId) (lane : Nat) : State :=
  let old := usteps (s.axes[p.sled]).position
  let pos := s.sledFromLane p lane
  (s.setSled p pos).report (Isl.sv p) Ev.acqSledRebased [(p.val : Int), old, pos]

/-- The recomputation at AngularIndex 0 while following (R132), and the position that a stalled sled waits for (R309). -/
def State.recheckSled (s : State) (p : PickupId) (lane : Nat) : State :=
  let a := s.axes[p.sled]
  if s.otp.variant == .q || a.retryDue then
    let pos := s.sledFromLane p lane
    let slip := decide ((s.ob Obj.sledSlipLimit p) * 80000 < (pos - usteps a.position).natAbs * s.ob Obj.sledMicrostepPitch p)
    let s := if slip && s.otp.variant == .q then
        s.report (Isl.sv p) Ev.acqSledSlip [(p.val : Int), usteps a.position, pos] else s
    s.setSled p pos
  else s

/-! ### Recovery (R127) -/

/-- Rung whose entry test passes first, on the present Σ and FE · recip. -/
def State.recoveryRung (s : State) (p : PickupId) : Nat :=
  let k := s.pickups[p]
  if decide (s.ob Obj.sumDropLevel p * k.sumMean ≤ k.sum * 2 ^ 31)
      && decide ((k.feNorm.natAbs : Int) < q15 (s.ob Obj.focusLostLevel p)) then 1
  else if s.ob Obj.layerSumMin p * 2 ≤ k.sum then 2
  else 3

/-- An attempt of recovery starts with a rung: tracking recapture, focus recovery or a full focus search. Loops that stay held carry
AcquisitionRequest (R102). -/
def State.recoveryAttempt (s : State) (p : PickupId) (r : Nat) : State :=
  let s := s.updP p fun k => { k.freshRuns with
    seq := .recovery, engine := .acquiring, rung := r, attempts := k.attempts + 1, jumpStage := 0, sweeps := 0, sledMoves := 0
    sledInward := false, passageSeen := false, lastPassage := none, firstLawDue := false, shortPasses := 0, longPasses := 0, jumpTries := 0
    sweep := none, brakeUntil := none, mapDisturbed := true, stepFrom := s.time, attemptFrom := s.time
    holdCause := if [ServoLoop.skew, .tilt, .sledOuter].any fun l => k.loops[l.idx].mode == .held then Hold.acquisitionRequest else 0
    phase := if r = 1 then .trackCapture else .focusSearch }
  let s := (s.openHere p .tracking).idleChannels p
  match r with
  | 1 => s.unholdLoop p .focus
  | 2 => s.recoverSweep p
  | _ => s.searchSweep p

/-- An attempt has failed: the next one, or park after `RecoveryAttempts`. -/
def State.attemptFails (s : State) (p : PickupId) : State :=
  if s.obN Obj.recoveryAttempts p ≤ (s.pickups[p]).attempts then s.park p .recoveryFail
  else (s.haltSled p).recoveryAttempt p (s.recoveryRung p)

/-- Recovery starts, with a rung that is given or with the first whose entry test passes: its target is the layer and lane held before the
loss. What would start it again while it runs ends its attempt. -/
def State.startRecovery (s : State) (p : PickupId) (rung : Option Nat) : State :=
  let k := s.pickups[p]
  if k.idle then s
  else if k.seq == .recovery then s.attemptFails p
  else
    let s := s.bump Obj.recoveryCount p 0
    let s := s.updP p fun k => { k with
      attempts := 0, recoveryStart := s.time, target := none
      recoveryTarget := match k.heldTarget, k.layer, k.lane with
        | some t, _, _ => some t
        | none, some layer, some lane => some { layer := layer, lane := lane }
        | none, _, _ => k.recoveryTarget }
    (s.haltSled p).recoveryAttempt p (rung.getD (s.recoveryRung p))

/-! ### Layer jumps and seeks (R116 to R121) -/

/-- The layer and lane that the pickup follows are kept for a recovery of the sequence that begins (R127). -/
def Pickup.noteHeld (k : Pickup) : Pickup :=
  if k.engine == .following then
    { k with heldTarget := match k.layer, k.lane with
        | some layer, some lane => some { layer := layer, lane := lane }
        | _, _ => k.heldTarget }
  else k

/-- A jump toward a layer is due: it starts at LAYER_JUMP_START. -/
def Pickup.jumpDue (k : Pickup) (layer : Nat) : Pickup :=
  let from_ := k.layer.getD 0
  { k with phase := .layerJump, jumpStage := 0, jumpTo := if from_ < layer then from_ + 1 else from_ - 1 }

/-- Tracking periods of a move at constant acceleration and deceleration with a speed limit: distance, limit and accelerations in units, units/s
and units/s². -/
def profilePeriods (dist v up down : Nat) : Nat :=
  if v = 0 ∨ up = 0 ∨ down = 0 then 0
  else if v * v * (up + down) ≤ 2 * dist * up * down then
    (1600000 * (2 * dist * up * down + v * v * (up + down))) / (2 * v * up * down)
  else rndSqrt (2 * dist * (up + down) * 1600000 * 1600000 / (up * down))

/-- Tracking periods that a pass of a seek over a number of lanes plans to take, with the 256 samples of its capture (R108, R118 to R120). -/
def State.plannedPeriods (s : State) (p : PickupId) (dist : Nat) : Nat :=
  256 + (if dist ≤ s.obN Obj.shortSeekLanes p then
      profilePeriods (dist * 800) (s.obN Obj.shortSeekVmax p * 10 ^ 6) (s.obN Obj.shortSeekAccel p * 10 ^ 9) (s.obN Obj.shortSeekAccel p * 10 ^ 9)
    else
      let i := p.sled.inst
      profilePeriods (dist * 80000 / s.obN Obj.sledMicrostepPitch p) (s.obN Obj.axisVmax i) (s.obN Obj.axisAccel i) (s.obN Obj.axisDecel i)
        + msTicks 2)

/-- Guide passages to count for a lane: W is the number of wraps that the spindle speed gives over the planned time (R118). -/
def State.passages (s : State) (p : PickupId) (lt : Nat) : Int :=
  let k := s.pickups[p]
  let lane := k.lane.getD 0
  let t := s.plannedPeriods p ((lt : Int) - lane).natAbs
  (lt : Int) - lane - ((k.wobble * 65536 + k.wobbleFrac + t * s.wobblePredicted p) / (73728 * 65536) : Nat)

/-- A seek fails: EV_ACQ_SEEK_FAIL with the target and the last good LAW, and recovery (R121); a seek of a recovery ends its attempt. -/
def State.seekFails (s : State) (p : PickupId) : State :=
  let k := s.pickups[p]
  let t := (if k.seq == .recovery then k.recoveryTarget else k.target).getD { layer := 0, lane := 0 }
  let law := k.lastLaw.getD 0xFFFFFFFF#32
  let s := s.report (Isl.sv p) Ev.acqSeekFail [(p.val : Int), (t.layer : Int), (t.lane : Int), (law.toNat : Int)]
  let s := s.updP p fun k => { k with disturbed := k.disturbed + 1 }
  ((s.haltSled p).rungFails p).startRecovery p none

/-- One pass of a seek to a lane of the present layer: short or long by the distance (R119, R120); a pass beyond the limits of R121 fails the
seek. -/
def State.seekPass (s : State) (p : PickupId) (lt : Nat) : State :=
  let k := s.pickups[p]
  let dist := ((lt : Int) - (k.lane.getD 0 : Nat)).natAbs
  let dc := s.passages p lt
  if dist ≤ s.obN Obj.shortSeekLanes p then
    if 3 ≤ k.shortPasses then s.seekFails p
    else
      let s := (s.openHere p .tracking).updP p fun k => { k with
        phase := .shortSeek, jumpStage := 0, shortPasses := k.shortPasses + 1, passFrom := s.time, passagesLeft := dc, engine := .acquiring
        lastPassage := none, crossVelocity := 0, settleT := 0 }
      if dc = 0 then s.closeLoop p .tracking else s
  else if s.obN Obj.longSeekPasses p ≤ k.longPasses then s.seekFails p
  else
    let s := ((s.openLoop p .tracking 0).openLoop p .sledOuter 0).updP p fun k => { k with
      phase := .longSeek, jumpStage := 0, longPasses := k.longPasses + 1, passFrom := s.time, engine := .acquiring, lastPassage := none, settleT := 0 }
    s.moveRelative p.sled (roundNear (dc * 80000) (s.obN Obj.sledMicrostepPitch p))

/-- A seek or the end of a recovery moves on toward its target: a jump while the layer differs, a pass while the lane differs, by single
lanes when it differs by one or two (R121). A pass for a single lane counts toward the three short passes, which the manual does not say (log
entry 151). At the target a seek ends and the pickup follows; a recovery waits for the end of its attempt. -/
def State.towardTarget (s : State) (p : PickupId) (t : Target) : State :=
  let k := s.pickups[p]
  if k.layer ≠ some t.layer then s.updP p fun k => k.jumpDue t.layer
  else if k.lane ≠ some t.lane then
    let lane := k.lane.getD 0
    let near := decide (0 < k.shortPasses + k.longPasses) && decide (((t.lane : Int) - (lane : Int)).natAbs ≤ 2)
    s.seekPass p (if near then (if lane < t.lane then lane + 1 else lane - 1) else t.lane)
  else if k.seq == .recovery then s.updP p fun k => { k with engine := .acquiring }
  else s.follow p

/-- A seek begins (R118); reads of the channels stop (R170). -/
def State.startSeek (s : State) (p : PickupId) (t : Target) : State :=
  let s := s.updP p fun k => { k.noteHeld with
    seq := .seek, target := some t, shortPasses := 0, longPasses := 0, jumpTries := 0, engine := .acquiring, mapDisturbed := true }
  (s.idleChannels p).towardTarget p t

/-- The queued seek runs when the engine follows again (R105). -/
def State.runQueued (s : State) (p : PickupId) : State :=
  let k := s.pickups[p]
  match k.queuedSeek with
  | some t =>
    if k.engine == .following && k.seq == .none then
      (s.updP p fun k => { k with queuedSeek := none }).startSeek p t
    else s
  | none => s

end Sys2Proof.Machine
end

