-- ==== Sys2Proof/Machine/Outer.lean ====
section
/-! DEFINITION. The outer stage of a cluster decode: how the bytes of a sector take part, RS(70,64) over the columns of a cluster, fills and
conflicts (R41, R186, R188). -/

namespace Sys2Proof.Machine

/-- How a byte takes part in the outer decode (R186). -/
inductive ByteRole where
  | data (b : Nat) | provisional (b : Nat) | erased

/-- Byte i of the 2,048 bytes of a codeword. -/
def HalfBlock.byte (v : HalfBlock) (i : Nat) : Nat := (v.extractLsb' (8 * i) 8).toNat

/-- The 2,048 bytes as the information part of a codeword. -/
def halfOfBytes (l : List Nat) : HalfBlock :=
  l.zipIdx.foldl (fun acc p => acc ||| (BitVec.ofNat 16384 (p.1 % 256)).shiftLeft (8 * p.2)) 0

/-- Role of a byte of stored LLRs: erased when one of its eight lies below the floor, else their signs. -/
def roleOfLlrs (floor : Nat) (l : List Int) : ByteRole :=
  if l.length = 8 && l.all fun v => decide (floor ≤ v.natAbs) then .provisional ((llrBytes l).headD 0) else .erased

/-- Role of byte i of a codeword of a sector with a standing and stored LLRs. -/
def Standing.role (st : Standing) (floor : Nat) (llrs : Array Int) (i : Nat) : ByteRole :=
  match st with
  | .converged info => .data (HalfBlock.byte info i)
  | .failed _ => roleOfLlrs floor (llrs.extract (8 * i) (8 * i + 8)).toList
  | .abandoned => roleOfLlrs floor (llrs.extract (8 * i) (8 * i + 8)).toList
  | .absent => .erased
  | .pending => .erased

/-- Role of byte j of a sector: every byte of a sector that stands erased under R39 is erased. -/
def SectorRead.role (x : SectorRead) (floor : Nat) (llr0 llr1 : Array Int) (j : Nat) : ByteRole :=
  if !(x.vouched || x.readmitted) then .erased
  else if j < 2048 then x.c0.role floor llr0 j
  else x.c1.role floor llr1 (j - 2048)

/-- What the outer decoder says of one outer codeword: the erasures it had and the bytes that it fills by sector; or a conflict; or nothing. -/
inductive Column where
  | fills (e : Nat) (l : List (Nat × Nat)) | conflict | none

/-- The outer decode of one column (R188): at most six erasures, at most t errors besides; a byte of a converged codeword that takes part as data
must not change. -/
def outerColumn (maxErrors : Nat) (roles : List ByteRole) : Column :=
  let erased := (roles.zipIdx.filter fun r => match r.1 with | .erased => true | _ => false).map fun r => r.2
  let e := erased.length
  let word := roles.map fun r => match r with | .data b => b | .provisional b => b | .erased => 0
  let t := min maxErrors ((6 - e) / 2)
  if 6 < e then .none
  else match rsDecode 6 word erased with
    | none => .none
    | some fixed =>
      let changed := (List.range word.length).filter fun i => !erased.contains i && fixed.getD i 0 != word.getD i 0
      let breaks := changed.any fun i => match roles.getD i .erased with | .data _ => true | _ => false
      if t < changed.length then .none
      else if breaks then .conflict
      else .fills e ((List.range word.length).filterMap fun i =>
        if erased.contains i || changed.contains i then some (i, fixed.getD i 0) else none)

/-- The 4,096 columns of a cluster, by the order of its sectors. -/
def ClusterRead.columns (r : ClusterRead) : List Column :=
  let l := r.sectors.map fun x => (x, x.llr0.toArray, x.llr1.toArray)
  (List.range 4096).map fun j => outerColumn r.settings.maxErrors (l.map fun x => x.1.role r.settings.floor x.2.1 x.2.2 j)

/-- Outer codewords in conflict. -/
def conflictsOf (l : List Column) : List Nat :=
  (l.zipIdx.filter fun c => match c.1 with | .conflict => true | _ => false).map fun c => c.2

/-- Fills of a codeword: for each of its 2,048 bytes the byte, and whether it came from at most five erasures. -/
def fillsOf (l : List Column) (k : Nat) (h : Fin 2) : List (Option (Nat × Bool)) :=
  ((l.drop (2048 * h.val)).take 2048).map fun c => match c with
    | .fills e f => (f.find? fun x => x.1 == k).map fun x => (x.2, decide (e ≤ 5))
    | _ => none

/-- The bytes of an Absent codeword, once every one is filled and every fill came from e ≤ 5: it is re-encoded from them (R188). -/
def wholeFill (fills : List (Option (Nat × Bool))) : Option HalfBlock :=
  if fills.all fun f => match f with | some (_, strong) => strong | none => false then
    some (halfOfBytes (fills.map fun f => match f with | some (b, _) => b | none => 0))
  else none

/-- The Absent codewords of a cluster that are wholly filled count as Converged (R188). -/
def ClusterRead.reencode (r : ClusterRead) (l : List Column) : ClusterRead :=
  let one (x : SectorRead) (h : Fin 2) : SectorRead :=
    if x.half h = .absent then (wholeFill (fillsOf l x.k h)).elim x fun v => x.setHalf h (.converged v) else x
  { r with sectors := r.sectors.map fun x => (allFin 2).foldl one x }

/-- Stored LLRs with the LLRs of each filled byte set to plus or minus `FillLlr` (R188). -/
def filledLlrs (fill : Nat) (llrs : List Int) (fills : List (Option (Nat × Bool))) : List Int :=
  let a := fills.toArray
  llrs.mapIdx fun i v => match a.getD (i / 8) none with
    | some (b, _) => if b.testBit (7 - i % 8) then -(fill : Int) else fill
    | none => v

end Sys2Proof.Machine
end

