-- ==== Sys2Proof/Machine/ReadChain.lean ====
section
/-! DEFINITION. The read chain of one beam, sample by sample: offset and wobble rejection, the FIR, cancellation, the two detectors, and
the loops that adapt from the one error (R135, R139, R141 to R152, R157). Loop values are in 2^-20 code, taps and couplings in 2^-35. -/

namespace Sys2Proof.Machine

/-! ### Latencies (R135) and flags (R160) -/

/-- Samples from the ADC to y. -/
def latencyY : Nat := 32
/-- Samples from the ADC to z, to the decision and error, and to the soft value, less A_b. -/
def latencyZ : Nat := 48
def latencyD : Nat := 64
def latencyS : Nat := 128
/-- Samples that an elastic buffer holds (R149). -/
def elasticBuffer : Nat := 4096

/-- Whether a flag covers a place: a region that has ended, or a flag that lasts; `guard` widens an envelope flag, `wide` a guide flag
(R157, R158, R160, R161). -/
def Channel.flaggedAt (c : Channel) (guard wide place : Int) : Bool :=
  c.regions.any (fun r => decide (r.1 ≤ place ∧ place ≤ r.2))
    || c.flaggedFrom.any (fun a => decide (a - guard ≤ place))
    || c.guideFrom.any (fun a => decide (a - wide ≤ place))
    || c.holdFrom.any (fun a => decide (a ≤ place))

/-- A run of samples goes on, or starts anew on the other side of the level. -/
def DropRun.next (r : DropRun) (low : Bool) (place : Int) : DropRun :=
  if r.low == low && decide (0 < r.length) then { r with length := r.length + 1 } else { low := low, length := 1, start := place }

/-- Whether a flag is set once the changes due have been made. -/
def dueState (due : List (Bool × Int)) (flag : Option Int) : Bool := (due.getLast?.map fun d => d.1).getD flag.isSome

/-! ### One beam and its neighbours -/

/-- A neighbour as beam i sees it: its channel, its number in the pickup, whether its term is applied (R151), what widens its flags. -/
structure Neighbour where
  chan : Channel
  index : Nat
  applied : Bool
  guard : Int
  wide : Int

/-- Settings that the stages of a beam use. -/
structure LoopSettings where
  targetScale : Int
  llrScale : Int
  offsetShift : Nat
  wobbleShift : Nat
  wobbleReject : Bool
  firShift : Nat
  firAdapt : Bool
  kp : Nat
  ki : Nat
  itiShift : Nat
  itiAdapt : Bool
  itiLimit : Int
  blankLevel : Int
  dropLevel : Int
  dropCount : Nat
  guard : Int
  wide : Int
  relockBits : Nat
  /-- wobble phase at the last tracking edge in 1/65,536 cycle, channel bits of a revolution, VGA gain as a factor in 2^-30 -/
  wobblePhase : Nat
  revBits : Nat
  gainFactor : Nat

/-- Product of two samples in 2^-20 code, in units of `Config.sampleUnit`, shifted down, as an addend in 2^-e (R145, R147, R152). -/
def stepOf (product : Int) (shift e : Nat) : Int :=
  let unit := Config.sampleUnit + 1
  rnd (product * 2 ^ e) (2 ^ (40 + shift) * unit * unit)

/-- Wobble phase of the sample that the ADC takes now: the count of R58, interpolated to the channel bit (R142). -/
def Channel.wobbleTheta (c : Channel) (u : LoopSettings) : Nat := u.wobblePhase + c.sinceEdge * 73728 * 65536 / u.revBits

/-- Offset and wobble rejection: x″ and x′ of a code, in 2^-20 code (R141, R142). -/
def Channel.reject (c : Channel) (u : LoopSettings) (code : Int) : Int × Int :=
  let x2 := code * fine - c.offset
  let w := rnd (c.wobI * cosine (c.wobbleTheta u) + c.wobQ * sine (c.wobbleTheta u)) (2 ^ 30)
  (x2, if u.wobbleReject then x2 - w else x2)

/-- The sample x′ enters the chain; the wobble estimator follows x″, and W is summed at the VGA's input (R142, R143). -/
def Channel.takeCode (c : Channel) (u : LoopSettings) (code : Int) : Channel :=
  let (x2, x1) := c.reject u code
  let flagged := c.flaggedAt u.guard u.wide c.place
  let follow (acc trig : Int) : Int := if flagged then acc else acc + rnd (x2 * trig) (2 ^ (30 + u.wobbleShift))
  let i := follow c.wobI (cosine (c.wobbleTheta u))
  let q := follow c.wobQ (sine (c.wobbleTheta u))
  let w := rnd (rndSqrt (i * i + q * q).toNat * 2 ^ 30) u.gainFactor
  { c with
    xs := (x1 :: c.xs).take 2304, wobI := i, wobQ := q, lastX := code
    wobbleSum := c.wobbleSum + w, wobbleCount := c.wobbleCount + 1, sinceEdge := c.sinceEdge + 1, acqSamples := c.acqSamples + 1 }

/-- The FIR: 17 taps, output of 10 bits in codes (R135, R145). -/
def Channel.equalise (c : Channel) : Channel :=
  let window := (c.xs.drop (latencyY - 8)).take 17
  let y := clampInt (-512) 511 (rnd ((c.taps.zip window).foldl (fun acc p => acc + p.1 * p.2) 0) (2 ^ 55))
  { c with ys := (y :: c.ys).take elasticBuffer, lastY := y }

/-- A neighbour's aligned stream at a place and a fractional delay, by the four-tap interpolator, in 2^-20 code; none where its buffer does not
hold the place (R149, R150). -/
def Neighbour.at (n : Neighbour) (place : Int) (delay : Int) : Option Int :=
  let i := n.chan.place - 1 - latencyY - place
  if 1 ≤ i ∧ i + 2 < n.chan.ys.length then
    some ((List.range 4).foldl (fun acc k => acc + n.chan.ys.getD (i.toNat - 1 + k) 0 * Config.interpolatorTap k delay) 0)
  else none

/-- What beam i takes from a neighbour at a place: nothing where the term is left out (R150, R151). -/
def Channel.nearOf (c : Channel) (n : Neighbour) (place : Int) : NearSample :=
  let step (phase : Int) : Int := phase / 2 ^ 14 * 2 ^ 14
  let delay := step c.phase - step n.chan.phase + c.frac.getD n.index 0 * 2 ^ 14
  match n.at place delay, n.at place (delay - 2 ^ 14), n.at place (delay + 2 ^ 14) with
  | some a, some b, some d => { here := a, minus := b, plus := d, applied := n.applied }
  | _, _, _ => { here := 0, minus := 0, plus := 0, applied := false }

/-- Cancellation: z, and the envelope with its mean, its blankness and its runs against the drop level (R151, R157, R159). -/
def Channel.cancel (c : Channel) (u : LoopSettings) (ns : List Neighbour) : Channel :=
  let place := c.place - latencyZ - c.delay
  let near := ns.map fun n => c.nearOf n place
  let cross := (c.coupling.zip near).foldl (fun acc p => if p.2.applied then acc + p.1 * p.2.here else acc) 0
  let z := c.ys.getD (latencyZ - latencyY + c.delay) 0 * fine - rnd cross (2 ^ 35)
  let e := max (rnd (z.natAbs : Int) 16) (rnd (c.envelope * 31) 32)
  let m := if c.flaggedAt u.guard u.wide place then c.envelopeMean else c.envelopeMean + rnd (e - c.envelopeMean) 4096
  let run := c.envRun.next (decide (e * 2 ^ 15 < u.dropLevel * m)) place
  let blank := decide (m < u.blankLevel * 256)
  let due := decide (u.dropCount ≤ run.length) && run.low != dueState c.envDue c.flaggedFrom && (!run.low || !blank)
  { c with
    zs := (z :: c.zs).take 128, near := (near :: c.near).take (latencyD - latencyZ + 1), envelope := e, envelopeMean := m
    blank := blank, envRun := run, envDue := if due then c.envDue ++ [(run.low, run.start)] else c.envDue }

/-- The tentative detector's next decision (R154). -/
def Channel.tentative (c : Channel) (u : LoopSettings) : Channel :=
  let l := viterbiStep c.survivors u.targetScale (c.zs.getD 0 0)
  { c with survivors := l, levels := ((decisionOf l, c.blank) :: c.levels).take elasticBuffer }

/-- The soft detector's next value (R155). -/
def Channel.detect (c : Channel) (u : LoopSettings) : Channel :=
  let lag := latencyS - latencyZ
  let z := c.zs.getD lag 0
  let after := backward u.targetScale ((c.zs.drop (lag - softWindow)).take softWindow)
  { c with
    softs := (softValue u.targetScale u.llrScale c.forward z after :: c.softs).take elasticBuffer
    forward := forwardStep c.forward u.targetScale z }

/-! ### Adaptation from the one error (R141, R144, R145, R147, R150, R152) -/

/-- The taps adapt: tap 8 stays, taps 7 and 9 move together, every tap saturates (R145). -/
def adaptTaps (taps window : List Int) (eps : Int) (shift : Nat) : List Int :=
  let step (k : Nat) : Int := -stepOf (eps * window.getD k 0) shift 35
  let both := rnd (step 7 + step 9) 2
  taps.mapIdx fun k v =>
    if k = 8 then v
    else clampInt (-(2 ^ 35)) (2 ^ 35 - fine) (v + if k = 7 ∨ k = 9 then both else step k)

/-- The row of K adapts, clamped to the limit (R152); `on` says for which neighbours. -/
def adaptCoupling (row : List Int) (near : List NearSample) (on : List Bool) (eps : Int) (u : LoopSettings) : List Int :=
  row.mapIdx fun j v =>
    if on.getD j false then
      let n := (near.map fun x => x.here).getD j 0
      clampInt (-u.itiLimit * fine) (u.itiLimit * fine) (v - stepOf (eps * n) u.itiShift 35)
    else v

/-- The sums of ε² for the three delays of a neighbour, up to 65,536 unflagged samples (R150). -/
def FracSums.add (f : FracSums) (n : NearSample) (k eps : Int) : FracSums :=
  if 65536 ≤ f.count then f
  else
    let other (v : Int) : Int := eps + rnd (k * (n.here - v)) (2 ^ 35)
    { count := f.count + 1, here := f.here + eps * eps, minus := f.minus + other n.minus * other n.minus,
      plus := f.plus + other n.plus * other n.plus }

/-- The error of the sample that the tentative detector has decided, and the loops that adapt from it: none at a flagged sample; the
timing loop goes on at the held frequency there (R141, R144, R145, R147, R150, R152, R160). Before the pipeline is filled nothing adapts. -/
def Channel.adapt (c : Channel) (u : LoopSettings) (ns : List Neighbour) : Channel :=
  let place := c.place - latencyD - c.delay
  let lag := latencyD - latencyZ
  let t := targetOf u.targetScale ((c.levels.take 5).map fun x => x.1)
  let eps := c.zs.getD lag 0 - t
  let phi := c.zs.getD (lag + 1) 0 * t - c.zs.getD lag 0 * c.tPrev
  let filled := decide (latencyD + c.delay + 9 ≤ c.xs.length)
  let flagged := c.flaggedAt u.guard u.wide place
  let free := filled && !flagged
  let near := c.near.getD lag []
  let window := (c.xs.drop (latencyD + c.delay - 8)).take 17
  let on := (ns.zip near).map fun p =>
    free && u.itiAdapt && c.mode == .locked && !c.blank && p.2.applied && !p.1.chan.flaggedAt p.1.guard p.1.wide place
  let sums := (allFin 4).foldl (fun (v : Vector FracSums 4) j =>
    match near[j.val]? with
    | some n => if free then upd v j fun f => f.add n (c.coupling.getD j.val 0) eps else v
    | none => v) c.fracSums
  let move := stepOf phi 0 20
  { c with
    offset := if free then c.offset + rnd eps (2 ^ u.offsetShift) else c.offset
    taps := if free && !c.blank && u.firAdapt then adaptTaps c.taps window eps u.firShift else c.taps
    phase := (c.phase + c.freq + if free then stepOf phi u.kp 20 else 0) % fine
    freq := if free then c.freq + stepOf phi u.ki 20 else c.freq
    coupling := adaptCoupling c.coupling near on eps u
    fracSums := sums
    flagRun := if flagged then c.flagRun + 1 else 0
    relockDue := c.relockDue || (!flagged && decide (u.relockBits < c.flagRun))
    phaseSquares := c.phaseSquares + (move * move).toNat, phaseCount := c.phaseCount + 1
    tPrev := t, lastEps := rnd eps (2 ^ 20), lastPhi := move }

/-- Soft values enter the slots of the frame store that hold their channel bits (R168); bits before a slot's first one are erased. -/
def FrameSlot.take (f : FrameSlot) (place soft : Int) : FrameSlot :=
  let i := place - f.base + 32
  if f.status ≠ .truncated ∧ 0 ≤ i ∧ i < 56080 ∧ (f.soft.length : Int) ≤ i then
    { f with soft := soft :: (List.replicate (i.toNat - f.soft.length) 0 ++ f.soft) }
  else f

/-- One code of the ADC through the chain of a beam (R135). -/
def Channel.sample (c : Channel) (u : LoopSettings) (ns : List Neighbour) (code : Int) : Channel :=
  let c := ((((c.takeCode u code).equalise.cancel u ns).tentative u).detect u).adapt u ns
  let place := c.place - latencyS - c.delay
  let soft := c.softs.getD 0 0
  { c with
    slots := c.slots.map fun f => f.map fun f => f.take place soft
    place := c.place + 1 }

/-- The chain starts again at a place: its stages hold nothing of what the beam read elsewhere; a flag that lasts goes on there. -/
def Channel.moveTo (c : Channel) (place : Int) (delay : Nat) : Channel :=
  if c.place = place ∧ c.delay = delay then c
  else { c with
    place := place, delay := delay, xs := [], ys := [], zs := [], near := [], survivors := [], levels := [], forward := [], softs := []
    tPrev := 0, envRun := {}, guideRun := {}, envDue := [], guideDue := [], regions := []
    flaggedFrom := c.flaggedFrom.map fun _ => place, guideFrom := c.guideFrom.map fun _ => place, holdFrom := c.holdFrom.map fun _ => place }

/-! ### Gain and amplitude (R139, R143) -/

/-- Control steps of the VGA over its span of -6 to +30 dB. -/
def vgaSteps : Nat := 1024

/-- The control step next to a gain in 2^-20 of 0.01 dB. -/
def vgaStep (gain : Int) : Int := roundHalfUp ((gain + 600 * fine) * (vgaSteps - 1)) (3600 * 2 ^ 20)

/-- 10 to the power of n / 2,000, in 2^-30: n steps of 0.01 dB as a factor, from 10^(1/2000) in 2^-60. -/
def centibelFactor (n : Nat) : Nat :=
  ((List.range n).foldl (fun acc _ => acc * 1154249618919152827 / 2 ^ 60) (2 ^ 60)) / 2 ^ 30

/-- The VGA gain at its control step as a factor, in 2^-30. -/
def gainFactor (gain : Int) : Nat :=
  let c := rnd (vgaStep gain * 3600) (vgaSteps - 1)
  centibelFactor c.toNat * 2 ^ 30 / centibelFactor 600

/-- The VGA gain after 16 samples (R139), in 2^-20 of 0.01 dB. -/
def agcGain (gain target shift : Int) (absSum : Int) : Int :=
  clampInt (-600 * fine) (3000 * fine) (gain + 100 * (16 * target - absSum) * 2 ^ (16 - shift).toNat)

/-! ### The guide beam's sum (R158) -/

/-- Channel bit that a beam reads at the along-track position of a guide sample: the bit sampled at its time, plus G_b. `ago` counts
guide samples of 10 ns back from now. -/
def Channel.guidePlace (c : Channel) (delay : Int) (ago : Nat) : Int :=
  c.place - roundHalfUp ((ago : Int) * c.rate) 100000000 + delay

/-- One guide sum of SVp: its running mean of 2^10 samples and its run against the drop level. -/
def Channel.guideSample (c : Channel) (level : Int) (count : Nat) (enabled : Bool) (place sum : Int) : Channel :=
  let m := c.guideMean + rnd (sum * 65536 - c.guideMean) 1024
  let run := c.guideRun.next (decide (sum * 65536 * 2 ^ 15 < level * m)) place
  let due := decide (count ≤ run.length) && run.low != dueState c.guideDue c.guideFrom && (!run.low || enabled)
  { c with guideMean := m, guideRun := run, guideDue := if due then c.guideDue ++ [(run.low, run.start)] else c.guideDue }

end Sys2Proof.Machine
end

