-- ==== Sys2Proof/Machine/DecodeOps.lean ====
section
/-! DEFINITION. Decoding: reads of clusters, delivery of sectors, the workspace, the cluster decode and the detour ladder (R184 to
R200). -/

namespace Sys2Proof.Machine

/-! ### Where a cluster lies (R42, R44) -/

/-- Lane that holds a channel bit counted from the start of a lane. -/
def laneAt : Nat → Nat → Nat → Nat
  | 0, lane, _ => lane
  | n + 1, lane, b => if b < bitsPerRev lane then lane else laneAt n (lane + 1) (b - bitsPerRev lane)

/-- First lane of a cluster position. -/
def laneOf (a : RunArea) (q : Nat) : Nat := laneAt lanes a.origin (q * 980280)

/-- The sequencer seeks to the lane before a cluster's first lane (R194, R206); it waits where a sequence runs. -/
def State.seekBefore (s : State) (p : PickupId) (a : RunArea) (layer q : Nat) : State :=
  let k := s.pickups[p]
  let t : Target := { layer := layer, lane := laneOf a q - 1 }
  if k.engine == .following && k.seq == .none then s.startSeek p t
  else if k.idle || k.queuedSeek.isSome then s
  else s.updP p fun k => { k with queuedSeek := some t }

/-! ### Reads and delivery (R189, R199) -/

/-- A sector before it is read. -/
def SectorRead.fresh (k : Nat) : SectorRead :=
  { k := k, c0 := .pending, c1 := .pending, llr0 := [], llr1 := [], vouched := false, chain := none, readmitted := false, overflow := false,
    delivered := false }

/-- The pickup turns to the first read that waits: it seeks there unless it lies at or just before its lane on its layer, or a
run or a rung has the pickup. -/
def State.readNext (s : State) (p : PickupId) : State :=
  let x := s.sides[p]
  let k := s.pickups[p]
  match x.reads.find? (fun r => r.ladder.isNone && r.sectors.any fun y => !y.ended) with
  | none => s
  | some r =>
    let lane := laneOf .user r.q
    if x.writeState ≠ .idle || k.engine ≠ .following || k.seq ≠ .none then s
    else if k.layer = some r.layer ∧ (k.lane = some lane ∨ k.lane = some (lane - 1)) then s
    else s.seekBefore p .user r.layer r.q

/-- First LBA of a logical cluster. -/
def clusterLba (homeLayer homeQ : Nat) : Nat :=
  (homeLayer * 67 + homeQ / zoneClusters) * zoneBlocks + homeQ % zoneClusters * 64

/-- Whether a command covers a block. -/
def Cmd.coversLba (c : Cmd) (lba : Nat) : Bool := decide (c.lba ≤ lba ∧ lba ≤ c.lba + c.sqe.nlb)

/-- An accepted sector is delivered to a waiting Read (R189). -/
def State.deliverTo (s : State) (k : CmdRef) (r : ClusterRead) (x : SectorRead) : State :=
  match x.c0, x.c1 with
  | .converged a, .converged b =>
    let lba := clusterLba r.homeLayer r.homeQ + x.k
    s.updCmd k fun c =>
      if c.io opRead ∧ c.coversLba lba then { c with dataOut := c.dataOut ++ [(lba, (b ++ a).setWidth 32768)] } else c
  | _, _ => s

/-- Whether every data sector is accepted. -/
def ClusterRead.complete (r : ClusterRead) : Bool := r.open_.isEmpty

/-- Codewords of a read that has ended are still decoded, but no later read takes their results (R200). -/
def State.orphanJobs (s : State) (p : PickupId) (layer q : Nat) : State :=
  let mark (j : Job) : Job :=
    if j.beam.pickup = p ∧ j.layer = layer ∧ j.q = q ∧ !j.system ∧ !j.verifying then { j with orphan := true } else j
  { s with decoding := { decoders := s.decoding.decoders.map fun d => d.map mark, queue := s.decoding.queue.map mark } }

/-- The read of a cluster ends: unless recovered, every command with an unaccepted block gets Unrecovered Read Error; a command
whose clusters have all ended has its status (R199). -/
def State.clusterEnd (s : State) (p : PickupId) (r : ClusterRead) (recovered : Bool) : State :=
  let base := clusterLba r.homeLayer r.homeQ
  let s := (s.orphanJobs p r.layer r.q).updS p fun x => { x with
    reads := x.reads.filter fun y => !(y.layer == r.layer && y.q == r.q)
    movedReads := x.movedReads ++ [(s.time, 64 * bytesPerBlock, s.revolutions p.spindle - x.moveFrom)], moveFrom := s.revolutions p.spindle }
  let s := s.forEach r.waiting fun s k =>
    let hit := !recovered && match s.cmd? k with
      | some c => r.open_.any fun x => c.coversLba (base + x.k)
      | none => false
    let s := s.updCmd k fun c => { c with clustersLeft := c.clustersLeft - 1 }
    let s := if hit then s.finishCmd k .unrecoveredRead else s
    match s.cmd? k with
    | some c => if c.clustersLeft = 0 then s.finishCmd k .success else s
    | none => s
  s.readNext p

/-- Sectors that have become accepted are delivered; a cluster that needs no cluster decode is then done. -/
def State.settle (s : State) (p : PickupId) (layer q : Nat) : State :=
  match s.read? p layer q with
  | none => s
  | some r =>
    let new := r.sectors.filter fun x => decide (x.k < 64) && x.accepted && !x.delivered
    let s := s.forEach new fun s x => s.forEach r.waiting fun s k => s.deliverTo k r x
    let s := s.updRead p layer q fun r => { r with sectors := r.sectors.map fun x =>
      { x with delivered := x.delivered || (decide (x.k < 64) && x.accepted) } }
    if r.complete && r.ladder.isNone && r.round == 0 then s.clusterEnd p r true else s

/-- Settings that a codeword or a cluster decode starting now works with (R201). -/
def State.decodeSettings (s : State) : DecodeSettings where
  limit := s.obN Obj.ldpcMaxIterations
  offset := s.obN Obj.ldpcOffset
  floor := s.obN Obj.byteEraseFloor
  fill := s.obN Obj.fillLlr
  maxErrors := s.obN Obj.outerMaxErrors
  chain := s.obN Obj.chainFrames

/-- A command needs a cluster of its namespace: it joins the read in progress, or a read begins (R190, R198). -/
def State.wantCluster (s : State) (p : PickupId) (zone cluster : Nat) (k : CmdRef) : State :=
  let (layer, q) := s.place p zone cluster
  match s.read? p layer q with
  | some r =>
    let s := s.forEach (r.sectors.filter fun x => x.delivered) fun s x => s.deliverTo k r x
    s.updRead p layer q fun r => { r with waiting := r.waiting ++ [k]
                                          ladder := r.ladder.map fun l => { l with endAtBoundary := false } }
  | none =>
    let first := (s.sides[p]).reads.isEmpty
    let r : ClusterRead := {
      layer := layer, q := q, homeLayer := zoneLayer zone, homeQ := homeQ zone cluster
      sectors := (List.range sectors).map SectorRead.fresh, decoding := false, settings := s.decodeSettings, round := 0, roundLimit := 0, queued := 0
      firstUnaccepted := 0, ladder := none, inWorkspace := false, waiting := [k] }
    let s := s.updS p fun x => { x with reads := x.reads ++ [r], moveFrom := if first then s.revolutions p.spindle else x.moveFrom }
    if first then s.readNext p else s

/-! ### Workspace (R184) -/

/-- Clusters in the workspace of a pickup. -/
def Side.workspace (x : Side) : Nat := (x.reads.filter fun r => r.inWorkspace).length

/-- WORKSPACE_STORE: LLRs of a codeword of a cluster are kept; a third cluster stops reading on the pickup at the next cluster
boundary. -/
def State.storeLlrs (s : State) (p : PickupId) (layer q : Nat) : State :=
  match s.read? p layer q with
  | none => s
  | some r =>
    if r.inWorkspace then s
    else if (s.sides[p]).workspace < 2 then s.updRead p layer q fun r => { r with inWorkspace := true }
    else if (s.sides[p]).workspaceStopped then s
    else (s.updS p fun x => { x with workspaceStopped := true }).report Isl.mem Ev.decWorkspaceFull
      [(p.val : Int), (layer : Int), (q : Int)]

/-! ### The pool (R179, R181, R183) -/

/-- First-pass codewords that wait. -/
def Decoding.depth (d : Decoding) : Nat := (d.queue.filter fun j => j.cls == .firstPass).length

/-- A codeword is queued; `PoolQueueDepthMax` follows. -/
def State.queueJob (s : State) (j : Job) : State :=
  let s := { s with decoding := { s.decoding with queue := s.decoding.queue ++ [j] } }
  s.maxOb Obj.poolQueueDepthMax 0 0 s.decoding.depth

/-- Beam that reads track t: beam t (R26). -/
def trackOf (q k : Nat) : Fin 4 := ⟨(70 * q + k) % 4, by omega⟩

/-- Re-decodes of a cluster are queued in a class: sector, codeword and LLRs of each; their number is what the round or rung waits for. -/
def State.queueRedecodes (s : State) (p : PickupId) (r : ClusterRead) (cls : PoolClass) (limit offset : Nat)
    (l : List (Nat × Fin 2 × List Int)) : State :=
  (s.forEach l fun s x => s.queueJob {
    cls := cls, beam := p.beam (trackOf r.q x.1), slot := none, half := x.2.1, layer := r.layer, q := r.q, k := x.1, system := false
    verifying := false, llrs := x.2.2, limit := limit, offset := offset }).updRead p r.layer r.q fun r => { r with queued := l.length }

/-- Codewords of a cluster that have not converged and have stored LLRs. -/
def ClusterRead.storedCodewords (r : ClusterRead) : List (Nat × Fin 2 × List Int) :=
  r.sectors.flatMap fun x => (allFin 2).filterMap fun h =>
    if (x.half h).done || (x.llrs h).isEmpty then none else some (x.k, h, x.llrs h)

/-! ### Frames in the store (R156, R160, R162, R169, R181) -/

/-- Soft values of a stored frame by channel bit, counted from where its RLL stream starts at an alignment; bits that are not yet in the store
count as not erased. -/
def FrameSlot.stream (f : FrameSlot) (align : Int) : Int → Int :=
  let a := f.soft.reverse.toArray
  fun i =>
    let n := align + 48 + 32 + i
    if n < 0 then 0 else a.getD n.toNat 1

/-- Erased coded bits of a codeword of a stored frame (R156, R162). -/
def FrameSlot.erasedIn (f : FrameSlot) (h : Fin 2) : Nat := erasedCount (f.stream f.align) (codewordStart h) codeBits

/-- The 18,432 LLRs of a codeword of a stored frame, formed as the decoder fetches them (R156, R179). -/
def FrameSlot.llrs (f : FrameSlot) (h : Fin 2) : List Int := codedLlrs (f.stream f.align) (codewordStart h) codeBits

/-- The flags that have arrived set soft values in the store to 0, but for those of a codeword handed over before (R160). -/
def FrameSlot.applyFlags (f : FrameSlot) (c : Channel) (guard wide : Int) (h : Fin 2) : FrameSlot :=
  let last := f.base - 33 + f.soft.length
  let first := if h = 0 then f.base - 32 else f.base + f.align - 192 + 28272 - 3
  { f with soft := f.soft.mapIdx fun j v =>
      let place := last - j
      if first ≤ place && c.flaggedAt guard wide place then 0 else v }

/-- LLRs of a codeword are stored, as they were fetched, and the cluster takes a place in the workspace (R184). -/
def State.keepLlrs (s : State) (p : PickupId) (layer q k : Nat) (h : Fin 2) (l : List Int) : State :=
  (s.updSector p layer q k fun x => x.keep h l).storeLlrs p layer q

/-- A codeword in a slot is offered (R169): to verify or as a frame of the system area to the pool, in a reread pass as a re-decode of its detour
unless it has converged (R194), in the first pass Abandoned or to the pool (R181). -/
def State.offerCodeword (s : State) (g : BeamId) (i : Fin 3) (f : FrameSlot) (h : Fin 2) (second : Bool) : State :=
  let p := g.pickup
  let job : Job := { cls := .firstPass, beam := g, slot := some i, half := h, layer := f.layer, q := f.q, k := f.k, system := f.system
                     verifying := f.verify, second := second }
  if f.status == .blank then s
  else if f.verify || f.system then s.queueJob job
  else if (f.status == .headerFirst || f.status == .headerSecond) && !f.matched then s
  else
    match s.read? p f.layer f.q with
    | none => s
    | some r =>
      match r.sectors.find? fun x => x.k == f.k with
      | none => s
      | some x =>
        let rereads := r.ladder.any fun l => l.running && decide (0 < l.rereadsLeft)
        if (x.half h).done then s
        else if rereads then (s.queueJob { job with cls := .detour }).updRead p f.layer f.q fun r => { r with queued := r.queued + 1 }
        else if x.half h ≠ .pending ∧ !(second && x.half h = .abandoned) then s
        else if s.obN Obj.abandonBits < f.erasedIn h then
          ((s.updSector p f.layer f.q f.k fun x => x.setHalf h .abandoned).bump Obj.codewordsAbandoned 0 0).keepLlrs p f.layer f.q f.k h (f.llrs h)
        else s.queueJob job

/-! ### The ladder (R192 to R199) -/

/-- Raises `WorstErasures` and, after a ladder, advances `DetourReads` (R51, R199, R200). -/
def State.noteRead (s : State) (p : PickupId) (r : ClusterRead) (detoured : Bool) : State :=
  let e := s.entry p r.layer r.q
  s.setEntry p r.layer r.q { e with
    worstErasures := max e.worstErasures r.firstUnaccepted
    detourReads := if detoured then min 255 (e.detourReads + 1) else e.detourReads }

/-- Event of chapter 5: pickup, layer, position, then what the code adds (R204). -/
def State.decReport (s : State) (p : PickupId) (r : ClusterRead) (code : Nat) (rest : List Int) : State :=
  s.report Isl.mem code ([(p.val : Int), (r.layer : Int), (r.q : Int)] ++ rest)

/-- LADDER_END: the ladder ends recovered, with the decisive code, or unrecovered (R199). -/
def State.ladderEnd (s : State) (p : PickupId) (layer q : Nat) (decisive : Nat) : State :=
  match s.read? p layer q with
  | none => s
  | some r =>
    let s := s.endDetour p
    let s := s.noteRead p r true
    if r.complete then
      (s.decReport p r Ev.decRecovered [(decisive : Int)]).clusterEnd p r true
    else
      let s := s.bump Obj.clustersUnrecovered 0 0
      let s := s.decReport p r Ev.decUnrecovered
        [(r.open_.length : Int), ((r.open_.map fun x => x.k).foldl min 63 : Nat)]
      s.clusterEnd p r false

/-- The ladder is discarded with no outcome: nobody waits on the cluster any more (R198). -/
def State.discardRead (s : State) (p : PickupId) (layer q : Nat) : State :=
  let s := if ((s.read? p layer q).bind fun r => r.ladder).any (fun l => l.running) then s.endDetour p else s
  ((s.orphanJobs p layer q).updS p fun x => { x with reads := x.reads.filter fun y => !(y.layer == layer && y.q == q) }).readNext p

/-- Numbers of the reasons of EV_DEC_RUNG_SKIPPED in the order of R204. -/
def SkipReason.code : SkipReason → Int
  | .budget => 0 | .partnerWriting => 1 | .firmwareActivation => 2 | .limitedRetry => 3

/-- Rereads of a detour (R192); BeamReassign takes a second pass while codewords of track 3 fail. -/
def ClusterRead.rereads (r : ClusterRead) (code : Nat) : Nat :=
  match code with
  | 2 => 2 | 3 => 2 | 4 => 1 | 6 => 1
  | 5 => if r.sectors.any (fun x => (trackOf r.q x.k).val == 3 && !(x.c0.done && x.c1.done)) then 2 else 1
  | _ => 0

/-- Time that a spindle reports for a change of speed, in ms: |ΔN| / `SpeedSlewLimit` + `SpeedSettleTime` (R266). -/
def State.speedChangeMs (s : State) (i : SpindleId) (delta : Int) : Int :=
  rnd (delta.natAbs : Int) (s.obN Obj.speedSlewLimit i) + s.ob Obj.speedSettleTime i

/-- What is left of a ladder's budget in ms; it counts from the start of the ladder (R195). -/
def State.budgetLeft (s : State) (l : Ladder) : Int := l.budgetMs - s.msSince l.startedAt

/-- Whether the remaining budget is below a rung's estimate (R195): rereads times two revolutions and `ShortSeekTimeout`, and
for ReducedSpeed the times of the change and of the return. -/
def State.overBudget (s : State) (p : PickupId) (r : ClusterRead) (l : Ladder) (code : Nat) : Bool :=
  let m := s.spindles[p.spindle]
  let n : Int := m.measured
  let rereads : Int := r.rereads code
  let delta := m.reference - rnd (l.settings.speedRatio * m.reference) (2 ^ 15)
  let change := if code = 6 then 2 * s.speedChangeMs p.spindle delta else 0
  decide ((s.budgetLeft l - change) * n < rereads * (120000000 + s.ob Obj.shortSeekTimeout p * n))

/-- Why a rung is skipped, if it is. -/
def State.skipReason (s : State) (p : PickupId) (r : ClusterRead) (l : Ladder) (code : Nat) : Option SkipReason :=
  let reread := decide (0 < r.rereads code)
  if reread && s.host.activation.isSome then some .firmwareActivation
  else if reread && r.waiting.all (fun k => match s.cmd? k with | some c => c.sqe.limitedRetry | none => true) then some .limitedRetry
  else if code == 6 && (s.sides[p.partner]).writeState != .idle then some .partnerWriting
  else if s.overBudget p r l code then some .budget
  else none

/-- The ladder stands at its next rung: rungs that are skipped are recorded, and it ends where no rung is left, the budget is
short, or nobody waits (R195, R197, R198). -/
def State.prepareRung (s : State) (p : PickupId) (layer q : Nat) : Nat → State
  | 0 => s
  | n + 1 =>
    match s.read? p layer q with
    | none => s
    | some r =>
      match r.ladder with
      | none => s
      | some l =>
        if l.endAtBoundary && r.waiting.isEmpty then s.discardRead p layer q
        else if l.order.length ≤ l.position then s.ladderEnd p layer q 0
        else
          let code := l.order.getD l.position 0
          match s.skipReason p r l code with
          | none => s
          | some why =>
            let s := (s.bump Obj.detourRungsSkipped 0 (code - 1)).decReport p r Ev.decRungSkipped [(code : Int), why.code]
            if why = .budget then s.ladderEnd p layer q 0
            else
              let s := s.updRead p layer q fun r => { r with ladder := some { l with position := l.position + 1 } }
              s.prepareRung p layer q n

/-- The objects of R203 as they stand. -/
def State.detourSettings (s : State) : DetourSettings where
  iterations := s.obN Obj.detourIterations
  trackStep := lengthWord (s.ob Obj.detourTrackStep) 2560
  focusStep := lengthWord (s.ob Obj.detourFocusStep) 10240
  eqMuStep := s.obN Obj.detourEqMuStep
  speedRatio := s.ob Obj.detourSpeedRatio
  setpoint := lengthWord (s.ob Obj.reassignSetpoint) 2560
  gainScale := s.ob Obj.reassignGainScale

/-- LADDER_START with the `DetourOrder` in force (R193). -/
def State.startLadder (s : State) (p : PickupId) (r : ClusterRead) : State :=
  let order := ((List.range 6).map fun k => s.obN Obj.detourOrder 0 k).filter (· ≠ 0)
  let s := s.bump Obj.ladders 0 0
  let s := s.decReport p r Ev.decLadderStart (order.map fun (c : Nat) => (c : Int))
  let s := s.updRead p r.layer r.q fun r => { r with ladder := some {
    settings := s.detourSettings, startedAt := s.time, rungAt := s.time, order := order, position := 0, budgetMs := s.ob Obj.detourBudget, running := false, rereadsLeft := 0, failedRung := false
    endAtBoundary := false } }
  s.prepareRung p r.layer r.q 7

/-! ### The cluster decode (R187, R188, R190) -/

/-- READMISSION: sectors placed within `ChainFrames` frames of a valid and matching header take part from now on; a limit of 0
turns readmission off (R187). -/
def State.readmit (s : State) (p : PickupId) (layer q : Nat) : State :=
  match s.read? p layer q with
  | none => s
  | some r =>
    let limit := r.settings.chain
    let ok (x : SectorRead) : Bool := !x.vouched && !x.readmitted && match x.chain with
      | some n => decide (n ≤ limit ∧ 0 < limit)
      | none => false
    let s := s.forEach (r.sectors.filter ok) fun s x =>
      (s.bump Obj.sectorsReadmitted 0 0).decReport p r Ev.decReadmitted [(x.k : Int)]
    s.updRead p layer q fun r => { r with sectors := r.sectors.map fun x => if ok x then { x with readmitted := true } else x }

/-- CLUSTER_DECODE_END, with 1 as the result in its event where every data sector is accepted and 0 where not (log entry 157): the cluster is
recovered, or the ladder starts (R190); a decode of a rung leaves the outcome to the rung's
end. -/
def State.decodeEnd (s : State) (p : PickupId) (layer q : Nat) : State :=
  match s.read? p layer q with
  | none => s
  | some r =>
    let ok := r.complete
    let s := s.decReport p r Ev.decOuterUsed [(r.round : Int), (r.firstUnaccepted : Int), if ok then 1 else 0]
    let s := s.updRead p layer q fun r => { r with decoding := false }
    if r.ladder.isSome then s
    else if ok then
      let s := s.bump Obj.clustersRecoveredByDecode 0 0
      (s.noteRead p r false).clusterEnd p r true
    else s.startLadder p { r with decoding := false }

/-- The re-decodes of a round are done: the decode stops, or the next round begins, or readmission is evaluated once more after
the last round (R188). -/
def State.roundEnd (s : State) (p : PickupId) (layer q : Nat) : State :=
  let s := s.settle p layer q
  match s.read? p layer q with
  | none => s
  | some r =>
    if r.complete then s.decodeEnd p layer q
    else
      let s := (s.readmit p layer q).settle p layer q
      let whole := match s.read? p layer q with | some r => r.complete | none => true
      if whole || decide (r.roundLimit ≤ r.round) then s.decodeEnd p layer q
      else s.updRead p layer q fun r => { r with round := r.round + 1 }

end Sys2Proof.Machine
end

