-- ==== Sys2Proof/Machine/Gates.lean ====
section
/-! DEFINITION. The gates of a spindle's bridge (R252): edges, dead time, and the edges that a tracking sampling edge moves. -/

namespace Sys2Proof.Machine

/-- Nanoseconds from a tracking sampling edge to the start of each PWM period, 0 to 624: 20 µs are 32 tracking periods, so that it is the same in
each; the manual does not give it. -/
def pwmPhase : Int := Config.real Tag.pwmPhase [] % 625

/-- Whether an instant, in ns from the start of a PWM period, lies from 20 ns before to 40 ns after a tracking sampling edge. -/
def nearEdge (t : Int) : Bool := decide (605 ≤ (t + pwmPhase) % 625 ∨ (t + pwmPhase) % 625 < 40)

/-- The instant of an edge: the end of the interval where it would fall in one. -/
def clearOfEdge (t : Int) : Int :=
  let r := (t + pwmPhase) % 625
  if 605 ≤ r then t + (665 - r) else if r < 40 then t + (40 - r) else t

/-- Levels of both gates of a leg, high side first, at an instant of its pattern. -/
def Leg.level (l : Leg) (t : Int) : Bool × Bool :=
  l.edges.foldl (fun s e => if e.ns ≤ t then (if e.high then (e.on, s.2) else (s.1, e.on)) else s) (l.high, l.low)

/-- A leg as its next pattern finds it, `ns` after the start of the last one. -/
def Leg.next (l : Leg) (ns : Int) : Leg := { high := (l.level ns).1, low := (l.level ns).2, edges := [], carry := l.carry }

/-- A leg whose gates both go off. -/
def Leg.off (l : Leg) (ns : Int) : Leg :=
  let l := l.next ns
  { l with edges := (if l.high then [⟨clearOfEdge 0, true, false⟩] else []) ++ if l.low then [⟨clearOfEdge 0, false, false⟩] else [] }

/-- A leg that changes over to one side at an instant: the other gate goes off, this one on a dead time later. -/
def Leg.turn (l : Leg) (high : Bool) (t dead : Int) : Leg :=
  let now := l.level t
  let off := clearOfEdge t
  if (if high then now.1 else now.2) then l
  else if now.1 || now.2 then
    { l with edges := l.edges ++ [⟨off, !high, false⟩, ⟨clearOfEdge (off + dead), high, true⟩] }
  else { l with edges := l.edges ++ [⟨off, high, true⟩] }

/-- One PWM period of a leg, centre-aligned, of a duty in ns with the carried error: low, high from the rise to the fall, low again. A pulse of
either gate that the dead time would leave no room for is left out. The error of moved edges goes to the next period. -/
def Leg.pwm (l : Leg) (duty dead : Int) : Leg :=
  let l := l.next 20000
  let eff := clampInt 0 20000 (duty + l.carry)
  let rise := (20000 - eff) / 2
  let fall := rise + eff
  let on := clearOfEdge (clearOfEdge rise + dead)
  let off := clearOfEdge fall
  let back := clearOfEdge (off + dead)
  let carry := duty + l.carry - eff
  if fall ≤ on then { (l.turn false 0 dead) with carry := carry }
  else if 20000 ≤ back ∨ rise ≤ clearOfEdge (clearOfEdge 0 + dead) then { (l.turn true 0 dead) with carry := carry }
  else { (((l.turn false 0 dead).turn true rise dead).turn false fall dead) with carry := carry + (on - rise - dead) - (off - fall) }

/-- The legs of a spindle with a change of each. -/
def Spindle.mapLegs (m : Spindle) (f : Fin 3 → Leg → Leg) : Spindle :=
  { m with legs := (allFin 3).foldl (fun v k => upd v k (f k)) m.legs }

/-- Every gate of a spindle goes low (R271, R276). -/
def Spindle.gatesOff (m : Spindle) : Spindle := { (m.mapLegs fun _ l => l.off 20000) with gatesDriven := false, pulse := false }

end Sys2Proof.Machine
end

