-- ==== Sys2Proof/Machine/StagingOps.lean ====
section
/-! DEFINITION. The staging area and the switchover unit: places of objects, the checks of R392, commit, and the sets of internal
clients (R389 to R394). -/

namespace Sys2Proof.Machine

/-! ### Whose object a key is (R393, R450) -/

/-- Index of a key. -/
def keyIndex (key : Nat) : Nat := key / 256

/-- Pickup that an object belongs to, if any (R393). -/
def keyPickup (key : Nat) : Option PickupId :=
  let i := keyIndex key
  let ofNat (n : Nat) : Option PickupId := if h : n < 8 then some ⟨n, h⟩ else none
  if 0x3000 ≤ i ∧ i < 0x3800 then ofNat ((i - 0x3000) / 256)
  else if 0x3880 ≤ i ∧ i < 0x4000 then none
  else if 0x3800 ≤ i ∧ i < 0x3880 then ofNat ((i - 0x3800) / 16)
  else if 0x4000 ≤ i ∧ i < 0x5000 then ofNat ((i - 0x4000) / 0x200)
  else if 0x5400 ≤ i ∧ i < 0x5480 ∧ i % 16 = 4 then ofNat ((i - 0x5400) / 16)
  else if 0x5500 ≤ i ∧ i < 0x5580 ∧ i % 16 < 4 then ofNat ((i - 0x5500) / 16)
  else if 0x7870 ≤ i ∧ i < 0x7878 then ofNat (i - 0x7870)
  else none

/-- Island that owns an object (R363, R393). -/
def keyIsland (key : Nat) : IslandId :=
  let i := keyIndex key
  let clampIsl (n : Nat) : IslandId := if h : n < 48 then ⟨n, h⟩ else 45
  if 0x3000 ≤ i ∧ i < 0x3800 then clampIsl (32 + (i - 0x3000) / 256)
  else if 0x3800 ≤ i ∧ i < 0x3880 then clampIsl (32 + (i - 0x3800) / 16)
  else if 0x4000 ≤ i ∧ i < 0x5000 then clampIsl ((i - 0x4000) / 0x80)
  else if 0x5400 ≤ i ∧ i < 0x5480 then clampIsl (32 + (i - 0x5400) / 16)
  else if 0x5500 ≤ i ∧ i < 0x5580 then clampIsl (32 + (i - 0x5500) / 16)
  else if 0x6000 ≤ i ∧ i < 0x6400 then clampIsl (40 + (i - 0x6000) / 256)
  else if 0x6400 ≤ i ∧ i < 0x6480 then clampIsl (32 + (i - 0x6400) / 16)
  else if 0x6500 ≤ i ∧ i < 0x6540 then 40
  else if 0x5000 ≤ i ∧ i < 0x5600 then 46
  else if 0x7000 ≤ i ∧ i < 0x7200 then 46
  else if 0x8000 ≤ i ∧ i < 0x8400 then 46
  else if 0x2000 ≤ i ∧ i < 0x2600 then 44
  else 45

/-- Saved set that holds an object (R450): 0 to 7 a pickup's, 8 the global one. -/
def calSetOf (key : Nat) : Option Nat :=
  let i := keyIndex key
  let sub := key % 256
  if (0x6000 ≤ i ∧ i < 0x6400 ∧ (i % 256 = 2 ∧ sub = 6 ∨ i % 256 = 6 ∧ sub = 3)) then some 8
  else if i = 0x5020 ∨ (i = 0x5021 ∧ (sub = 6 ∨ sub = 7)) ∨ key = Obj.opcMargin.key 0 0 then some 8
  else match keyPickup key with
    | none => none
    | some p =>
      let member :=
        if i < 0x3800 then
          let o := i % 256
          (2 ≤ o ∧ o ≤ 4 ∧ sub ≤ 7) ∨ (o = 5 ∧ sub ≤ 3) ∨ o = 7 ∨ (0x10 ≤ o ∧ o ≤ 0x14 ∧ 1 ≤ sub)
        else if i < 0x4000 then i % 16 = 7 ∧ sub ≤ 1
        else if i < 0x5000 then i % 0x80 = 0x0B ∧ sub = 6
        else if i < 0x5500 then sub ≤ 4
        else True
      if member then some p.val else none

/-- A member of a saved set has changed (R450). -/
def State.noteChange (s : State) (key : Nat) : State :=
  match calSetOf key with
  | some j => (s.bump Obj.calSetGeneration 0 j).report Isl.core Ev.calSetChanged [(j : Int)]
  | none => s

/-- An object takes a value; members of saved sets advance their generation. -/
def State.putKey (s : State) (key : Nat) (v : Int) : State :=
  let old := match findRow (key / 256) (key % 256) with
    | some (r, i, k) => s.ob r i k
    | none => v
  let s := s.setKey key v
  if old = v then s else s.noteChange key

/-! ### The checks (R392) -/

/-- Entries that take part in the checks: staged values without carried ones (R390). -/
def Staging.staged (g : Staging) : List Staged := g.entries.filter fun e => !e.carried

/-- The configuration that would result (R392). -/
def State.resulting (s : State) (es : List Staged) : State := s.forEach es fun s e => s.setKey e.key e.value

/-- Whether a biquad slot is empty (R78 condition 2). -/
def emptySlot (w : List Int) : Bool := w.all (· == 0) || w == [2 ^ 30, 0, 0, 0, 0]

/-- R78 for the bank of a loop, conditions 1 to 5; slots beyond the loop's capacity are always empty. -/
def State.bankOk (s : State) (p : PickupId) (l : ServoLoop) : Bool :=
  let i := bankInst p l
  let k := s.bank p l
  let used := s.obN Obj.biquadsUsed i
  let m := k.order
  let slot (n : Nat) : List Int := (List.range 5).map fun j => s.ob Obj.biquadCoeff i (5 * n + j)
  let outside := (List.range 4).all fun r =>
    (decide (r < m) || (s.ob Obj.ssB i r == 0 && s.ob Obj.ssC i r == 0)) &&
      (List.range 4).all fun c => decide (r < m ∧ c < m) || s.ob Obj.ssA i (4 * r + c) == 0
  decide (used ≤ l.biquads ∧ 1 ≤ m ∧ m ≤ l.maxOrder)
    && ((List.range l.biquads).all fun n => decide (n < used) || emptySlot (slot n)) && outside
    && ((List.range used).all fun n => decide (((slot n).getD 4 0).natAbs < 2 ^ 30)
          && decide ((((slot n).getD 3 0).natAbs : Int) < 2 ^ 30 + (slot n).getD 4 0))
    && decide (q30Min ≤ k.dtot ∧ k.dtot ≤ q30Max)
    && (decide (k.integrator = 0xFF) || (decide (k.integrator < m) && s.ob Obj.ssC i k.integrator != 0))

/-- Condition 6 of R78. -/
def State.limitsOk (s : State) (p : PickupId) : Bool :=
  (List.range 4).all (fun j => decide (0 < s.ob Obj.limit p j)) && (List.range 2).all (fun j => decide (0 < s.ob Obj.slew p j))
    && (List.range 2).all (fun j => decide (0 < s.ob Obj.slewSkewTilt p j))

/-- Whether a staged key lies at one of the indices from `lo` up to and without `hi`. -/
def touches (es : List Staged) (lo hi : Nat) : Bool := es.any fun e => decide (lo ≤ keyIndex e.key ∧ keyIndex e.key < hi)

/-- Rule 2: the staged banks in ascending index; the lowest subindex of the bank that fails. -/
def State.checkBanks (s : State) (es : List Staged) : Option Nat :=
  (allFin 8).findSome? fun (p : PickupId) =>
    let base := 0x3000 + 0x100 * p.val
    if touches es (base + 4) (base + 5) && !s.limitsOk p then some (Obj.limit.key p 0)
    else allLoops.findSome? fun l =>
      if touches es (base + 0x10 + l.bank) (base + 0x11 + l.bank) && !s.bankOk p l then some (Obj.biquadCoeff.key (bankInst p l) 0)
      else none

/-- Rule 3: R216 for each pickup and layer that is staged. -/
def State.checkStrategy (s : State) (es : List Staged) : Option Nat :=
  (List.range 32).findSome? fun n =>
    if touches es (0x5500 + 0x10 * (n / 4) + n % 4) (0x5501 + 0x10 * (n / 4) + n % 4) then
      (List.range 12).findSome? fun j =>
        if s.ob Obj.topStart n j < 32 * ((j / 3 : Nat) + 1 : Int) + s.ob Obj.endShift n (j / 3) then none
        else some (Obj.topStart.key n j)
    else none

/-- Rule 4: distinct codes, then only zeros (R203). -/
def State.checkOrder (s : State) (es : List Staged) : Option Nat :=
  let l := (List.range 6).map fun k => s.obN Obj.detourOrder 0 k
  let codes := l.takeWhile (· ≠ 0)
  if touches es 0x5020 0x5021 && !(decide codes.Nodup && (l.drop codes.length).all (· == 0)) then some (Obj.detourOrder.key 0 0)
  else none

/-- Rule 5: `ControlMode` and 0x6s02 change only while the spindle is Stopped; `now` holds the active values. -/
def State.checkStopped (s now : State) (es : List Staged) : Option Nat :=
  (allFin 4).findSome? fun (i : SpindleId) =>
    if (now.spindles[i]).mode == .stopped then none
    else
      let base := 0x6000 + 0x100 * i.val
      let hit (e : Staged) : Bool := (keyIndex e.key == base + 2 || e.key == Obj.controlMode.key i 0) &&
        match findRow (e.key / 256) (e.key % 256) with
        | some (r, n, k) => s.ob r n k != now.ob r n k
        | none => false
      ((es.filter hit).map fun e => e.key).min?

/-- The first relation that fails, by its lowest object. -/
def firstFailing (l : List (Bool × Nat)) : Option Nat := (l.find? fun x => !x.1).map fun x => x.2

/-- Rule 6: the relations of R287 for each spindle that is staged. -/
def State.checkSpindles (s : State) (es : List Staged) : Option Nat :=
  (allFin 4).findSome? fun (i : SpindleId) =>
    if touches es (0x6000 + 0x100 * i.val) (0x6100 + 0x100 * i.val) then
      let v (r : Row) : Int := s.ob r i
      let pcm := v Obj.phaseCurrentMax
      firstFailing [
        (decide (v Obj.iqMax ≤ pcm ∧ pcm < v Obj.phaseCurrentTrip), Obj.phaseCurrentMax.key i 0),
        (decide (v Obj.alignCurrent ≤ pcm ∧ v Obj.rampCurrent ≤ pcm ∧ v Obj.idBrakeMax ≤ pcm ∧ v Obj.shortBrakeCurrent ≤ pcm),
          Obj.phaseCurrentMax.key i 0),
        (decide (v Obj.vbusLow < v Obj.lossBrakeLevel ∧ v Obj.lossBrakeLevel < v Obj.regenLimit ∧ v Obj.regenLimit < v Obj.vbusTrip),
          Obj.regenLimit.key i 0),
        (decide (v Obj.chopperOff < v Obj.chopperOn ∧ v Obj.chopperOn < v Obj.vbusTrip), Obj.vbusTrip.key i 0),
        (decide (v Obj.handoverSpeed < v Obj.rampLimitSpeed), Obj.handoverSpeed.key i 0),
        (decide (v Obj.rateMatchMinRate ≤ v Obj.targetChannelRate), Obj.targetChannelRate.key i 0)]
    else none

/-- Rule 7: the relations of R317 for each axis that is staged. -/
def State.checkAxes (s : State) (es : List Staged) : Option Nat :=
  (List.range 20).findSome? fun n =>
    if touches es (0x6400 + 0x10 * n) (0x6410 + 0x10 * n) then
      let v (r : Row) : Int := s.ob r n
      firstFailing [
        (decide (v Obj.holdCurrent ≤ v Obj.runCurrent ∧ v Obj.runCurrent ≤ v Obj.coilCurrentMax
            ∧ v Obj.coilCurrentMax < v Obj.coilCurrentTrip ∧ v Obj.coilCurrentMin ≤ v Obj.runCurrent), Obj.runCurrent.key n 0),
        (decide (v Obj.loadAngleTarget < v Obj.loadAngleLimit), Obj.loadAngleLimit.key n 0)]
    else none

/-- Rule 8: the way masks are pairwise disjoint (R425); `FreezeBefore` + `FreezeAfter` ≤ 144 (R499). -/
def State.checkHigh (s : State) : Option Nat :=
  let w (k : Nat) : Nat := s.obN Obj.wayMask 0 k
  let disjoint := (List.range 4).all fun a => (List.range 4).all fun b => decide (a = b) || Nat.land (w a) (w b) == 0
  firstFailing [(disjoint, Obj.wayMask.key 0 0),
    (decide (s.ob Obj.freezeBefore + s.ob Obj.freezeAfter ≤ 144), Obj.freezeBefore.key 0 0)]

/-- The checks on a set of entries: the number of the first rule that fails, and its lowest object; the object of rule 1 is 0. -/
def State.switchCheck (s : State) (entries : List Staged) : Option (Nat × Nat) :=
  let es := entries.filter fun e => !e.carried
  let r := s.resulting es
  if entries = [] then some (1, 0)
  else match r.checkBanks es with
  | some k => some (2, k)
  | none => match r.checkStrategy es with
  | some k => some (3, k)
  | none => match r.checkOrder es with
  | some k => some (4, k)
  | none => match r.checkStopped s es with
  | some k => some (5, k)
  | none => match r.checkSpindles es with
  | some k => some (6, k)
  | none => match r.checkAxes es with
  | some k => some (7, k)
  | none => (r.checkHigh).map fun k => (8, k)

/-! ### Results (R391, R401) -/

/-- Values of `SwitchoverResult`. -/
inductive SwitchResult where
  | none | applied | checkFailed | checkPassed | discarded | expired | aborted
deriving DecidableEq, Repr

/-- Number of a result. -/
def SwitchResult.code : SwitchResult → Int
  | .none => 0 | .applied => 1 | .checkFailed => 2 | .checkPassed => 3 | .discarded => 4 | .expired => 5 | .aborted => 6

/-- The outcome objects take their values. -/
def State.switchOutcome (s : State) (r : SwitchResult) (fail : Option (Nat × Nat)) : State :=
  let s := s.setOb Obj.switchoverResult 0 0 r.code
  let s := s.setOb Obj.switchoverFailRule 0 0 ((fail.map fun f => (f.1 : Int)).getD 0)
  s.setOb Obj.switchoverFailObject 0 0 ((fail.map fun f => (f.2 : Int)).getD 0)

/-- A request of a client to the staging area: the owner's keep it from idling (R389). -/
def State.areaTouched (s : State) (cl : Client) : State :=
  if s.staging.owner = some cl then { s with staging := { s.staging with lastAt := s.time } } else s

/-- Identity of the owner of the area; 0 without one. -/
def State.ownerIdentity (s : State) : Int := ((s.staging.owner.map Client.identity).getD 0 : Nat)

/-- A failed check: EV_SWITCHOVER_REFUSED; the area and its owner stay (R392). -/
def State.switchRefused (s : State) (cl : Client) (fail : Nat × Nat) : State :=
  (s.switchOutcome .checkFailed (some fail)).report Isl.core Ev.switchoverRefused
    [(cl.identity : Int), (fail.1 : Int), (fail.2 : Int)]

/-- Pickup of a pickup-local set (R393). -/
def localPickup (es : List Staged) : Option PickupId :=
  match es with
  | [] => none
  | e :: rest => match keyPickup e.key with
    | some p => if rest.all (fun x => keyPickup x.key == some p) then some p else none
    | none => none

/-- The first grid edge with n mod 16 = 0 that lies at least `SwitchoverLead` after edge n (R393). -/
def State.globalEdge (s : State) : Nat :=
  let least := s.gridN + (s.obN Obj.switchoverLead + 624) / 625
  (least + 15) / 16 * 16

/-- The checked set is committed to the switchover unit, which chooses its edge (R79, R393). -/
def State.commitSet (s : State) : State :=
  let e := match localPickup s.staging.entries with
    | some _ => s.gridN + 2
    | none => s.globalEdge
  { s with staging := { s.staging with mode := .committed, edge := e, resetIslands := [], activated := [] } }

/-- Apply: the checks run, and the set is committed if they pass; `reply` says whether a client waits for the answer. -/
def State.applyRequest (s : State) (cl : Client) (reply : Bool) : State :=
  match s.switchCheck s.staging.entries with
  | some f => let s := s.switchRefused cl f
              if reply then s.answer (some Abort.switchoverCheckFailed) else s
  | none =>
    let s := s.commitSet
    { s with staging := { s.staging with replyTo := if reply then some cl else none } }

/-- The area is emptied and its owner released. -/
def State.emptyArea (s : State) : State :=
  { s with staging := { s.staging with mode := .empty, owner := none, entries := [], activated := [], replyTo := none } }

/-! ### Sets of internal clients (R389, R448, R460) -/

/-- An internal client's set is placed, checked and committed at once; a set that fails the check is dropped. -/
def State.placeNow (s : State) (k : Fin 3) (es : List Staged) : State :=
  let s := { s with staging := { s.staging with mode := .staging, owner := some (.internal k), entries := es } }
  match s.switchCheck es with
  | some f =>
    let s := (s.switchRefused (.internal k) f).emptyArea
    let s := { s with cal := { s.cal with unapplied := s.cal.unapplied.filter fun u => u.2.2.1 != es } }
    if k = 1 then (s.bump Obj.planRefusals 0 0).report Isl.core Ev.planRefused [(f.1 : Int), (f.2 : Int)] else s
  | none => s.commitSet

/-- An internal client places a set; while the area is not empty the set waits (R389). -/
def State.placeInternal (s : State) (k : Fin 3) (es : List Staged) : State :=
  if es = [] then s
  else if s.staging.mode == .empty then s.placeNow k es
  else { s with cal := { s.cal with waiting := s.cal.waiting ++ [(k, es)] } }

/-- The area has become empty: the first set that waits is placed; one that the check refuses makes room for the next. -/
def State.placeWaiting (s : State) : State :=
  s.forEach s.cal.waiting fun s _ =>
    match s.cal.waiting with
    | [] => s
    | (k, es) :: rest =>
      if s.staging.mode == .empty then { s with cal := { s.cal with waiting := rest } }.placeNow k es else s

end Sys2Proof.Machine
end

