-- ==== Sys2Proof/Machine/SpindleOps.lean ====
section
/-! DEFINITION. Shared operations of the spindles: the reference of R264 and R265, starts, stops and faults (R255 to R283, R559). -/

namespace Sys2Proof

/-- The two pickups of a spindle (R10). -/
def SpindleId.pickups (s : SpindleId) : List PickupId := [s.pickup 0, s.pickup 1]

end Sys2Proof

namespace Sys2Proof.Machine

/-- Bits of `SpindleFault` (R284). -/
inductive SpindleFaultBit where
  | startFail | observerLost | vbusTrip | gateDriver | overcurrent | vbusLow
deriving DecidableEq, Repr

/-- Mask of a fault bit. -/
def SpindleFaultBit.mask : SpindleFaultBit → BitVec 16
  | .startFail => 0x01 | .observerLost => 0x02 | .vbusTrip => 0x04 | .gateDriver => 0x08 | .overcurrent => 0x10
  | .vbusLow => 0x20

/-- Speed of an object in rpm, in 0.001 rpm. -/
def State.rpm (s : State) (r : Row) (i : SpindleId) : Int := s.ob r i * 1000

/-! ### The reference (R264, R265) -/

/-- N_p of a pickup in 0.001 rpm: its lane, or the target lane from the start of a seek; none when it neither follows nor seeks. -/
def State.pickupTarget (s : State) (i : SpindleId) (p : PickupId) : Option Int :=
  let k := s.pickups[p]
  let lane? := if k.seq == .seek then k.target.map (fun t : Target => t.lane) else if k.engine == .following then k.lane else none
  lane?.map fun lane => min (s.rpm Obj.nMax i) (rnd (60 * s.ob Obj.targetChannelRate i * 1000000) (bitsPerRev lane))

/-- Whether a pickup has a write run in progress. -/
def State.writing (s : State) (p : PickupId) : Bool := (s.sides[p]).writeState != .idle

/-- Smaller of two optional values. -/
def optMin : Option Int → Option Int → Option Int
  | some a, some b => some (min a b)
  | some a, none => some a
  | none, b => b

/-- The spindle's target (R264): writers alone count while there are any; the last value stays when no pickup qualifies. -/
def State.spindleTarget (s : State) (i : SpindleId) : Int :=
  let a := i.pickup 0
  let b := i.pickup 1
  let t := match s.writing a, s.writing b with
    | true, false => s.pickupTarget i a
    | false, true => s.pickupTarget i b
    | _, _ => optMin (s.pickupTarget i a) (s.pickupTarget i b)
  t.getD (s.spindles[i]).goal

/-- Least speed of row 4 of R265 for a run in progress, in 0.001 rpm. -/
def State.runFloor (s : State) (i : SpindleId) (p : PickupId) : Int :=
  if s.writing p then rnd (60 * s.ob Obj.rateMatchMinRate i * 1000000) (bitsPerRev ((s.pickups[p]).lane.getD 0)) else 0

/-- Whether the mount of a spindle is in progress (row 2 of R265). -/
def State.mounting (s : State) (i : SpindleId) : Bool :=
  (s.spindles[i]).forMount && i.pickups.any fun p => (s.pickups[p]).mountResult == .mounting

/-- The reference that the first row of R265 gives, in 0.001 rpm. -/
def State.spindleReference (s : State) (i : SpindleId) : Int :=
  let m := s.spindles[i]
  if m.stopping || m.coastCommanded || m.mode == .fault || m.mode == .braking then 0
  else if m.reverse then -(s.rpm Obj.reverseSpeed i)
  else if s.mounting i then s.ob Obj.mountSpindleSpeed * 1000
  else match m.detourBase with
    | some b => rnd (m.detourRatio * b) (2 ^ 15)
    | none =>
      let t := s.spindleTarget i
      if s.host.powerState = 1 then max (rnd t 2) (max (s.runFloor i (i.pickup 0)) (s.runFloor i (i.pickup 1)))
      else m.matched.getD t

/-! ### Starts (R267, R283) -/

/-- A start begins with sensing: SPs_EN high, gates low; the fault bits clear (R267, R284). -/
def State.beginSensing (s : State) (i : SpindleId) (reverse : Bool) : State :=
  s.updM i fun m => { m.gatesOff with
    mode := .sensing, enabled := true, fault := 0, reverse := reverse, stopping := false
    coastCommanded := false, afterBrake := .stop, startAttempts := 0, reacquireAttempts := 0, implausibleRun := 0
    plausibleRun := 0, startedAt := s.time, phaseAt := s.time, source := 0, integralD := 0, integralQ := 0, seededEmf := 0, integralSpeed := 0
    reference := 0, locked := false, sensedCount := 0, sensedTurn := 0, fallFrom := 0, startWaits := false, startHeld := false, starting := true
    method := 0 }

/-- A start from standstill or of a coasting disc waits while a committed set holds an object of the spindle (R395). -/
def State.startOrWait (s : State) (i : SpindleId) (reverse : Bool) : State :=
  if s.staging.mode == .committed && touches s.staging.entries (0x6000 + 0x100 * i.val) (0x6100 + 0x100 * i.val) then
    s.updM i fun m => { m with startHeld := true, reverse := reverse }
  else s.beginSensing i reverse

/-- Whether a start may clear Fault (R283): SPs_FLT_N is high and VBUS lies from `VbusLow` to `VbusTrip`. -/
def State.faultClearable (s : State) (i : SpindleId) : Bool :=
  let m := s.spindles[i]
  m.fltHigh && decide (s.ob Obj.vbusLow i ≤ m.vbus ∧ (m.vbus : Int) ≤ s.ob Obj.vbusTrip i)

/-- A start of a spindle, by command, mount or exit from PS2 or PS3: a disc that brakes to a stop, or turns the other way, comes to
rest first (R275, R283); a spindle that starts or runs in the direction asked for goes on. -/
def State.startSpindle (s : State) (i : SpindleId) (reverse : Bool) : State :=
  match (s.spindles[i]).mode with
  | .stopped => s.startOrWait i reverse
  | .coasting => s.startOrWait i reverse
  | .fault => if s.faultClearable i then s.startOrWait i reverse else s
  | .braking => s.updM i fun m => { m with afterBrake := .startFromRest, reverse := reverse, stopping := false, startedAt := s.time }
  | _ => s.updM i fun m =>
    if m.reverse = reverse then { m with stopping := false }
    else { m with mode := .braking, stopping := false, afterBrake := .startFromRest, reverse := reverse, startedAt := s.time
                  gatesDriven := true, locked := m.mode == .running, starting := true, matched := none }

/-! ### Stops (R271, R559, R283) -/

/-- Every pickup of a spindle that is not Off or Parked parks (R559); a mount that waits for the spindle is off. -/
def State.parkBoth (s : State) (i : SpindleId) (r : ParkReason) : State :=
  s.forEach i.pickups fun s p =>
    let k := s.pickups[p]
    if k.idle && k.mountResult == .mounting then s.updP p fun k => { k with mountResult := .notMounted, seq := .none, phase := .idle }
    else s.park p r

/-- Stop: controlled deceleration while the observer is locked, else gates low and zero-vector braking (R271, R274, R283). -/
def State.stopSpindle (s : State) (i : SpindleId) : State :=
  let s := s.parkBoth i .request
  s.updM i fun m =>
    match m.mode with
    | .stopped => { m with startWaits := false, startHeld := false, forMount := false, afterBrake := .stop }
    | .fault => m
    | .reacquiring => { m with stopping := true, forMount := false }
    | .running => { m with mode := .braking, stopping := true, afterBrake := .stop, forMount := false, matched := none }
    | .braking => { m with stopping := true, afterBrake := .stop, forMount := false }
    | _ => { m.gatesOff with mode := .braking, gatesDriven := true, locked := false, stopping := true, afterBrake := .stop
                             forMount := false, source := 0 }

/-- Coast: SPs_EN low, every gate low, the disc turns freely (R559). -/
def State.coastSpindle (s : State) (i : SpindleId) : State :=
  let s := s.parkBoth i .request
  s.updM i fun m =>
    match m.mode with
    | .stopped => { m with startWaits := false, startHeld := false, forMount := false, afterBrake := .stop }
    | .fault => m
    | _ => { m.gatesOff with mode := .coasting, enabled := false, coastCommanded := true, stopping := true, locked := false
                             forMount := false, source := 0, matched := none, chopper := false, afterBrake := .stop, starting := false }

/-- The spindle enters Fault with a bit: SPs_EN and all gates low; both pickups park (R283). -/
def State.faultSpindle (s : State) (i : SpindleId) (b : SpindleFaultBit) : State :=
  let s := s.updM i fun m => { m.gatesOff with
    mode := .fault, enabled := false, fault := m.fault ||| b.mask, stopping := false, forMount := false, locked := false
    source := 0, matched := none, chopper := false, starting := false, startWaits := false, startHeld := false }
  s.parkBoth i .spindleLost

/-- An event of a spindle: every one carries the spindle number (R288). -/
def State.spinReport (s : State) (i : SpindleId) (code : Nat) (rest : List Int) : State :=
  s.report (Isl.mt i) code ((i.val : Int) :: rest)

/-- The spindle loses its rotor for its servos: both islands enter defect hold with SpindleObserverLoss (R84, R276). -/
def State.holdBoth (s : State) (i : SpindleId) : State :=
  s.forEach i.pickups fun s p => s.enterHold p Hold.spindleObserverLoss 0 0

/-- The reset of MTs: gates and SPs_EN low, the disc coasts; the spindle shows Stopped, and the next start senses it (R283, R522). -/
def State.resetSpindle (s : State) (i : SpindleId) : State := s.updM i fun _ => {}

end Sys2Proof.Machine
end

