-- ==== Sys2Proof/Machine/Acquisition.lean ====
section
/-! DEFINITION. Meanings of the commands of acquisition, layer jumps and lane seeks (chapter 3). -/

namespace Sys2Proof.Machine

/-! ### Mounting (R105 to R111, R129) -/

/-- The mount of one pickup beside a mounted partner, t0 at the acceptance (R129). -/
def State.mountAlone (s : State) (i : SpindleId) (p : PickupId) : State :=
  (s.updM i fun m => { m with forMount := false }).updP p fun k => { k with
    mountResult := .mounting, mountedAlone := true, seq := .mount, phase := .idle, mountStart := s.time, abortedMount := false }

/-- The mount of both pickups of a spindle: the spindle is brought to `MountSpindleSpeed` (R106). -/
def State.mountBoth (s : State) (i : SpindleId) : State :=
  let s := s.forEach i.pickups fun s p => s.updP p fun k => { k with
    mountResult := .mounting, mountedAlone := false, seq := .none, phase := .idle, mountStart := s.time, abortedMount := false }
  let s := { s with verge := { s.verge with doorTripped := false } }
  (s.startSpindle i false).updM i fun m => { m with forMount := true, stopping := false, coastCommanded := false }

/-- Spindles that were mounted before an entry into PS2 or PS3 are mounted again once their pickups are parked; sides that kept their
map skip its build (R348, R349). -/
def State.remountIdle (s : State) : State :=
  s.forEach s.host.remount fun s i =>
    if s.host.powerExit && s.mtUp i && i.pickups.all (fun p => (s.pickups[p]).idle) then
      ({ s with host := { s.host with remount := s.host.remount.filter fun j => j != i } }).mountBoth i
    else s

/-- EV_ACQ_REQUEST_IGNORED for both pickups' spindle: it carries the lower pickup. -/
def State.mountIgnored (s : State) (i : SpindleId) : State :=
  s.report (Isl.sv (i.pickup 0)) Ev.acqRequestIgnored [((i.pickup 0).val : Int)]

/-- One spindle named by `MountRequest` (R105, R129). The manual names no outcome while one pickup is Off or Parked and the other neither mounted
nor in a mount (it parks, or stands in the hold of an aborted mount): the request is ignored then, which is the model's choice (log entry
152). -/
def State.mountSpindle (s : State) (i : SpindleId) : State :=
  let a := i.pickup 0
  let b := i.pickup 1
  let ka := s.pickups[a]
  let kb := s.pickups[b]
  if s.mounting i || ka.seq == .mount || kb.seq == .mount then s.mountIgnored i
  else if ka.idle && kb.idle then
    if (s.spindles[i]).mode == .fault && !s.faultClearable i then s.mountIgnored i else s.mountBoth i
  else if ka.idle && kb.mountResult == .mounted then s.mountAlone i a
  else if kb.idle && ka.mountResult == .mounted then s.mountAlone i b
  else s.mountIgnored i

/-- MOUNT_REQUEST (R106, R130): a bit outside `EnabledSpindleMask` refuses the whole write. -/
def execMountRequest (cl : Client) (v : Int) (s : State) : Out :=
  s.when s.running fun s => s.hostWrite cl Obj.mountRequest 0 0 v (decide (2 ^ s.otp.variant.spindles ≤ v)) false fun s =>
    s.forEach (allFin 4) fun s i => if v.toNat.testBit i.val && s.mtUp i then s.mountSpindle i else s

/-- The driver check of R214: a bad DeviceId or a Fault. -/
def driverBad (deviceId fault : BitVec 16) : Bool := deviceId == 0 || deviceId == 0xFFFF || decide (fault ≠ 0)

/-- MOUNT_SEQUENCE_START (R106 steps 1 and 2, R214, R314). -/
def execMountSequenceStart (p : PickupId) (deviceId fault : BitVec 16) (s : State) : Out :=
  let k := s.pickups[p]
  s.when (s.svUp p && k.seq == .mount && k.phase == .idle && k.idle) fun s =>
    let s := s.updS p fun x => { x with driverId := deviceId, driverFault := fault }
    let s := if (s.axes[p.sled]).mode == .disabled then
        s.updA p.sled fun a => { a with mode := .standstill, positionValid := false, coil := s.ob Obj.holdCurrent p.sled.inst * 1000, frozen := false }
      else s
    let s := s.updP p fun k => { k with
      engine := .acquiring, phase := .focusSearch, readPower := true, sweeps := 0, sledMoves := 0, sledInward := false
      passageSeen := false, lastPassage := none, lane := none, layer := none, lawDiscardRun := 0, firstLawDue := false, arrayLocked := false
      jumpTries := 0, jumpStage := 0, heldTarget := none, lastLaw := none }
    let s := s.forEach (allFin 4) fun s b => (s.loadSets (p.beam b)).updC (p.beam b) fun c => { c with mode := .idle, pendingAcquire := true }
    let s := s.forEach [.tracking, .skew, .tilt, .sledOuter] fun s l => s.openLoop p l 0
    let s := s.searchSweep p
    if driverBad deviceId fault then
      (s.report (Isl.sv p) Ev.wrDriverFault [(p.val : Int), (deviceId.toNat : Int), (fault.toNat : Int)]).park p .aborted
    else s

/-- FOCUS_CLOSE (R104, R107): FE crosses zero from negative to positive, and the peak Σ of the S-curve has reached `LayerSumMin`, a
fraction of the full-scale sum of 65,536 codes. -/
def execFocusClose (p : PickupId) (s : State) : Out :=
  let k := s.pickups[p]
  s.when (s.svUp p && k.phase == .focusSearch && decide (k.feCross = 1) && decide (2 * s.ob Obj.layerSumMin p ≤ k.curvePeak)) fun s =>
    (s.closeLoop p .focus).updP p fun k => { k with phase := .focusSettle, sweep := none, settleF := 0, stepFrom := s.time }

/-- Whether a sweep has run its whole span. -/
def State.sweepOver (s : State) (p : PickupId) : Bool :=
  match (s.pickups[p]).sweep with
  | some w => match w.since with | some t => decide (t + w.span ≤ s.time) | none => false
  | none => false

/-- Whether the step of a sequence that runs has taken a number of tracking periods. -/
def State.stepOver (s : State) (p : PickupId) (ticks : Nat) : Bool := decide (ticks ≤ s.time - (s.pickups[p]).stepFrom)

/-- FOCUS_SWEEP_END (R106 steps 3 and 4, R107): the sweep has ended without closing, or focus has not settled in the 5 ms between the bounds of
the two steps: a new sweep, or FocusFail after `FocusSearchSweeps`. The focus recovery of a jump or of rung 2 repeats its own sweep; in a recovery the end of its attempt decides. -/
def execFocusSweepEnd (p : PickupId) (s : State) : Out :=
  let k := s.pickups[p]
  s.when (s.svUp p && ((k.phase == .focusSearch && s.sweepOver p) || (k.phase == .focusSettle && s.stepOver p (msTicks 5)))) fun s =>
    let s := s.updP p fun k => { k with phase := .focusSearch, sweeps := k.sweeps + 1 }
    let s := match k.sweep with
      | some w => s.startSweep p w.start w.stop
      | none => s.searchSweep p
    if k.seq == .mount && decide (s.obN Obj.focusSearchSweeps p ≤ k.sweeps + 1) then
      (s.report (Isl.sv p) Ev.acqFocusFail [(p.val : Int)]).park p .focusFail
    else s

/-- Tracking is opened for capture (R108). -/
def State.startCapture (s : State) (p : PickupId) : State :=
  (s.openHere p .tracking).updP p fun k => { k with lastPassage := none, crossVelocity := 0, settleT := 0, stepFrom := s.time }

/-- FOCUS_SETTLE (R106 step 4, R116 step 5): |x_F| has stayed below `FocusSettleLevel` for 256 focus samples; tracking capture begins. -/
def execFocusSettle (p : PickupId) (s : State) : Out :=
  let k := s.pickups[p]
  s.when (s.svUp p && (k.phase == .focusSettle || (k.phase == .layerJump && decide (k.jumpStage = 4))) && decide (256 ≤ k.settleF)) fun s =>
    if k.phase == .focusSettle then (s.startCapture p).updP p fun k => { k with phase := .trackCapture }
    else (s.startCapture p).updP p fun k => { k with jumpStage := 5 }

/-- Whether the sequencer waits to close tracking by capture velocity. -/
def Pickup.capturing (k : Pickup) : Bool :=
  k.loops[ServoLoop.tracking.idx].mode == .opened
    && (k.phase == .trackCapture || (k.phase == .layerJump && decide (k.jumpStage = 5)) || (k.phase == .longSeek && decide (k.jumpStage = 1)))

/-- GUIDE_PASSAGE (R108, R118, R119): PP has crossed zero with the wobble amplitude above `CrossWobbleLevel`. The crossing velocity is 800 nm over
the time since the passage before, signed by the crossing. Capture closes tracking at the first passage below `CaptureVelocity`; a short
seek counts it and closes at the last. -/
def execGuidePassage (p : PickupId) (s : State) : Out :=
  let k := s.pickups[p]
  s.when (s.svUp p && decide (k.ppCross ≠ 0) && decide (s.ob Obj.crossWobbleLevel p < k.wobbleLevel)) fun s =>
    let velocity : Option Nat := k.lastPassage.map fun t => (rnd 1280000 (s.time - t)).toNat
    let s := s.updP p fun k => { k with
      passageSeen := true, lastPassage := some s.time, ppCross := 0, crossVelocity := k.ppCross * (velocity.getD 0 : Nat) }
    if k.capturing then
      match velocity with
      | some v => if v < 100 * s.obN Obj.captureVelocity p then s.closeLoop p .tracking else s
      | none => s
    else if k.phase == .shortSeek && k.loops[ServoLoop.tracking.idx].mode == .opened then
      let left := k.passagesLeft - k.ppCross
      let s := s.updP p fun k => { k with passagesLeft := left }
      if left = 0 then s.closeLoop p .tracking else s
    else s

/-- CAPTURE_SETTLE (R108): |x_T| has stayed below `CaptureSettleLevel` for 256 tracking samples; the first good LAW is awaited. -/
def execCaptureSettle (p : PickupId) (s : State) : Out :=
  let k := s.pickups[p]
  let open_ := k.phase == .trackCapture || k.phase == .shortSeek || (k.phase == .longSeek && decide (k.jumpStage = 1))
    || (k.phase == .layerJump && decide (k.jumpStage = 5))
  s.when (s.svUp p && open_ && k.loops[ServoLoop.tracking.idx].mode == .closed && decide (256 ≤ k.settleT)) fun s =>
    s.updP p fun k => { k with
      firstLawDue := true, phase := if k.phase == .trackCapture then .lawCheck else k.phase
      jumpStage := if k.phase == .layerJump then 6 else k.jumpStage, stepFrom := s.time }

/-- A sled-search move of n steps (R111), each of a whole number of microsteps, so that the return ends where the search began: positive is
outboard. -/
def State.searchMove (s : State) (p : PickupId) (n : Int) : State :=
  (s.updP p fun k => { k with phase := .sledSearch }).moveRelative p.sled
    (n * roundNear (s.ob Obj.sledSearchStep p * 100000) (s.obN Obj.sledMicrostepPitch p))

/-- CAPTURE_TIMEOUT (R106, R111): capture is not complete within `CaptureTimeout`. Without any guide passage the sled search goes on: outward moves, the return, inward moves, NoGuide.
With a passage seen the capture is tried again. -/
def execCaptureTimeout (p : PickupId) (s : State) : Out :=
  let k := s.pickups[p]
  s.when (s.svUp p && k.phase == .trackCapture && s.stepOver p (msTicks (s.obN Obj.captureTimeout p))) fun s =>
    if k.passageSeen then s.startCapture p
    else
      let n := s.obN Obj.sledSearchMoves p
      let s := s.startCapture p
      if k.sledMoves < n then
        (s.updP p fun k => { k with sledMoves := k.sledMoves + 1 }).searchMove p (if k.sledInward then -1 else 1)
      else if !k.sledInward then
        (s.updP p fun k => { k with sledInward := true, sledMoves := 0 }).searchMove p (-(n : Int))
      else (s.report (Isl.sv p) Ev.acqNoGuide [(p.val : Int)]).park p .noGuide

/-- SLED_SEARCH_MOVE_END (R111): the sled stands; steps 4 and 5 of R106 are tried again. After the return to where the search
began the first inward move follows at once. -/
def execSledSearchMoveEnd (p : PickupId) (s : State) : Out :=
  let k := s.pickups[p]
  s.when (s.svUp p && k.phase == .sledSearch && (s.axes[p.sled]).mode != .moving) fun s =>
    if k.sledInward && k.sledMoves = 0 then (s.updP p fun k => { k with sledMoves := 1 }).searchMove p (-1)
    else s.updP p fun k => { k with phase := .focusSettle, settleF := 0, stepFrom := s.time }

/-! ### Runout maps (R112 to R115) -/

/-- A map is to be learned on the layer followed: the learning waits for AngularIndex 0 (R113). -/
def Pickup.learnHere (k : Pickup) (l : Nat) : Pickup :=
  { k with engine := .acquiring, phase := .mapLearn, jumpStage := 0, mapRevs := 0, mapGood := 0, bins := [], binsWhole := false, revolution := none
           maps := if h : l < 4 then upd k.maps ⟨l, h⟩ (fun m => { m with state := .learning }) else k.maps }

/-- The mount goes on with the next layer whose map is not learned, or ends (R106 steps 8 and 9, R112); a side that kept its cluster map
serves its reads again (R349). -/
def State.nextMap (s : State) (p : PickupId) : State :=
  let k := s.pickups[p]
  match (allFin 4).find? fun l => (k.maps[l]).state == .notLearned || (k.maps[l]).state == .learning with
  | some l => s.updP p fun k => if k.layer = some l.val then k.learnHere l.val else k.jumpDue l.val
  | none =>
    let s := s.updP p fun k => { k with mountResult := .mounted }
    let s := (s.report (Isl.sv p) Ev.acqMountDone [(p.val : Int), (s.msSince k.mountStart : Nat)]).follow p
    let s := { s with cal := { s.cal with planDue := true } }
    if (s.sides[p]).built then (s.updS p fun x => { x with doorKept := false }).readNext p else s

/-- Mean of a bin's column, if it has a sample. -/
def binMean (b : BinSums) (c : Nat) : Option Int :=
  if b.counts.getD c 0 = 0 then none else some (rnd (b.sums.getD c 0) (b.counts.getD c 0))

/-- Bins without a sample take the value interpolated linearly between the nearest bins that have one (R113), around the
revolution. -/
def fillGaps (v : Array (Option Int)) : List Int :=
  let n := v.size
  (List.range n).map fun m =>
    match v.getD m none with
    | some x => x
    | none =>
      let back := (List.range n).find? fun j => (v.getD ((m + n - 1 - j) % n) none).isSome
      let ahead := (List.range n).find? fun j => (v.getD ((m + 1 + j) % n) none).isSome
      match back, ahead with
      | some b, some a =>
        let x := (v.getD ((m + n - 1 - b) % n) none).getD 0
        let y := (v.getD ((m + 1 + a) % n) none).getD 0
        rnd (x * (a + 1 : Nat) + y * (b + 1 : Nat)) (a + b + 2)
      | _, _ => 0

/-- acc of R113 for one column: bin means, gaps filled, mean removed. -/
def columnAcc (bins : List BinSums) (c : Nat) : Array Int :=
  let v : Array (Option Int) := ((List.range 4096).map fun m => (bins.find? fun b => b.bin == m).bind fun b => binMean b c).toArray
  let acc := fillGaps v
  let mean := rnd (acc.foldl (fun a b => a + b) 0) 4096
  (acc.map fun x => x - mean).toArray

/-- d of R113 at a point, over 4. -/
def smooth (acc : Array Int) (m : Nat) : Int :=
  acc.getD ((m + 4095) % 4096) 0 + 2 * acc.getD m 0 + acc.getD ((m + 1) % 4096) 0

/-- A map point after an update with a gain in Q1.15. -/
def mapPoint (old gain d : Int) : Int := clampInt (-32768) 32767 (old + rnd (gain * d) (4 * 2 ^ 30))

/-- The map after the update of R113 with a gain in Q1.15. -/
def RunoutMap.update (r : RunoutMap) (bins : List BinSums) (gain : Int) : RunoutMap :=
  let f := columnAcc bins 0
  let t := columnAcc bins 1
  let l := columnAcc bins 2
  { r with points := ((List.range 4096).map fun m =>
      let (a, b, c) := r.at m
      (m, mapPoint a gain (smooth f m), mapPoint b gain (smooth t m), mapPoint c gain (smooth l m))).filter fun e => e.2 ≠ (0, 0, 0) }

/-- prms of the three columns, in Q2.30 (R113). -/
def columnRms (bins : List BinSums) : List Int :=
  (List.range 3).map fun c =>
    let acc := (columnAcc bins c).toList
    (rndSqrt ((acc.foldl (fun a b => a + b * b) 0).toNat / 4096) : Nat)

/-- MAP_LEARN_REVOLUTION (R113, R114): a whole revolution has ended; its update is applied, or left out where a hold or an overrun fell into
it; then the convergence test. -/
def execMapLearnRevolution (p : PickupId) (s : State) : Out :=
  let k := s.pickups[p]
  s.when (s.svUp p && k.phase == .mapLearn && k.revolution.isSome) fun s =>
    let l := k.layer.getD 0
    let r := k.revolution.getD { bins := [], disturbed := true }
    let prms := columnRms r.bins
    let small := prms.all fun x => decide (x < q15 (s.ob Obj.mapConvergeLevel p))
    let good := if r.disturbed then 0 else if small then k.mapGood + 1 else 0
    let revs := k.mapRevs + 1
    let map := if r.disturbed then k.map else k.map.update r.bins (s.ob Obj.mapLearnGain p)
    let conv := decide (s.obN Obj.mapLearnMinRevs p ≤ revs) && decide (2 ≤ good)
    let ended := conv || decide (s.obN Obj.mapLearnMaxRevs p ≤ revs)
    let map := if ended then { map with state := if conv then .learned else .notConverged } else map
    let s := s.updP p fun k => { k with
      maps := if h : l < 4 then upd k.maps ⟨l, h⟩ (fun _ => map) else k.maps
      heldFocus := if h : l < 4 then (if ended && k.seq == .mount then upd k.heldFocus ⟨l, h⟩ (fun _ => some (k.loops[ServoLoop.focus.idx].holdMean 0))
        else k.heldFocus) else k.heldFocus
      mapRevs := revs, mapGood := good, revolution := none }
    if ended then
      let s := if conv then s.report (Isl.sv p) Ev.acqMapLearned [(p.val : Int), (l : Int), (revs : Int)]
        else s.report (Isl.sv p) Ev.acqMapNotConverged ([(p.val : Int), (l : Int)] ++ prms)
      s.nextMap p
    else s

/-- MAP_ADAPT_REVOLUTION (R115): a whole revolution has ended while following; the update has gain 2^-`MapTrackShift`, and a disturbed
revolution is skipped. -/
def execMapAdaptRevolution (p : PickupId) (s : State) : Out :=
  let k := s.pickups[p]
  let shift := s.obN Obj.mapTrackShift p
  s.when (s.svUp p && k.engine == .following && decide (shift ≠ 0) && k.layer.isSome && k.revolution.isSome) fun s =>
    let r := k.revolution.getD { bins := [], disturbed := true }
    let map := if r.disturbed then k.map else k.map.update r.bins (rnd (2 ^ 15) (2 ^ shift))
    s.updP p fun k => { k with
      maps := match k.layer with
        | some l => if h : l < 4 then upd k.maps ⟨l, h⟩ (fun _ => map) else k.maps
        | none => k.maps
      revolution := none }

/-! ### The lane address (R30, R31, R58, R109, R110, R122, R123, R131, R132) -/

/-- Fields of a LAW (R29). -/
def lawLayer (w : BitVec 32) : Nat := (w.extractLsb' 30 2).toNat
def lawSide (w : BitVec 32) : Nat := (w.extractLsb' 29 1).toNat
def lawLane (w : BitVec 32) : Nat := (w.extractLsb' 13 16).toNat
def lawAngle (w : BitVec 32) : Nat := (w.extractLsb' 5 8).toNat
def lawCheck (w : BitVec 32) : Nat := (w.extractLsb' 0 5).toNat

/-- Whether a LAW is good (R30). -/
def lawGood (w : BitVec 32) : Bool := decide (lawCheck w = lawCrc w) && decide (lawLane w < lanes)

/-- The position carried forward by one unit (R30, R31). A wrap on lane 43,749 counts on to 43,750 and beyond, which the manual does not say
(log entry 153). -/
def Pickup.carry (k : Pickup) : Pickup :=
  { k with angular := (k.angular + 1) % 256, lane := if k.angular = 255 then k.lane.map fun l => l + 1 else k.lane }

/-- A discarded LAW (R30): the position is carried forward while tracking is closed or held, the run of discards stops at 64 (R133), and in
following the sled is checked at AngularIndex 0 as with a good LAW (R132). -/
def State.lawDiscarded (s : State) (p : PickupId) : State :=
  let k := s.pickups[p]
  let s := (s.updP p fun k => { k.carry with
    lane := if k.loops[ServoLoop.tracking.idx].mode == .opened then k.lane else k.carry.lane
    lawDiscardRun := min 64 (k.lawDiscardRun + 1) }).bump Obj.lawDiscardCount p 0
  if k.engine == .following && decide (k.carry.angular = 0) then s.recheckSled p (k.carry.lane.getD 0) else s

/-- The first good LAW shows the wrong side: both pickups of the spindle park (R109). -/
def State.wrongSide (s : State) (p : PickupId) (seen : Nat) : State :=
  let s := s.report (Isl.sv p) Ev.acqWrongSide [(p.val : Int), (p.side : Int), (seen : Int)]
  s.forEach [p, p.partner] fun s q => (s.park q .wrongSide).updP q fun k => { k with
    mountResult := .wrongSide, seq := if k.idle then .none else k.seq }

/-- The position takes a good LAW's values; the wobble counter is aligned (R58). -/
def Pickup.takeLaw (k : Pickup) (w : BitVec 32) : Pickup :=
  { k.setWobble (288 * (lawAngle w + 1) % 73728) 0 with
    lane := some (lawLane w), layer := some (lawLayer w), angular := lawAngle w, lawDiscardRun := 0, lastLaw := some w, wobbleSeen := true }

/-- A good LAW while a sequence runs or in a hold. The counter is aligned; while tracking is closed or held, the lane is carried forward
(R30, R31). -/
def Pickup.alignLaw (k : Pickup) (w : BitVec 32) : Pickup :=
  { k.setWobble (288 * (lawAngle w + 1) % 73728) 0 with
    lane := if k.loops[ServoLoop.tracking.idx].mode == .opened then k.lane else k.carry.lane
    lawDiscardRun := 0, angular := lawAngle w, lastLaw := some w, wobbleSeen := true }

/-- A good LAW ends what a layer jump held: skew and tilt leave hold (R116 step 7). -/
def State.arrayLeavesHold (s : State) (p : PickupId) : State :=
  if hasAny (s.pickups[p]).holdCause Hold.acquisitionRequest then
    (((s.unholdLoop p .skew).unholdLoop p .tilt).unholdLoop p .sledOuter).updP p fun k => { k with
      holdCause := k.holdCause &&& ~~~Hold.acquisitionRequest }
  else s

/-- The channels take the sets of the layer that a LAW shows, if they hold another layer's (R153). -/
def State.setsOfLayer (s : State) (p : PickupId) (layer : Nat) : State :=
  if (s.channels[p.beam 0]).setLayer = layer then s else s.switchSets p layer

/-- What a sequence does next at a good LAW on the layer it wanted, or on any layer when it was no jump that ended: a mount learns the
next map, a seek or recovery goes on toward its target. -/
def State.sequenceLaw (s : State) (p : PickupId) : State :=
  let k := s.pickups[p]
  match k.seq with
  | .mount =>
    if k.arrayLocked then s.nextMap p
    else
      ((s.closeLoop p .skew).closeLoop p .tilt).updP p fun k => { k with phase := .arrayAlign, lockRun := 0, stepFrom := s.time }
  | .seek => match k.target with | some t => (s.towardTarget p t).runQueued p | none => (s.follow p).runQueued p
  | .recovery => match k.recoveryTarget with | some t => s.towardTarget p t | none => s
  | _ => s

/-- The first good LAW after a capture, with its side right: sled rebase, then what the sequence does next. A jump that the LAW shows on
another layer waits for its failure (R117). A jump, or the focus recovery of one, that ends on the layer the jump was for has ended, and the
pickup follows until the next one starts (R116). -/
def State.firstLaw (s : State) (p : PickupId) (w : BitVec 32) : State :=
  let k := s.pickups[p]
  let s := (s.updP p fun k => { k.takeLaw w with firstLawDue := false }).rebaseSled p (lawLane w)
  let s := if k.loops[ServoLoop.sledOuter.idx].mode == .opened then s.closeLoop p .sledOuter else s
  if k.phase == .layerJump && decide (lawLayer w ≠ k.jumpTo) then s
  else
    let s := (s.arrayLeavesHold p).setsOfLayer p (lawLayer w)
    let s := if lawLayer w = k.jumpTo then s.updP p fun k => { k with jumpTries := 0 } else s
    let s := if k.phase == .layerJump then s.updP p fun k => { k with jumpStage := 0, phase := .idle, engine := .following } else s
    s.sequenceLaw p

/-- A good LAW while following is compared with the position carried forward (R122); at AngularIndex 0 the sled is checked. -/
def State.followLaw (s : State) (p : PickupId) (w : BitVec 32) : State :=
  let c := (s.pickups[p]).carry
  let s := s.updP p fun k => k.takeLaw w
  if c.layer ≠ some (lawLayer w) || lawSide w ≠ p.side then
    (s.updP p fun k => { k with layer := c.layer, lane := c.lane }).startRecovery p none
  else
    let s := if c.lane ≠ some (lawLane w) then
        ((s.updP p fun k => { k with disturbed := k.disturbed + 1 }).updS p fun x => { x with slipSincePass := true }).report (Isl.sv p) Ev.acqLaneSlip
          [(p.val : Int), (c.lane.getD 0 : Nat), (lawLane w : Int)]
          |>.updChannels p fun x => { x with pendingAcquire := true, wideWindow := true }
      else s
    if lawAngle w = 0 then s.recheckSled p (lawLane w) else s

/-- LAW_RECEIVED (R30, R58, R109, R122). -/
def execLawReceived (p : PickupId) (w : BitVec 32) (s : State) : Out :=
  let k := s.pickups[p]
  s.when (s.svUp p && !k.idle && k.seq != .park) fun s =>
    if !lawGood w then s.lawDiscarded p
    else
      let s := s.bump Obj.lawGoodCount p 0
      if k.firstLawDue then
        if lawSide w ≠ p.side then
          if k.mountResult == .mounting then s.wrongSide p (lawSide w) else s.startRecovery p none
        else s.firstLaw p w
      else if k.engine == .following then s.followLaw p w
      else s.updP p fun k => k.alignLaw w

/-- LAW_LOST (R123). -/
def execLawLost (p : PickupId) (s : State) : Out :=
  let k := s.pickups[p]
  s.when (s.svUp p && k.engine == .following && decide (s.obN Obj.lawMissLimit p ≤ k.lawDiscardRun)) fun s =>
    (s.report (Isl.sv p) Ev.acqLawLost [(p.val : Int)]).startRecovery p none

/-- ARRAY_LOCK (R110): |e_S| has stayed below 1/64 for 40 skew samples, so skew and tilt count as locked; the maps are learned next. -/
def execArrayLock (p : PickupId) (s : State) : Out :=
  s.when (s.svUp p && (s.pickups[p]).phase == .arrayAlign && decide (40 ≤ (s.pickups[p]).lockRun)) fun s => (s.updP p fun k => { k with arrayLocked := true }).nextMap p

/-- ARRAY_SLOW (R110): skew and tilt are not locked in the 10 ms between the bounds of steps 6 and 7 of R106; the mount continues. -/
def execArraySlow (p : PickupId) (s : State) : Out :=
  s.when (s.svUp p && (s.pickups[p]).phase == .arrayAlign && s.stepOver p (msTicks 10)) fun s =>
    ((s.updP p fun k => { k with arrayLocked := true }).report (Isl.sv p) Ev.acqArraySlow [(p.val : Int)]).nextMap p

/-! ### Seeks and jumps (R105, R116 to R121, R130) -/

/-- Whether a seek is refused with ObjectBusy (R105, R130). -/
def Pickup.seekBusy (k : Pickup) : Bool := k.idle || k.seq == .mount || k.seq == .park || k.mountResult == .mounting

/-- SEEK_REQUEST (R105, R118, R130): bits [17:16] layer, [15:0] lane. -/
def execSeekRequest (cl : Client) (p : PickupId) (v : Int) (s : State) : Out :=
  let k := s.pickups[p]
  let lane := v.toNat % 65536
  let t : Target := { layer := v.toNat / 65536 % 4, lane := lane }
  s.when (s.svUp p) fun s =>
    s.hostWriteOr cl Obj.seekRequest p 0 v (decide (lanes ≤ lane) || decide (2 ^ 18 ≤ v)) k.seekBusy
      (fun s => s.report (Isl.sv p) Ev.acqRequestIgnored [(p.val : Int)])
      fun s => if k.engine == .following && k.seq == .none then s.startSeek p t else s.updP p fun k => { k with queuedSeek := some t }

/-- LAYER_JUMP_START (R116 step 1): tracking, skew and tilt held, focus kicked toward the target layer; layers are numbered in the
order in which the approaching lens meets them, so a higher layer lies toward the disc, the negative direction of R65. -/
def execLayerJumpStart (p : PickupId) (s : State) : Out :=
  let k := s.pickups[p]
  s.when (s.svUp p && k.phase == .layerJump && decide (k.jumpStage = 0)) fun s =>
    let kick := q15 (s.ob Obj.jumpKick p) * (if k.layer.getD 0 < k.jumpTo then -1 else 1)
    let base := k.loops[ServoLoop.focus.idx].holdMean 0
    let s := s.updP p fun k =>
      let k := k.updLoop .tracking fun v => v.hold (v.holdMean 0)
      let k := k.updLoop .skew fun v => v.hold v.ufb
      let k := k.updLoop .tilt fun v => v.hold v.ufb
      { k.noteHeld with
        jumpStage := 1, jumpTries := k.jumpTries + 1, stepFrom := s.time, engine := .acquiring, mapDisturbed := true, feCross := 0
        holdCause := k.holdCause ||| Hold.acquisitionRequest }
    (s.updLoop p .focus fun v => { v with mode := .opened, holdUfb := base, seqOutput := base + kick }).idleChannels p

/-- JUMP_KICK_END (R116 step 2): `JumpKickTime` after the start of the jump. -/
def execJumpKickEnd (p : PickupId) (s : State) : Out :=
  let k := s.pickups[p]
  s.when (s.svUp p && k.phase == .layerJump && decide (k.jumpStage = 1) && s.stepOver p (usTicks (s.obN Obj.jumpKickTime p))) fun s =>
    (s.updP p fun k => { k with jumpStage := 2 }).updLoop p .focus fun v => { v with seqOutput := v.holdUfb }

/-- Whether FE has passed its extreme inside the S-curve of the jump's target, whose first half is negative for a lens that approaches the disc
(R107, R116 step 3). -/
def Pickup.feTurned (k : Pickup) : Bool :=
  if k.layer.getD 0 < k.jumpTo then decide (k.fePrev < 0 ∧ k.fePrev ≤ k.fe) else decide (0 < k.fePrev ∧ k.fe ≤ k.fePrev)

/-- JUMP_BRAKE (R116 step 3): at the extreme of FE inside the target S-curve, the opposite of the kick for `JumpBrakeTime`. -/
def execJumpBrake (p : PickupId) (s : State) : Out :=
  let k := s.pickups[p]
  s.when (s.svUp p && k.phase == .layerJump && decide (k.jumpStage = 2) && k.feTurned) fun s =>
    let brake := q15 (s.ob Obj.jumpKick p) * (if k.layer.getD 0 < k.jumpTo then 1 else -1)
    (s.updP p fun k => { k with jumpStage := 3, brakeUntil := some (s.time + usTicks (s.obN Obj.jumpBrakeTime p)) }).updLoop p .focus
      fun v => { v with seqOutput := v.holdUfb + brake }

/-- JUMP_FOCUS_CLOSE (R116 step 4): FE crosses zero after its extreme and focus closes; offset and map columns switch to the target layer. -/
def execJumpFocusClose (p : PickupId) (s : State) : Out :=
  let k := s.pickups[p]
  s.when (s.svUp p && k.phase == .layerJump && decide (k.jumpStage = 3)
      && decide (k.feCross = if k.layer.getD 0 < k.jumpTo then 1 else -1)) fun s =>
    (s.updP p fun k => { k with jumpStage := 4, layer := some k.jumpTo, brakeUntil := none, settleF := 0, stepFrom := s.time }).closeLoop p .focus

/-- Whether a jump attempt has failed (R117): focus has not closed by `JumpWindow` after the jump's start, a later step misses the share of the
bounds of R116 that is its own (1 ms to settle, 5 ms to capture, 1 ms for the LAW), or the LAW shows another layer. -/
def State.jumpLate (s : State) (p : PickupId) : Bool :=
  let k := s.pickups[p]
  if k.jumpStage ≤ 3 then s.stepOver p (usTicks (s.obN Obj.jumpWindow p))
  else if k.jumpStage = 4 then s.stepOver p (msTicks 1)
  else if k.jumpStage = 5 then s.stepOver p (msTicks 5)
  else !k.firstLawDue || s.stepOver p (msTicks 1)

/-- LAYER_JUMP_FAIL (R117): focus recovery as in rung 2 and a retry, or after `JumpAttempts` attempts recovery; in a recovery its attempt
ends. -/
def execLayerJumpFail (p : PickupId) (s : State) : Out :=
  let k := s.pickups[p]
  s.when (s.svUp p && k.phase == .layerJump && decide (1 ≤ k.jumpStage) && s.jumpLate p) fun s =>
    if s.obN Obj.jumpAttempts p ≤ k.jumpTries then
      (s.report (Isl.sv p) Ev.acqLayerJumpFail [(p.val : Int)]).startRecovery p none
    else
      (s.updP p fun k => { k with
        phase := .focusSearch, jumpStage := 0, brakeUntil := none, firstLawDue := false, sweeps := 0 }).recoverSweep p

/-- LONG_SEEK_SLED_STOP (R120): two milliseconds after the sled stopped, tracking is captured. -/
def execLongSeekSledStop (p : PickupId) (s : State) : Out :=
  let k := s.pickups[p]
  s.when (s.svUp p && k.phase == .longSeek && decide (k.jumpStage = 0) && (s.axes[p.sled]).mode != .moving
      && decide (msTicks 2 ≤ s.time - (s.axes[p.sled]).moveEndedAt)) fun s =>
    (s.startCapture p).updP p fun k => { k with jumpStage := 1 }

/-- SEEK_FAIL (R121): a short seek has not ended within `ShortSeekTimeout`, or a long pass within `LongSeekTimeout`. -/
def execSeekFail (p : PickupId) (s : State) : Out :=
  let k := s.pickups[p]
  let age := s.time - k.passFrom
  s.when (s.svUp p && (k.seq == .seek || k.seq == .recovery)
      && ((k.phase == .shortSeek && decide (msTicks (s.obN Obj.shortSeekTimeout p) ≤ age))
        || (k.phase == .longSeek && decide (msTicks (s.obN Obj.longSeekTimeout p) ≤ age)))) fun s => s.seekFails p

/-! ### Recovery and park (R127, R128) -/

/-- Whether a recovery stands on its target with tracking closed. -/
def Pickup.recovered (k : Pickup) : Bool :=
  k.loops[ServoLoop.tracking.idx].mode == .closed
    && match k.recoveryTarget with
      | some t => k.lane == some t.lane && k.layer == some t.layer
      | none => k.lane.isSome

/-- Tracking periods within which an attempt of recovery must end: 150 ms and the bounds of R121 on a seek. -/
def State.attemptBound (s : State) (p : PickupId) : Nat :=
  msTicks (150 + 3 * s.obN Obj.shortSeekTimeout p + s.obN Obj.longSeekPasses p * s.obN Obj.longSeekTimeout p)

/-- RECOVERY_ATTEMPT_END (R127): on its target a recovery has succeeded, and an interrupted mount goes on; elsewhere the attempt has failed at its
bound, and the next one follows, or park after `RecoveryAttempts`. -/
def execRecoveryAttemptEnd (p : PickupId) (s : State) : Out :=
  let k := s.pickups[p]
  s.when (s.svUp p && k.seq == .recovery && (k.recovered || decide (s.attemptBound p ≤ s.time - k.attemptFrom))) fun s =>
    if k.recovered then
      let s := s.report (Isl.sv p) Ev.acqRecovered [(p.val : Int), (k.rung : Int), (s.msSince k.recoveryStart : Nat)]
      let s := s.forEach [.skew, .tilt, .sledOuter] fun s l => s.unholdLoop p l
      if k.mountResult == .mounting then
        (s.updP p fun k => { k with seq := .mount, arrayLocked := true, holdCause := 0, heldTarget := none }).nextMap p
      else ((s.follow p).runQueued p).readNext p
    else s.attemptFails p

/-- PARK_REQUEST (R105, R128, R130): no effect in Off and Parked. -/
def execParkRequest (cl : Client) (p : PickupId) (v : Int) (s : State) : Out :=
  s.when (s.svUp p) fun s => s.hostWrite cl Obj.parkRequest p 0 v false false fun s => s.park p .request

/-- Whether the outputs of a park stand where it ramps them (R128). -/
def Pickup.ramped (k : Pickup) : Bool :=
  [ServoLoop.focus, .tracking, .skew, .tilt].all fun l => k.loops[l.idx].u == k.loops[l.idx].seqOutput

/-- PARK_COMPLETE (R128): the ramps have ended, which they do within 1 ms. -/
def execParkComplete (p : PickupId) (s : State) : Out :=
  s.when (s.svUp p && (s.pickups[p]).seq == .park && ((s.pickups[p]).ramped || s.stepOver p (msTicks 1))) fun s => (s.parked p).remountIdle

end Sys2Proof.Machine
end

