-- ==== Sys2Proof/Machine/Package.lean ====
section
/-! DEFINITION. The board side of the VP6480 (chapter 15): the ball map of R534 to R537, the internal pulls of R543, the levels that outputs
take while their island does not run (R541), and the dissipation limits of R553. -/

namespace Sys2Proof.Machine

/-! ### Ball grid (R534, R535) -/

/-- Letters of the 39 ball rows, index 0 to 38 (R534). -/
def ballRows : List String :=
  ["A", "B", "C", "D", "E", "F", "G", "H", "J", "K", "L", "M", "N", "P", "T", "U", "V", "W", "Y"] ++
  ["AA", "AB", "AC", "AD", "AE", "AF", "AG", "AH", "AJ", "AK", "AL", "AM", "AN", "AP", "AT", "AU", "AV", "AW", "AY", "BA"]

/-- A ball: row index 0 to 38 and column 1 to 39. -/
structure Ball where
  /-- Row index. -/
  row : Nat
  /-- Column. -/
  col : Nat
deriving DecidableEq, Repr

/-- Name of a ball. -/
def Ball.name (b : Ball) : String := ballRows.getD b.row "" ++ toString b.col

/-- Signal bands (R535). -/
inductive Band where
  | top | left | right | bottom
deriving DecidableEq, Repr

/-- Number of balls of a band. -/
def Band.size : Band → Nat
  | .top => 234 | .bottom => 234 | .left => 162 | .right => 162

/-- Ball of an entry of a band, in the band's scan order (R535). -/
def Band.ball (b : Band) (entry : Nat) : Ball := match b with
  | .top => { row := entry % 6, col := entry / 6 + 1 }
  | .left => { row := 6 + entry / 6, col := entry % 6 + 1 }
  | .right => { row := 6 + entry / 6, col := 34 + entry % 6 }
  | .bottom => { row := 33 + entry % 6, col := entry / 6 + 1 }

/-! ### Port groups (R536) -/

/-- Groups of external ports in the order of the table. -/
inductive PortGroup where
  | beamRf | photodetector | auxAxis | canFd | rgmii | norFlash | debug | system
  | laserDriver
  | lpddr5 | spindle
  | actuator | sled | pcieLane
deriving DecidableEq, Repr

/-- Groups of a band in table order, with instances, signals of an instance and signals placed once after the last instance. -/
def Band.groups : Band → List (PortGroup × Nat × Nat × Nat)
  | .top => [(.beamRf, 32, 2, 0), (.photodetector, 8, 6, 0), (.auxAxis, 4, 15, 11), (.canFd, 2, 3, 0), (.rgmii, 1, 15, 0),
             (.norFlash, 1, 6, 0), (.debug, 1, 6, 0), (.system, 1, 14, 0)]
  | .left => [(.laserDriver, 8, 20, 0)]
  | .right => [(.lpddr5, 2, 38, 1), (.spindle, 4, 19, 0)]
  | .bottom => [(.actuator, 8, 8, 0), (.sled, 8, 13, 0), (.pcieLane, 16, 4, 0)]

/-- Band of a group. -/
def PortGroup.band : PortGroup → Band
  | .laserDriver => .left
  | .lpddr5 => .right | .spindle => .right
  | .actuator => .bottom | .sled => .bottom | .pcieLane => .bottom
  | _ => .top

/-- Entry of the first ball of a group, with its signals per instance. -/
def groupBase (g : PortGroup) : List (PortGroup × Nat × Nat × Nat) → Nat → Option (Nat × Nat)
  | [], _ => none
  | (h, n, k, extra) :: rest, base => if h = g then some (base, k) else groupBase g rest (base + n * k + extra)

/-- Ball of a signal: group, instance, position in the order of the signals (R536); the signals placed once follow the last instance. -/
def signalBall (g : PortGroup) (inst signal : Nat) : Option Ball :=
  (groupBase g g.band.groups 0).map fun b => g.band.ball (b.1 + inst * b.2 + signal)

/-! ### Supply core (R537) -/

/-- Supplies (R539). -/
inductive Supply where
  | vdd | vdda | vio | vio33 | vddv | vss
deriving DecidableEq, Repr

/-- Supply of a ball of the core: rows G to AP, columns 7 to 33. -/
def coreSupply (b : Ball) : Supply :=
  if (b.row + b.col) % 2 = 1 then .vss
  else if b.row = 6 then .vio33
  else if b.row ≤ 8 then .vio
  else if b.row ≤ 12 then .vdda
  else if b.row ≤ 30 then .vdd
  else if b.row = 31 then .vdda
  else if b.col = 8 ∨ b.col = 10 then .vddv
  else .vio

/-- Limits of a supply in mV, and its largest current in mA (R539). -/
def Supply.limits : Supply → Nat × Nat × Nat
  | .vdd => (728, 773, 15500)
  | .vdda => (1164, 1236, 2500)
  | .vio => (1710, 1890, 800)
  | .vio33 => (3135, 3465, 200)
  | .vddv => (1710, 1890, 3)
  | .vss => (0, 0, 0)

/-! ### Levels at the balls (R541, R543) -/

/-- What an output drives. -/
inductive PadLevel where
  | low | high | differentialLow | commonMode
deriving DecidableEq, Repr

/-- Outputs by the state that they take while their island does not run. -/
inductive OutputKind where
  | motor33 | lvdsGate | actuatorDac | chipSelect
deriving DecidableEq, Repr

/-- Level of an output whose island does not run or is in reset (R541): 3.3 V outputs low, gates differential low, actuators at their common
mode, NOR_CS_N and LDp_CS_N high. -/
def OutputKind.idleLevel : OutputKind → PadLevel
  | .motor33 => .low | .lvdsGate => .differentialLow | .actuatorDac => .commonMode | .chipSelect => .high

/-- Level of an input that nothing drives (R543): pull-down on fault, home, limit, encoder inputs and TEST_EN, pull-up on SYS_RST_N,
VG_WAKE_N and the JTAG inputs. -/
inductive InputKind where
  | fault | home | limit | encoder | testEn | sysReset | vergeWake | jtag
deriving DecidableEq, Repr

/-- Level of an open input: true is high. -/
def InputKind.openLevel : InputKind → Bool
  | .sysReset => true | .vergeWake => true | .jtag => true | _ => false

/-- SPs_EN of a spindle: low unless its island runs and enables the driver (R250, R283, R541). -/
def State.spindleEnable (s : State) (i : SpindleId) : Bool := s.mtUp i && (s.spindles[i]).enabled

/-- SPs_BRK of a spindle (R250, R272). -/
def State.spindleBrake (s : State) (i : SpindleId) : Bool := s.mtUp i && (s.spindles[i]).chopper

/-- Gate commands of a phase, high side and low side, a number of nanoseconds after its pattern began (R250, R252, R541). -/
def State.spindleGates (s : State) (i : SpindleId) (phase : Fin 3) (ns : Int) : Bool × Bool :=
  if s.mtUp i then ((s.spindles[i]).legs[phase]).level ns else (false, false)

/-- DBG_MILESTONE is pulled low for 100 ns from T0 of a capture that drives the ball (R489). -/
def State.milestoneBallLow (s : State) : Bool := s.running && s.milestone.ballDriven && s.milestone.t0N == s.gridN

/-! ### Dissipation (R553) -/

/-- Largest dissipation in 0.01 W by variant and power state. -/
def maxPower (v : Variant) (ps : Fin 4) : Nat := match ps, v with
  | 0, .s => 900 | 0, .d => 1150 | 0, .q => 1700
  | 1, .s => 680 | 1, .d => 850 | 1, .q => 1250
  | 2, _ => 450
  | _, _ => 1

end Sys2Proof.Machine
end

