-- ==== Sys2Proof/Machine/RecOps.lean ====
section
/-! DEFINITION. Verge tick, time of day, sequence numbers and the lease of the recorder (R469, R482, R509, R510). -/

namespace Sys2Proof.Machine

/-- Cycles of the 32.768 kHz oscillator since the counter stood at 0: 64 cycles are 3,125 tracking periods. -/
def State.vergeCount (s : State) : Nat := (s.time - s.verge.since) * 64 / 3125

/-- `VergeTick` (R509). -/
def State.tick (s : State) : Nat := s.verge.base + s.vergeCount

/-- `TimeOfDay` in ms (R510). -/
def State.timeOfDay (s : State) : Int := (s.tick * 1000 / 32768 : Nat) + s.verge.offset

/-- The current header is written anew with a change; Generation rises by 1 and OriginCount follows the origin area (R481). A
Foreign store gets none, and a power-fail flush writes none (R485). -/
def State.writeHeader (s : State) (f : StoreHeader → StoreHeader) : State :=
  if s.recorder.storeForeign || s.recorder.flush.any (fun x => x.cause == .powerFail) then s
  else s.updR fun r => { r with header := r.header.map fun h =>
    { f h with generation := h.generation + 1, originCount := r.origin.length } }

/-- The lease end is raised when the next number comes within 16,384 of it (R482). -/
def State.renewLease (s : State) : State :=
  if s.recorder.leaseEnd ≤ s.recorder.nextSeq + 16384 then
    let e := s.recorder.leaseEnd + 65536
    let s := s.updR fun r => { r with leaseEnd := e }
    { s with verge := { s.verge with leaseKept := e } }.writeHeader fun h => { h with leaseEnd := e }
  else s

/-- The next n sequence numbers are taken or reserved (R469, R472); they begin at `s.recorder.nextSeq`. -/
def State.takeSeq (s : State) (n : Nat) : State :=
  (s.updR fun r => { r with nextSeq := r.nextSeq + n }).renewLease

end Sys2Proof.Machine
end

