-- ==== Sys2Proof/Machine/RecorderOps.lean ====
section
/-! DEFINITION. Shared operations of the event recorder: rate policy and buckets, acceptance of records, the backlog with its
freezes and drops, and flushes (R468 to R486). -/

namespace Sys2Proof.Machine

/-! ### Rate policy (R473 to R475) -/

/-- Whether a policy entry is valid and matches a code. -/
def policyMatches (w code : Nat) : Bool :=
  w.testBit 0 && decide (Nat.land code (w / 2 ^ 32 % 2 ^ 16) = w / 2 ^ 48)

/-- The first valid entry of `RatePolicy` that matches a code. -/
def State.policy (s : State) (code : Nat) : Option Nat :=
  ((List.range 64).map fun k => s.obN Obj.ratePolicy 0 k).find? fun w => policyMatches w code

/-- Tokens per second of an entry. -/
def policyRate (w : Nat) : Nat := w / 2 ^ 16 % 2 ^ 16
/-- Bucket size of an entry. -/
def policyDepth (w : Nat) : Nat := w / 2 ^ 8 % 2 ^ 8
/-- Milestone of an entry. -/
def policyMilestone (w : Nat) : Bool := w.testBit 3
/-- Fault of an entry. -/
def policyFault (w : Nat) : Bool := w.testBit 2
/-- Exempt of an entry. -/
def policyExempt (w : Nat) : Bool := w.testBit 1

/-- One token in the unit of the buckets: 1/1,600,000, so that Rate is the refill of one tracking period. -/
def tokenUnit : Nat := 1600000

/-- Level of a code's bucket now; a bucket starts full. -/
def State.tokens (s : State) (code w : Nat) : Nat :=
  let cap := policyDepth w * tokenUnit
  match s.recorder.buckets.find? fun b => b.code == code with
  | some b => min cap (b.level + policyRate w * (s.time - b.since))
  | none => cap

/-- A code's bucket takes a level. -/
def State.setTokens (s : State) (code level : Nat) : State :=
  s.updR fun r => { r with
    buckets := (r.buckets.filter fun b => b.code != code) ++ [{ code := code, level := level, since := s.time }] }

/-- Before a `RatePolicy` entry changes, every bucket takes the tokens that the entries in force have given it (R473, R475). -/
def State.settleBuckets (s : State) (r : Row) : State :=
  if r == Obj.ratePolicy then
    s.updR fun x => { x with buckets := x.buckets.map fun b => match s.policy b.code with
      | some w => { b with level := s.tokens b.code w, since := s.time }
      | none => b }
  else s

/-! ### The backlog (R483, R484) -/

/-- Records of the origin area. -/
def originSize : Nat := 4096
/-- Whether the origin area still takes records. -/
def Recorder.originOpen (r : Recorder) : Bool := decide (r.origin.length < originSize)
/-- `BacklogLimit`. -/
def Recorder.limit (r : Recorder) : Nat := if r.originOpen then 84 else 168
/-- Records of the event buffer. -/
def bufferSize : Nat := 8192

/-- The last n entries of a list. -/
def lastN {α : Type} (n : Nat) (l : List α) : List α := l.drop (l.length - n)

/-- List without its first entry that meets a condition. -/
def dropFirst {α : Type} (f : α → Bool) : List α → List α
  | [] => []
  | a :: l => if f a then l else a :: dropFirst f l

/-- Whether an entry may be dropped: neither Frozen nor in the page being programmed. -/
def BacklogEntry.loose (e : BacklogEntry) : Bool := !e.record.frozen && !e.inPage

/-- A dropped record is counted in the EV_REC_NOR_GAP summary, which reserves its two numbers at the first loss (R472, R484). -/
def State.countGap (s : State) (seq : Nat) : State :=
  let s := s.bump Obj.norGapRecords 0 0
  match s.recorder.gapFirst with
  | some _ => s.updR fun r => { r with gapLast := seq, gapCount := r.gapCount + 1 }
  | none =>
    let n := s.recorder.nextSeq
    (s.takeSeq 2).updR fun r => { r with gapFirst := some (n, seq), gapLast := seq, gapCount := 1 }

/-- A full backlog makes room: its oldest loose record is dropped. -/
def State.makeRoom (s : State) : State :=
  if s.recorder.backlog.length < s.recorder.limit then s
  else match s.recorder.backlog.find? BacklogEntry.loose with
  | some e => (s.updR fun r => { r with backlog := dropFirst BacklogEntry.loose r.backlog }).countGap e.record.seq
  | none => s

/-- Records of the origin area with those that wait for it. -/
def Recorder.originTaken (r : Recorder) : Nat := r.origin.length + (r.backlog.filter fun e => e.toOrigin).length

/-- A record enters the event buffer. -/
def State.buffered (s : State) (rec_ : Record) : State :=
  s.updR fun r => { r with buffer := lastN bufferSize (r.buffer ++ [rec_]), ringCount := r.ringCount + 1 }

/-- A record is accepted: it enters the ring, and the backlog unless the store is Foreign (R483, R484, R488). -/
def State.acceptRecord (s : State) (rec_ : Record) : State :=
  let frozen := decide (0 < s.recorder.freezeLeft)
  let rec_ := { rec_ with frozen := frozen }
  let s := (s.buffered rec_).updR fun r => { r with freezeLeft := r.freezeLeft - 1 }
  if s.recorder.storeForeign then s
  else
    let s := s.makeRoom
    s.updR fun r => { r with backlog := r.backlog ++
      [{ record := rec_, toOrigin := decide (r.originTaken < originSize), inPage := false }] }

/-- A milestone freezes the records around it, with halved numbers while the origin area is open (R484). -/
def State.freeze (s : State) : State :=
  let r := s.recorder
  if r.backlog.any (fun e => e.record.frozen) then s
  else
    let half (n : Nat) : Nat := if r.originOpen then n / 2 else n
    let seqs := (lastN (half (s.obN Obj.freezeBefore)) r.buffer).map fun x => x.seq
    let mark (x : Record) : Record := if seqs.contains x.seq then { x with frozen := true } else x
    s.updR fun r => { r with
      buffer := r.buffer.map mark, backlog := r.backlog.map fun e => { e with record := mark e.record }
      freezeLeft := half (s.obN Obj.freezeAfter) }

/-! ### Flushes (R479, R485, R486) -/

/-- Numbers of the causes in the order of R501. -/
def FlushCause.code : FlushCause → Int
  | .fault => 0 | .request => 1 | .powerFail => 2 | .powerState => 3 | .reset => 4

/-- A flush starts, or extends the one that runs. Its EV_REC_FLUSH takes its number now and is held back; a Foreign store gets
nothing. A power-fail flush programs at most 24 pages. -/
def State.startFlush (s : State) (cause : FlushCause) : State :=
  if !s.recorder.running then s
  else match s.recorder.flush.filter (fun f => !f.written || s.recorder.storeForeign) with
  | some f =>
    let f := { f with
      cause := if f.cause = .powerFail then .powerFail else cause
      pagesLeft := if cause = .powerFail && f.pagesLeft.isNone then some 24 else f.pagesLeft }
    s.updR fun r => { r with flush := some f, eraseSuspended := r.clearing.isSome }
  | none =>
    let n := s.recorder.nextSeq
    let s := s.takeSeq 1
    let rec_ : Record := { seq := n, code := Ev.recFlush, source := Isl.mem.val, continued := false, summary := false,
                           frozen := false, payload := [cause.code, 0] }
    (s.buffered rec_).updR fun r => { r with
      flush := some { cause := cause, number := n, dropped := 0, pagesLeft := if cause = .powerFail then some 24 else none,
                      written := r.storeForeign, startedAt := s.time }
      norState := if r.norState = .ready || r.norState = .clearing then .flushing else r.norState
      eraseSuspended := r.clearing.isSome }

/-! ### Acceptance of reports and of the recorder's own records -/

/-- Whether a code matches the code-match trigger of R489. -/
def State.codeMatches (s : State) (code : Nat) : Bool :=
  let m := s.obN Obj.milestoneMatchMask
  decide (m ≠ 0) && decide (Nat.land code m = s.obN Obj.milestoneMatchCode) && code != Ev.recMilestone

/-- The code-match trigger. -/
def State.matchTrigger (s : State) (code : Nat) : State := if s.codeMatches code then s.trigger 3 code else s

/-- What a policy entry adds to an accepted record: a milestone, a fault flush. -/
def State.attributes (s : State) (w : Option Nat) : State :=
  match w with
  | none => s
  | some w =>
    let s := if policyMilestone w then s.trigger 1 0 else s
    if policyFault w then s.startFlush .fault else s

/-- The recorder accepts a record of its own with the number `n`; every code of 0x0Dxx is Exempt by entry 0 of R476. -/
def State.ownRecord (s : State) (src : IslandId) (n code : Nat) (continued summary : Bool) (payload : List Int) : State :=
  ((s.matchTrigger code).acceptRecord
    { seq := n, code := code, source := src.val, continued := continued, summary := summary, frozen := false, payload := payload })

/-- The same with the next number. -/
def State.ownNext (s : State) (code : Nat) (payload : List Int) : State :=
  let n := s.recorder.nextSeq
  (s.takeSeq 1).ownRecord Isl.mem n code false false payload

/-- The pair of a record and its Continued record, with the next two numbers (R468). -/
def State.ownPair (s : State) (code : Nat) (first second : List Int) : State :=
  let n := s.recorder.nextSeq
  let s := (s.takeSeq 2).ownRecord Isl.mem n code true false first
  s.ownRecord Isl.mem (n + 1) code false false second

/-- EV_REC_TIME_SET pair (R477): old and new time of day at one Verge tick, then the tick, the setter and Regression. -/
def State.recordTimeSet (s : State) (old new : Int) (setter : Nat) : State :=
  s.ownPair Ev.recTimeSet [old, new] [(s.tick : Int), (setter : Int), if new < old then 1 else 0]

/-- The time of day is set: the offset, the record pair, and `VergePowerLost` cleared (R510). -/
def State.setTimeOfDay (s : State) (v : Int) (setter : Nat) : State :=
  let old := s.timeOfDay
  let s := { s with verge := { s.verge with
    offset := v - (s.tick * 1000 / 32768 : Nat), powerLost := false } }
  s.recordTimeSet old v setter

end Sys2Proof.Machine
end

