-- ==== Sys2Proof/Machine/MemOps.lean ====
section
/-! DEFINITION. The memories: the word code, stored words, the merge buffer, the tracker with write-back and retirement, the cache and
lay-by, and the on-ramps (R403 to R435). -/

namespace Sys2Proof.Machine

/-! ### The word code (R406 to R408) -/

/-- Columns of the data bits. -/
def dataColumns : List Nat := [
  0x07, 0x0B, 0x0D, 0x0E, 0x13, 0x15, 0x16, 0x19, 0x1A, 0x1C, 0x23, 0x25, 0x26, 0x29, 0x2A, 0x2C,
  0x31, 0x32, 0x34, 0x38, 0x43, 0x45, 0x46, 0x49, 0x4A, 0x4C, 0x51, 0x52, 0x54, 0x58, 0x61, 0x62,
  0x64, 0x68, 0x70, 0x83, 0x85, 0x86, 0x89, 0x8A, 0x8C, 0x91, 0x92, 0x94, 0x98, 0xA1, 0xA2, 0xA4,
  0xA8, 0xB0, 0xC1, 0xC2, 0xC4, 0xC8, 0xD0, 0xE0, 0x1F, 0x2F, 0x4F, 0x8F, 0xF1, 0xF2, 0xF4, 0xF8]

/-- Columns of the folded address bits. -/
def addressColumns : List Nat := [
  0x03, 0x05, 0x09, 0x11, 0x21, 0x41, 0x81, 0x0F, 0x17, 0x1B, 0x1D, 0x27, 0x2B, 0x2D, 0x33, 0x35, 0x39, 0x47, 0x4B, 0x4D, 0x53]

/-- XOR of the columns of the set bits of a number, from bit `i` on. -/
def xorColumns (v : Nat) : Nat → List Nat → Nat
  | _, [] => 0
  | i, c :: l => Nat.xor (if v.testBit i then c else 0) (xorColumns v (i + 1) l)

/-- Check bits of a data word at a folded address. -/
def checkBits (data : Word64) (f : Nat) : Byte :=
  BitVec.ofNat 8 (Nat.xor (xorColumns data.toNat 0 dataColumns) (xorColumns f 0 addressColumns))

/-- Folded address of a word of shared SRAM or of the LPDDR5 (R407). -/
def foldOf (ddr : Bool) (word : Nat) : Nat :=
  if ddr then Nat.xor (word % 2 ^ 21) (word / 2 ^ 21 % 2 ^ 9) else word % 2 ^ 21

/-- A word encoded for its address. -/
def encodeWord (ddr : Bool) (word : Nat) (data : Word64) : Cell := { data := data, check := checkBits data (foldOf ddr word) }

/-- A word stored so that it reads Poisoned. -/
def poisonWord (ddr : Bool) (word : Nat) (data : Word64) : Cell :=
  { data := data, check := checkBits data (foldOf ddr word) ^^^ 0xFF#8 }

/-- Classes of R408. -/
inductive WordClass where
  | clean | correctedData (bit : Nat) | correctedCheck | uncorrectable | poisoned
deriving DecidableEq, Repr

/-- Class of a syndrome. -/
def classify (syn : Byte) : WordClass :=
  if syn = 0 then .clean
  else if syn = 0xFF#8 then .poisoned
  else match dataColumns.findIdx? (· == syn.toNat) with
  | some b => .correctedData b
  | none => if (List.range 8).any (fun i => syn.toNat == 2 ^ i) then .correctedCheck else .uncorrectable

/-- Numbers of `SplitClass`. -/
def WordClass.code : WordClass → Nat
  | .clean => 0 | .correctedData _ => 1 | .correctedCheck => 2 | .uncorrectable => 3 | .poisoned => 4

/-- Whether a word of the class is corrected. -/
def WordClass.corrected : WordClass → Bool
  | .correctedData _ => true | .correctedCheck => true | _ => false
/-- Whether a word of the class is lost. -/
def WordClass.lost : WordClass → Bool
  | .uncorrectable => true | .poisoned => true | _ => false

/-- Syndrome of a stored word read at an address. -/
def Cell.syndrome (c : Cell) (f : Nat) : Byte := c.check ^^^ checkBits c.data f

/-- Data of a stored word after correction. -/
def Cell.corrected (c : Cell) (f : Nat) : Word64 :=
  match classify (c.syndrome f) with
  | .correctedData b => c.data ^^^ BitVec.ofNat 64 (2 ^ b)
  | _ => c.data

/-! ### Stored words (R403, R405, R414) -/

/-- Words of shared SRAM. -/
def sramWords : Nat := 2 ^ 21
/-- First word and end of the test window (R404). -/
def windowFrom : Nat := 0x00FFFC00 / 8
/-- Whether a word of shared SRAM lies in the test window. -/
def inWindow (word : Nat) : Bool := decide (windowFrom ≤ word ∧ word < sramWords)
/-- Whether a usable byte address of the LPDDR5 exists: 1,792 MiB with the least memory, 7 GiB with the most, what the board fits
in between. -/
def ddrExists (byte : Nat) : Bool :=
  decide (byte < 0x70000000) || (decide (byte < 0x1C0000000) && decide (byte < Config.perDevice 3))

/-- What a word of shared SRAM holds that nothing has written since level 1 (R410, R414). -/
def sramBackground : Cell := { data := 0x5555555555555555#64, check := 0x55#8 }
/-- What a word of the LPDDR5 holds that nothing has written: the manual gives no value, zeros are the model's. -/
def ddrBackground (word : Nat) : Cell := encodeWord true word 0

/-- The stored word of a memory. -/
def Mem.cell (m : Mem) (ddr : Bool) (word : Nat) : Cell :=
  if ddr then Sparse.get (ddrBackground word) m.ddr word else Sparse.get sramBackground m.sram word

/-- The memory with a stored word. -/
def Mem.store (m : Mem) (ddr : Bool) (word : Nat) (c : Cell) : Mem :=
  if ddr then { m with ddr := Sparse.put (ddrBackground word) m.ddr word c }
  else { m with sram := Sparse.put sramBackground m.sram word c }

/-- Address as the objects and events give it: the memory in bits [63:60], the byte address below (R437). -/
def memAddress (ddr : Bool) (byte : Nat) : Int := ((if ddr then 8 * 2 ^ 60 else 0) + byte : Nat)

/-! ### The merge buffer (R415 to R417) -/

/-- Entries of the merge buffer. -/
def mergeDepth : Nat := 32

/-- Byte of an entry at an offset in its span. -/
def MergeEntry.byte? (e : MergeEntry) (i : Nat) : Option Byte := Sparse.find i e.bytes

/-- A word with an entry's valid bytes over the old ones; byte j of the word lies at offset 8w + j of the span. -/
def MergeEntry.merged (e : MergeEntry) (w : Nat) (old : Word64) : Word64 :=
  (List.range 8).foldl (fun (acc : Word64) j =>
    match e.byte? (8 * w + j) with
    | some b => (acc &&& ~~~ (0xFF#64 <<< (8 * j))) ||| (b.setWidth 64 <<< (8 * j))
    | none => acc) old

/-- Valid bytes of a word of the span. -/
def MergeEntry.valid (e : MergeEntry) (w : Nat) : Nat := ((List.range 8).filter fun j => (e.byte? (8 * w + j)).isSome).length

/-- A word of an entry drains: whole words are encoded, any other is read, corrected, merged and encoded again; over a lost word it is
stored Poisoned (R416). -/
def State.drainWord (s : State) (e : MergeEntry) (w : Nat) : State :=
  let word := 8 * e.span + w
  match e.valid w with
  | 0 => s
  | 8 => s.updMem fun m => m.store e.ddr word (encodeWord e.ddr word (e.merged w 0))
  | _ =>
    let old := s.mem.cell e.ddr word
    let f := foldOf e.ddr word
    let s := s.bump Obj.mergeReadModifyWrites 0 0
    if (classify (old.syndrome f)).lost then
      ((s.updMem fun m => m.store e.ddr word (poisonWord e.ddr word (e.merged w old.data))).bump Obj.mergePoisoned 0 0).report Isl.mem
        Ev.memMergePoison [memAddress e.ddr (8 * word)]
    else s.updMem fun m => m.store e.ddr word (encodeWord e.ddr word (e.merged w (old.corrected f)))

/-- Whether a byte address lies in the write buffers of R405. -/
def inWriteBuffers (byte : Nat) : Bool := decide (0x10000000 ≤ byte ∧ byte < 0x50000000)

/-- Zero bytes of a line as an entry of the merge buffer. -/
def MergeEntry.zeros (line now : Nat) : MergeEntry :=
  { ddr := true, span := line, bytes := (List.range 64).map fun j => (j, 0#8), since := now }

/-- EV_MEM_CACHE_DISABLED: the buffer is empty and every line goes (R427). Maintenance that waits completes without an effect on the
cache: the zeros of Zero a line enter the buffer (R429). -/
def State.endDisable (s : State) : State :=
  if s.mem.cacheDisabling && s.mem.merge == [] then
    let lines := ((s.mem.waitingMaintenance.filter fun x => x.op == 7 && inWriteBuffers x.address).map fun x => x.address / 64).eraseDups
    (s.updMem fun m => { m with
      cacheOn := false, cacheDisabling := false, cache := [], layby := [], waitingMaintenance := []
      merge := (lines.take mergeDepth).map fun l => MergeEntry.zeros l s.time
      tracker := m.tracker.filter fun t => !(t.ddr && lines.contains (t.word / 8)) }).report Isl.mem Ev.memCacheDisabled []
  else s

/-- An entry drains. -/
def State.drain (s : State) (ddr : Bool) (span : Nat) : State :=
  match s.mem.merge.find? fun e => e.ddr == ddr && e.span == span with
  | none => s
  | some e =>
    let s := s.updMem fun m => { m with merge := m.merge.filter fun x => !(x.ddr == ddr && x.span == span) }
    (s.forEach (List.range 8) fun s w => s.drainWord e w).endDisable

/-- Every entry drains, the oldest first. -/
def State.drainAll (s : State) : State := s.forEach s.mem.merge fun s e => s.drain e.ddr e.span

/-- A write enters the merge buffer: tracked words it touches clear, lay-by copies go, and with no entry free it waits while the oldest
drains (R415, R419, R424). -/
def State.mergeWrite (s : State) (ddr : Bool) (span : Nat) (bytes : List (Nat × Byte)) : State :=
  let touched := (bytes.map fun b => 8 * span + b.1 / 8).eraseDups
  let s := s.updMem fun m => { m with
    tracker := m.tracker.filter fun t => !(t.ddr == ddr && touched.contains t.word)
    layby := if ddr then m.layby.filter fun l => l != span else m.layby }
  let put (old : List (Nat × Byte)) : List (Nat × Byte) := bytes.foldl (fun l b => Sparse.insert b.1 b.2 l) old
  if s.mem.merge.any fun e => e.ddr == ddr && e.span == span then
    s.updMem fun m => { m with merge := m.merge.map fun e =>
      if e.ddr = ddr ∧ e.span = span then { e with bytes := put e.bytes } else e }
  else
    let s := if s.mem.merge.length < mergeDepth then s
      else match s.mem.merge with
        | e :: _ => s.drain e.ddr e.span
        | [] => s
    s.updMem fun m => { m with merge := m.merge ++ [{ ddr := ddr, span := span, bytes := put [], since := s.time }] }

/-- Bytes of a word, byte 0 in bits [7:0]. -/
def wordBytes (d : Word64) : List Byte := (List.range 8).map fun j => d.extractLsb' (8 * j) 8

/-- A whole word is written through the merge buffer. -/
def State.writeWord (s : State) (ddr : Bool) (word : Nat) (d : Word64) : State :=
  s.mergeWrite ddr (word / 8) ((wordBytes d).mapIdx fun j b => (8 * (word % 8) + j, b))

/-! ### Tracker and retirement (R419 to R421) -/

/-- Bank, row and word within the row of a word of shared SRAM (R403). -/
def bankOf (word : Nat) : Nat := word / 2 ^ 17
/-- Row. -/
def rowOf (word : Nat) : Nat := word / 128 % 1024

/-- Lowest usable spare row of a bank. -/
def Mem.spareRow (m : Mem) (bank : Nat) : Option Nat :=
  (List.range 16).find? fun x =>
    !(m.retired.any fun r => r.1 == bank && r.2.2 == x) && !(m.badSpares.any fun b => b.1 == bank && b.2 == x)

/-- The copy of a row to its spare: every word corrected, a lost one left lost (R421). -/
def Mem.copyRow (m : Mem) (bank row : Nat) : Mem :=
  (List.range 128).foldl (fun m i =>
    let word := bank * 2 ^ 17 + row * 128 + i
    match Sparse.find word m.sram with
    | none => m
    | some c =>
      let cls := classify (c.syndrome (foldOf false word))
      if cls.lost then m.store false word (poisonWord false word c.data)
      else if cls.corrected then m.store false word (encodeWord false word (c.corrected (foldOf false word)))
      else m) m

/-- A row is retired to the lowest usable spare of its bank; a spare that held it is given up. -/
def State.retireRow (s : State) (bank row : Nat) (cause : Int) : State :=
  match s.mem.spareRow bank with
  | none => s
  | some spare =>
    let s := s.updMem fun m => { (m.copyRow bank row) with
      badSpares := m.badSpares ++ ((m.retired.filter fun r => r.1 == bank && r.2.1 == row).map fun r => (r.1, r.2.2))
      retired := (m.retired.filter fun r => !(r.1 == bank && r.2.1 == row)) ++ [(bank, row, spare)] }
    let s := s.report Isl.mem Ev.memRowRetired [(bank : Int), (row : Int), (spare : Int), cause]
    if (s.mem.spareRow bank).isNone && !s.mem.sparesExhausted.contains bank then
      (s.updMem fun m => { m with sparesExhausted := m.sparesExhausted ++ [bank] }).report Isl.mem Ev.memSparesExhausted [(bank : Int)]
    else s

/-- Entries of the tracker. -/
def trackerDepth : Nat := 64

/-- The Counting entry that makes room: the lowest count, the oldest among equals. -/
def Mem.victim (m : Mem) : Option Track :=
  let counting := m.tracker.filter fun t => t.state == .counting
  match (counting.map fun t => t.count).min? with
  | none => none
  | some n => counting.find? fun t => t.count == n

/-- Whether a tracker entry is that of a word. -/
def Track.isAt (t : Track) (ddr : Bool) (word : Nat) : Bool := t.ddr == ddr && t.word == word

/-- The entry of a word with a change. -/
def Mem.updTrack (m : Mem) (ddr : Bool) (word : Nat) (f : Track → Track) : Mem :=
  { m with tracker := m.tracker.map fun t => if t.isAt ddr word then f t else t }

/-- A corrected read is reported to the tracker (R419, R420). -/
def State.trackWord (s : State) (ddr : Bool) (word : Nat) : State :=
  match s.mem.tracker.find? fun t => t.isAt ddr word with
  | none =>
    let new : Track := { ddr := ddr, word := word, count := 1, state := .counting }
    if s.mem.tracker.length < trackerDepth then s.updMem fun m => { m with tracker := m.tracker ++ [new] }
    else match s.mem.victim with
    | some v => s.updMem fun m => { m with tracker := (m.tracker.filter fun t => !t.isAt v.ddr v.word) ++ [new] }
    | none => s
  | some t =>
    let s := s.updMem fun m => m.updTrack ddr word fun t => { t with count := t.count + 1 }
    match t.state with
    | .pinned => s
    | .counting =>
      if t.count + 1 < 4 then s
      else
        let d := (s.mem.cell ddr word).corrected (foldOf ddr word)
        let s := s.writeWord ddr word d
        let s := s.updMem fun m => { m with
          tracker := m.tracker ++ [{ ddr := ddr, word := word, count := t.count + 1, state := .writtenBack }] }
        (s.bump Obj.trackerWriteBacks 0 0).report Isl.mem Ev.memWriteback [memAddress ddr (8 * word)]
    | .writtenBack =>
      if !ddr && (s.mem.spareRow (bankOf word)).isSome then
        (s.retireRow (bankOf word) (rowOf word) 1).updMem fun m => { m with tracker := m.tracker.filter fun t => !t.isAt ddr word }
      else
        let s := s.updMem fun m => m.updTrack ddr word fun t => { t with state := .pinned }
        s.report Isl.mem Ev.memHardFault [memAddress ddr (8 * word)]

/-! ### Cache and lay-by (R424 to R429) -/

/-- Set of a line (line = byte address / 64). -/
def setOf (line : Nat) : Nat := line % 2048
/-- Key of a way of a set. -/
def wayKey (set_ way : Nat) : Nat := set_ * 16 + way

/-- Whether the cache holds a line. -/
def Mem.holdsLine (m : Mem) (line : Nat) : Bool := m.cache.any fun e => e.2 == line

/-- A line evicted for a requester is offered to the lay-by (R426). -/
def State.offerLayby (s : State) (requester line : Nat) : State :=
  if !(s.obN Obj.layByEnableMask).testBit requester then s
  else if s.obN Obj.layByFillThreshold < s.mem.layby.length then s.updMem fun m => { m with layby := m.layby.drop 1 }
  else s.updMem fun m => { m with layby := (m.layby ++ [line]) }

/-- A line is allocated in a way for a requester; the line that stood there is offered to the lay-by. -/
def State.allocate (s : State) (requester line way : Nat) : State :=
  let k := wayKey (setOf line) way
  let s := match Sparse.find k s.mem.cache with
    | some old => if old = line then s else s.offerLayby requester old
    | none => s
  s.updMem fun m => { m with cache := Sparse.insert k line m.cache, layby := m.layby.filter fun l => l != line
                             lruCounter := m.lruCounter + 1 }

/-- A clean: the entries that overlap the line drain. -/
def State.cleanLine (s : State) (line : Nat) : State := s.drain true line

/-- The way that a miss of a requester replaces: the pseudo-LRU's among those of its `WayMask`, none where the mask is 0 (R425). -/
def State.wayFor (s : State) (requester line : Nat) : Option Nat :=
  let mask := s.obN Obj.wayMask 0 requester
  let ways := (List.range 16).filter fun w => mask.testBit w
  ways[Config.pseudoLru (setOf line) mask s.mem.lruCounter % ways.length]?

/-- Zero a line for requester 0 (R428): allocated in its ways by the pseudo-LRU, whose tree is open, and 64 zero bytes enter the merge
buffer; outside the write buffers it is refused and counted. -/
def State.zeroLine (s : State) (byte : Nat) : State :=
  if !inWriteBuffers byte then s.bump Obj.zeroLineRefused 0 0
  else
    let line := byte / 64
    let s := if !s.mem.cacheOn || s.mem.holdsLine line then s
      else match s.wayFor 0 line with
        | some way => s.allocate 0 line way
        | none => s
    s.mergeWrite true line ((List.range 64).map fun j => (j, 0#8))

/-- A maintenance operation acts (R428): 1 to 3 by address, 4 to 6 by set in [10:0] and way in [15:12], 7 Zero a line. -/
def State.maintain (s : State) (op address : Nat) : State :=
  let line := address / 64
  let at_ := Sparse.find (wayKey (address % 2048) (address / 4096 % 16)) s.mem.cache
  match op with
  | 1 => s.cleanLine line
  | 2 => s.dropLine line
  | 3 => (s.cleanLine line).dropLine line
  | 4 => match at_ with | some l => s.cleanLine l | none => s
  | 5 => match at_ with
    | some _ => s.updMem fun m => { m with cache := Sparse.erase (wayKey (address % 2048) (address / 4096 % 16)) m.cache }
    | none => s
  | 6 => match at_ with
    | some l => (s.cleanLine l).updMem fun m => { m with cache := Sparse.erase (wayKey (address % 2048) (address / 4096 % 16)) m.cache }
    | none => s
  | _ => s.zeroLine address

/-- Whether a fill of a line into a way is one that a waiting operation waits for. -/
def Maintenance.waitsFor (x : Maintenance) (line way : Nat) : Bool :=
  if x.op = 1 ∨ x.op = 2 ∨ x.op = 3 ∨ x.op = 7 then x.address / 64 == line
  else x.address % 2048 == setOf line && x.address / 4096 % 16 == way

/-! ### On-ramps (R430 to R435) -/

/-- The idle timer of a changed on-ramp: a swap restarts it, and the item that ends its rest starts it (R434). -/
def Ramp.timed (new old : Ramp) (now : Nat) : Ramp :=
  if new.timer && (new.fillBank != old.fillBank || !old.timer) then { new with timerFrom := now } else new

/-- The on-ramp with a change. -/
def State.updRamp (s : State) (k : RampId) (f : Ramp → Ramp) : State :=
  { s with ramps := upd s.ramps k fun r => (f r).timed r s.time }

/-- Items of a bank. -/
def rampDepth : Nat := 32

/-- An item enters the filling bank. -/
def Ramp.enter (r : Ramp) (x : RampItem) : Ramp :=
  { r with filling := r.filling ++ [{ x with slot := r.used }], used := r.used + 1, timer := true }

/-- The banks swap: attention is raised, the timer restarts, items that wait in HOST enter the new filling bank. -/
def Ramp.swap (r : Ramp) : Ramp :=
  let r := { r with draining := r.filling, filling := [], attention := true, fillBank := !r.fillBank, used := 0, timer := true }
  let n := min rampDepth r.waiting.length
  (r.waiting.take n).foldl Ramp.enter { r with waiting := r.waiting.drop n }

/-- Whether the banks may swap at all. -/
def Ramp.maySwap (r : Ramp) : Bool := r.draining == [] && r.filling != []

/-- A filling bank that holds no item any more takes the items that wait in HOST (R430). -/
def Ramp.refill (r : Ramp) : Ramp :=
  if r.filling == [] then
    let n := min rampDepth r.waiting.length
    (r.waiting.take n).foldl Ramp.enter { r with used := 0, waiting := r.waiting.drop n }
  else r

/-- The swap conditions that need no event: a full filling bank, or in native mode an Urgent item that enters. -/
def Ramp.settle (r : Ramp) (native urgent : Bool) : Ramp :=
  let q := r.refill
  let urgent := urgent || (r.filling == [] && q.filling.any fun x => x.cls == 0)
  if q.maySwap && (decide (rampDepth ≤ q.used) || (native && urgent)) then q.swap else q

/-- An item is handed to an on-ramp; it waits in HOST when the filling bank is full (R430). -/
def State.rampPut (s : State) (k : RampId) (x : RampItem) : State :=
  let native := s.ob Obj.onRampMode k == 0
  let r := s.ramps[k]
  if rampDepth ≤ r.used && !r.maySwap then
    (s.updRamp k fun r => { r with waiting := r.waiting ++ [x] }).bump Obj.onRampFullStalls k 0
  else
    let s := if rampDepth ≤ r.used then s.updRamp k Ramp.swap else s
    s.updRamp k fun r =>
      let r := r.enter x
      let urgent := x.cls == 0
      let r := if native && urgent then { r with attention := true } else r
      r.settle native urgent

/-- Mode in which the next item is delivered: items of the old mode come first (R435). -/
def Ramp.nextMode (r : Ramp) (now : Nat) : Nat := ((r.draining ++ r.filling).findSome? fun x => x.oldMode).getD now

/-- The item that a class and DispatchOrder put first. -/
def firstByClass (l : List RampItem) : Option RampItem :=
  l.foldl (fun best x => match best with
    | none => some x
    | some b => if x.cls < b.cls ∨ (x.cls = b.cls ∧ x.order < b.order) then some x else some b) none

/-- The item that the reader receives next (R433, R435). -/
def Ramp.nextItem (r : Ramp) (now : Nat) : Option RampItem :=
  let old := r.draining.filter fun x => x.oldMode.isSome
  let pool := if old = [] then r.draining else old
  if r.nextMode now = 1 then pool.head?
  else
    match firstByClass pool, firstByClass (r.filling.filter fun x => x.cls == 0 && (old == [] || x.oldMode.isSome)) with
    | some a, some b => if a.cls = 0 then some a else some b
    | some a, none => some a
    | none, some b => some b
    | none, none => none

/-- The on-ramp without an item. -/
def Ramp.remove (r : Ramp) (x : RampItem) : Ramp :=
  let r := { r with draining := r.draining.filter fun y => y != x, filling := r.filling.filter fun y => y != x }
  { r with timer := decide (r.draining ≠ [] ∨ r.filling ≠ []), attention := r.attention && decide (r.draining ≠ []) }

/-- The item of an on-ramp is read: banks swap first where the reader finds the draining bank empty. -/
def State.rampRead (s : State) (k : RampId) : State :=
  let mode := s.obN Obj.onRampMode k
  let s := s.updRamp k fun r => if r.maySwap then r.swap else r
  match (s.ramps[k]).nextItem mode with
  | none => s
  | some x =>
    let s := s.updRamp k fun r => { (r.remove x).settle (mode == 0) false with timerFrom := s.time }
    if x.aborted then s
    else s.updCmd x.cmd fun c => if c.stage = .onRamp then { c with stage := .taken } else c

end Sys2Proof.Machine
end

