-- ==== Sys2Proof/Machine/Reads.lean ====
section
/-! DEFINITION. Objects whose value is computed from the state (R363): what a read of each gives. Every other object holds a value of
its own. -/

namespace Sys2Proof.Machine

/-- 1 for true. -/
def bit (b : Bool) : Int := if b then 1 else 0

/-- Entry i of a table, or a default where it has none. -/
def at_ {α : Type} {n : Nat} (v : Vector α n) (d : α) (i : Nat) : α := if h : i < n then v[i] else d

/-- A row with the computation of its element k of instance i. -/
abbrev ReadRow := Row × (State → Nat → Nat → Int)

/-! ### Numbers of enumerations, in the order of the object tables -/

def EngineState.code : EngineState → Int
  | .off => 0 | .acquiring => 1 | .following => 2 | .defectHold => 3 | .parked => 4
def AcqPhase.code : AcqPhase → Int
  | .idle => 0 | .focusSearch => 1 | .focusSettle => 2 | .trackCapture => 3 | .lawCheck => 4 | .arrayAlign => 5 | .mapLearn => 6
  | .layerJump => 7 | .shortSeek => 8 | .longSeek => 9 | .sledSearch => 10 | .recovery => 11 | .parking => 12
def MountResult.code : MountResult → Int
  | .notMounted => 0 | .mounting => 1 | .mounted => 2 | .wrongSide => 3 | .focusFail => 4 | .noGuide => 5 | .recoveryFail => 6
  | .aborted => 7
def MapState.code : MapState → Int
  | .notLearned => 0 | .learning => 1 | .learned => 2 | .notConverged => 3
def ChannelMode.code : ChannelMode → Int
  | .off => 0 | .idle => 1 | .acquiring => 2 | .locked => 3 | .writing => 4 | .hold => 5
def FrameStatus.code : FrameStatus → Int
  | .headerFirst => 0 | .headerSecond => 1 | .headerInvalid => 2 | .flywheel => 3 | .blank => 4 | .overflow => 5 | .truncated => 6
def WriteState.code : WriteState → Int
  | .idle => 0 | .pass1 => 1 | .pass2 => 2 | .pass3 => 3 | .resuming => 4
def DigestState.code : DigestState → Int
  | .empty => 0 | .running => 1 | .sealed => 2 | .rebuilding => 3
def SpindleMode.code : SpindleMode → Int
  | .stopped => 0 | .sensing => 1 | .aligning => 2 | .ramping => 3 | .running => 4 | .braking => 5 | .reacquiring => 6
  | .coasting => 7 | .fault => 8
def AxisMode.code : AxisMode → Int
  | .disabled => 0 | .standstill => 1 | .moving => 2 | .slaved => 3 | .homing => 4 | .halting => 5 | .fault => 6
def ControllerMode.code : ControllerMode → Int
  | .disabled => 0 | .ready => 1 | .resetting => 2 | .shuttingDown => 3 | .paused => 4
def SwitchMode.code : SwitchMode → Int
  | .empty => 0 | .staging => 1 | .checking => 2 | .committed => 3
def CalState.code : CalState → Int
  | .neverRun => 0 | .valid => 1 | .due => 2 | .running => 3 | .failed => 4
def NorState.code : NorState → Int
  | .ready => 0 | .flushing => 1 | .clearing => 2 | .foreign => 3 | .failed => 4
def MilestoneState.code : MilestoneState → Int
  | .idle => 0 | .capturing => 1 | .held => 2
def TraceState.code : TraceState → Int
  | .idle => 0 | .armed => 1 | .stopped => 2
def Variant.code : Variant → Int
  | .s => 1 | .d => 2 | .q => 4

/-! ### Pickups -/

/-- Pickup i. -/
def State.pk (s : State) (i : Nat) : Pickup := at_ s.pickups {} i
/-- Side i. -/
def State.sd (s : State) (i : Nat) : Side := at_ s.sides {} i
/-- Channel i. -/
def State.chn (s : State) (i : Nat) : Channel := at_ s.channels {} i
/-- Spindle i. -/
def State.sp (s : State) (i : Nat) : Spindle := at_ s.spindles {} i

/-- Axis of an instance of the axis objects: sleds from 0, auxiliary axes from 16. -/
def State.ax (s : State) (i : Nat) : Axis := at_ s.axes {} (if i < 8 then i else i - 8)

/-- rms of Q2.30 words in 0.01 nm; `unit` is the length of 1.0 in 0.01 nm. The rounding is open. -/
def rmsLength (l : List Int) (unit : Int) : Int :=
  let n := l.length * 2 ^ 60
  let sum := (l.foldl (fun acc x => acc + x * x) 0 * unit * unit).toNat
  let f := (sum / n).sqrt
  min 65535 (if n = 0 then 0 else if f * f * n = sum then f else f + (if Config.roundsUp sum n then 1 else 0) : Nat)

/-- `AcqPhase`: Recovery while recovery runs. -/
def Pickup.shownPhase (k : Pickup) : AcqPhase := if k.seq = .recovery then .recovery else k.phase

def servoReads : List ReadRow := [
  (Obj.engineState, fun s i _ => (s.pk i).engine.code),
  (Obj.loopClosedMask, fun s i _ => (s.pk i).closedMask),
  (Obj.defectHoldCause, fun s i _ => (s.pk i).holdCause.toNat),
  (Obj.trackingResidualRms, fun s i _ => rmsLength (s.pk i).xTHistory 25600),
  (Obj.focusResidualRms, fun s i _ => rmsLength (s.pk i).xFHistory 102400),
  (Obj.wobbleCount, fun s i _ => (s.pk i).wobble),
  (Obj.biquadCoeff, fun s i k => if k < 5 * (bankLoop i).biquads then s.ob Obj.biquadCoeff i k else 0),
  (Obj.acqPhase, fun s i _ => (s.pk i).shownPhase.code),
  (Obj.mountResult, fun s i _ => (s.pk i).mountResult.code),
  (Obj.currentLane, fun s i _ => ((s.pk i).lane.getD 0xFFFF : Nat)),
  (Obj.currentLayer, fun s i _ => ((s.pk i).layer.getD 0xFF : Nat)),
  (Obj.lawDiscardRun, fun s i _ => (s.pk i).lawDiscardRun),
  (Obj.runoutMapState, fun s i k => (at_ (s.pk i).maps {} k).state.code)]

/-! ### Channels and decoding -/

/-- `ChannelState`: Hold while a channel that acquires or is locked waits out a defect hold. -/
def State.channelMode (s : State) (i : Nat) : ChannelMode :=
  let c := s.chn i
  if (s.pk (i / 4)).engine = .defectHold ∧ (c.mode = .acquiring ∨ c.mode = .locked) then .hold else c.mode

def channelReads : List ReadRow := [
  (Obj.channelState, fun s i _ => (s.channelMode i).code),
  (Obj.frameLock, fun s i _ => bit (s.chn i).frameLock),
  (Obj.channelRate, fun s i _ => clampInt 0 720000 (rnd ((s.chn i).rate * (fine + (s.chn i).freq)) (1000 * 2 ^ 20))),
  (Obj.vgaGain, fun s i _ => rnd (s.chn i).gain (2 ^ 20)),
  (Obj.timingFreqOffset, fun s i _ => clampInt (-5000) 5000 (rnd ((s.chn i).freq * 1000000) (2 ^ 20))),
  (Obj.adcOffset, fun s i _ => clampInt (-8192) 8192 (rnd ((s.chn i).offset * 64) (2 ^ 20))),
  (Obj.envelopeMean, fun s i _ => clampInt 0 0x7FFF (rnd (s.chn i).envelopeMean 256)),
  (Obj.wobbleAmplitude, fun s i _ => (min 0x7FFF (s.chn i).wobbleAmplitude : Nat)),
  (Obj.phaseResidualRms, fun s i _ => (s.chn i).phaseResidual),
  (Obj.frameStatusLast, fun s i _ => (s.chn i).lastStatus.code),
  (Obj.firTap, fun s i k => rnd ((s.chn i).taps.getD k 0) (2 ^ 20)),
  (Obj.itiCoupling, fun s i k => rnd ((s.chn i).coupling.getD k 0) (2 ^ 20)),
  (Obj.itiFracDelay, fun s i k => (s.chn i).frac.getD k 0),
  (Obj.poolBusy, fun s _ _ => ((s.decoding.decoders.toList.filter fun d => d.isSome).length : Nat)),
  (Obj.poolQueueDepth, fun s _ _ => (s.decoding.depth : Nat)),
  (Obj.workspaceClusters, fun s _ _ => ((s.sides.toList.map Side.workspace).foldl (fun a b => a + b) 0 : Nat))]

/-! ### Write path -/

/-- Spares of a layer that are free. -/
def State.sparesFree (s : State) (p : PickupId) (layer : Nat) : Nat :=
  if (s.sides[p]).built then ((List.range (positions - spareFrom)).filter fun i => (s.entry p layer (spareFrom + i)).state == .spareFree).length
  else positions - spareFrom

/-- Zone that `DigestZoneSelect` shows. -/
def State.shownZone (s : State) (i : Nat) : Zone := Sparse.get {} (s.sd i).zones (s.obN Obj.digestZoneSelect i)

def writeReads : List ReadRow := [
  (Obj.writeState, fun s i _ => (s.sd i).writeState.code),
  (Obj.clusterWriteCount, fun s i _ => (s.sd i).writeCount),
  (Obj.runStart, fun s i _ => match (s.sd i).current with
    | some r => ((r.layer * 2 ^ 19 + ((r.clusters.map fun c => c.q).min?.getD 0) : Nat) : Int)
    | none => 0),
  (Obj.runClusters, fun s i _ => match (s.sd i).current with | some r => (r.clusters.length : Nat) | none => 0),
  (Obj.journalPairsFree, fun s i _ => (journalPositions - max (s.sd i).markPrimary (s.sd i).markCopy : Nat)),
  (Obj.sparesFree, fun s i k => if h : i < 8 then s.sparesFree ⟨i, h⟩ k else 0),
  (Obj.pcaSegmentsLeft, fun s i k => (256 - (s.sd i).pcaUsed.getD k 0 : Nat)),
  (Obj.digestClusters, fun s i _ => (s.shownZone i).digestClusters),
  (Obj.digestState, fun s i _ => (s.shownZone i).digestState.code)]

/-! ### Spindles and axes -/

def motionReads : List ReadRow := [
  (Obj.spindleState, fun s i _ => (s.sp i).mode.code),
  (Obj.speedMeasured, fun s i _ => (s.sp i).measured),
  (Obj.speedReference, fun s i _ => (s.sp i).reference),
  (Obj.speedSource, fun s i _ => (s.sp i).source),
  (Obj.wobbleSourcePickup, fun s i _ => match (s.sp i).wobbleSource with | some p => (p.val : Int) | none => 0xFF),
  (Obj.speedErrorPpm, fun s i _ => (s.sp i).errorPpm),
  (Obj.vbusMeasured, fun s i _ => (s.sp i).vbus),
  (Obj.torqueCommand, fun s i _ => (s.sp i).torque),
  (Obj.currentD, fun s i _ => (s.sp i).currentD),
  (Obj.currentQ, fun s i _ => (s.sp i).currentQ),
  (Obj.spindleFault, fun s i _ => (s.sp i).fault.toNat),
  (Obj.activeMode, fun s i _ => bit (s.sp i).dtc),
  (Obj.rateMatchState, fun s i _ => (s.sp i).rateMatch),
  (Obj.axisState, fun s i _ => (s.ax i).mode.code),
  (Obj.positionValid, fun s i _ => bit (s.ax i).positionValid),
  (Obj.setpointPosition, fun s i _ => usteps (s.ax i).position),
  (Obj.encoderPosition, fun s i _ => usteps (s.ax i).encoder),
  (Obj.deviation, fun s i _ => usteps (s.ax i).deviation),
  (Obj.axisSpeed, fun s i _ => (s.ax i).dir * speedOfUnits (s.ax i).speed),
  (Obj.coilCurrent, fun s i _ => rnd (s.ax i).coil 1000),
  (Obj.loadAngle, fun s i _ => (s.ax i).loadAngle.getD 0),
  (Obj.axisFault, fun s i _ => (s.ax i).fault.toNat),
  (Obj.lastCommandResult, fun s i _ => (s.ax i).lastResult.code),
  (Obj.setpointWord, fun s i _ => (s.ax i).word)]

/-! ### Host -/

/-- Whether a mount or the map build of a spindle runs (R329). -/
def State.mountRuns (s : State) (i : SpindleId) : Bool :=
  i.pickups.any fun p => (s.pickups[p]).mountResult == .mounting || (s.sides[p]).building

/-- `NamespaceState`: Unavailable after a mount that found a side and could not use it. -/
def State.namespaceState (s : State) (p : PickupId) : Int :=
  if (s.sides[p]).built then 2
  else if s.mountRuns p.spindle then 1
  else match (s.pickups[p]).mountResult with
  | .wrongSide => 3 | .noGuide => 3 | .recoveryFail => 3 | .aborted => 3
  | _ => 0

/-- Zones of a side in a state. -/
def Side.zonesIn (x : Side) (f : ZoneState → Bool) : Nat := (x.zones.filter fun z => f z.2.state).length
/-- Whether a zone state is open. -/
def ZoneState.open_ (z : ZoneState) : Bool := z == .implicitlyOpened || z == .explicitlyOpened
/-- Whether a zone state is active. -/
def ZoneState.active (z : ZoneState) : Bool := z.open_ || z == .closed

/-- Clusters of a write buffer that hold a block. -/
def Side.bufferClusters (x : Side) : Nat := ((x.buffer.map fun b => b.lba / 64).eraseDups).length

/-- Filler blocks below the write pointers of a side. -/
def Side.fillerTotal (x : Side) : Nat := (x.zones.map fun z => z.2.fillerBlocks).foldl (fun a b => a + b) 0

/-- Controller i. -/
def State.ctl (s : State) (i : Nat) : Controller := at_ s.host.ctrls {} i

def hostReads : List ReadRow := [
  (Obj.tollgateEntriesUsed, fun s _ _ => (s.host.tolls.length : Nat)),
  (Obj.queuePoolSqUsed, fun s _ _ => (((s.ctl 0).sqs.length + (s.ctl 1).sqs.length : Nat) : Int)),
  (Obj.queuePoolCqUsed, fun s _ _ => (((s.ctl 0).cqs.length + (s.ctl 1).cqs.length : Nat) : Int)),
  (Obj.powerState, fun s _ _ => s.host.powerState),
  (Obj.selfTestState, fun s _ _ => match s.host.selfTest with | none => 0 | some t => if t.extended then 2 else 1),
  (Obj.selfTestSegment, fun s _ _ => match s.host.selfTest with | none => 0 | some t => (t.segment : Int)),
  (Obj.pciVendorId, fun _ _ _ => (Config.perDevice 0 % 65536 : Nat)),
  (Obj.pciDeviceId, fun _ _ _ => 0x6480),
  (Obj.linkState, fun s i _ => (s.ctl i).link),
  (Obj.linkRate, fun s i _ => (s.ctl i).linkRate),
  (Obj.linkWidth, fun s i _ => (s.ctl i).linkWidth),
  (Obj.controllerState, fun s i _ => (s.ctl i).mode.code),
  (Obj.sqCount, fun s i _ => ((s.ctl i).sqs.length : Nat)),
  (Obj.cqCount, fun s i _ => ((s.ctl i).cqs.length : Nat)),
  (Obj.namespaceState, fun s i _ => if h : i < 8 then s.namespaceState ⟨i, h⟩ else 0),
  (Obj.openZones, fun s i _ => ((s.sd i).zonesIn ZoneState.open_ : Nat)),
  (Obj.activeZones, fun s i _ => ((s.sd i).zonesIn ZoneState.active : Nat)),
  (Obj.fullZones, fun s i _ => ((s.sd i).zonesIn (· == .full) : Nat)),
  (Obj.readOnlyZones, fun s i _ => ((s.sd i).zonesIn (· == .readOnly) : Nat)),
  (Obj.writeBufferClusters, fun s i _ => ((s.sd i).bufferClusters : Nat)),
  (Obj.fillerBlocks, fun s i _ => ((s.sd i).fillerTotal : Nat))]

/-! ### Identity, Signpost, staging -/

def signpostReads : List ReadRow := [
  (Obj.variantCode, fun s _ _ => s.otp.variant.code),
  (Obj.enabledSpindleMask, fun s _ _ => (2 ^ s.otp.variant.spindles - 1 : Nat)),
  (Obj.enabledPickupMask, fun s _ _ => (2 ^ (2 * s.otp.variant.spindles) - 1 : Nat)),
  (Obj.sledEncoderPresent, fun s _ _ => bit (s.otp.variant != .q)),
  (Obj.hardwareRevision, fun _ _ _ => (Config.perDevice 2 % 65536 : Nat)),
  (Obj.dieIdentity, fun s _ _ => s.otp.dieIdentity),
  (Obj.macAddress, fun s _ _ => s.otp.mac),
  (Obj.canState, fun s i _ => (at_ s.signpost.can {} i).state),
  (Obj.ethLinkState, fun s _ _ => s.signpost.eth.link),
  (Obj.serverQueueDepth, fun s _ _ => (s.signpost.queue.length : Nat)),
  (Obj.sessionsOpen, fun s _ _ => ((s.signpost.sessions.toList.filter fun x => x.isSome).length : Nat)),
  (Obj.switchoverState, fun s _ _ => s.staging.mode.code),
  (Obj.stagingOwner, fun s _ _ => s.ownerIdentity),
  (Obj.stagedCount, fun s _ _ => (s.staging.entries.length : Nat))]

/-! ### Memory and on-ramps -/

/-- On-ramp i. -/
def State.ramp (s : State) (i : Nat) : Ramp := at_ s.ramps {} i
/-- Items of an on-ramp in delivery order of mode. -/
def Ramp.items (r : Ramp) : List RampItem := r.draining ++ r.filling

def memoryReads : List ReadRow := [
  (Obj.spareRowsFree, fun s _ k =>
    (16 - (s.mem.retired.filter fun r => r.1 == k).length - (s.mem.badSpares.filter fun b => b.1 == k).length : Nat)),
  (Obj.retiredRows, fun s _ _ => (s.mem.retired.length : Nat)),
  (Obj.mergeEntriesUsed, fun s _ _ => (s.mem.merge.length : Nat)),
  (Obj.scrubState, fun s _ _ => bit s.mem.scrub.isSome),
  (Obj.trackerEntriesUsed, fun s _ _ => (s.mem.tracker.length : Nat)),
  (Obj.trackerPinned, fun s _ _ => ((s.mem.tracker.filter fun t => t.state == .pinned).length : Nat)),
  (Obj.layByLines, fun s _ _ => (s.mem.layby.length : Nat)),
  (Obj.cacheEnable, fun s _ _ => bit (s.mem.cacheOn && !s.mem.cacheDisabling)),
  (Obj.onRampActiveMode, fun s i _ =>
    match (s.ramp i).items.findSome? fun x => x.oldMode with
    | some m => m
    | none => s.ob Obj.onRampMode i),
  (Obj.onRampDepth, fun s i _ => ((s.ramp i).items.length : Nat))]

/-! ### Calibration, recorder, power -/

/-- Item n (1 to 10 of a pickup, 11 of a spindle) of instance i. -/
def State.calItem (s : State) (item i : Nat) : CalItem := at_ s.cal.items {} (if item = 11 then 88 + i else 11 * i + item - 1)

def calReads : List ReadRow := [
  (Obj.calItemState, fun s i k => (s.calItem (k + 1) i).state.code),
  (Obj.calItemStateSpindle, fun s i _ => (s.calItem 11 i).state.code),
  (Obj.calItemTemperature, fun s i k => (s.calItem (k + 1) i).temperature),
  (Obj.calItemTemperatureSpindle, fun s i _ => (s.calItem 11 i).temperature),
  (Obj.ledgerEntriesUsed, fun s _ _ => (s.cal.ledger.length : Nat)),
  (Obj.ageLimit, fun s _ k =>
    if k = 10 ∧ s.ob Obj.ageLimit 0 10 = Obj.ageLimit.default 0 10 then 256 * s.ob Obj.verifyMaxIterations else s.ob Obj.ageLimit 0 k)]

/-- Records of the running area that are not void (R481, R487). -/
def Recorder.valid (r : Recorder) : List Record :=
  r.runningArea.filter fun x => match r.header with
    | some h => decide (h.clearCount = 0 ∨ h.clearSequence < x.seq)
    | none => true

def recorderReads : List ReadRow := [
  (Obj.nextSequence, fun s _ _ => s.recorder.nextSeq),
  (Obj.backlogRecords, fun s _ _ => (s.recorder.backlog.length : Nat)),
  (Obj.backlogLimit, fun s _ _ => s.recorder.limit),
  (Obj.originRecords, fun s _ _ => (s.recorder.origin.length : Nat)),
  (Obj.runningFirstSequence, fun s _ _ => (((s.recorder.valid.map fun x => x.seq).min?.getD 0 : Nat) : Int)),
  (Obj.runningLastSequence, fun s _ _ => (((s.recorder.runningArea.map fun x => x.seq).max?.getD 0 : Nat) : Int)),
  (Obj.runningCapacity, fun s _ _ => (32768 - 128 * s.recorder.badSectors.length : Nat)),
  (Obj.norState, fun s _ _ => s.recorder.norState.code),
  (Obj.milestoneState, fun s _ _ => s.milestone.state.code),
  (Obj.traceState, fun s i _ => (at_ s.traces {} i).state.code),
  (Obj.traceStartN, fun s i _ => (at_ s.traces {} i).startN),
  (Obj.traceStopN, fun s i _ => (at_ s.traces {} i).stopN)]

/-- Numbers of `SlotState`. -/
def State.slotState (s : State) (i : Nat) : Int :=
  match at_ s.power.slots none i with
  | none => 0
  | some m =>
    if m.securityVersion < s.otp.rollback then 3
    else if m.passes && !s.otp.keyRevoked.getLsbD m.keyIndex then 1 else 2

def powerReads : List ReadRow := [
  (Obj.vergeTick, fun s _ _ => s.tick),
  (Obj.vergeTickBase, fun s _ _ => s.verge.base),
  (Obj.timeOfDay, fun s _ _ => s.timeOfDay),
  (Obj.vergePowerLost, fun s _ _ => bit s.verge.powerLost),
  (Obj.wakeCause, fun s _ _ => s.verge.wakeCause),
  (Obj.doorTripped, fun s _ _ => bit s.verge.doorTripped),
  (Obj.leaseEndKept, fun s _ _ => s.verge.leaseKept),
  (Obj.compState, fun s i _ => bit (at_ s.verge.comps {} i).tripped),
  (Obj.quietPllLocked, fun s _ _ => bit s.power.quietLocked),
  (Obj.systemPllLocked, fun s _ _ => bit s.power.systemLocked),
  (Obj.bootSlot, fun s _ _ => s.power.activeSlot),
  (Obj.pendingSlot, fun s _ _ => ((s.power.pendingSlot.getD 0xFF : Nat) : Int)),
  (Obj.rollbackCounter, fun s _ _ => s.otp.rollback),
  (Obj.keyRevokeMask, fun s _ _ => s.otp.keyRevoked.toNat),
  (Obj.slotState, fun s i k => s.slotState (i + k))]

/-- All computed objects with a numeric value. -/
def allReads : List ReadRow :=
  servoReads ++ channelReads ++ writeReads ++ motionReads ++ hostReads ++ signpostReads ++ memoryReads ++ calReads ++ recorderReads
    ++ powerReads

/-- Value of element k of instance i of a numeric object, as a read gives it. -/
def State.value (s : State) (r : Row) (i : Nat := 0) (k : Nat := 0) : Int :=
  match allReads.find? fun e => e.1 == r with
  | some e => e.2 s i k
  | none => s.ob r i k

end Sys2Proof.Machine
end

