-- ==== Sys2Proof/Machine/RunForm.lean ====
section
/-! DEFINITION. Forming runs: user runs from the write buffer (R208, R209), spare runs (R227), journal pairs and their bytes (R235 to
R240, R558). -/

namespace Sys2Proof.Machine

/-! ### User runs (R208, R209, R331) -/

/-- Blocks of a cluster that wait in the buffer, by sector. -/
def Side.waitingBlocks (x : Side) (zone c : Nat) : List BufferedBlock :=
  x.buffer.filter fun b => !b.inRun && !b.filling && b.lba / zoneBlocks == zone && b.lba % zoneBlocks / 64 == c

/-- Whether a cluster's 64 blocks all wait. -/
def Side.fullCluster (x : Side) (zone c : Nat) : Bool := decide ((x.waitingBlocks zone c).length = 64)

/-- Whether blocks of a cluster are still on their way from host memory. -/
def Side.fillingIn (x : Side) (zone c : Nat) : Bool :=
  x.buffer.any fun b => b.filling && b.lba / zoneBlocks == zone && b.lba % zoneBlocks / 64 == c

/-- The lowest cluster of a zone with blocks that wait. -/
def Side.firstWaiting (x : Side) (zone : Nat) : Option Nat :=
  ((x.buffer.filter fun b => !b.inRun && !b.filling && b.lba / zoneBlocks == zone).map fun b => b.lba % zoneBlocks / 64).min?

/-- The clusters that a run takes from `c` on: full ones at Blank home positions, up to `n`; a partial one may end it. -/
def State.runClusters (s : State) (p : PickupId) (zone : Nat) (partialToo : Bool) : Nat → Nat → List Nat
  | _, 0 => []
  | c, n + 1 =>
    let x := s.sides[p]
    if zoneClusters ≤ c || (s.entry p (zoneLayer zone) (homeQ zone c)).state != .blank then []
    else if x.fullCluster zone c then c :: s.runClusters p zone partialToo (c + 1) n
    else if partialToo && !(x.waitingBlocks zone c).isEmpty && !x.fillingIn zone c then [c]
    else []

/-- A cluster of a run from its blocks. -/
def Side.runCluster (x : Side) (zone c serial : Nat) : RunCluster :=
  let bs := x.waitingBlocks zone c
  { q := homeQ zone c, zone := zone, cluster := c, homeLayer := zoneLayer zone, homeQ := homeQ zone c, serial := serial
    blocks := bs.map fun b => (b.lba % 64, b.data), fillers := 64 - bs.length, passed := [], state := .unlit }

/-- Blocks of clusters of a zone leave the waiting part of the buffer. -/
def State.takeBlocks (s : State) (p : PickupId) (zone : Nat) (cs : List Nat) : State :=
  s.updS p fun x => { x with buffer := x.buffer.map fun b =>
    if b.lba / zoneBlocks = zone ∧ cs.contains (b.lba % zoneBlocks / 64) then { b with inRun := true } else b }

/-- Commands whose last block lies in one of the clusters: their commit point is the formation of the run (R225). -/
def State.lastBlockOwners (s : State) (p : PickupId) (zone : Nat) (cs : List Nat) : List CmdRef :=
  ((s.sides[p]).buffer.filterMap fun b =>
    if b.lba / zoneBlocks = zone ∧ cs.contains (b.lba % zoneBlocks / 64) then
      match s.cmd? b.owner with
      | some c => if c.lba + c.sqe.nlb = b.lba then some b.owner else none
      | none => none
    else none).eraseDups

/-- The write pointer moves past the filler of a partial cluster (R331); a zone that this brings to its capacity is Full
(R333). -/
def State.skipFiller (s : State) (p : PickupId) (zone : Nat) (cs : List Nat) : State :=
  match cs.getLast? with
  | none => s
  | some c => s.updZone p zone fun z =>
    let wp := max z.wp ((c + 1) * 64)
    { z with wp := wp, state := if zoneBlocks ≤ wp ∧ z.state ≠ .readOnly then .full else z.state }

/-- Clusters that a run may take: `WriteRunClusters`, at most 32 during a firmware activation (R230). -/
def State.runLimit (s : State) : Nat :=
  if s.host.activation.isSome then min 32 (s.obN Obj.writeRunClusters) else s.obN Obj.writeRunClusters

/-- Whether a run may still be formed and begun on a pickup: during an activation only one further run (R230). -/
def State.mayRun (s : State) (p : PickupId) : Bool :=
  match s.host.activation with
  | none => true
  | some a => a.extraRunLeft.contains p

/-- The ZoneOpened pair of a zone's first run (R238). -/
def State.openZone (s : State) (p : PickupId) (zone first : Nat) (waiting : List CmdRef) : State :=
  if (s.zone p zone).opened then s
  else (s.formPair p [.zoneOpened zone first s.tick] waiting).updZone p zone fun z => { z with opened := true }

/-- A run is formed for a zone: WriteSerials are taken, commit points reached, and ZoneOpened is queued before the first run of
the zone. Formation waits with the completion slots of its commands (R340). A first cluster whose home is not Blank goes to a
spare run instead. Only clusters below `limit` are taken. -/
def State.formRunTo (s : State) (p : PickupId) (zone : Nat) (partialToo : Bool) (limit : Nat) : State :=
  let x := s.sides[p]
  match x.firstWaiting zone with
  | none => s
  | some c0 =>
    if limit ≤ c0 then s else
    let layer := zoneLayer zone
    let home := s.entry p layer (homeQ zone c0)
    if home.state ≠ .blank then
      if x.fullCluster zone c0 || (partialToo && !x.fillingIn zone c0) then
        let owners := x.ownersOf zone c0
        let last := s.lastBlockOwners p zone [c0]
        if last.all s.mayCommit then
          let bs := x.waitingBlocks zone c0
          let s := s.forEach last fun s k => s.commit k
          let s := ((s.takeBlocks p zone [c0]).skipFiller p zone [c0]).openZone p zone x.writeCount owners
          s.needSpare p { layer := layer, homeQ := homeQ zone c0, zone := zone, cluster := c0, attempts := 0, reason := 2
                          blocks := bs.map fun b => (b.lba % 64, b.data), fillers := 64 - bs.length, commands := owners }
        else s
      else s
    else
      let cs := s.runClusters p zone partialToo c0 (min s.runLimit (limit - c0))
      let last := s.lastBlockOwners p zone cs
      if cs = [] || !last.all s.mayCommit then s
      else
        let n := x.writeCount
        let clusters := cs.mapIdx fun i c => x.runCluster zone c (n + i)
        let owners := (cs.flatMap fun c => x.ownersOf zone c).eraseDups
        let run : Run := { area := .user, layer := layer, clusters := clusters, commands := owners, armed := false }
        let s := s.forEach last fun s k => s.commit k
        let s := (s.takeBlocks p zone cs).skipFiller p zone cs
        (s.updS p fun x => { x with writeCount := n + cs.length, runs := x.runs ++ [run] }).openZone p zone n owners

/-- A run of a zone that may take any of its clusters. -/
def State.formRun (s : State) (p : PickupId) (zone : Nat) (partialToo : Bool) : State :=
  s.formRunTo p zone partialToo zoneClusters

/-- The cluster after the last one of a zone whose buffered blocks a Flush covers (R342); 0 where it covers none. -/
def Side.coveredLimit (x : Side) (zone : Nat) (covers : List CmdRef) : Nat :=
  ((x.buffer.filter fun b => !b.inRun && b.lba / zoneBlocks == zone && covers.contains b.owner).map
    fun b => b.lba % zoneBlocks / 64 + 1).max?.getD 0

/-- Zones with blocks that wait. -/
def Side.waitingZones (x : Side) : List Nat :=
  ((x.buffer.filter fun b => !b.inRun && !b.filling).map fun b => b.lba / zoneBlocks).eraseDups

/-- Runs for everything that is buffered are formed at once (Flush, Zone Finish, activation, power-state entry; R208). -/
def State.formAll (s : State) (p : PickupId) (zones : List Nat) : State :=
  s.forEach zones fun s z => s.forEach (List.range 64) fun s _ => s.formRun p z true

/-- Runs for the buffered data of covered writes are formed at once (R208, R342); data after the last covered cluster stays. -/
def State.formCovered (s : State) (p : PickupId) (covers : List CmdRef) : State :=
  s.forEach (s.sides[p]).waitingZones fun s z =>
    let limit := (s.sides[p]).coveredLimit z covers
    s.forEach (List.range 64) fun s _ => s.formRunTo p z true limit

/-! ### Spare runs (R227, R46) -/

/-- SPARE_RUN: the first logical cluster that waits is written on the spare that R46 gives, before any further run. -/
def State.spareRun (s : State) (p : PickupId) : State :=
  let x := s.sides[p]
  let inRun (w : Replacement) : Bool := (x.runs ++ x.current.toList).any fun r =>
    r.area == .spare && r.clusters.any fun c => c.zone == w.zone && c.cluster == w.cluster
  match x.replacements.find? (fun w => !inRun w) with
  | none => s
  | some w =>
    match s.nextSpare p w.layer with
    | none => (s.recordSparesExhausted p).giveUpCluster p w.zone w.cluster w.commands
    | some (layer, q) =>
      let c : RunCluster := { q := q, zone := w.zone, cluster := w.cluster, homeLayer := w.layer, homeQ := w.homeQ
                              serial := x.writeCount, blocks := w.blocks, fillers := w.fillers, passed := [], state := .unlit }
      let run : Run := { area := .spare, layer := layer, clusters := [c], commands := w.commands, armed := false }
      s.updS p fun x => { x with writeCount := x.writeCount + 1, runs := run :: x.runs }

/-! ### Journal bytes (R235, R237) -/

/-- Closes a record with its CRC-32. -/
def sealRecord (b : List Byte) : List Byte := b ++ beBytes 4 (crc32 b)

/-- Bytes of a journal record with its JournalSequence; big-endian. -/
def JournalRecord.bytes (discId : BitVec 128) (side seq : Nat) : JournalRecord → List Byte
  | .replacement hl sl z hq sq c why serial =>
    sealRecord (beBytes 2 1 ++ beBytes 2 32 ++ beBytes 4 seq ++ beBytes 1 hl ++ beBytes 1 sl ++ beBytes 2 z ++ beBytes 4 hq
      ++ beBytes 4 sq ++ beBytes 2 c ++ beBytes 1 why ++ beBytes 1 0 ++ beBytes 4 serial)
  | .zoneOpened z first tick =>
    sealRecord (beBytes 2 2 ++ beBytes 2 28 ++ beBytes 4 seq ++ beBytes 2 z ++ beBytes 2 0 ++ beBytes 4 first ++ beBytes 8 tick)
  | .sealZone z n fillers first last tick ev digest =>
    sealRecord (beBytes 2 3 ++ beBytes 2 128 ++ beBytes 4 seq ++ beBytes 16 discId.toNat ++ beBytes 1 side
      ++ beBytes 1 (zoneLayer z) ++ beBytes 2 z ++ beBytes 2 n ++ beBytes 2 0 ++ beBytes 4 fillers ++ beBytes 4 first
      ++ beBytes 4 last ++ beBytes 4 0 ++ beBytes 8 tick ++ beBytes 8 ev ++ beBytes 32 digest.toNat ++ beBytes 28 0)
  | .checkpoint z c serial digest =>
    sealRecord (beBytes 2 4 ++ beBytes 2 52 ++ beBytes 4 seq ++ beBytes 2 z ++ beBytes 2 c ++ beBytes 4 serial
      ++ beBytes 32 digest.toNat)
  | .unusable layer why q =>
    sealRecord (beBytes 2 5 ++ beBytes 2 20 ++ beBytes 4 seq ++ beBytes 1 layer ++ beBytes 1 why ++ beBytes 2 0 ++ beBytes 4 q)
  | .discControl d die tick =>
    sealRecord (beBytes 2 6 ++ beBytes 2 64 ++ beBytes 4 0 ++ beBytes 16 d.toNat ++ beBytes 2 1 ++ beBytes 2 0 ++ beBytes 8 die
      ++ beBytes 4 0 ++ beBytes 8 tick ++ beBytes 12 0)

/-- A block from up to 4,096 bytes. -/
def blockOf (b : List Byte) : Block :=
  BitVec.ofNat 32768 (b.foldr (fun x acc => x.toNat + 256 * acc) 0)

/-- Data sectors of a system-area cluster that hold record bytes, from sector 0 on. -/
def packSectors : Nat → Nat → List Byte → List (Nat × Block)
  | 0, _, _ => []
  | n + 1, k, b => if b.isEmpty then [] else (k, blockOf (b.take 4096)) :: packSectors n (k + 1) (b.drop 4096)

/-- A run of one system-area cluster with the records' bytes. -/
def systemRun (area : RunArea) (layer q serial : Nat) (b : List Byte) : Run :=
  let blocks := packSectors 64 0 b
  { area := area, layer := layer, commands := [], armed := false
    clusters := [{ q := q, zone := 0x1FF, cluster := 0, homeLayer := layer, homeQ := q, serial := serial, blocks := blocks
                   fillers := 64 - blocks.length, passed := [], state := .unlit }] }

/-! ### Journal pairs (R238 to R240, R558) -/

/-- The records of a pair as they stand on the disc. -/
def JournalPair.bytes (j : JournalPair) (discId : BitVec 128) (side : Nat) : List Byte :=
  j.records.flatMap fun r => r.2.bytes discId side r.1

/-- R240: 32 free positions or fewer in either area. -/
def State.checkJournal (s : State) (p : PickupId) : State :=
  let x := s.sides[p]
  if journalPositions ≤ x.markPrimary + 32 || journalPositions ≤ x.markCopy + 32 then s.journalFull p else s

/-- One member of the pair gets the next position of its area and its run; none when the area has none free. Positions that a
formed run already holds lie below the mark only once they are armed, so the run of the member is the only one of its area. -/
def State.writeMember (s : State) (p : PickupId) (j : JournalPair) (copy : Bool) : Option State :=
  let x := s.sides[p]
  let m := if copy then x.markCopy else x.markPrimary
  if journalPositions ≤ m then none
  else
    let (layer, q) := journalPlace m copy
    let run := systemRun (if copy then .journalCopy else .journalPrimary) layer q x.writeCount (j.bytes x.discId p.side)
    some (s.updS p fun x => { x with
      writeCount := x.writeCount + 1, runs := run :: x.runs
      pair := x.pair.map fun j => if copy then { j with copyAt := some m } else { j with primaryAt := some m } })

/-- The pair that waits first is written, or a member that failed is written again (R238, R239); a pair that finds no position is
dropped (R558). Seal pairs are the commit point of their Zone Finish (R340). -/
def State.writePair (s : State) (p : PickupId) : State :=
  let x := s.sides[p]
  let s := match x.pair, x.pairQueue with
    | none, j :: rest =>
      let seals := j.records.any fun r => match r.2 with | .sealZone .. => true | _ => false
      if seals && !j.waiting.all s.mayCommit then s
      else
        let s := if seals then s.forEach j.waiting fun s k => s.commit k else s
        s.updS p fun x => { x with pair := some j, pairQueue := rest }
    | _, _ => s
  match (s.sides[p]).pair with
  | none => s
  | some j =>
    let a := if j.primaryAt.isNone && !j.primaryDone then s.writeMember p j false else some s
    let b := a.bind fun s => if j.copyAt.isNone && !j.copyDone then s.writeMember p j true else some s
    match b with
    | some s => s
    | none => ((s.updS p fun x => { x with pair := none }).journalFull p).dropPair p j

end Sys2Proof.Machine
end

