-- ==== Sys2Proof/Machine/QueueOps.lean ====
section
/-! DEFINITION. Shared operations of the host interface: queues, features, the checks of R336, zone limits, the tollgate, bound misses,
histograms, and commands that leave what they waited for (chapter 9). -/

namespace Sys2Proof

/-- Zone action of a Zone Management Send: CDW13 [7:0]; bit 8 is Select All. -/
def Sqe.zoneAction (e : Sqe) : Nat := e.cdw13 % 256
/-- Select All. -/
def Sqe.selectAll (e : Sqe) : Bool := e.cdw13.testBit 8
/-- Feature identifier. -/
def Sqe.fid (e : Sqe) : Nat := e.cdw10 % 256
/-- Save bit of Set Features. -/
def Sqe.saves (e : Sqe) : Bool := e.cdw10.testBit 31
/-- Action and slot of a Firmware Commit: CDW10 [5:3] and [2:0]. -/
def Sqe.commitAction (e : Sqe) : Nat := e.cdw10 / 8 % 8
/-- Slot. -/
def Sqe.commitSlot (e : Sqe) : Nat := e.cdw10 % 8

end Sys2Proof

namespace Sys2Proof.Machine

/-! ### Queues (R323, R324) -/

/-- Submission queue of a controller. -/
def State.sq? (s : State) (c : CtrlId) (id : Nat) : Option Sq := (s.host.ctrls[c]).sqs.find? fun q => q.id == id
/-- Completion queue of a controller. -/
def State.cq? (s : State) (c : CtrlId) (id : Nat) : Option Cq := (s.host.ctrls[c]).cqs.find? fun q => q.id == id
/-- The submission queue with a change. -/
def State.updSq (s : State) (c : CtrlId) (id : Nat) (f : Sq → Sq) : State :=
  s.updCtrl c fun x => { x with sqs := x.sqs.map fun q => if q.id = id then f q else q }
/-- The completion queue with a change. -/
def State.updCq (s : State) (c : CtrlId) (id : Nat) (f : Cq → Cq) : State :=
  s.updCtrl c fun x => { x with cqs := x.cqs.map fun q => if q.id = id then f q else q }
/-- Whether entries wait in a submission queue. -/
def Sq.waits (q : Sq) : Bool := q.head != q.tail
/-- Most entries of a queue (R322). -/
def queueEntries : Nat := 4096

/-! ### Features (R354) -/

/-- Key of a feature: its identifier, and the namespace, vector or threshold selection that some features carry. -/
def featureKey (fid part : Nat) : Nat := 0x10000 * part + fid
/-- Value of a feature. -/
def Controller.feature (x : Controller) (fid : Nat) (part : Nat := 0) : Nat := Sparse.get 0 x.features (featureKey fid part)
/-- The queue after `last` in the order of identifiers, the lowest again after the highest. -/
def nextInTurn (ids : List Nat) (last : Nat) : Option Nat := ((ids.filter fun i => decide (last < i)).min?).or ids.min?
/-- Queues of an arbitration group with entries to serve (`Arbiter`). -/
def Controller.inGroup (x : Controller) (g : Nat) : List Nat :=
  (x.sqs.filter fun q => q.waits && q.deleting.isNone && (g == 0 || (q.id != 0 && q.prio + 1 == g))).map (·.id)
/-- Commands that one queue may take in a row: two to the power of Arbitration Burst, any number for 7 (log 160). -/
def Controller.burstLimit (x : Controller) : Option Nat :=
  let ab := x.feature 0x01 % 8
  if ab = 7 then none else some (2 ^ ab)
/-- Commands that High, Medium or Low (0 to 2) may take in a round: their 0-based weights of the Arbitration feature. -/
def Controller.weight (x : Controller) (k : Nat) : Nat := x.feature 0x01 / 2 ^ (24 - 8 * k) % 256 + 1
/-- Serves a group in round robin: its queue goes on while its burst lasts, then the next in turn. -/
def Controller.serveGroup (x : Controller) (g : Nat) (a : Arbiter) : Option (Nat × Arbiter) :=
  let ids := x.inGroup g
  let last := a.last.toList.getD g 0
  let n := a.burst.toList.getD g 0
  let more := ids.contains last && (match x.burstLimit with | none => true | some b => decide (n < b))
  if more then some (last, { a with burst := a.burst.setIfInBounds g (n + 1) })
  else (nextInTurn ids last).map fun i => (i, { a with last := a.last.setIfInBounds g i, burst := a.burst.setIfInBounds g 1 })
/-- Serves High, Medium or Low: the highest with entries that has something left in the round; a new round where none has. -/
def Controller.serveWeighted (x : Controller) (a : Arbiter) : Option (Nat × Arbiter) :=
  let ready (a : Arbiter) := [0, 1, 2].find? fun k => !(x.inGroup (k + 2)).isEmpty && decide (0 < a.left.toList.getD k 0)
  let fresh : Arbiter := { a with left := Vector.ofFn fun k => x.weight k }
  let serve (a : Arbiter) (k : Nat) := x.serveGroup (k + 2) { a with left := a.left.setIfInBounds k (a.left.toList.getD k 0 - 1) }
  match ready a with
  | some k => serve a k
  | none => (ready fresh).bind (serve fresh)
/-- The submission queue that a controller serves next, and its arbitration after that (R324): round robin over all, or the admin queue, the
Urgent queues in round robin, then High, Medium and Low by their weights. -/
def Controller.serveNext (x : Controller) : Option (Nat × Arbiter) :=
  if !x.weighted then x.serveGroup 0 x.arbiter
  else if x.sqs.any (fun q => q.id == 0 && q.waits) then some (0, x.arbiter)
  else (x.serveGroup 1 x.arbiter).or (x.serveWeighted x.arbiter)
/-- Submission queues that are allocated: 4,095 until Number of Queues is set. -/
def Controller.sqAllocated (x : Controller) : Nat := (Sparse.get 0x0FFE0FFE x.features 0x07) % 0x10000 + 1
/-- Completion queues that are allocated. -/
def Controller.cqAllocated (x : Controller) : Nat := (Sparse.get 0x0FFE0FFE x.features 0x07) / 0x10000 + 1
/-- Whether reads of unwritten blocks fail (R334): bit 16 of Error Recovery for the namespace. -/
def Controller.unwrittenFails (x : Controller) (nsid : Nat) : Bool := (x.feature 0x05 nsid).testBit 16
/-- Identifiers of the features. -/
def features : List Nat := [0x01, 0x02, 0x04, 0x05, 0x07, 0x08, 0x09, 0x0A, 0x0B, 0x0E]

/-! ### Checks 1 to 7 (R336) -/

/-- Admin opcodes (R326). -/
def adminOpcodes : List Nat := [0x00, 0x01, 0x02, 0x04, 0x05, 0x06, 0x08, 0x09, 0x0A, 0x0C, 0x10, 0x11, 0x14, 0xC0, 0xC1]
/-- Opcodes of media commands (R325). -/
def mediaOpcodes : List Nat := [opWrite, opRead, opVerify, opZoneSend, opZoneAppend]
/-- I/O opcodes (R327). -/
def ioOpcodes : List Nat := [opFlush, opZoneReceive] ++ mediaOpcodes
/-- Whether a command is a media command. -/
def Cmd.media (c : Cmd) : Bool := c.ref.sq != 0 && mediaOpcodes.contains c.sqe.opcode
/-- Whether an I/O opcode names a range of blocks. -/
def rangeOpcode (op : Nat) : Bool := op == opRead || op == opWrite || op == opVerify || op == opZoneAppend
/-- Log identifiers (R353). -/
def logPages : List Nat := [0x01, 0x02, 0x03, 0x04, 0x05, 0x06, 0xBF]
/-- Identify selections (R326). -/
def identifyCns : List Nat := [0x00, 0x01, 0x02, 0x03, 0x05, 0x06, 0x08, 0x1C]
/-- Services of Get Object and of Set Object (R369). -/
def getServices : List Nat := [0x01, 0x03, 0x04, 0x09]
/-- Services of Set Object. -/
def setServices : List Nat := [0x02, 0x05, 0x06, 0x07, 0x08]


/-- Check 2: the NSID is a namespace of the variant, or 0xFFFF_FFFF where the command allows it (R7). A command that acts on no namespace takes 0
too; which admin commands allow 0xFFFF_FFFF and 0 beside Flush, Device Self-test and the object commands (R342, R350, R384) is the model's
choice (log entry 159). -/
def State.nsidOk (s : State) (admin : Bool) (e : Sqe) : Bool :=
  let valid := decide (1 ≤ e.nsid ∧ e.nsid ≤ 2 * s.otp.variant.spindles)
  let all := e.nsid == allNamespaces
  let unnamed := e.nsid == 0
  if !admin then valid || (all && e.opcode == opFlush)
  else match e.opcode with
  | 0x06 => match e.cdw10 % 256 with
    | 0x00 => valid || all
    | 0x03 => valid
    | 0x05 => valid
    | 0x08 => valid
    | _ => valid || all || unnamed
  | 0x09 => valid || all || (unnamed && e.cdw10 % 256 != 0x05)
  | 0x0A => valid || all || (unnamed && e.cdw10 % 256 != 0x05)
  | 0x14 => valid || all
  | 0xC0 => unnamed
  | 0xC1 => unnamed
  | _ => valid || all || unnamed

/-- Check 3: reserved fields, actions, selections and identifiers. -/
def fieldCheck (admin : Bool) (e : Sqe) : Option Status :=
  let ok : Bool :=
    if !admin then match e.opcode with
      | 0x79 => [1, 2, 3, 4, 5].contains e.zoneAction
      | 0x7A => e.cdw13 % 256 == 0
      | _ => true
    else match e.opcode with
      | 0x06 => identifyCns.contains (e.cdw10 % 256)
      | 0x09 => features.contains e.fid && !(e.fid == 0x05 && e.cdw11 % 0x10000 != 0) && !(e.fid == 0x02 && decide (3 < e.cdw11 % 32))
      | 0x0A => features.contains e.fid && e.cdw10 / 0x100 % 8 != 2 && decide (e.cdw10 / 0x100 % 8 ≤ 3)
      | 0x10 => decide (e.commitAction ≤ 3) && (e.commitSlot == 1 || e.commitSlot == 2)
      | 0x11 => (e.cdw10 + 1) % 1024 == 0 && e.cdw11 % 1024 == 0
      | 0x14 => [1, 2, 0xF].contains (e.cdw10 % 16)
      | 0xC0 => getServices.contains (e.cdw13 % 256) && e.cdw13 / 256 == 0
      | 0xC1 => setServices.contains (e.cdw13 % 256) && e.cdw13 / 256 == 0
      | _ => true
  if admin && e.opcode == 0x02 && !logPages.contains (e.cdw10 % 256) then some .invalidLogPage
  else if e.reservedZero && ok then none
  else some .invalidField

/-- Bytes that check 7 asks of an SGL. -/
def dataNeed (admin : Bool) (e : Sqe) : Nat :=
  if !admin then (if e.opcode == opRead || e.opcode == opWrite || e.opcode == opZoneAppend then (e.nlb + 1) * 4096 else 0)
  else if e.opcode == 0xC0 || e.opcode == 0xC1 then e.cdw12 % 0x10000 else 0

/-- Checks 1 to 7 in their order. -/
def State.fetchCheck (s : State) (admin : Bool) (e : Sqe) : Option Status :=
  let range := !admin && rangeOpcode e.opcode
  let zone := !admin && (e.opcode == opZoneSend || e.opcode == opZoneReceive) && !e.selectAll
  if !(if admin then adminOpcodes else ioOpcodes).contains e.opcode then some .invalidOpcode
  else if !s.nsidOk admin e then some .invalidNamespace
  else match fieldCheck admin e with
  | some st => some st
  | none =>
    if range && decide (512 < e.nlb + 1) then some .invalidField
    else if (range && decide (namespaceBlocks ≤ e.slba + e.nlb)) || (zone && decide (namespaceBlocks ≤ e.slba)) then some .lbaOutOfRange
    else if e.sgl == .other then some .sglTypeInvalid
    else if e.sgl != .prp && decide (e.dataLength < dataNeed admin e) then some .sglLengthInvalid
    else none

/-! ### Bound misses and histograms (R355, R356, R361) -/

/-- A latency enters its histogram: kind 0 dispatch, 1 data to completion, 2 whole Read or Verify, 3 whole write. -/
def State.tally (s : State) (kind cls ns : Nat) : State :=
  let k := 64 * (4 * kind + cls) + min 63 (Nat.log2 ns)
  { s with host := { s.host with latency := Sparse.put 0 s.host.latency k ((Sparse.get 0 s.host.latency k + 1) % 2 ^ 32) } }

/-- Causes of EV_HOST_BOUND_MISS in the order of R356, then the on-ramp's mode (R435). -/
inductive MissCause where
  | powerOrLink | busy | tollgate | onRamp | buffer | compatibility
deriving DecidableEq, Repr

/-- Number of a cause (numbering of the model). -/
def MissCause.code : MissCause → Int
  | .powerOrLink => 1 | .busy => 2 | .tollgate => 3 | .onRamp => 4 | .buffer => 5 | .compatibility => 6

/-- The bound of an Urgent command does not hold; `bound` 0 is dispatch, 1 completion. -/
def State.boundMiss (s : State) (c : Cmd) (bound : Int) (why : Option MissCause) : State :=
  match why with
  | none => s
  | some w =>
    if c.cls = 0 then
      (s.bump Obj.urgentBoundMisses c.ref.ctrl 0).report Isl.host Ev.hostBoundMiss [(c.ref.ctrl.val + 1 : Nat), bound, w.code]
    else s

/-- The first two conditions of R356. -/
def State.boundCause (s : State) (c : CtrlId) : Option MissCause :=
  let x := s.host.ctrls[c]
  if 2 ≤ s.host.powerState || x.link != 2 then some .powerOrLink
  else if x.mode != .ready || s.host.activation.isSome || s.host.powerEntry.isSome then some .busy
  else none

/-! ### Namespaces and zones at dispatch (R329, R333, R335) -/

/-- Zone of a block. -/
def zoneOf (lba : Nat) : Nat := lba / zoneBlocks

/-- Whether the spindle's mount is under way for DNR of Namespace Not Ready. -/
def State.comesReady (s : State) (p : PickupId) : Bool := s.mountRuns p.spindle

/-- Whether a pickup's mount after PS2 or a suspended entry is still to end (R348, R349). -/
def State.exiting (s : State) (p : PickupId) : Bool :=
  s.host.powerExit && ((s.sides[p]).doorKept || s.mountRuns p.spindle) && (s.pickups[p]).mountResult == .mounting

/-- Clusters that the write buffer of a side holds or has promised to dispatched writes. -/
def State.promisedClusters (s : State) (p : PickupId) : List Nat :=
  let held := (s.sides[p]).buffer.map fun b => b.lba / 64
  let coming := (s.host.cmds.filter fun c => c.isWrite && c.sqe.nsid == nsidOf p && !c.dataIn && c.result.isNone
      && (c.stage == .stalled || c.stage == .onRamp || c.stage == .taken)).flatMap fun c =>
    (List.range ((c.lba + c.sqe.nlb) / 64 - c.lba / 64 + 1)).map fun i => c.lba / 64 + i
  (held ++ coming).eraseDups

/-- Whether a write's blocks fit in the buffer of 512 clusters (R335). -/
def State.fits (s : State) (p : PickupId) (lba nlb : Nat) : Bool :=
  let new := (List.range ((lba + nlb) / 64 - lba / 64 + 1)).map fun i => lba / 64 + i
  decide (((s.promisedClusters p) ++ new).eraseDups.length ≤ 512)

/-- Limits of active and open zones (R333). -/
def zoneLimit : Nat := 8

/-- Check 12 for `n` zones that become open, `m` of them not yet active. -/
def Side.limitCheck (x : Side) (n m : Nat) : Option Status :=
  if zoneLimit < x.zonesIn ZoneState.active + m then some .tooManyActive
  else if zoneLimit < x.zonesIn ZoneState.open_ + n then some .tooManyOpen
  else none

/-- Whether an action is allowed in a zone state (R332). -/
def ZoneState.allows (z : ZoneState) (action : Nat) : Bool :=
  match action with
  | 1 => z.open_
  | 2 => z == .empty || z.active
  | 3 => z == .empty || z == .closed
  | _ => false

/-- Zones that a Select All applies to. -/
def State.selected (s : State) (p : PickupId) (action : Nat) : List Nat :=
  (List.range zoneCount).filter fun z =>
    let st := (s.zone p z).state
    match action with
    | 1 => st.active
    | 2 => st.active
    | 3 => st == .closed
    | _ => false

/-- Checks 8 to 12 of a media command (R336); a Full zone has no place where a Zone Append could land, so check 10 answers it. -/
def State.dispatchCheck (s : State) (p : PickupId) (c : Cmd) : Option Status :=
  let z := zoneOf c.sqe.slba
  let zone := s.zone p z
  let off := c.sqe.slba % zoneBlocks
  let first := if c.io opZoneAppend && zone.state != .full then zone.wp else off
  if s.namespaceState p ≠ 2 then some (.namespaceNotReady (!s.comesReady p))
  else if c.isWrite && decide (zoneBlocks ≤ first + c.sqe.nlb) then some .zoneBoundary
  else if c.isWrite && zone.state == .full then some .zoneFull
  else if c.isWrite && zone.state == .readOnly then some .zoneReadOnly
  else if c.io opZoneSend && (decide (4 ≤ c.sqe.zoneAction) || (!c.sqe.selectAll && !zone.state.allows c.sqe.zoneAction)) then
    some .invalidZoneTransition
  else if c.io opWrite && off != zone.wp then some .zoneInvalidWrite
  else if c.io opZoneAppend && off != 0 then some .invalidField
  else if c.isWrite then
    (s.sides[p]).limitCheck (if zone.state.open_ then 0 else 1) (if zone.state.active then 0 else 1)
  else if c.io opZoneSend && c.sqe.zoneAction == 3 then
    if c.sqe.selectAll then (s.sides[p]).limitCheck (s.selected p 3).length 0
    else (s.sides[p]).limitCheck 1 (if zone.state.active then 0 else 1)
  else none

/-! ### The tollgate (R338, R339) -/

/-- Modes of an entry. -/
abbrev tollRead : Nat := 0
abbrev tollFilling : Nat := 1
abbrev tollBuffered : Nat := 2
abbrev tollZone : Nat := 3

/-- Mode that a command takes. -/
def Cmd.tollMode (c : Cmd) : Nat := if c.isWrite then tollFilling else if c.io opZoneSend then tollZone else tollRead

/-- The first n free entries for a command; Urgent ones may take all, the others only 64 and above. -/
def State.freeTolls (s : State) (urgent : Bool) (n : Nat) : List Nat :=
  ((List.range 1024).filter fun i => (urgent || decide (64 ≤ i)) && (Sparse.find i s.host.tolls).isNone).take n

/-- Whether a later command stalls on an earlier entry's mode (the table of R339). -/
def stalls (later earlier : Nat) : Bool :=
  if later = tollRead then earlier == tollFilling
  else if later = tollZone then earlier == tollFilling || earlier == tollZone
  else earlier == tollRead || earlier == tollZone

/-- Whether an earlier entry overlaps a command in a way that stalls it. -/
def State.stalled (s : State) (c : Cmd) : Bool :=
  let mine := s.host.tolls.filter fun t => t.2.cmd == c.ref
  mine.any fun m => s.host.tolls.any fun t =>
    decide (t.2.order < m.2.order) && t.2.ns == m.2.ns && stalls c.tollMode t.2.mode
      && decide (t.2.start < m.2.start + m.2.count ∧ m.2.start < t.2.start + t.2.count)

/-- Ranges that a command's entries cover. -/
def State.tollRanges (s : State) (p : PickupId) (c : Cmd) (lba : Nat) : List (Nat × Nat) :=
  if c.io opZoneSend then
    (if c.sqe.selectAll then s.selected p c.sqe.zoneAction else [zoneOf c.sqe.slba]).map fun z => (z * zoneBlocks, zoneBlocks)
  else [(lba, c.sqe.nlb + 1)]

/-- Entries are taken for a command; `TollgateEntriesMax` follows. -/
def State.takeTolls (s : State) (c : Cmd) (order : Nat) (slots : List Nat) (ranges : List (Nat × Nat)) : State :=
  let s := s.forEach (slots.zip ranges) fun s x => { s with host := { s.host with
    tolls := Sparse.insert x.1 { mode := c.tollMode, cmd := c.ref, ns := c.sqe.nsid, start := x.2.1, count := x.2.2, order := order }
      s.host.tolls } }
  (s.updCmd c.ref fun c => { c with tollgate := slots.head? }).maxOb Obj.tollgateEntriesMax 0 0 s.host.tolls.length

/-- On-ramp of a media command (R325). -/
def rampOf (k : CmdRef) (p : PickupId) : RampId := ⟨8 * p.val + 4 * k.ctrl.val + k.sq % 4, by have := p.isLt; have := k.ctrl.isLt; omega⟩

/-- A command's item goes to its on-ramp; answers what misses the dispatch bound there. -/
def State.toRamp (s : State) (p : PickupId) (c : Cmd) (order : Nat) : State × Option MissCause :=
  let k := rampOf c.ref p
  let full := (s.ramps[k]).waiting.length
  let s := s.rampPut k { cmd := c.ref, cls := c.cls, order := order, tollgate := c.tollgate.getD 0, aborted := false, slot := 0
                         oldMode := none }
  let s := s.updCmd c.ref fun c => { c with stage := .onRamp }
  (s, if full < (s.ramps[k]).waiting.length then some .onRamp else if s.obN Obj.onRampMode k = 1 then some .compatibility else none)

/-! ### Commands that leave (R198, R338, R341, R343) -/

/-- A command's entries are released. -/
def State.releaseTolls (s : State) (k : CmdRef) : State :=
  { s with host := { s.host with tolls := s.host.tolls.filter fun t => t.2.cmd != k } }

/-- A command waits on no cluster any more: a ladder that nobody waits on ends at its next rung boundary, or at once after a reset; a
read without one is dropped (R198). -/
def State.leaveReads (s : State) (k : CmdRef) (atOnce : Bool) : State :=
  s.forEach (allFin 8) fun s p =>
    let hit := (s.sides[p]).reads.filter fun r => r.waiting.contains k
    s.forEach hit fun s r =>
      let s := s.updRead p r.layer r.q fun r => { r with waiting := r.waiting.filter fun x => x != k }
      if r.waiting.all (fun x => x == k) then
        if r.ladder.isSome && !atOnce then
          s.updRead p r.layer r.q fun r => { r with ladder := r.ladder.map fun l => { l with endAtBoundary := true } }
        else s.discardRead p r.layer r.q
      else s

/-- A command's item leaves its on-ramp; a full filling bank beside a draining bank that this empties takes its place (R430). -/
def State.leaveRamps (s : State) (gone : CmdRef → Bool) : State :=
  { s with ramps := s.ramps.map fun r =>
    let keep (l : List RampItem) : List RampItem := l.filter fun x => !gone x.cmd
    let old := r
    let r := { r with filling := keep r.filling, draining := keep r.draining, waiting := keep r.waiting }
    let r := { r with timer := r.timer && decide (r.filling ≠ [] ∨ r.draining ≠ []), attention := r.attention && decide (r.draining ≠ []) }
    (r.settle false false).timed old s.time }

/-- A write leaves the buffer before its commit point: the write pointer falls back to its first block that no formed run holds, and
later writes of the zone fail (R230, R341). -/
def State.withdrawWrite (s : State) (p : PickupId) (c : Cmd) : State :=
  let z := zoneOf c.lba
  let held := ((s.sides[p]).buffer.filter fun b => b.owner == c.ref && b.inRun).map fun b => b.lba % zoneBlocks + 1
  let first := max (c.lba % zoneBlocks) (held.max?.getD 0)
  s.withdrawFrom p z first

/-- A command that is dispatched leaves everything: on-ramp, reads, write buffer. -/
def State.withdraw (s : State) (c : Cmd) : State :=
  let s := match pickupOf c.sqe.nsid with
    | some p => if c.isWrite && c.dispatched then s.withdrawWrite p c else s
    | none => s
  s.leaveReads c.ref false

/-! ### Admin commands -/

/-- What the row of a command that the cores run does: it acts on a command that was fetched and passed its checks, once the image runs
and its completion slot is free; its commit point is then reached (R340). -/
def State.onCores (s : State) (k : CmdRef) (mine : Cmd → Bool) (f : State → Cmd → State) : Out :=
  s.when s.coreUp fun s =>
    match s.cmd? k with
    | some c =>
      if c.stage == .fetched && c.result.isNone && mine c && s.mayCommit k then
        f ((s.commit k).updCmd k fun c => { c with stage := .taken }) c
      else s
    | none => s

/-- The same for an admin command. -/
def State.admin (s : State) (k : CmdRef) (mine : Cmd → Bool) (f : State → Cmd → State) : Out :=
  s.onCores k (fun c => k.sq == 0 && mine c) f

/-- Whether a command has an opcode. -/
def Cmd.op (n : Nat) (c : Cmd) : Bool := c.sqe.opcode == n

/-- Dword 0 of a completion. -/
def State.setDw0 (s : State) (k : CmdRef) (v : Nat) : State := s.updCmd k fun c => { c with dw0 := v }

/-- The self-test in progress ends with a result; the log keeps the last 20 (R352, R353). -/
def State.endSelfTest (s : State) (result segment : Nat) : State :=
  match s.host.selfTest with
  | none => s
  | some t =>
    { s with host := { s.host with
        selfTest := none, selfTestLog := ((result, segment, t.nsid) :: s.host.selfTestLog).take 20 } }.report Isl.host Ev.hostSelfTestEnd
      [(t.ctrl.val + 1 : Nat), (result : Int), (segment : Int)]

/-- Data that a command moves to host memory, as the fields of its structure. -/
def State.giveData (s : State) (k : CmdRef) (l : List Nat) : State := s.updCtrl k.ctrl fun x => { x with logPage := l }

end Sys2Proof.Machine
end

