-- ==== Sys2Proof/Machine/Queues.lean ====
section
/-! DEFINITION. Meanings of the commands of queues, dispatch and completion (chapter 9). -/

namespace Sys2Proof.Machine

/-! ### Doorbells and fetching (R324, R336, R348, R349, R357) -/

/-- Whether HOST answers a controller's queues. -/
def State.ctrlUp (s : State) (c : CtrlId) : Bool :=
  s.hostUp && match (s.host.ctrls[c]).mode with
    | .ready => true | .shuttingDown => true | .paused => true | _ => false

/-- DOORBELL_WRITE (R357): a submission queue's tail or a completion queue's head. -/
def execDoorbellWrite (c : CtrlId) (queue : Nat) (completion : Bool) (value : Nat) (s : State) : Out :=
  s.when (s.ctrlUp c) fun s =>
    let s := { s with host := { s.host with lastDoorbell := (2 * queue + (if completion then 1 else 0), value) } }
    if completion then s.updCq c queue fun q => if value < q.size then { q with head := value } else q
    else s.updSq c queue fun q => if value < q.size then { q with tail := value } else q

/-- The media come back after PS2 or a suspended entry (R348, R349). -/
def State.mountAgain (s : State) : State :=
  { s with host := { s.host with powerExit := true }, mem := { s.mem with selfRefresh := false } }.remountIdle

/-- The last operational state returns for an I/O command that arrives in PS2 (R349). -/
def State.leavePs2 (s : State) (c : CtrlId) : State :=
  let old := s.host.powerState
  let s := { s with host := { s.host with powerState := s.host.lastOperational } }
  (s.report Isl.host Ev.hostPowerState [(c.val + 1 : Nat), (old : Int), (s.host.lastOperational : Int)]).mountAgain

/-- A command that needs the media arrives while they are being taken down: entry is suspended, the media come back, and entry will
start anew (R348). -/
def State.suspendEntry (s : State) (k : CmdRef) : State :=
  match s.host.powerEntry with
  | some e =>
    if e.started && decide (2 ≤ e.toState) then
      let s := { s with host := { s.host with powerEntry := some { e with started := false, suspendedBy := some k } } }
      (s.report Isl.host Ev.hostPowerEntrySuspended [(k.ctrl.val + 1 : Nat), (k.sq : Int), (k.cid : Int)]).mountAgain
    else s
  | none => s

/-- COMMAND_FETCH (R324, R336): the next entry of the queue whose turn it is arrives, its class is fixed, and checks 1 to 7 are made. A command that an
Abort marked before it was fetched completes without execution (R341). -/
def execCommandFetch (c : CtrlId) (sq : Nat) (e : Sqe) (roundTripNs : Nat) (s : State) : Out :=
  let x := s.host.ctrls[c]
  s.when (s.hostUp && x.mode == .ready && !x.processingPaused && s.host.activation.isNone) fun s =>
    match x.sqs.find? fun q => q.id == sq with
    | none => s
    | some q =>
      let ref : CmdRef := { ctrl := c, sq := sq, cid := e.cid }
      let served := x.serveNext
      if served.map (·.1) != some sq || (s.cmd? ref).isSome then s
      else
        let admin := sq == 0
        let s := s.updCtrl c fun x => { x with arbiter := (served.map (·.2)).getD x.arbiter }
        let s := s.updSq c sq fun q => { q with head := (q.head + 1) % q.size }
        let s := s.maxOb Obj.fetchRoundTripMax c 0 roundTripNs
        let marked := x.abortMarks.contains ref
        let s := s.updCtrl c fun x => { x with abortMarks := x.abortMarks.filter fun y => y != ref }
        let st := if marked then some .abortRequested else s.fetchCheck admin e
        let new : Cmd := {
          ref := ref, sqe := e, cls := if x.weighted then q.prio else 2, fetchOrder := s.host.fetchCount, dispatchOrder := 0
          stage := if st.isSome then .done else .fetched, result := st, dw0 := 0, dw1 := 0, tollgate := none, lba := e.slba
          committed := false, dataIn := false, dataOut := [], covers := [], clustersLeft := 0, signpost := [] }
        let s := { s with host := { s.host with cmds := s.host.cmds ++ [new], fetchCount := s.host.fetchCount + 1 } }
        if admin || st.isSome then s
        else
          let s := if s.host.powerState = 2 then s.leavePs2 c else s
          if new.media then s.suspendEntry ref else s

/-! ### Dispatch (R325, R330, R335, R338, R339) -/

/-- The media command at the head of dispatch of a queue. -/
def State.dispatchHead (s : State) (c : CtrlId) (sq : Nat) : Option Cmd :=
  s.host.cmds.find? fun m => m.ref.ctrl == c && m.ref.sq == sq && m.media && (m.stage == .fetched || m.stage == .waiting) && m.result.isNone

/-- A command waits in dispatch: for the tollgate, or for buffer space. -/
def State.waitInDispatch (s : State) (m : Cmd) (toll : Bool) : State :=
  if m.stage = .waiting then s
  else
    let s := s.updCmd m.ref fun m => { m with stage := .waiting }
    let s := s.boundMiss m 0 (some (if toll then .tollgate else .buffer))
    if toll then
      let s := s.bump Obj.tollgateFullStalls 0 0
      if s.host.tollFullRun then s
      else { s with host := { s.host with tollFullRun := true } }.report Isl.host Ev.hostTollgateFull [(m.ref.ctrl.val + 1 : Nat)]
    else s

/-- A write takes its blocks at dispatch: the write pointer advances, an Empty or Closed zone opens, a zone at its capacity is Full. -/
def State.advanceZone (s : State) (p : PickupId) (lba nlb : Nat) : State :=
  s.updZone p (zoneOf lba) fun z =>
    let wp := lba % zoneBlocks + nlb + 1
    { z with wp := wp, state := if zoneBlocks ≤ wp then .full else if z.state.open_ then z.state else .implicitlyOpened }

/-- DISPATCH (R325, R336 to R339): checks 8 to 12, room in the write buffer, the tollgate entry, then the on-ramp or a stall. -/
def execDispatch (c : CtrlId) (sq : Nat) (latencyNs : Nat) (s : State) : Out :=
  s.when (s.hostUp && s.memUp && (s.host.ctrls[c]).mode != .disabled) fun s =>
    match s.dispatchHead c sq with
    | none => s
    | some m =>
      match pickupOf m.sqe.nsid with
      | none => s
      | some p =>
        if s.exiting p then s
        else match s.dispatchCheck p m with
        | some st => (s.updCmd m.ref fun m => { m with stage := .done }).finishCmd m.ref st
        | none =>
          let lba := if m.io opZoneAppend then zoneOf m.sqe.slba * zoneBlocks + (s.zone p (zoneOf m.sqe.slba)).wp else m.sqe.slba
          let ranges := s.tollRanges p m lba
          let slots := s.freeTolls (m.cls == 0) ranges.length
          if m.isWrite && !s.fits p lba m.sqe.nlb then s.waitInDispatch m false
          else if slots.length < ranges.length then s.waitInDispatch m true
          else
            let order := s.host.dispatchCount
            let s := { s with host := { s.host with dispatchCount := order + 1, tollFullRun := false } }
            let s := s.updCmd m.ref fun m => { m with
              lba := lba, dispatchOrder := order
              dw0 := if m.io opZoneAppend then lba % 2 ^ 32 else 0, dw1 := if m.io opZoneAppend then lba / 2 ^ 32 else 0 }
            let s := s.takeTolls m order slots ranges
            let s := if m.isWrite then s.advanceZone p lba m.sqe.nlb else s
            let late : Option MissCause := if m.cls == 0 && !(slots.all fun i => decide (i < 64)) then some .tollgate else none
            let before := (s.boundCause c).or late
            let missed := m.stage == .waiting
            match s.cmd? m.ref with
            | none => s
            | some m =>
              if s.stalled m then
                let s := (s.bump Obj.tollgateStalls 0 0).updCmd m.ref fun m => { m with stage := .stalled }
                if missed then s else s.boundMiss m 0 (before.or (some .tollgate))
              else
                let (s, why) := s.toRamp p m order
                let s := s.tally 0 m.cls latencyNs
                if missed then s else s.boundMiss m 0 (before.or why)

/-- TOLLGATE_STALL_RELEASE (R339): a command that no earlier entry stalls any more goes onto its on-ramp. A write behind a Finish finds
its zone sealed and is answered as check 10 would answer it now (R336). -/
def execTollgateStallRelease (k : CmdRef) (latencyNs : Nat) (s : State) : Out :=
  s.when (s.hostUp && s.memUp) fun s =>
    match s.cmd? k with
    | none => s
    | some m =>
      match pickupOf m.sqe.nsid with
      | none => s
      | some p =>
        let z := s.zone p (zoneOf m.lba)
        if m.stage != .stalled || s.stalled m then s
        else if m.result.isSome then s.updCmd k fun m => { m with stage := .done }
        else if m.isWrite && z.state == .readOnly then (s.updCmd k fun m => { m with stage := .done }).finishCmd k .zoneReadOnly
        else if m.isWrite && z.state == .full && (z.sealRequested || z.digestState == .sealed) then
          (s.updCmd k fun m => { m with stage := .done }).finishCmd k .zoneFull
        else ((s.toRamp p m m.dispatchOrder).1).tally 0 m.cls latencyNs

/-! ### Commit points and completions (R337, R340, R358) -/

/-- Whether every write that a Flush covers has ended (R342). -/
def State.flushDue (s : State) (m : Cmd) : Bool :=
  m.io opFlush && m.stage == .taken && m.covers.all fun k => match s.cmd? k with
    | some c => c.result.isSome
    | none => true

/-- COMMIT_POINT (R340): a command whose result is known, a Flush whose writes have ended, or a Read whose data is about to flow gets a
slot of its completion queue. -/
def execCommitPoint (k : CmdRef) (s : State) : Out :=
  s.when s.hostUp fun s =>
    match s.cmd? k, s.cqOf k with
    | some m, some q =>
      if m.committed || q.free = 0 then s
      else if m.result.isNone && s.flushDue m then (s.finishCmd k .success).commit k
      else if m.result.isSome || (m.io opRead && m.stage == .taken && m.dataOut != []) then s.commit k
      else s
    | _, _ => s

/-- Whether a command's clusters have all ended, or its result does not wait for them. -/
def Cmd.ended (m : Cmd) : Bool :=
  match m.result with
  | none => false
  | some st => m.clustersLeft == 0 || decide (st.rank ≤ 2) || !(m.io opRead || m.io opVerify)

/-- An error completion (R337): counted, recorded, and kept in the Error Information log until its record's number is known. -/
def State.errorCompletion (s : State) (m : Cmd) (st : Status) (code : Int) : State :=
  if st = .success then s
  else
    let tag := s.host.errorTags
    let s := (s.bump Obj.errorCompletions m.ref.ctrl 0).updCtrl m.ref.ctrl fun x => { x with
      errors := ({ tag := tag, ref := m.ref, status := st, eventSeq := none } :: x.errors).take 64 }
    let s := { s with host := { s.host with
      errorTags := tag + 1
      mediaErrors := s.host.mediaErrors + (if st == Status.unrecoveredRead || st == Status.writeFault then 1 else 0) } }
    s.push Isl.host { code := Ev.hostErrorCompletion, payload := [(m.ref.ctrl.val + 1 : Nat), (m.ref.sq : Int), (m.ref.cid : Int), code]
                      reserved := none, errorEntry := some tag }

/-- Numbers of the statuses in EV_HOST_ERROR_COMPLETION (numbering of the model). -/
def Status.code : Status → Int
  | .success => 0 | .invalidOpcode => 1 | .invalidField => 2 | .invalidNamespace => 3 | .lbaOutOfRange => 4 | .sglTypeInvalid => 5
  | .sglLengthInvalid => 6 | .namespaceNotReady _ => 7 | .zoneBoundary => 8 | .zoneFull => 9 | .zoneReadOnly => 10
  | .invalidZoneTransition => 11 | .zoneInvalidWrite => 12 | .tooManyActive => 13 | .tooManyOpen => 14 | .abortRequested => 15
  | .abortedSqDeletion => 16 | .internalError => 17 | .transferError => 18 | .writeFault => 19 | .unrecoveredRead => 20
  | .unwrittenBlock => 21 | .invalidQueueId => 22 | .invalidQueueSize => 23 | .invalidQueueDeletion => 24 | .invalidVector => 25
  | .cqInvalid => 26 | .abortLimit => 27 | .notSaveable => 28 | .invalidImage => 29 | .activationProhibited => 30
  | .selfTestInProgress => 31 | .invalidLogPage => 32 | .aerLimit => 33 | .signpostAbort => 34

/-- Whether completions of a queue are coalesced (R354): feature 0x08 gives a threshold and a time, no Urgent submission queue uses the
queue, and feature 0x09 does not disable it for the vector; never for the admin queue. -/
def Controller.coalesces (x : Controller) (q : Cq) : Bool :=
  let v := x.feature 0x08
  q.id != 0 && decide (0 < v % 256) && decide (0 < v / 256 % 256)
    && !(x.sqs.any fun y => y.cq == q.id && y.id != 0 && x.weighted && y.prio == 0) && !(x.feature 0x09 (q.vector + 1)).testBit 16

/-- The MSI-X message of a completion, or one more completion that a held message stands for. -/
def State.interrupt (s : State) (c : CtrlId) (cq : Nat) : State :=
  let x := s.host.ctrls[c]
  match s.cq? c cq with
  | none => s
  | some q =>
    if x.coalesces q && q.interruptHeld < x.feature 0x08 % 256 then s.updCq c cq fun q => { q with interruptHeld := q.interruptHeld + 1 }
    else (s.updCq c cq fun q => { q with interruptHeld := 0 }).updCtrl c fun x => { x with interrupts := x.interrupts + 1 }

/-- A Delete I/O Submission Queue whose queue has no command left is done. -/
def State.settleDeletion (s : State) (c : CtrlId) (sq : Nat) : State :=
  match s.sq? c sq with
  | some q =>
    match q.deleting with
    | some d =>
      if s.host.cmds.any fun m => m.ref.ctrl == c && m.ref.sq == sq then s
      else (s.updCtrl c fun x => { x with sqs := x.sqs.filter fun y => y.id != sq }).finishCmd d .success
    | none => s
  | none => s

/-- A normal shutdown ends once the controller's commands have completed and nothing is buffered any more (R344). -/
def State.settleShutdown (s : State) (c : CtrlId) : State :=
  let x := s.host.ctrls[c]
  let busy := s.host.cmds.any (fun m => m.ref.ctrl == c && !x.aers.contains m.ref)
    || (allFin 8).any fun p => (s.sides[p]).buffer != []
  if x.mode == .shuttingDown && !busy then
    (s.updCtrl c fun x => { x with mode := .disabled, shst := 2 }).report Isl.host Ev.hostShutdown [(c.val + 1 : Nat), 0]
  else s

/-- The normal shutdowns that can end now. -/
def State.settleShutdowns (s : State) : State := s.forEach (allFin 2) fun s c => s.settleShutdown c

/-- COMPLETION_POST (R337, R338, R358): the entry is written to its reserved slot; the tollgate entry, the histograms, the error log and
the interrupt follow. -/
def execCompletionPost (k : CmdRef) (dataNs wholeNs : Nat) (s : State) : Out :=
  s.when (s.hostUp && (s.host.ctrls[k.ctrl]).mode != .resetting) fun s =>
    match s.cmd? k, s.cqOf k with
    | some m, some q =>
      match m.result with
      | none => s
      | some st =>
        if !m.committed || !m.ended then s
        else
          let s := s.updCq k.ctrl q.id fun q => { q with tail := (q.tail + 1) % q.size, reserved := q.reserved - 1 }
          let s := s.updCtrl k.ctrl fun x => { x with
            posted := { ref := k, status := st, dw0 := m.dw0, dw1 := m.dw1 } :: x.posted, aers := x.aers.filter fun y => y != k }
          let s := (s.bump Obj.commandsCompleted k.ctrl 0).errorCompletion m st st.code
          let data := m.io opRead || m.isWrite
          let s := if data then s.tally 1 m.cls dataNs else s
          let s := if m.io opRead || m.io opVerify then s.tally 2 m.cls wholeNs else if m.isWrite then s.tally 3 m.cls wholeNs else s
          let s := if data then s.boundMiss m 1 (s.boundCause k.ctrl) else s
          let s := (s.releaseTolls k).leaveReads k false
          let s := { s with host := { s.host with cmds := s.host.cmds.filter fun x => x.ref != k } }
          ((s.interrupt k.ctrl q.id).settleDeletion k.ctrl k.sq).settleShutdowns
    | _, _ => s

/-! ### Queue management (R323, R326) -/

/-- DELETE_IO_SUBMISSION_QUEUE (R326, R337): commands before their commit points complete with Command Aborted due to SQ Deletion; the
command completes when every command of the queue has. -/
def execDeleteIoSubmissionQueue (k : CmdRef) (s : State) : Out :=
  s.admin k (Cmd.op 0x00) fun s c =>
    let id := c.sqe.cdw10 % 0x10000
    if id = 0 || (s.sq? k.ctrl id).isNone then s.finishCmd k .invalidQueueId
    else
      let mine := s.host.cmds.filter fun m => m.ref.ctrl == k.ctrl && m.ref.sq == id && !m.committed && m.result.isNone
      let s := s.forEach mine fun s m => (s.withdraw m).finishCmd m.ref .abortedSqDeletion
      (s.updSq k.ctrl id fun q => { q with deleting := some k }).settleDeletion k.ctrl id

/-- CREATE_IO_SUBMISSION_QUEUE (R323): CDW10 holds the identifier and the size less one, CDW11 the priority in [2:1] and the
completion queue in [31:16]. -/
def execCreateIoSubmissionQueue (k : CmdRef) (s : State) : Out :=
  s.admin k (Cmd.op 0x01) fun s c =>
    let x := s.host.ctrls[k.ctrl]
    let id := c.sqe.cdw10 % 0x10000
    let size := c.sqe.cdw10 / 0x10000 + 1
    let cq := c.sqe.cdw11 / 0x10000
    if id = 0 || x.sqAllocated < id || (s.sq? k.ctrl id).isSome then s.finishCmd k .invalidQueueId
    else if queueEntries < size || size < 2 then s.finishCmd k .invalidQueueSize
    else if cq = 0 || (s.cq? k.ctrl cq).isNone then s.finishCmd k .cqInvalid
    else (s.updCtrl k.ctrl fun x => { x with sqs := x.sqs ++
      [{ id := id, cq := cq, size := size, prio := c.sqe.cdw11 / 2 % 4, head := 0, tail := 0, deleting := none }] }).finishCmd k .success

/-- DELETE_IO_COMPLETION_QUEUE (R326): Invalid Queue Deletion while a submission queue uses it. -/
def execDeleteIoCompletionQueue (k : CmdRef) (s : State) : Out :=
  s.admin k (Cmd.op 0x04) fun s c =>
    let id := c.sqe.cdw10 % 0x10000
    if id = 0 || (s.cq? k.ctrl id).isNone then s.finishCmd k .invalidQueueId
    else if (s.host.ctrls[k.ctrl]).sqs.any fun q => q.cq == id then s.finishCmd k .invalidQueueDeletion
    else (s.updCtrl k.ctrl fun x => { x with cqs := x.cqs.filter fun q => q.id != id }).finishCmd k .success

/-- CREATE_IO_COMPLETION_QUEUE (R323, R326): CDW10 as above, CDW11 the interrupt vector in [31:16]. -/
def execCreateIoCompletionQueue (k : CmdRef) (s : State) : Out :=
  s.admin k (Cmd.op 0x05) fun s c =>
    let x := s.host.ctrls[k.ctrl]
    let id := c.sqe.cdw10 % 0x10000
    let size := c.sqe.cdw10 / 0x10000 + 1
    let vector := c.sqe.cdw11 / 0x10000
    if id = 0 || x.cqAllocated < id || (s.cq? k.ctrl id).isSome then s.finishCmd k .invalidQueueId
    else if queueEntries < size || size < 2 then s.finishCmd k .invalidQueueSize
    else if 2048 ≤ vector then s.finishCmd k .invalidVector
    else (s.updCtrl k.ctrl fun x => { x with cqs := x.cqs ++
      [{ id := id, size := size, vector := vector, head := 0, tail := 0, reserved := 0, interruptHeld := 0 }] }).finishCmd k .success

end Sys2Proof.Machine
end

