-- ==== Sys2Proof/Machine/Admin.lean ====
section
/-! DEFINITION. Meanings of the admin commands: log pages, Identify, Abort, features, asynchronous events and self-tests (chapter 9). -/

namespace Sys2Proof.Machine

/-! ### Log pages and Identify (R326, R328, R353) -/

/-- Blocks below the write pointers of a side (NUSE, R328). -/
def Side.used (x : Side) : Nat := (x.zones.map fun z => z.2.wp).foldl (fun a b => a + b) 0

/-- Share of the spares of all mounted sides that is free, in percent (R353). -/
def State.availableSpare (s : State) : Nat :=
  let sides := (allFin 8).filter fun p => (s.sides[p]).built
  let free := (sides.map fun p => ((allFin 4).map fun l => s.sparesFree p l.val).foldl (fun a b => a + b) 0).foldl (fun a b => a + b) 0
  if sides = [] then 100 else free * 100 / (4 * (positions - spareFrom) * sides.length)

/-- Whether every mounted side has exhausted its spares: Critical Warning bit 3. -/
def State.allExhausted (s : State) : Bool :=
  let sides := (allFin 8).filter fun p => (s.sides[p]).built
  decide (sides ≠ []) && sides.all fun p => (s.sides[p]).sparesExhaustedRecorded

/-- An Error Information entry as fields: number, queue, command, status, sequence number of its record. -/
def ErrorEntry.fields (e : ErrorEntry) : List Nat :=
  [e.tag + 1, e.ref.sq, e.ref.cid, e.status.code.toNat, e.eventSeq.getD 0]

/-- Content of a log page as the fields that the manual names. -/
def State.logContent (s : State) (c : CtrlId) (page nsid : Nat) : List Nat :=
  let x := s.host.ctrls[c]
  match page with
  | 0x01 => x.errors.flatMap ErrorEntry.fields
  | 0x02 => [(if s.allExhausted then 8 else 0), (s.value Obj.dieTemperature).natAbs, s.availableSpare, 10,
             100 - (s.value Obj.remainingMargin).toNat, s.host.mediaErrors, s.host.unsafeShutdowns]
  | 0x03 => [s.power.activeSlot + 1, s.power.pendingSlot.elim 0 (· + 1)] ++
             (List.finRange 2).map fun i => ((s.power.slots[i]).map fun m => m.revision).getD 0
  | 0x04 => x.changedNs
  | 0x05 => adminOpcodes ++ ioOpcodes
  | 0x06 => s.host.selfTestLog.flatMap fun t => [t.1, t.2.1, t.2.2]
  | _ => match pickupOf nsid with
    | some p => (s.sides[p]).changedZones
    | none => []

/-- GET_LOG_PAGE (R353): the two change lists are cleared as they are read. -/
def execGetLogPage (k : CmdRef) (s : State) : Out :=
  s.admin k (Cmd.op 0x02) fun s c =>
    let page := c.sqe.cdw10 % 256
    let s := s.giveData k (s.logContent k.ctrl page c.sqe.nsid)
    let s := match page with
      | 0x04 => s.updCtrl k.ctrl fun x => { x with changedNs := [] }
      | 0xBF => match pickupOf c.sqe.nsid with
        | some p => s.updS p fun x => { x with changedZones := [] }
        | none => s
      | _ => s
    s.finishCmd k .success

/-- Power states that the controllers report: largest power in 0.01 W (R553), entry and exit latency in microseconds (R347, R516). -/
def powerStates (v : Variant) : List Nat :=
  [maxPower v 0, 0, 0, maxPower v 1, 1100000, 1100000, maxPower v 2, 2100000, 10000000, maxPower v 3, 2100000, 1000000]

/-- Content of Identify as the fields that the manual names. -/
def State.identifyContent (s : State) (c : CtrlId) (cns nsid : Nat) : List Nat :=
  let names := (List.range (2 * s.otp.variant.spindles)).map (· + 1)
  let used := match pickupOf nsid with | some p => (s.sides[p]).used | none => 0
  match cns with
  | 0x00 => [namespaceBlocks, namespaceBlocks, used, 1, 12]
  | 0x01 => [Config.perDevice 0, c.val + 1, 9, 0x14, 8, 3000000, 3, 3, 3, 3, 3] ++ powerStates s.otp.variant
  | 0x02 => names.filter fun n => decide (nsid < n)
  | 0x03 => [nsid]
  | 0x05 => [7, 7, zoneBlocks, 1]
  | 0x06 => [9]
  | 0x08 => [1, 1]
  | _ => [0b101]

/-- IDENTIFY (R322, R326, R328, R330, R333). -/
def execIdentify (k : CmdRef) (s : State) : Out :=
  s.admin k (Cmd.op 0x06) fun s c => (s.giveData k (s.identifyContent k.ctrl (c.sqe.cdw10 % 256) c.sqe.nsid)).finishCmd k .success

/-! ### Abort (R341) -/

/-- Outstanding Aborts that a controller serves (R326). -/
def abortLimit : Nat := 4

/-- The item of a command on its on-ramp takes Aborted (R431). -/
def State.markAborted (s : State) (k : CmdRef) : State :=
  let mark (l : List RampItem) : List RampItem := l.map fun x => if x.cmd = k then { x with aborted := true } else x
  { s with ramps := s.ramps.map fun r => { r with filling := mark r.filling, draining := mark r.draining, waiting := mark r.waiting } }

/-- ABORT (R341): CDW10 names the queue in [15:0] and the command in [31:16]; `targetWaits` says that the entry still stands unfetched
in the queue. -/
def execAbort (k : CmdRef) (targetWaits : Bool) (s : State) : Out :=
  s.admin k (Cmd.op 0x08) fun s c =>
    let others := s.host.cmds.filter fun m => m.ref.ctrl == k.ctrl && m.ref.sq == 0 && m.op 0x08 && m.result.isNone && m.ref != k
    if abortLimit ≤ (others.filter fun m => decide (m.fetchOrder < c.fetchOrder)).length then s.finishCmd k .abortLimit
    else
      let t : CmdRef := { ctrl := k.ctrl, sq := c.sqe.cdw10 % 0x10000, cid := c.sqe.cdw10 / 0x10000 % 0x10000 }
      let unfetched := targetWaits && decide (t.sq ≠ 0) && match s.sq? t.ctrl t.sq with
        | some q => q.waits
        | none => false
      let (s, aborted) := match s.cmd? t with
        | some m =>
          if t.sq ≠ 0 && !m.committed then
            let s := s.withdraw m
            ((s.markAborted t).updCmd t fun m => { m with
              result := some .abortRequested, stage := if m.dispatched then m.stage else .done }, true)
          else (s, false)
        | none =>
          if unfetched then (s.updCtrl k.ctrl fun x => { x with abortMarks := x.abortMarks ++ [t] }, true) else (s, false)
      let s := s.bump (if aborted then Obj.abortsSucceeded else Obj.abortsNotAborted) k.ctrl 0
      let s := s.report Isl.host Ev.hostAbort [(k.ctrl.val + 1 : Nat), (t.sq : Int), (t.cid : Int), if aborted then 0 else 1]
      (s.setDw0 k (if aborted then 0 else 1)).finishCmd k .success

/-! ### Features (R323, R347, R348, R354, R477) -/

/-- Value of a feature that nothing has set. -/
def featureDefault (fid : Nat) : Nat := if fid = 0x07 then 0x0FFE0FFE else 0

/-- Which of several values of a feature a command names: namespace, vector, threshold selection. -/
def featurePart (e : Sqe) : Nat :=
  match e.fid with
  | 0x04 => e.cdw11 / 0x10000 % 64
  | 0x05 => if e.nsid = allNamespaces then 0 else e.nsid
  | 0x09 => e.cdw11 % 0x10000 + 1
  | _ => 0

/-- A controller with a feature set. -/
def Controller.setFeature (x : Controller) (fid part v : Nat) : Controller :=
  { x with features := Sparse.put (featureDefault fid) x.features (featureKey fid part) v }


/-- Set Features with a save bit fails, since no feature is saveable (R326). -/
def State.setFeatures (s : State) (k : CmdRef) (mine : Nat → Bool) (f : State → Cmd → State) : Out :=
  s.admin k (fun c => c.op 0x09 && mine c.sqe.fid) fun s c => if c.sqe.saves then s.finishCmd k .notSaveable else f s c

/-- SET_FEATURES (R323, R354). -/
def execSetFeatures (k : CmdRef) (s : State) : Out :=
  s.setFeatures k (fun f => f != 0x02 && f != 0x0E) fun s c =>
    let v := c.sqe.cdw11
    let e := c.sqe
    match e.fid with
    | 0x07 =>
      let got := min (v / 0x10000) 0x0FFE * 0x10000 + min (v % 0x10000) 0x0FFE
      ((s.updCtrl k.ctrl fun x => x.setFeature 0x07 0 got).setDw0 k got).finishCmd k .success
    | 0x05 =>
      let parts := if featurePart e = 0 then (List.range 8).map (· + 1) else [featurePart e]
      (s.forEach parts fun s n => s.updCtrl k.ctrl fun x => x.setFeature 0x05 n v).finishCmd k .success
    | f => (s.updCtrl k.ctrl fun x => x.setFeature f (featurePart e) v).finishCmd k .success

/-- SET_FEATURES_POWER_MANAGEMENT (R347, R348): entry into another power state is requested; everything that is buffered is written
first (R208), and a self-test ends with result 0x8 (R352). One entry runs at a time. -/
def execSetFeaturesPowerManagement (k : CmdRef) (s : State) : Out :=
  if s.host.powerEntry.isSome then .next s
  else s.setFeatures k (fun f => f == 0x02) fun s c =>
    let n := c.sqe.cdw11 % 32
    if n = s.host.powerState then s.finishCmd k .success
    else
      let s := { s with host := { s.host with powerEntry := some { toState := n, cmd := some k, started := false, suspendedBy := none } } }
      let s := s.forEach (allFin 8) fun s p => s.formAll p (s.sides[p]).waitingZones
      s.endSelfTest 8 ((s.host.selfTest.map fun t => t.segment).getD 0)

/-- SET_FEATURES_TIMESTAMP (R354, R477, R510): six bytes of milliseconds, little-endian. -/
def execSetFeaturesTimestamp (k : CmdRef) (s : State) : Out :=
  s.setFeatures k (fun f => f == 0x0E) fun s c =>
    let v : Nat := (c.sqe.bytes.take 6).foldr (fun b acc => b.toNat + 256 * acc) 0
    (s.setTimeOfDay v (Client.nvme k.ctrl).identity).finishCmd k .success

/-- GET_FEATURES (R354): current, default or supported capabilities. Capabilities: changeable, and for Error Recovery also per
namespace. -/
def execGetFeatures (k : CmdRef) (s : State) : Out :=
  s.admin k (Cmd.op 0x0A) fun s c =>
    let e := c.sqe
    let x := s.host.ctrls[k.ctrl]
    match e.cdw10 / 0x100 % 8 with
    | 0 =>
      if e.fid = 0x0E then
        (s.giveData k [s.timeOfDay.toNat, if s.verge.powerLost then 1 else 0]).finishCmd k .success
      else
        let v := if e.fid = 0x02 then s.host.powerState else Sparse.get (featureDefault e.fid) x.features (featureKey e.fid (featurePart e))
        (s.setDw0 k v).finishCmd k .success
    | 1 => (s.setDw0 k (featureDefault e.fid)).finishCmd k .success
    | _ => (s.setDw0 k (if e.fid = 0x05 then 6 else 4)).finishCmd k .success

/-- ASYNCHRONOUS_EVENT_REQUEST (R326): held until an event completes it, four per controller; an event that waits completes it at
once. -/
def execAsynchronousEventRequest (k : CmdRef) (s : State) : Out :=
  s.when s.coreUp fun s =>
    match s.cmd? k with
    | none => s
    | some c =>
      if k.sq ≠ 0 || c.stage != .fetched || c.result.isSome || !c.op 0x0C then s
      else
        let s := s.updCmd k fun c => { c with stage := .taken }
        let x := s.host.ctrls[k.ctrl]
        if 4 ≤ x.aers.length then s.finishCmd k .aerLimit
        else match x.notices with
        | (kind, info) :: rest =>
          ((s.updCtrl k.ctrl fun x => { x with notices := rest }).setDw0 k (info * 2 ^ 8 + kind)).finishCmd k .success
        | [] => s.updCtrl k.ctrl fun x => { x with aers := x.aers ++ [k] }

/-! ### Self-tests (R350 to R352) -/

/-- A self-test starts, unless one runs; one that names a namespace that is not ready ends with result 0x5. -/
def State.startSelfTest (s : State) (k : CmdRef) (c : Cmd) (extended : Bool) : State :=
  if s.host.selfTest.isSome then s.finishCmd k .selfTestInProgress
  else
    let n := c.sqe.nsid
    let s := { s with host := { s.host with selfTest := some { extended := extended, ctrl := k.ctrl, nsid := n, segment := 1 } } }
    let s := s.report Isl.host Ev.hostSelfTestStart [(k.ctrl.val + 1 : Nat), (if extended then 2 else 1), (n : Int)]
    let ready : Bool := n == allNamespaces || match pickupOf n with
      | some p => s.namespaceState p == (2 : Int)
      | none => false
    (if ready then s else s.endSelfTest 5 0).finishCmd k .success

/-- DEVICE_SELF_TEST_SHORT (R350): segments 1 to 5. -/
def execDeviceSelfTestShort (k : CmdRef) (s : State) : Out :=
  s.admin k (fun c => c.op 0x14 && c.sqe.cdw10 % 16 == 1) fun s c => s.startSelfTest k c false

/-- DEVICE_SELF_TEST_EXTENDED (R350): all eight segments. -/
def execDeviceSelfTestExtended (k : CmdRef) (s : State) : Out :=
  s.admin k (fun c => c.op 0x14 && c.sqe.cdw10 % 16 == 2) fun s c => s.startSelfTest k c true

/-- DEVICE_SELF_TEST_ABORT (R352): the test in progress ends with result 0x1. -/
def execDeviceSelfTestAbort (k : CmdRef) (s : State) : Out :=
  s.admin k (fun c => c.op 0x14 && c.sqe.cdw10 % 16 == 0xF) fun s _ =>
    (s.endSelfTest 1 ((s.host.selfTest.map fun t => t.segment).getD 0)).finishCmd k .success

/-- Pickups that segments 3 to 7 of a test cover. -/
def State.testedPickups (s : State) (t : SelfTest) : List PickupId :=
  if t.nsid = allNamespaces then (allFin 8).filter fun p => s.pickupOn p else (pickupOf t.nsid).toList

/-- Whether a pickup has no dispatched command (R351). -/
def State.undisturbed (s : State) (p : PickupId) : Bool :=
  !(s.host.cmds.any fun m => m.media && m.sqe.nsid == nsidOf p && m.result.isNone && m.dispatched)

/-- What the model itself knows of a segment's condition (R350): residuals of following pickups, speed error of mounted sides. -/
def State.segmentHolds (s : State) (t : SelfTest) : Bool :=
  let ps := s.testedPickups t
  match t.segment with
  | 4 => ps.all fun p => (s.pickups[p]).engine != .following
      || (decide (s.value Obj.trackingResidualRms p ≤ 200) && decide (s.value Obj.focusResidualRms p ≤ 600))
  | 7 => ps.all fun p => !(s.sides[p]).built || decide ((s.spindles[p.spindle]).errorPpm.natAbs ≤ 1000)
  | _ => true

/-- SELF_TEST_STEP (R351, R352): a step runs where a pickup it may use has no dispatched command; at the end of a segment the test
fails with result 0x7, goes on, or ends with result 0x0. -/
def execSelfTestStep (segmentEnds passes : Bool) (s : State) : Out :=
  s.when s.coreUp fun s =>
    match s.host.selfTest with
    | none => s
    | some t =>
      let media := decide (3 ≤ t.segment ∧ t.segment ≤ 7)
      if !segmentEnds || (media && !(s.testedPickups t).any s.undisturbed) then s
      else if !(passes && s.segmentHolds t) then s.endSelfTest 7 t.segment
      else if t.segment = (if t.extended then 8 else 5) then s.endSelfTest 0 0
      else { s with host := { s.host with selfTest := some { t with segment := t.segment + 1 } } }

end Sys2Proof.Machine
end

