-- ==== Sys2Proof/Machine/Motor.lean ====
section
/-! DEFINITION. The motor drive (R253 to R258, R277): transforms, current loop, observer, plausibility check and direct torque control. -/

namespace Sys2Proof.Machine

/-! ### Units -/

/-- π in 10^-30. -/
def piDigits : Int := 3141592653589793238462643383279
/-- 1/√3 in 10^-30. -/
def invSqrt3 : Int := 577350269189625764509148780502

/-- Electrical angular speed of p pole pairs at n mrpm times a quantity: 2π · p · n / 60,000 · x (p = 1: the mechanical one). -/
def perSecond (p n x : Int) : Int := rnd (2 * piDigits * p * n * x) (60000 * 10 ^ 30)

/-- Back-EMF ψ · ω_e of a speed in µV (R270). -/
def State.backEmf (s : State) (i : SpindleId) (n : Int) : Int := perSecond (s.ob Obj.polePairs i) n (s.ob Obj.fluxLinkage i)

/-- Torque K_t · I in µN·m of a current in mA (R255). -/
def State.torqueOf (s : State) (i : SpindleId) (mA : Int) : Int := rnd (3 * s.ob Obj.polePairs i * s.ob Obj.fluxLinkage i * mA) 2000

/-- Part of an electrical turn, in 2^-32, that the rotor goes at n mrpm in a number of nanoseconds. -/
def turnOf (p n ns : Int) : Int := rnd (p * n * ns * 2 ^ 32) (60 * 10 ^ 12)

/-- An angle in 2^-32 of a turn. -/
def wrapAngle (a : Int) : Nat := (a % 2 ^ 32).toNat

/-- Signed difference of two angles, in half a turn either way. -/
def angleBetween (a b : Nat) : Int := ((a : Int) - b + 2 ^ 31) % 2 ^ 32 - 2 ^ 31

/-- The phase of 65,536 to a turn that an angle lies in (cosine and sine of log entry 147). -/
def anglePhase (a : Nat) : Nat := a / 65536

/-- Angle of a vector, in 2^-32 of a turn to the nearest 2^-16 below, by bisection; 0 for the vector 0. -/
def vectorAngle (x y : Int) : Nat :=
  let up := decide (0 < y ∨ (y = 0 ∧ 0 ≤ x))
  let (x, y) := if up then (x, y) else (-x, -y)
  let ph := (List.range 15).foldl (fun (ph : Nat) k =>
    let t := ph + 2 ^ (14 - k)
    if 0 ≤ y * cosine t - x * sine t then t else ph) 0
  (ph + if up then 0 else 32768) * 65536

/-! ### Samples (R253, R550) -/

/-- Phase current in mA of a 12-bit sample, ±`CurrentSenseScale` at full scale. -/
def State.currentOf (s : State) (i : SpindleId) (code : Int) : Int := rnd (code * s.ob Obj.spindleSenseScale i) 2048

/-- Voltage in mV of a 12-bit sample behind the divider: full scale is 1.60 V at the pin (R550). -/
def State.voltageOf (s : State) (i : SpindleId) (code : Nat) : Nat :=
  (rnd (code * 1600000) (4096 * s.obN Obj.voltageSenseRatio i)).toNat

/-! ### Transforms (R254) -/

/-- Clarke transform of three phase quantities. -/
def clarke (u v w : Int) : Int × Int := (rnd (2 * u - v - w) 3, rnd ((v - w) * invSqrt3) (10 ^ 30))

/-- Clarke transform of a list of three. -/
def clarkeOf (l : List Int) : Int × Int := clarke (l.getD 0 0) (l.getD 1 0) (l.getD 2 0)

/-- Park transform at an angle. -/
def parkForward (a b : Int) (th : Nat) : Int × Int :=
  let c := cosine (anglePhase th)
  let n := sine (anglePhase th)
  (rnd (a * c + b * n) (2 ^ 30), rnd (b * c - a * n) (2 ^ 30))

/-- Inverse Park transform at an angle. -/
def parkInverse (d q : Int) (th : Nat) : Int × Int :=
  let c := cosine (anglePhase th)
  let n := sine (anglePhase th)
  (rnd (d * c - q * n) (2 ^ 30), rnd (d * n + q * c) (2 ^ 30))

/-- Length of a vector. -/
def lengthOf (a b : Int) : Int := (rndSqrt (a * a + b * b).toNat : Nat)

/-! ### Duties and vectors (R254, R258) -/

/-- The duties in ns of a voltage vector in µV (R254): the phases shifted so that both zero vectors last alike, scaled by VBUS in mV. -/
def dutiesOf (a b : Int) (vbus : Nat) : List Int :=
  let half := rnd (b * 3 * invSqrt3) (2 * 10 ^ 30)
  let v := [a, rnd (-a) 2 + half, rnd (-a) 2 - half]
  let shift := rnd (v.foldl max (v.getD 0 0) + v.foldl min (v.getD 0 0)) 2
  v.map fun x => if vbus = 0 then 10000 else clampInt 0 20000 (10000 + rnd ((x - shift) * 20) vbus)

/-- Voltage vector in µV of three duties in ns on a bus. -/
def appliedOf (duties : List Int) (vbus : Nat) : Int × Int :=
  clarkeOf (duties.map fun d => rnd (d * vbus) 20)

/-- States of U, V and W of a DTC vector: V1 to V6 of R258, 0 and 7 the zero vectors. -/
def vectorStates (n : Nat) : List Bool :=
  match n with
  | 1 => [true, false, false] | 2 => [true, true, false] | 3 => [false, true, false] | 4 => [false, true, true]
  | 5 => [false, false, true] | 6 => [true, false, true] | 7 => [true, true, true] | _ => [false, false, false]

/-! ### Observer and plausibility (R256, R257) -/

/-- The observer after one period: back-EMF, speed and angle, whose gains the manual leaves to the two bandwidths. -/
def State.observe (s : State) (i : SpindleId) (va vb ia ib : Int) : State :=
  s.updM i fun m =>
    let ops := [m.emfA, m.emfB, m.observed, (m.angle : Int), va, vb, ia, ib, s.ob Obj.phaseResistance i, s.ob Obj.inductanceD i,
      s.ob Obj.inductanceQ i, s.ob Obj.observerBandwidth i, s.ob Obj.pllBandwidth i]
    { m with emfA := Config.real Tag.emfA ops, emfB := Config.real Tag.emfB ops, observed := Config.real Tag.pllSpeed ops
             angle := wrapAngle (Config.real Tag.pllAngle ops) }

/-- The four conditions of R257, from the observer before and after a period. -/
def State.plausible (s : State) (i : SpindleId) (old new : Spindle) : Bool :=
  let n := new.observed
  let e := lengthOf new.emfA new.emfB
  let want := (s.backEmf i n).natAbs
  let turn := old.emfA * new.emfB - old.emfB * new.emfA
  decide (s.rpm Obj.plausibilityMinSpeed i ≤ n.natAbs) && decide (2 ^ 15 * (e - want).natAbs ≤ s.ob Obj.bemfTolerance i * want)
    && decide (turn.sign = n.sign) && decide (20 * (n - old.observed).natAbs < old.observed.natAbs)

/-- The observer is seeded with an angle and a speed, and the integrators so that the first applied vector is the back-EMF (R270). -/
def State.seed (s : State) (i : SpindleId) (angle : Nat) (n : Int) : State :=
  let e := s.backEmf i n
  s.updM i fun m => { m with
    angle := angle, observed := n, measured := n, integralD := 0, integralQ := 1000 * e, seededEmf := e, plausibleRun := 0 }

/-- Rotor angle of a back-EMF vector that turns with a speed: a quarter turn behind it. -/
def rotorAngle (emf : Nat) (n : Int) : Nat := wrapAngle ((emf : Int) - n.sign * 2 ^ 30)

/-! ### Forced angle and references (R268, R269, R273) -/

/-- Forced speed of the blind ramp in 0.001 rpm (R268). -/
def State.forcedSpeed (s : State) (i : SpindleId) : Int :=
  let m := s.spindles[i]
  let n := rnd (s.ob Obj.rampAccel i * (s.time - m.phaseAt : Nat)) 1600
  if m.reverse then -n else n

/-- K_t · `IqMax` in µN·m, halved while the bus is low (R255, R260, R272). -/
def State.torqueLimit (s : State) (i : SpindleId) : Int :=
  let t := s.torqueOf i (s.ob Obj.iqMax i)
  if (s.spindles[i]).fault.getLsbD 5 then rnd t 2 else t

/-- Whether a spindle brakes (R273). -/
def Spindle.brakes (m : Spindle) : Bool := m.mode == .braking || decide (m.torque * m.measured < 0)

/-- Reference of i_q in mA: T* / K_t (R260); 0 until Running. -/
def State.iqCommand (s : State) (i : SpindleId) : Int :=
  let m := s.spindles[i]
  if m.mode == .running || m.mode == .braking then
    rnd (m.torque * 2000) (3 * s.obN Obj.polePairs i * s.obN Obj.fluxLinkage i)
  else 0

/-- Feedforward of loss braking in mA: the i_d at which P_gen is 0 (R273). -/
def State.lossFeedforward (s : State) (i : SpindleId) : Int :=
  let m := s.spindles[i]
  let iq := s.iqCommand i
  let squared := rnd (-(perSecond 1 m.measured m.torque) * 2000) (3 * s.obN Obj.phaseResistance i) - iq * iq
  if s.obN Obj.lossBrakeMode i = 2 then -((rndSqrt squared.toNat : Nat) : Int) else 0

/-- Reference of i_d in mA: alignment that rises over a third of `AlignTime`, the ramp, or loss braking with its trim beside what is left of the
ramp's i_d in the 10 ms after the handover (R268, R269, R273). -/
def State.idCommand (s : State) (i : SpindleId) : Int :=
  let m := s.spindles[i]
  let t : Int := (s.time - m.phaseAt : Nat)
  match m.mode with
  | .aligning =>
    let third := s.ob Obj.alignTime i * 1600
    if third ≤ 3 * t then s.ob Obj.alignCurrent i else rnd (s.ob Obj.alignCurrent i * 3 * t) third.toNat
  | .ramping => s.ob Obj.rampCurrent i
  | .running | .braking =>
    let left := if t < 16000 then rnd (m.fallFrom * (16000 - t)) 16000 else 0
    let brake := if m.brakes then s.lossFeedforward i - rnd m.lossTrim 1000 else 0
    left + clampInt (-(s.ob Obj.idBrakeMax i)) (s.ob Obj.idBrakeMax i) brake
  | _ => 0

/-- Both references within the limits of R255: i_d first, then i_q within what is left (R273). -/
def State.references (s : State) (i : SpindleId) : Int × Int :=
  let most := s.ob Obj.phaseCurrentMax i
  let d := clampInt (-most) most (s.idCommand i)
  let left := min (s.ob Obj.iqMax i) ((most * most - d * d).toNat.sqrt : Nat)
  (d, clampInt (-left) left (s.iqCommand i))

/-! ### The current loop (R254) -/

/-- The angle of the loop: the forced one until the handover, else the observer's advanced by 1.5 periods. -/
def State.loopAngle (s : State) (i : SpindleId) : Nat :=
  let m := s.spindles[i]
  if m.mode == .aligning || m.mode == .ramping then m.forcedAngle
  else wrapAngle ((m.angle : Int) + turnOf (s.ob Obj.polePairs i) m.observed 30000)

/-- One period of the loop: transforms, PI controllers with decoupling, the limit with q kept first, the integrators held while it acts, and
the duties that apply from the next period on. -/
def State.currentLoop (s : State) (i : SpindleId) : State :=
  let m := s.spindles[i]
  let (ia, ib) := clarkeOf m.currents
  let th := s.loopAngle i
  let (id, iq) := parkForward ia ib th
  let (rd, rq) := s.references i
  let p := s.ob Obj.polePairs i
  let kp := s.ob Obj.currentKp i
  let ki := s.ob Obj.currentKi i
  let vd := 10 * kp * (rd - id) + rnd (m.integralD - perSecond p m.observed (s.ob Obj.inductanceQ i * iq)) 1000
  let vq := 10 * kp * (rq - iq) + rnd (m.integralQ + perSecond p m.observed (s.ob Obj.inductanceD i * id)) 1000
    + s.backEmf i m.observed - m.seededEmf
  let most := rnd ((m.vbus : Int) * 1000 * invSqrt3) (10 ^ 30)
  let q := clampInt (-most) most vq
  let left : Int := ((most * most - q * q).toNat.sqrt : Nat)
  let d := clampInt (-left) left vd
  let limited := decide (q ≠ vq ∨ d ≠ vd)
  let (a, b) := parkInverse d q th
  s.updM i fun m => { m with
    currentD := id, currentQ := iq, appliedA := a, appliedB := b
    integralD := if limited then m.integralD else m.integralD + 20 * ki * (rd - id)
    integralQ := if limited then m.integralQ else m.integralQ + 20 * ki * (rq - iq) }

/-! ### Zero-vector braking (R274) and the legs of a period -/

/-- Whether braking uses the low-side zero vector: below `HandoverSpeed`, or while the observer is not locked. -/
def State.zeroBraking (s : State) (i : SpindleId) : Bool :=
  let m := s.spindles[i]
  m.mode == .braking && (!m.locked || decide ((m.measured.natAbs : Int) < s.rpm Obj.handoverSpeed i))

/-- The legs of the next period: off, the zero vector with its release above `ShortBrakeCurrent`, or the duties of the applied vector; under DTC the
evaluations drive them. -/
def State.driveLegs (s : State) (i : SpindleId) : State :=
  let m := s.spindles[i]
  let dead := s.ob Obj.pwmDeadTime i
  if !m.gatesDriven then s.updM i fun m => { (m.mapLegs fun _ l => l.off 20000) with released := false, appliedA := 0, appliedB := 0 }
  else if s.zeroBraking i then
    let over_ := m.currents.any fun x => decide (s.ob Obj.shortBrakeCurrent i < x.natAbs)
    s.updM i fun m => { (m.mapLegs fun _ l => if over_ then l.off 20000 else (l.next 20000).turn false 0 dead) with
      released := over_, appliedA := 0, appliedB := 0 }
  else if m.dtc then s
  else s.updM i fun m =>
    let duties := dutiesOf m.appliedA m.appliedB m.vbus
    { (m.mapLegs fun k l => l.pwm (duties.getD k.val 0) dead) with released := false }

/-! ### Terminal voltages: sensing, rest and crossings (R267, R274, R277) -/

/-- The voltage vector of the terminals is turned into angle, turn and amplitude. -/
def Spindle.sense (m : Spindle) (a b : Int) : Spindle :=
  let th := vectorAngle a b
  { m with sensedAngle := th, amplitude := lengthOf a b, sensedCount := m.sensedCount + 1
           sensedTurn := if m.sensedCount = 0 then 0 else m.sensedTurn + angleBetween th m.sensedAngle }

/-- Speed in 0.001 rpm that a turn over a count of samples 20 µs apart stands for. -/
def speedOf (p : Nat) (turn : Int) (samples : Nat) : Int :=
  if samples ≤ 1 ∨ p = 0 then 0 else rnd (turn * 3000000000) (2 ^ 32 * p * (samples - 1))

/-- Whether a sensed amplitude lies below ψ · ω_e at 30 rpm (R267). -/
def State.belowFloor (s : State) (i : SpindleId) : Bool := decide (1000 * (s.spindles[i]).amplitude < s.backEmf i 30000)

/-- Zero crossings of the three line voltages between two samples, in ns after the first, newest first. -/
def crossingsOf (old new : List Int) : List Int :=
  ((old.zip new).filterMap fun x =>
    if decide (x.1 < 0) != decide (x.2 < 0) then some (rnd (20000 * x.1.natAbs) (x.1.natAbs + x.2.natAbs)) else none).mergeSort
    fun a b => decide (b ≤ a)

/-- Speed in 0.001 rpm that six successive crossings give when their intervals agree within 10 %: they make one electrical turn. -/
def crossingSpeed (p : Nat) (l : List Int) : Option Int :=
  let gaps := ((l.take 7).zip ((l.take 7).drop 1)).map fun x => x.1 - x.2
  let most := gaps.foldl max 0
  let least := gaps.foldl min most
  let turn := gaps.foldl (fun a b => a + b) 0
  if gaps.length = 6 ∧ 0 < least ∧ 10 * most ≤ 11 * least ∧ p ≠ 0 then some (rnd (60 * 10 ^ 12) (p * turn.toNat)) else none

/-- The crossings of one period while the gates are low, timed between the pulses of R278. -/
def State.timeCrossings (s : State) (i : SpindleId) (v : List Int) : State :=
  s.updM i fun m =>
    let lines := [v.getD 0 0 - v.getD 1 0, v.getD 1 0 - v.getD 2 0, v.getD 2 0 - v.getD 0 0]
    let times := (crossingsOf m.lines lines) ++ m.crossings
    let l := (times.map fun t => t - 20000).take 7
    { m with lines := lines, crossings := l
             found := (crossingSpeed (s.obN Obj.polePairs i) l).map fun n => if m.sensedTurn < 0 then -n else n }

/-! ### Direct torque control (R258) -/

/-- Sector of a flux vector: sector k covers (k - 1) · 60° ± 30° (R258). -/
def fluxSector (a b : Int) : Nat :=
  if 3 * b * b ≤ a * a then (if 0 < a then 1 else 4)
  else if 0 < b then (if 0 ≤ a then 2 else 3) else (if a < 0 then 5 else 6)

/-- Vector index modulo 6 within 1 to 6. -/
def vectorOf (k : Int) : Nat := ((k - 1) % 6).toNat + 1

/-- The switching table of R258: 0 is a zero vector. -/
def dtcVector (hFlux hTorque : Int) (k : Nat) : Nat :=
  if hTorque = 0 then 0
  else if 0 < hFlux then vectorOf (k + hTorque) else vectorOf (k + 2 * hTorque)

/-- The flux estimate after 5 µs: the applied voltage less R · i, with the drift correction, whose form the corner leaves open. -/
def State.integrateFlux (s : State) (i : SpindleId) (ia ib : Int) : State :=
  s.updM i fun m =>
    let r := s.ob Obj.phaseResistance i
    let drift (x : Int) := Config.real Tag.fluxDrift [x, s.ob Obj.fluxDriftCorner i]
    { m with fluxA := m.fluxA + 5 * (m.appliedA - r * ia) - drift m.fluxA, fluxB := m.fluxB + 5 * (m.appliedB - r * ib) - drift m.fluxB }

/-- Comparators, switching table and the legs of the vector it selects: the zero vector is 000 after odd vectors, 111 after even ones. -/
def State.switchVector (s : State) (i : SpindleId) (ia ib : Int) : State :=
  let m := s.spindles[i]
  let mag := lengthOf m.fluxA m.fluxB
  let torque := rnd (3 * s.ob Obj.polePairs i * (m.fluxA * ib - m.fluxB * ia)) (2 * 10 ^ 9)
  let ref := 1000000 * (2 * s.ob Obj.fluxReference i)
  let band := 1000000 * s.ob Obj.fluxBand i
  let h := if 2 * mag < ref - band then 1 else if ref + band < 2 * mag then -1 else m.fluxHigh
  let d := 2 * (m.torque - torque)
  let ht : Int := if s.ob Obj.torqueBand i < d then 1 else if d < -(s.ob Obj.torqueBand i) then -1 else 0
  let v := dtcVector h ht (fluxSector m.fluxA m.fluxB)
  let kept := if v = 0 && decide (m.vector ≠ 0) then (if m.vector % 2 = 1 then 0 else 7) else m.zeroVector
  let states := vectorStates (if v = 0 then kept else v)
  let applied := appliedOf (states.map fun x => if x then 20000 else 0) m.vbus
  s.updM i fun m => { (m.mapLegs fun k l => (l.next 5000).turn (states.getD k.val false) 0 (s.ob Obj.pwmDeadTime i)) with
    fluxHigh := h, torqueState := ht, vector := v, zeroVector := kept, appliedA := applied.1, appliedB := applied.2 }

end Sys2Proof.Machine
end

