-- ==== Sys2Proof/Machine/Axes.lean ====
section
/-! DEFINITION. Meanings of the commands of the sleds and library axes (chapter 8). -/

namespace Sys2Proof.Machine

/-- A fault of an axis; a sled in Fault parks its pickup with reason Request, after EV_AX_FAULT (R308, R309). -/
def State.axisFault (s : State) (a : AxisId) (b : AxisFaultBit) : State :=
  let s := s.faultAxis a b
  if h : a.val < 8 then s.park ⟨a.val, h⟩ .request else s

/-! ### The profile generator (R299 to R301) -/

/-- Speed bound of a motion: `HomingSpeed` while homing, else `AxisVmax`. -/
def State.axisVmaxNow (s : State) (a : AxisId) : Int :=
  if (s.axes[a]).mode == .homing then speedUnits (s.ob Obj.homingSpeed a.aux) else speedUnits (s.ob Obj.axisVmax a.inst)

/-- Speed of a period without a down ramp: toward the bound, or down to a bound that was lowered. -/
def Axis.cruise (x : Axis) (accel decel vmax : Int) : Int :=
  if vmax < x.speed then max (x.speed - decel) vmax else min (x.speed + accel) vmax

/-- The axis stands: a move has ended on its target or a halt where its ramp ended. -/
def Axis.stand (x : Axis) (now : Nat) (pos : Int) (onTarget : Bool) (src : WordSource) : Axis :=
  { x with mode := .standstill, position := pos, speed := 0, down := false, moveEndedAt := now, wordSource := src
           wordFinal := onTarget, wordVelocity := pos - x.position }

/-- One period of a move toward its target (R299). -/
def Axis.movePeriod (x : Axis) (accel decel vmax : Int) (now : Nat) (src : WordSource) : Axis × Bool :=
  let d := x.target - x.position
  let dist : Int := d.natAbs
  let begins := !x.down && decide (2 * decel * (dist * 2 ^ 16 - x.speed) ≤ x.speed * x.speed)
  let x := if begins then
      { x with down := true, rampDecel := if dist = 0 then x.speed else rnd (x.speed * x.speed) (2 * (dist * 2 ^ 16).toNat) }
    else x
  let v := if x.down then x.speed - x.rampDecel else x.cruise accel decel vmax
  if v ≤ 0 || decide (dist * 2 ^ 16 ≤ v) then (x.stand now x.target true src, true)
  else
    let step := (if 0 ≤ d then 1 else -1) * rnd v (2 ^ 16)
    ({ x with speed := v, position := x.position + step, wordSource := src, wordVelocity := step, wordFinal := false
              forward := decide (0 ≤ d) }, false)

/-- One period of a halt, or of homing: along the direction of travel without a target (R301, R311). -/
def Axis.freePeriod (x : Axis) (accel decel vmax : Int) (now : Nat) : Axis :=
  let v := if x.down then x.speed - x.rampDecel else x.cruise accel decel vmax
  if v ≤ 0 then
    if x.mode == .homing then { x with speed := 0, wordVelocity := 0, wordSource := .profile, wordFinal := false }
    else x.stand now x.position false .profile
  else
    let step := x.dir * rnd v (2 ^ 16)
    { x with speed := v, position := x.position + step, wordSource := .profile, wordVelocity := step, wordFinal := false }

/-- Target of an auxiliary axis on an external route, within the soft limits (R298); none while `AxisSource` is 0. -/
def State.externalTarget (s : State) (a : AxisId) : Option Int :=
  if a.isSled then none
  else
    let x := s.axes[a]
    let t := match s.obN Obj.axisSource a.aux with
      | 1 => some (x.extOrigin + x.extCount * s.ob Obj.extStepScale a.aux)
      | 2 => some (ustep (s.ob Obj.extCentre a.aux) + rnd (analogNorm s.xspAin * ustep (s.ob Obj.extAnalogScale a.aux)) (2 ^ 30))
      | _ => none
    t.map fun t => if x.positionValid then clampInt (ustep (s.ob Obj.softLimitMin a.inst)) (ustep (s.ob Obj.softLimitMax a.inst)) t else t

/-- The motion of one period, by the axis's state. -/
def State.axisMotion (s : State) (a : AxisId) : State :=
  let x := s.axes[a]
  let accel := accelUnits (s.ob Obj.axisAccel a.inst)
  let decel := accelUnits (s.ob Obj.axisDecel a.inst)
  let vmax := s.axisVmaxNow a
  match x.mode with
  | .moving =>
    let ext := s.externalTarget a
    let x := match ext with | some t => { x with target := t } | none => x
    let (y, done) := x.movePeriod accel decel vmax s.time (if ext.isSome then .external else .profile)
    let s := s.updA a fun _ => y
    let s := if done then s.bump Obj.movesCompleted a.inst 0 else s
    match y.pendingMove with
    | some t => if done then s.startMove a t else s
    | none => s
  | .halting =>
    let y := x.freePeriod accel decel vmax s.time
    let s := s.updA a fun _ => y
    match y.pendingMove with
    | some t => if y.mode == .standstill then s.startMove a t else s
    | none => s
  | .homing => s.updA a fun _ => x.freePeriod accel decel vmax s.time
  | .standstill =>
    match s.externalTarget a with
    | some t => if t ≠ x.position && !x.frozen then s.startMove a t else s.updA a fun x => { x with wordSource := .external, wordVelocity := 0 }
    | none => if a.isSled then s else s.updA a fun x => { x with wordSource := .hold, wordVelocity := 0, wordFinal := false }
  | _ => s

/-- Whether the axis's encoder is in use (R303). -/
def State.encoderUsed (s : State) (a : AxisId) : Bool :=
  if a.isSled then s.otp.variant != .q else s.obN Obj.encoderEnable a.inst == 1

/-- The encoder count of one period and the deviation from the previous period's set-point (R303). -/
def State.axisEncoder (s : State) (a : AxisId) (delta : Int) (before : Int) : State :=
  if s.encoderUsed a then
    let d := if s.obN Obj.encoderDirection a.inst = 1 then -delta else delta
    s.updA a fun x =>
      let enc := x.encoder + rnd (d * s.ob Obj.encoderMicrosteps a.inst) 256
      let dev := before - enc
      let beyond := decide (ustep (s.ob Obj.stallWindow a.inst) < dev.natAbs)
      { x with encoder := enc, deviation := dev, stallRun := if beyond && x.mode != .disabled && x.mode != .fault && !x.frozen then x.stallRun + 1 else 0 }
  else s

/-! ### The coils (R292, R293, R304) -/

/-- Angle of the commanded current vector at a position, in 2^-32 of an electrical cycle of 1,024 microsteps (R292). -/
def coilAngle (position : Int) : Nat := wrapAngle (position * 16384)

/-- Commanded coil currents in mA at a position: I · cos and I · sin (R292). -/
def Axis.commanded (x : Axis) (position : Int) : Int × Int :=
  let ph := anglePhase (coilAngle position)
  (rnd (x.coil * cosine ph) (1000 * 2 ^ 30), rnd (x.coil * sine ph) (1000 * 2 ^ 30))

/-- One PWM period of a coil's PI loop (R293): its gains follow from resistance and inductance in a way that the manual leaves open; the voltage does
not pass the supply's, as far as that is measured. Answers the voltage and the integrator in µV. -/
def coilLoop (r l top : Int) (ref now integ : Int) : Int × Int :=
  let integ := integ + Config.real Tag.coilKi [r, l, ref - now]
  let v := Config.real Tag.coilKp [r, l, ref - now] + integ
  (if 0 < top then clampInt (-top) top v else v, integ)

/-- One PWM period of both coils: samples, currents commanded at a position, and the back-EMF that the period shows, in µV (R293, R304). -/
def State.coilPeriod (s : State) (a : AxisId) (code : Int × Int) (position vm : Int) : State × Int × Int :=
  let x := s.axes[a]
  let r := s.ob Obj.coilResistance a.inst
  let l := s.ob Obj.coilInductance a.inst
  let i (c : Int) := rnd (c * s.ob Obj.axisSenseScale a.inst) 2048
  let (ia, ib) := (i code.1, i code.2)
  let ref := x.commanded position
  let (va, na) := coilLoop r l vm ref.1 ia x.integA
  let (vb, nb) := coilLoop r l vm ref.2 ib x.integB
  (s.updA a fun x => { x with coilA := ia, coilB := ib, voltA := va, voltB := vb, integA := na, integB := nb },
   x.voltA - r * ia - 100 * l * (ia - x.coilA), x.voltB - r * ib - 100 * l * (ib - x.coilB))

/-- The four PWM periods of a profile period, the set-point interpolated from its start (R292); answers the mean back-EMF vector (R304). -/
def State.coilPeriods (s : State) (a : AxisId) (coils : List (Int × Int)) (vm before : Int) : State × Int × Int :=
  let step := (s.axes[a]).position - before
  let (s, ea, eb) := coils.zipIdx.foldl (fun acc c =>
    let (s, ea, eb) := acc.1.coilPeriod a c.1 (before + rnd (step * (c.2 + 1)) 4) vm
    (s, acc.2.1 + ea, acc.2.2 + eb)) (s, 0, 0)
  (s, rnd ea 4, rnd eb 4)

/-- The load angle in 0.1°: how far the rotor, which lies 90° behind the back-EMF in the direction of travel, trails the commanded current vector
(R304). -/
def Axis.trailAngle (x : Axis) (ea eb : Int) : Int :=
  let rotor := rotorAngle (vectorAngle ea eb) x.dir
  rnd (angleBetween (coilAngle x.position) rotor * x.dir * 3600) (2 ^ 32)

/-- The load angle of one period of a VP6480-Q sled: stall run and current adaptation; the current keeps its value in a period of the
move without a valid angle (R304, R305). -/
def State.axisLoadAngle (s : State) (a : AxisId) (ea eb : Int) : State :=
  let x := s.axes[a]
  if a.isSled && s.otp.variant == .q then
    let v := speedOfUnits x.speed
    let emf := lengthOf ea eb
    let moving := x.mode == .moving || x.mode == .halting
    let top := s.ob Obj.coilCurrentMax a.inst * 1000
    let y := if moving && decide (s.ob Obj.loadAngleMinSpeed a.inst ≤ v) then
        let d := x.trailAngle ea eb
        let low := decide (emf * 2 ^ 15 * 256 < s.ob Obj.stallEmfRatio a.inst * s.ob Obj.backEmfConstant a.inst * v)
        let bad := decide (s.ob Obj.loadAngleLimit a.inst < d) || low
        { x with
          loadAngle := some d, stallRun := if bad then x.stallRun + 1 else 0
          coil := clampInt (s.ob Obj.coilCurrentMin a.inst * 1000) top
            (x.coil + s.ob Obj.currentAdaptGain a.inst * (d - s.ob Obj.loadAngleTarget a.inst)) }
      else { x with loadAngle := none }
    let run := if moving && decide (y.coil = top) then x.limitRun + 1 else 0
    let limit := decide (100 ≤ run) && !x.limitRecorded
    let s := s.updA a fun _ => { y with limitRun := run, limitRecorded := x.limitRecorded || limit }
    if limit then s.report (Isl.axis a) Ev.axCurrentLimit [(a.val : Int)] else s
  else s

/-- Limit inputs act at every period (R308, R310, R312): in the direction of travel LimitReached, or HomeNotFound before a home
edge; against it WrongLimit. -/
def State.axisLimits (s : State) (a : AxisId) : State :=
  let x := s.axes[a]
  if !a.isSled && (x.mode == .moving || x.mode == .halting || x.mode == .homing) && (x.limitPos || x.limitNeg) then
    let along := if x.forward then x.limitPos else x.limitNeg
    if along then s.axisFault a (if x.mode == .homing && !x.homeFound then .homeNotFound else .limitReached)
    else s.axisFault a .wrongLimit
  else s

/-- Longest filter of an input in profile periods (R310). -/
def trailLength : Nat := 252

/-- Supply of a sled's coils in µV, by its 12-bit sample behind the divider of 0.100 (R291, R550); 0, not measured, for an auxiliary axis. -/
def supplyOf (a : AxisId) (vm : Nat) : Int := if a.isSled then rnd (vm * 16000000) 4096 else 0

/-- PROFILE_PERIOD (R299): the limits, one advance of the set-point, the four PWM periods of the coils, then encoder or load angle; a sled's period
starts at the tracking sampling edges whose number is a multiple of 64 (R290). -/
def execProfilePeriod (a : AxisId) (encoderDelta : Int) (coils : List (Int × Int)) (vm : Nat) (fltHigh : Bool) (s : State) : Out :=
  s.when (s.axisUp a && (!a.isSled || decide (s.gridN % 64 = 0))) fun s =>
    let s := (s.updA a fun x => { x with fltHigh := fltHigh }).axisLimits a
    let before := (s.axes[a]).position
    let s := s.axisMotion a
    let (s, ea, eb) := s.coilPeriods a coils (supplyOf a vm) before
    let s := if a.isSled then s else s.updA a fun x => { x with trail := (x.position :: x.trail).take trailLength }
    (s.axisEncoder a encoderDelta before).axisLoadAngle a ea eb

/-! ### Commands (R297, R301, R306 to R308, R311 to R314) -/

/-- `LastCommandResult`, and EV_AX_COMMAND_REFUSED unless accepted (R319). -/
def State.axisAnswer (s : State) (a : AxisId) (cmd : Int) (r : AxisResult) : State :=
  let s := s.updA a fun x => { x with lastResult := r }
  if r == .accepted then s else s.report (Isl.axis a) Ev.axCommandRefused [(a.val : Int), cmd, r.code]

/-- A write of `AxisCommand` with its result and, when accepted, its effect. -/
def State.axisCommand (s : State) (cl : Client) (a : AxisId) (v cmd : Int) (result : State → AxisResult) (effect : State → State) : State :=
  if v ≠ cmd then s
  else s.hostWrite cl Obj.axisCommand a.inst 0 v false false fun s =>
    let r := result s
    let s := s.axisAnswer a cmd r
    if r == .accepted then effect s else s

/-- Result of a Move to `AxisMoveTarget` (R297, R298, R307, R308, R314). -/
def State.moveResult (s : State) (a : AxisId) : AxisResult :=
  let x := s.axes[a]
  let t := s.ob Obj.axisMoveTarget a.inst
  let follows := if h : a.val < 8 then !(s.pickups[(⟨a.val, h⟩ : PickupId)]).idle else s.obN Obj.axisSource a.aux != 0
  if x.mode == .fault then .fault
  else if x.mode == .disabled then .disabled
  else if follows || x.mode == .homing then .busy
  else if !x.positionValid then .positionLost
  else if t < s.ob Obj.softLimitMin a.inst || s.ob Obj.softLimitMax a.inst < t then .softLimit
  else .accepted

/-- An accepted Move: it starts, retargets the move that runs, or waits for the halt of the present motion (R301). -/
def State.moveTo (s : State) (a : AxisId) (t : Int) : State :=
  let x := s.axes[a]
  let d := t - x.position
  let ahead := if x.forward then decide (0 < d) else decide (d < 0)
  let stops := decide (x.speed * x.speed ≤ 2 * accelUnits (s.ob Obj.axisDecel a.inst) * (d.natAbs * 2 ^ 16))
  match x.mode with
  | .moving =>
    if ahead && stops then s.updA a fun x => { x with target := t, down := false, rampDecel := 0, pendingMove := none }
    else (s.haltAxis a).updA a fun x => { x with pendingMove := some t }
  | .halting => s.updA a fun x => { x with pendingMove := some t }
  | _ => s.startMove a t

/-- AXIS_MOVE (R301). -/
def execAxisMove (cl : Client) (a : AxisId) (v : Int) (s : State) : Out :=
  s.when (s.axisUp a) fun s =>
    s.axisCommand cl a v 1 (fun s => s.moveResult a) fun s => s.moveTo a (ustep (s.ob Obj.axisMoveTarget a.inst))

/-- Result of a command that Fault and Disabled refuse. -/
def Axis.plainResult (x : Axis) : AxisResult := if x.mode == .fault then .fault else if x.mode == .disabled then .disabled else .accepted

/-- AXIS_HALT (R301). -/
def execAxisHalt (cl : Client) (a : AxisId) (v : Int) (s : State) : Out :=
  s.when (s.axisUp a) fun s =>
    s.axisCommand cl a v 2 (fun s => (s.axes[a]).plainResult) fun s => (s.haltAxis a).updA a fun x => { x with pendingMove := none }

/-- AXIS_STOP (R306, R308): accepted in Fault too. -/
def execAxisStop (cl : Client) (a : AxisId) (v : Int) (s : State) : Out :=
  s.when (s.axisUp a) fun s =>
    s.axisCommand cl a v 3 (fun s => if (s.axes[a]).mode == .disabled then .disabled else .accepted)
      fun s => s.stopAxis a .stop (if (s.axes[a]).mode == .fault then .fault else .standstill)

/-- Result of a Home (R297, R308, R312, R314). -/
def State.homeResult (s : State) (a : AxisId) : AxisResult :=
  let x := s.axes[a]
  let opposite := if s.obN Obj.homeDirection a.aux = 1 then x.limitNeg else x.limitPos
  if a.isSled then .notSupported
  else if x.mode == .fault then .fault
  else if x.mode == .disabled then .disabled
  else if x.mode == .homing || x.mode == .moving || x.mode == .halting then .busy
  else if opposite then .limitActive
  else .accepted

/-- AXIS_HOME (R311 step 1). -/
def execAxisHome (cl : Client) (a : AxisId) (v : Int) (s : State) : Out :=
  s.when (s.axisUp a) fun s =>
    s.axisCommand cl a v 4 (fun s => s.homeResult a) fun s =>
      (s.setOb Obj.chatterCount a.aux 0 0).updA a fun x => { x.begin x.position (s.ob Obj.runCurrent a.inst * 1000) with
        mode := .homing, forward := decide (s.obN Obj.homeDirection a.aux = 1), homeFound := false, homeCorrection := 0 }

/-- AXIS_ENABLE (R316): a disabled axis stands still at hold current, its position lost. -/
def execAxisEnable (cl : Client) (a : AxisId) (v : Int) (s : State) : Out :=
  s.when (s.axisUp a) fun s =>
    s.axisCommand cl a v 5 (fun s => if (s.axes[a]).mode == .fault then .fault else .accepted) fun s =>
      if (s.axes[a]).mode == .disabled then
        s.updA a fun x => { x with
          mode := .standstill, positionValid := false, frozen := false, encoder := x.position, coil := s.ob Obj.holdCurrent a.inst * 1000 }
      else s

/-- AXIS_DISABLE (R306, R308). -/
def execAxisDisable (cl : Client) (a : AxisId) (v : Int) (s : State) : Out :=
  s.when (s.axisUp a) fun s => s.axisCommand cl a v 6 (fun _ => .accepted) fun s => s.disableAxis a .disable

/-- Result of Clear Fault (R308): Fault while _FLT_N is low, LimitActive while a limit input is active in the direction of the last move. -/
def Axis.clearResult (x : Axis) (a : AxisId) : AxisResult :=
  if !x.fltHigh then .fault else if (if x.forward then x.limitPos else x.limitNeg) && !a.isSled then .limitActive else .accepted

/-- CLEAR_FAULT (R308). -/
def execClearFault (cl : Client) (a : AxisId) (v : Int) (s : State) : Out :=
  s.when (s.axisUp a) fun s =>
    s.axisCommand cl a v 7 (fun s => (s.axes[a]).clearResult a) fun s => s.updA a fun x => { x with fault := 0, mode := if x.mode == .fault then .standstill else x.mode }

/-! ### Stalls and faults (R303 to R309) -/

/-- STALL (R303, R304, R306, R308): `StallRetries` stalls within a second raise the fault. -/
def execStall (a : AxisId) (s : State) : Out :=
  s.when (s.axisUp a && decide (s.obN Obj.stallCountLimit a.inst ≤ (s.axes[a]).stallRun)) fun s =>
    let x := s.axes[a]
    let enc := s.encoderUsed a
    let s := (s.bump Obj.axisStalls a.inst 0).report (Isl.axis a) Ev.axStall
      [(a.val : Int), if enc then 0 else 1, if enc then usteps x.deviation else x.loadAngle.getD 0, usteps x.position]
    let times := s.time :: x.stallTimes.filter fun t => s.time - t < sTicks 1
    let s := s.updA a fun x => { x with stallTimes := times, stallRun := 0 }
    if s.obN Obj.stallRetries a.inst ≤ times.length then s.axisFault a .stall
    else s.stopAxis a .stall .standstill

/-- STALL_RETRY (R309): after `StallRetryDelay` a sled waits for the position that R131 or R132 sets; until then its words keep the
frozen position with Lost set. -/
def execStallRetry (a : AxisId) (s : State) : Out :=
  let x := s.axes[a]
  s.when (s.axisUp a && a.isSled && x.mode == .standstill && x.frozen && !x.positionValid
      && x.stallTimes.head?.any fun t => decide (msTicks (s.obN Obj.stallRetryDelay a.inst) ≤ s.time - t)) fun s =>
    s.updA a fun x => { x with retryDue := true, wordSource := .hold, wordVelocity := 0, wordFinal := false }

/-- HOLD_DELAY_EXPIRY (R302). -/
def execHoldDelayExpiry (a : AxisId) (s : State) : Out :=
  s.when (s.axisUp a && (s.axes[a]).mode == .standstill
      && decide (msTicks (s.obN Obj.holdDelay a.inst) ≤ s.time - (s.axes[a]).moveEndedAt)) fun s =>
    s.updA a fun x => { x with coil := s.ob Obj.holdCurrent a.inst * 1000 }

/-- Whether a level of an input is its active one: bit 0 of `InputPolarity` home, 1 positive limit, 2 negative limit (R310, R318). -/
def State.inputActive (s : State) (a : AxisId) (bit : Nat) (high : Bool) : Bool := high != (s.obN Obj.inputPolarity a.aux).testBit bit

/-- Set-point position at the first sample of a level that has just qualified: `InputFilter` × 0.1 ms, 2.5 profile periods each, ago (R310, R311). -/
def State.positionAtEdge (s : State) (a : AxisId) : Int :=
  let x := s.axes[a]
  let n := 5 * s.obN Obj.inputFilter a.aux
  let at_ (i : Nat) : Int := x.trail.getD i (x.trail.getLastD x.position)
  if n % 2 = 0 then at_ (n / 2) else rnd (at_ (n / 2) + at_ (n / 2 + 1)) 2

/-- HOME_INPUT (R311, R313): the first qualified active edge of a homing latches the position and halts; every edge that qualifies within
`HomeLockout` of it counts as chatter. -/
def execHomeInput (a : AxisId) (high : Bool) (s : State) : Out :=
  let x := s.axes[a]
  s.when (s.axisUp a && !a.isSled) fun s =>
    if x.mode == .homing && !x.homeFound then
      if s.inputActive a 0 high then
        let corr := ustep (s.ob Obj.homePosition a.aux) - s.positionAtEdge a
        (s.updA a fun x => { x with
          position := x.position + corr, encoder := x.encoder + corr, homeFound := true, homeAt := s.time, homeCorrection := corr }).haltAxis a
      else s
    else if x.homeFound && decide (s.time - x.homeAt ≤ msTicks (s.obN Obj.homeLockout a.aux)) then
      let s := s.bump Obj.chatterCount a.aux 0
      if s.ob Obj.chatterLimit a.aux < s.ob Obj.chatterCount a.aux && !((s.axes[a]).fault.getLsbD 5) then s.axisFault a .chatter else s
    else s

/-- HOMING_END (R311 step 4). -/
def execHomingEnd (a : AxisId) (s : State) : Out :=
  let x := s.axes[a]
  s.when (s.axisUp a && x.mode == .homing && x.homeFound && decide (x.speed = 0)
      && decide (msTicks (s.obN Obj.homeLockout a.aux) ≤ s.time - x.homeAt)) fun s =>
    (s.updA a fun x => { x with mode := .standstill, positionValid := true, down := false, moveEndedAt := s.time }).report (Isl.axis a)
      Ev.axHomed [(a.val : Int), usteps x.homeCorrection, s.ob Obj.chatterCount a.aux]

/-- LIMIT_INPUT (R310, R312): a qualified level of _LIMP or _LIMN. -/
def execLimitInput (a : AxisId) (positive high : Bool) (s : State) : Out :=
  s.when (s.axisUp a && !a.isSled) fun s =>
    let active := s.inputActive a (if positive then 1 else 2) high
    (s.updA a fun x => if positive then { x with limitPos := active } else { x with limitNeg := active }).axisLimits a

/-- ENCODER_ERROR (R303). -/
def execEncoderError (a : AxisId) (s : State) : Out :=
  s.when (s.axisUp a && s.encoderUsed a) fun s => (s.bump Obj.encoderErrorCount a.inst 0).axisFault a .encoderError

/-- AXIS_DRIVER_FAULT (R308): _FLT_N low for 1 µs; _EN goes low. -/
def execAxisDriverFault (a : AxisId) (s : State) : Out :=
  s.when (s.axisUp a) fun s => (s.axisFault a .driverFault).updA a fun x => { x with coil := 0, fltHigh := false }

/-- AXIS_OVERCURRENT (R293, R308): a sample of a coil current above `CoilCurrentTrip`; _EN goes low. -/
def execAxisOvercurrent (a : AxisId) (code : Int) (s : State) : Out :=
  s.when (s.axisUp a && decide (s.ob Obj.coilCurrentTrip a.inst < (rnd (code * s.ob Obj.axisSenseScale a.inst) 2048).natAbs)) fun s => (s.axisFault a .overcurrent).updA a fun x => { x with coil := 0 }

end Sys2Proof.Machine
end

