-- ==== Sys2Proof/Machine/CalOps.lean ====
section
/-! DEFINITION. Shared operations of calibration and ageing: items, agreement of runs, the sets that results go into, margins of ledger
entries and the computation of the margin plan (R441 to R461). -/

namespace Sys2Proof.Machine

/-! ### Items (R442 to R446) -/

/-- Number of the item state of an instance: items 1 to 10 belong to pickups, 11 to spindles. -/
def itemIx (item : Fin 12) (inst : Fin 8) : Option (Fin 92) :=
  if h : item.val = 11 then (if g : inst.val < 4 then some ⟨88 + inst.val, by omega⟩ else none)
  else if h2 : 1 ≤ item.val then some ⟨11 * inst.val + item.val - 1, by omega⟩
  else none

/-- Item and instance of an item state. -/
def ixItem (ix : Fin 92) : Nat × Nat := if 88 ≤ ix.val then (11, ix.val - 88) else (ix.val % 11 + 1, ix.val / 11)

/-- Whether the item state belongs to an enabled instance. -/
def State.itemOn (s : State) (ix : Fin 92) : Bool :=
  let (item, inst) := ixItem ix
  if 88 ≤ ix.val then decide (inst < s.otp.variant.spindles) else decide (item < 11 ∧ inst < 2 * s.otp.variant.spindles)

/-- Item state with a change. -/
def State.updItem (s : State) (ix : Fin 92) (f : CalItem → CalItem) : State :=
  { s with cal := { s.cal with items := upd s.cal.items ix f } }

/-- Active ΔT of an item in 0.01 °C (R442). -/
def State.deltaT (s : State) (x : CalItem) : Int := if x.activeDelta = 0 then s.ob Obj.calDeltaT * 100 else x.activeDelta

/-- Loops whose overrun voids a run of an item (R447). -/
def testedLoops (item : Nat) : List ServoLoop :=
  match item with
  | 1 => [.tracking] | 2 => [.focus] | 3 => [.focus] | 4 => [.tracking] | 5 => [.tilt] | 6 => [.tracking] | 7 => [.tracking, .focus]
  | 10 => [.skew] | _ => []

/-- Pickups whose media commands an item yields to. -/
def itemPickups (item inst : Nat) : List PickupId :=
  (allFin 8).filter fun p => if item = 11 then decide (p.val / 2 = inst) else decide (p.val = inst)

/-- Count that moves with everything that voids a run (R447): hold entries, lane slips and seek failures of its pickups, overruns of the loops
under test. -/
def State.disturbance (s : State) (item inst : Nat) : Nat :=
  ((itemPickups item inst).map fun (p : PickupId) =>
    (s.pickups[p]).disturbed + ((testedLoops item).map fun l => s.obN (overrunRow l) p).sum).sum

/-- An item becomes Due; one that runs goes on. -/
def State.makeDue (s : State) (ix : Fin 92) : State :=
  s.updItem ix fun x => if x.state = .running then x else
    { x with state := .due, retryWaits := false, dueSince := if x.state = .due then x.dueSince else s.time }

/-- What a run has gathered so far is dropped and the item is Due again (R462). -/
def State.voidItem (s : State) (ix : Fin 92) : State :=
  s.updItem ix fun x => if x.state = .running then { x with state := .due, results := [], voids := 0, steps := 0 } else x

/-- All running items are void (R462). -/
def State.voidItems (s : State) : State := s.forEach (allFin 92) State.voidItem

/-- Units of 0.1 nm, of Q1.15 or of a bit in the value 1.0 or 1 of an item with an absolute tolerance (R67, R68, R443), and the value's own
units in it: 2^30 of a Q2.30 word. -/
def absoluteUnits (item : Nat) : Option (Int × Int) :=
  match item with
  | 3 => some (10240, 2 ^ 30) | 4 => some (2560, 2 ^ 30) | 5 => some (2 ^ 15, 2 ^ 30) | 8 => some (1, 1) | 10 => some (2 ^ 15, 2 ^ 30) | _ => none

/-- Whether two values agree within the tolerance of an item; items 3 to 5, 8 and 10 have absolute tolerances (R443). -/
def within (item : Nat) (tol : Int) (a b : Int) : Bool :=
  match absoluteUnits item with
  | some (units, one) => decide (((a - b).natAbs : Int) * units ≤ tol * one)
  | none => decide (((a - b).natAbs : Int) * 2000 ≤ tol * ((a + b).natAbs : Int))

/-- Whether two results agree, value by value. -/
def agree (item : Nat) (tol : Int) (a b : List Int) : Bool :=
  decide (a.length = b.length) && (a.zip b).all fun x => within item tol x.1 x.2

/-- Mean of two results, rounded half up (R446). -/
def meanOf (a b : List Int) : List Int := (a.zip b).map fun x => roundHalfUp (x.1 + x.2) 2

/-! ### Results of runs (R217, R443) -/

/-- Quotient of measured values, rounded as `rnd`; an open value over 0 (log entry 162). -/
def quotient (num den : Int) : Int :=
  if den = 0 then Config.real Tag.calResult [num] else rnd (if den < 0 then -num else num) den.natAbs

/-- Sum of a list. -/
def total (l : List Int) : Int := l.foldl (fun a b => a + b) 0

/-- Largest and smallest of a list. -/
def peaks (l : List Int) : Int × Int := (l.max?.getD 0, l.min?.getD 0)

/-- Least-squares slope of y over x as a numerator and a denominator: n Σxy − Σx Σy over n Σx² − (Σx)². -/
def slopeOf (l : List (Int × Int)) : Int × Int :=
  let n : Int := (l.length : Nat)
  let sx := total (l.map fun p => p.1)
  (n * total (l.map fun p => p.1 * p.2) - sx * total (l.map fun p => p.2), n * total (l.map fun p => p.1 * p.1) - sx * sx)

/-- Vertex of the parabola fitted by least squares to values at n places even over ±1, as a numerator and a denominator. With x from
−(n − 1) to n − 1 in twos, y = ax² + bx + c has b = Σxy / Σx² and a = (n Σx²y − Σx² Σy) / (n Σx⁴ − (Σx²)²), and its vertex is −b / 2a. -/
def vertexOf (ys : List Int) : Int × Int :=
  let n : Int := (ys.length : Nat)
  let l := ys.mapIdx fun (k : Nat) y => (2 * (k : Int) - (n - 1), y)
  let s2 := total (l.map fun p => p.1 ^ 2)
  (-(total (l.map fun p => p.1 * p.2)) * (n * total (l.map fun p => p.1 ^ 4) - s2 * s2),
   2 * (n - 1) * s2 * (n * total (l.map fun p => p.1 ^ 2 * p.2) - s2 * total ys))

/-- Offset at the vertex of a scan over ±`scan`, where 1.0 stands for `units` of it, as a Q2.30 word. -/
def scanVertex (scan units : Int) (ys : List Int) : Int :=
  let (num, den) := vertexOf ys
  q30Sat (quotient (scan * 2 ^ 30 * num) (units * den))

/-- The integer nearest to the 63rd root of a number below 2^1008. -/
def root63 (n : Nat) : Nat :=
  let x := (List.range 16).foldl (fun a i => if (a + 2 ^ (15 - i)) ^ 63 ≤ n then a + 2 ^ (15 - i) else a) 0
  if (2 * x + 1) ^ 63 ≤ n * 2 ^ 63 then x + 1 else x

/-- Step k of 64 logarithmic steps between two frequencies. -/
def logStep (lo hi k : Nat) : Nat := root63 (lo ^ (63 - k) * hi ^ k)

/-- Place of the largest of a list, the first of equal ones. -/
def largestAt (l : List Nat) : Nat :=
  ((l.zipIdx.foldl (fun (a : Option (Nat × Nat)) x => match a with
    | some y => if y.1 < x.1 then some x else some y
    | none => some x) none).map fun x => x.2).getD 0

/-- Frequency in units of 10 Hz of the notch in a slot of a loop (R459). -/
def State.notchAt (s : State) (p : PickupId) (l : ServoLoop) (slot : Nat) : Int :=
  let i := bankInst p l
  Config.real Tag.notchFrequency [s.ob Obj.biquadCoeff i (5 * slot), s.ob Obj.biquadCoeff i (5 * slot + 1)]

/-- Resonance of a loop in units of 10 Hz: the frequency of the largest response over 0.6 to 1.6 times its notch, or over the range that R443
gives where it has none. -/
def State.resonanceOf (s : State) (p : PickupId) (l : ServoLoop) (slot : Nat) (range : Nat × Nat) (response : List Nat) : Int :=
  let fn := (s.notchAt p l slot).toNat
  let (lo, hi) := if slot < 6 then (fn * 6 / 10, fn * 16 / 10) else range
  (logStep lo hi (largestAt response) : Nat)

/-- Segments of the power calibration area of a pair on a layer (R217). -/
def pcaSegments : Nat := 256

/-- The laser slopes of a pickup at its last OPC, for the margin plan (R459). -/
def State.noteSlopes (s : State) (p : PickupId) : State :=
  s.forEach (List.range 5) fun s b =>
    match s.cal.ledger.find? fun e => e.code == 2 && e.inst == 5 * p.val + b with
    | some e => match (e.points.filterMap fun x => x).getLast? with
      | some v => { s with cal := { s.cal with slopeAtOpc := Sparse.insert (5 * p.val + b) v s.cal.slopeAtOpc } }
      | none => s
    | none => s

/-- The step with the least mean ε², the first of equal ones (R217). -/
def bestStep (errors : List Nat) : Nat :=
  (errors.zipIdx.foldl (fun (a : Option (Nat × Nat)) x => match a with
    | some y => if x.1 < y.1 then some x else some y
    | none => some x) none).elim 0 fun x => x.2

/-- OPC of a pair of the present layer (number `n`) has run since mount; the margin plan keeps the laser slopes of that time. -/
def State.noteOpc (s : State) (p : PickupId) (n : Nat) : State :=
  (s.updS p fun x => { x with opcDone := if x.opcDone.contains n then x.opcDone else x.opcDone ++ [n] }).noteSlopes p

/-- A segment of a pair's area is used. -/
def State.takeSegment (s : State) (p : PickupId) (n : Nat) : State :=
  s.updS p fun x => { x with pcaUsed := (List.range 8).map fun i => x.pcaUsed.getD i 0 + if i = n then 1 else 0 }

/-- Beams and powers that OPC chooses: of each beam of the pair the power of the best step, times `OpcMargin`. -/
def State.opcPowers (s : State) (p : PickupId) (pair : Fin 2) (errors : List (List Nat)) : List (Nat × Int) :=
  let inst := p.val * 4 + (s.pickups[p]).layer.getD 0
  errors.mapIdx fun i e =>
    let beam := 2 * pair.val + i
    (beam, clampInt 200 4000 (rnd (s.ob Obj.peakPower inst beam * (80 + 5 * (bestStep e : Int)) * s.ob Obj.opcMargin) 102400))

/-- EV_WR_OPC of a pair. -/
def State.reportOpc (s : State) (p : PickupId) (pair : Fin 2) (powers : List (Nat × Int)) : State :=
  s.report (Isl.sv p) Ev.wrOpc ([(p.val : Int), ((s.pickups[p]).layer.getD 0 : Nat), (pair.val : Int)] ++ powers.map fun x => x.2)

/-- Results of item 1: 800 / (2π · 256 · A) with A half the peak-to-peak, and at 160 nm the reading in 0.1 nm and the centre's slope over the
slope there in 1 / 1,024, both means of the two sides. -/
def trackingResults (pp : List Int) (inboard outboard : Int × Int) (centre : Int) : List Int :=
  let (top, bottom) := peaks pp
  let gain := q30Sat (quotient (800 * 2 ^ 121) (4 * quarterTurn * 256 * (top - bottom)))
  [gain, rnd (((inboard.1.natAbs + outboard.1.natAbs : Nat) : Int) * gain * 2560) (2 * 2 ^ 60), quotient (2048 * centre) (inboard.2 + outboard.2)]

/-- Results of item 10: the line K0 + K1 · 23.0 mm / r̄ through the skew feedback terms; none over less than 10 mm of radius. -/
def skewResults (l : List (Nat × Int)) : Option (List Int) :=
  let (far, near) := peaks (l.map fun p => (p.1 : Int))
  let pts := l.map fun p => (rnd (23000 * 2 ^ 30) p.1, p.2)
  let (num, den) := slopeOf pts
  let k1 := quotient (num * 2 ^ 30) den
  let k0 := rnd (total (pts.map fun p => p.2) * 2 ^ 30 - k1 * total (pts.map fun p => p.1)) (l.length * 2 ^ 30)
  if far - near < 10000 then none else some [q30Sat k0, q30Sat k1]

/-- What a run of an item gives (R443); none where its measurements give no result. -/
def State.runResults (s : State) (inst : Fin 8) (raw : CalRaw) : Option (List Int) :=
  match raw with
  | .passages pp inboard outboard centre => some (trackingResults pp inboard outboard centre)
  | .sweep l =>
    let (top, bottom) := peaks (l.map fun p => p.2)
    let (num, den) := slopeOf (l.filter fun p => decide (bottom ≤ 5 * p.2 ∧ 5 * p.2 ≤ top))
    some [q30Sat (quotient (s.ob Obj.focusLensTravelPerUnit inst * 2 ^ 30 * den) (1024 * num))]
  | .amplitudes l => some (l.map (scanVertex (s.ob Obj.calFocusScan) 10240))
  | .errors l =>
    if l.length = 9 then some [scanVertex (s.ob Obj.calTrackScan) 2560 l] else some [scanVertex (s.ob Obj.calTiltScan) (2 ^ 15) l]
  | .shifts out back =>
    some [rnd (quotient (25600 * 2 ^ 30) (out.natAbs : Nat) + quotient (25600 * 2 ^ 30) (back.natAbs : Nat)) 2]
  | .responses t f => some [s.resonanceOf inst .tracking (s.obN Obj.notchSlotTracking inst) (1200, 4000) t,
                            s.resonanceOf inst .focus (s.obN Obj.notchSlotFocus inst) (800, 3000) f]
  | .lags l => some (l.map fun x => roundHalfUp (total x) x.length)
  | .opc inner outer => some ((s.opcPowers inst 0 inner ++ s.opcPowers inst 1 outer).map fun x => x.2)
  | .skew l => skewResults l
  | .torques l => some [rnd (total l) l.length]

/-- Whether the PCA of both pairs has a segment left on the present layer (item 9). -/
def State.pcaLeft (s : State) (p : PickupId) : Bool :=
  let n := 2 * ((s.pickups[p]).layer.getD 0)
  decide ((s.sides[p]).pcaUsed.getD n 0 < pcaSegments ∧ (s.sides[p]).pcaUsed.getD (n + 1) 0 < pcaSegments)

/-- What a run leaves beside its results: item 9 has used a segment of both pairs (R217). -/
def State.runLeaves (s : State) (inst : Fin 8) (raw : CalRaw) : State :=
  match raw with
  | .opc inner outer =>
    let n := 2 * ((s.pickups[inst]).layer.getD 0)
    let a := s.opcPowers inst 0 inner
    let b := s.opcPowers inst 1 outer
    (((((s.noteOpc inst n).noteOpc inst (n + 1)).takeSegment inst n).takeSegment inst (n + 1)).reportOpc inst 0 a).reportOpc inst 1 b
  | _ => s

/-- Objects that an item calibrates, with whether they are carried entries (R443, R448); item 9 calibrates the present layer. -/
def itemKeys (item inst layer : Nat) : List (Nat × Bool) :=
  match item with
  | 1 => [(Obj.trackingErrorGain.key inst 0, false), (Obj.reassignSetpointMeasured.key inst 0, true),
          (Obj.reassignGainScaleMeasured.key inst 0, true)]
  | 2 => [(Obj.focusErrorGain.key inst 0, false)]
  | 3 => (List.range 4).map fun k => (Obj.focusOffset.key inst k, false)
  | 4 => [(Obj.trackingOffset.key inst 0, false)]
  | 5 => [(Obj.tiltOffset.key inst 0, false)]
  | 6 => [(Obj.lensShiftPerUnit.key inst 0, true)]
  | 7 => [(Obj.resonance.key inst 0, true), (Obj.resonance.key inst 1, true)]
  | 8 => (List.range 4).map fun b => (Obj.guideToBeamDelay.key (4 * inst + b) 0, true)
  | 9 => (List.range 4).map fun b => (Obj.peakPower.key (4 * inst + layer) b, false)
  | 10 => [(Obj.skewFeedforwardK0.key inst 0, false), (Obj.skewFeedforwardK1.key inst 0, false)]
  | _ => [(Obj.frictionTorque.key inst 0, false)]

/-- Stored value of a key. -/
def State.keyValue (s : State) (key : Nat) : Int :=
  match findRow (key / 256) (key % 256) with
  | some (r, i, k) => s.ob r i k
  | none => 0

/-- `ReassignSetpoint` and `ReassignGainScale` take the means of the measured values of the mounted pickups whose item 1 is Valid
(R448). -/
def State.reassignSet (s : State) : List Staged :=
  let ps := (allFin 8).filter fun (p : PickupId) => (s.sides[p]).built && (s.calItem 1 p).state == .valid
  let mean (r : Row) : Int := roundHalfUp ((ps.map fun p => s.ob r p.val).foldl (fun a b => a + b) 0) (max 1 ps.length)
  if ps = [] then []
  else [{ key := Obj.reassignSetpoint.key 0 0, value := mean Obj.reassignSetpointMeasured, carried := false },
        { key := Obj.reassignGainScale.key 0 0, value := mean Obj.reassignGainScaleMeasured, carried := false }]

/-! ### Margins (R453, R454, R458) -/

/-- Instances of a ledger code (R453, R455). -/
def State.ledgerInstances (s : State) (code : Nat) : Nat :=
  let n := s.otp.variant.spindles
  match code with
  | 1 => 10 * n | 2 => 10 * n | 7 => n | 9 => 48 | 10 => 8 * n
  | c => if 1 ≤ c ∧ c ≤ 11 then 2 * n else 0

/-- Valid points of an entry, oldest first. -/
def LedgerEntry.valid (e : LedgerEntry) : List Int := e.points.filterMap fun x => x

/-- Sum of the last four valid points; none when there are fewer. -/
def LedgerEntry.lastFour (e : LedgerEntry) : Option Int :=
  let l := e.valid
  if l.length < 4 then none else some ((l.drop (l.length - 4)).foldl (fun a b => a + b) 0)

/-- Entry of a code and an instance. -/
def State.entryOf (s : State) (code inst : Nat) : Option LedgerEntry := s.cal.ledger.find? fun e => e.code == code && e.inst == inst

/-- Distance from the reference to the limit in 1/1000, and whether the limit lies on one side only: 1 above, -1 below, 0 both. -/
def State.limitOf (s : State) (e : LedgerEntry) : Int × Int :=
  let lim := s.value Obj.ageLimit 0 (e.code - 1)
  let r : Int := (e.reference.natAbs : Nat)
  match e.code with
  | 10 => (((lim.natAbs : Nat) : Int) * 1000, 0)
  | 11 => (lim * 1000 - e.reference * 1000, 1)
  | 3 => (r * (lim.natAbs : Nat), 0)
  | 4 => (r * (lim.natAbs : Nat), 0)
  | 5 => (r * (lim.natAbs : Nat), 0)
  | 6 => (r * (lim.natAbs : Nat), 0)
  | _ => (r * (lim.natAbs : Nat), if lim < 0 then -1 else 1)

/-- m of R458 for an entry with four valid points; a limit that equals the reference leaves m open. -/
def State.margin (s : State) (e : LedgerEntry) : Option Int :=
  e.lastFour.map fun sum =>
    let (d, side) := s.limitOf e
    let diff := sum - 4 * e.reference
    if (side = 1 ∧ diff ≤ 0) ∨ (side = -1 ∧ 0 ≤ diff) then 100
    else if d ≤ 0 then clampInt 0 100 (Config.real Tag.margin [e.code, e.inst, sum])
    else clampInt 0 100 ((100 * (4 * d - 1000 * (diff.natAbs : Int))) / (4 * d))

/-- Margin of an entry by code and instance. -/
def State.marginOf (s : State) (code inst : Nat) : Option Int := (s.entryOf code inst).bind s.margin

/-- Operating hours at point n of an entry. -/
def State.pointHours (s : State) (e : LedgerEntry) (n : Nat) : Int := e.firstHours + n * s.obN Obj.ledgerInterval * 2 ^ e.decimation

/-- Hours until the least-squares line over the valid points of an entry reaches its limit; 0xFFFF_FFFF when it moves away. -/
def State.hoursLeft (s : State) (e : LedgerEntry) : Int :=
  let pts : List (Int × Int) := (e.points.mapIdx fun n y => y.map fun v => (s.pointHours e n, v)).filterMap fun x => x
  let n : Int := (pts.length : Nat)
  let sx := (pts.map fun p => p.1).foldl (fun a b => a + b) 0
  let sy := (pts.map fun p => p.2).foldl (fun a b => a + b) 0
  let sxx := (pts.map fun p => p.1 * p.1).foldl (fun a b => a + b) 0
  let sxy := (pts.map fun p => p.1 * p.2).foldl (fun a b => a + b) 0
  let num := n * sxy - sx * sy
  let den := n * sxx - sx * sx
  let (d, side) := s.limitOf e
  let up := decide (0 < num)
  if num = 0 || den = 0 || (side = 1 && !up) || (side = -1 && up) then 0xFFFFFFFF
  else
    -- the limit in 1/1000, then x = mean x + (L - mean y) / slope, all over 1000 n num
    let lim := 1000 * e.reference + (if up then d else -d)
    let x := 1000 * sx * num + (lim * n - 1000 * sy) * den
    let t := x - s.ob Obj.operatingHours * 1000 * n * num
    clampInt 0 0xFFFFFFFE (rnd (if up then t else -t) (1000 * n * num).natAbs)

/-- The estimate of R458: `RemainingMargin`, `LimitingItem`, `MarginHoursLeft` and EV_AGE_MARGIN_LOW as 50, 25 or 10 is passed. -/
def State.estimate (s : State) : State :=
  let all : List (Int × LedgerEntry) := s.cal.ledger.filterMap fun e => (s.margin e).map fun m => (m, e)
  match all with
  | [] => ((s.setOb Obj.remainingMargin 0 0 100).setOb Obj.limitingItem 0 0 0).setOb Obj.marginHoursLeft 0 0 0xFFFFFFFF
  | x :: rest =>
    let (m, e) := rest.foldl (fun a b => if b.1 < a.1 then b else a) x
    let old := s.ob Obj.remainingMargin
    let s := s.setOb Obj.remainingMargin 0 0 m
    let s := s.setOb Obj.limitingItem 0 0 (e.code * 256 + e.inst : Nat)
    let s := s.setOb Obj.marginHoursLeft 0 0 (s.hoursLeft e)
    if ([50, 25, 10] : List Int).any fun b => decide (m < b ∧ b ≤ old) then
      s.report Isl.core Ev.ageMarginLow [m, ((e.code * 256 + e.inst : Nat) : Int)]
    else s

/-! ### The margin plan (R459, R460) -/

/-- Whether sets of the plan are still to be applied, or wait for a pickup (R456, R462). -/
def State.planRuns (s : State) : Bool :=
  s.staging.owner == some (.internal 1) || s.cal.waiting.any (fun w => w.1 == 1) || s.cal.heldSets != []

/-- An entry of a set where its value differs from the active one. -/
def State.planEntry (s : State) (key : Nat) (v : Int) (carried : Bool) : List Staged :=
  if s.keyValue key = v then [] else [{ key := key, value := v, carried := carried }]

/-- Loop-gain part of the plan for the loop of a pickup: k is the fraction `num / den` of base and present sensitivity. `n` is 0 for
tracking and 1 for focus. -/
def State.planGain (s : State) (p : PickupId) (l : ServoLoop) (n : Nat) (v4 : Option Int) : List Staged :=
  match v4 with
  | none => []
  | some v4 =>
    let present := rnd v4 4
    let stored := s.ob Obj.gainBase p n
    let base := if stored = 0 then present else stored
    let (a, b) := if n = 0 then (4 * base, v4) else (v4, 4 * base)
    let (num, den) : Int × Int := if b ≤ 0 then (1, 1) else if 5 * a < 4 * b then (4, 5) else if 5 * b < 4 * a then (5, 4) else (a, b)
    let gs := s.ob Obj.planGainScale p n
    let first := s.planEntry (Obj.gainBase.key p n) base true
    if 1024 * den ≤ 50 * ((1024 * num - gs * den).natAbs : Int) then
      let i := bankInst p l
      let scale (w : Int) : Int := q30Sat (rnd (w * num * 1024) (den * gs).toNat)
      first ++ (List.range 4).flatMap (fun j => s.planEntry (Obj.ssC.key i j) (scale (s.ob Obj.ssC i j)) false)
        ++ s.planEntry (Obj.ssD.key i 0) (scale (s.ob Obj.ssD i)) false
        ++ s.planEntry (Obj.planGainScale.key p n) (rnd (1024 * num) den.toNat) true
    else first

/-- Notch part of the plan: the biquad of `slot` is retuned when its frequency is off by more than 2 %. -/
def State.planNotch (s : State) (p : PickupId) (l : ServoLoop) (slot : Nat) (fr : Int) : List Staged :=
  if 6 ≤ slot ∨ fr = 0 then []
  else
    let i := bankInst p l
    let fn := s.notchAt p l slot
    if fn < 50 * ((fr - fn).natAbs : Int) then
      (List.range 5).flatMap fun j => s.planEntry (Obj.biquadCoeff.key i (5 * slot + j))
        (q30Sat (Config.real Tag.notchWord [j, fr, s.ob Obj.notchWidth])) false
    else []

/-- The set of one pickup. -/
def State.planPickup (s : State) (p : PickupId) : List Staged :=
  let sum (code : Nat) : Option Int := (s.entryOf code p.val).bind LedgerEntry.lastFour
  s.planGain p .tracking 0 (sum 3) ++ s.planGain p .focus 1 (sum 4)
    ++ s.planNotch p .tracking (s.obN Obj.notchSlotTracking p) (s.ob Obj.resonance p 0)
    ++ s.planNotch p .focus (s.obN Obj.notchSlotFocus p) (s.ob Obj.resonance p 1)

/-- Whether the plan calls for OPC of a pickup. -/
def State.planOpc (s : State) (p : PickupId) : Bool :=
  (match s.marginOf 11 p with | some m => decide (m < 50) | none => false)
    || (List.range 5).any fun b =>
      match s.entryOf 2 (5 * p.val + b), Sparse.find (5 * p.val + b) s.cal.slopeAtOpc with
      | some e, some old => match e.valid.getLast? with
        | some v => decide (20 * v ≤ 19 * old)
        | none => false
      | _, _ => false

/-- A code placed before the first one with a smaller ratio of decisive to run rungs. -/
def insertRanked (better : Nat → Nat → Bool) (c : Nat) : List Nat → List Nat
  | [] => [c]
  | x :: l => if better c x then c :: x :: l else x :: insertRanked better c l

/-- `DetourOrder` as the plan ranks it. -/
def State.planOrder (s : State) : List Nat :=
  let present := ((List.range 6).map fun k => s.obN Obj.detourOrder 0 k).filter (· ≠ 0)
  let run (c : Nat) : Nat := s.obN Obj.detourRungsRun 0 (c - 1)
  let dec (c : Nat) : Nat := s.obN Obj.detourRungsDecisive 0 (c - 1)
  let cand := present.filter fun c => decide (2 ≤ c ∧ 16 ≤ run c)
  let ranked := cand.foldl (fun l c => insertRanked (fun a b => decide (dec b * run a < dec a * run b)) c l) []
  let order := 1 :: ranked ++ present.filter fun c => c ≠ 1 && !ranked.contains c
  (List.range 6).map fun k => order.getD k 0

/-- The global set of the plan. -/
def State.planGlobal (s : State) : List Staged :=
  let mounted := (allFin 8).filter fun (p : PickupId) => (s.sides[p]).built
  let raw := mounted.filterMap fun p => s.marginOf 11 p
  let margin := s.ob Obj.opcMargin
  let opc := if raw.any (fun m => decide (m < 25)) && decide (margin < 1331) then
      s.planEntry (Obj.opcMargin.key 0 0) (min 1331 (margin + 16)) false else []
  let order := s.planOrder.mapIdx fun k c => s.planEntry (Obj.detourOrder.key 0 k) c false
  let spin := (allFin 4).flatMap fun (i : SpindleId) =>
    if i.pickups.any fun p => (s.sides[p]).built then
      match (([s.marginOf 7 i, s.marginOf 5 (2 * i.val), s.marginOf 5 (2 * i.val + 1)]).filterMap fun x => x).min? with
      | none => []
      | some w =>
        let n := s.ob Obj.nMax i
        if w < 25 then s.planEntry (Obj.nMax.key i 0) (max 6000 (n - 500)) false
        else if 50 ≤ w ∧ n < 10000 then s.planEntry (Obj.nMax.key i 0) (min 10000 (n + 500)) false
        else []
    else []
  opc ++ order.flatten ++ spin

/-- A pickup's set is placed, or held back while its engine is Acquiring or in DefectHold (R460). -/
def State.placePlan (s : State) (p : PickupId) (es : List Staged) : State :=
  let e := (s.pickups[p]).engine
  if es = [] then s
  else if e == .acquiring || e == .defectHold then { s with cal := { s.cal with heldSets := s.cal.heldSets ++ [(p, es)] } }
  else s.placeInternal 1 es

end Sys2Proof.Machine
end

