-- ==== Sys2Proof/Machine/Calibration.lean ====
section
/-! DEFINITION. Meanings of the commands of calibration, the ageing ledger and the margin plan (chapter 12). -/

namespace Sys2Proof.Machine

/-! ### Temperature and requests (R441, R442) -/

/-- Items whose kept temperature is further from `CalTemperature` than their active ΔT become Due. -/
def State.dueByTemperature (s : State) : State :=
  s.forEach (allFin 92) fun s ix =>
    let x := s.cal.items[ix]
    if s.itemOn ix && (x.state == .valid || x.state == .failed)
        && decide (s.deltaT x < ((s.ob Obj.calTemperature - x.temperature).natAbs : Int)) then s.makeDue ix
    else s

/-- DIE_TEMPERATURE_SAMPLE (R441, R530): `DieTemperature`, its value through the first-order filter, whose weight over the time since the last
sample is open, and the items that it makes Due. -/
def execDieTemperatureSample (centi : Int) (s : State) : Out :=
  s.when s.running fun s =>
    let t := clampInt (-32768) 32767 centi
    let weight := clampInt 0 (2 ^ 30) (Config.real Tag.calFilter [((s.time - s.cal.sampledAt : Nat) : Int)])
    let f := s.cal.filtered + rnd ((t * 2 ^ 20 - s.cal.filtered) * weight) (2 ^ 30)
    let s := { s with cal := { s.cal with filtered := f, sampledAt := s.time } }
    let s := s.setOb Obj.dieTemperature 0 0 t
    (s.setOb Obj.calTemperature 0 0 (clampInt (-32768) 32767 (rnd f (2 ^ 20)))).dueByTemperature

/-- CAL_REQUEST (R442): one item of one instance, or of all. -/
def execCalRequest (cl : Client) (v : Int) (s : State) : Out :=
  let item := (v % 256).toNat
  let inst := (v / 256).toNat
  let hit (ix : Fin 92) : Bool := s.itemOn ix && decide ((ixItem ix).1 = item) && (inst == 0xFF || decide ((ixItem ix).2 = inst))
  .next (s.hostWrite cl Obj.calRequest 0 0 v (!(allFin 92).any hit) false fun s =>
    s.forEach ((allFin 92).filter hit) State.makeDue)

/-! ### Items (R443 to R448) -/

/-- The nearest lane that holds a Written cluster on the current layer. -/
def State.writtenLane (s : State) (p : PickupId) : Option Nat :=
  let k := s.pickups[p]
  let layer := k.layer.getD 0
  let lane := k.lane.getD 0
  let far (a : Nat) : Nat := ((a : Int) - (lane : Int)).natAbs
  let lanesOf := ((s.sides[p]).map.filter fun e => e.2.state == .written && decide (e.1 / 2 ^ 19 = layer)).map fun e => laneOf .user (e.1 % 2 ^ 19)
  match lanesOf with
  | [] => none
  | a :: l => some (l.foldl (fun b c => if far c < far b then c else b) a)

/-- Whether an item needs a written lane (R443). -/
def needsWritten (item : Nat) : Bool := item == 4 || item == 5 || item == 8

/-- Whether another item runs on the same instance. -/
def State.calBusy (s : State) (ix : Fin 92) : Bool :=
  (allFin 92).any fun j => (s.cal.items[j]).state == .running
    && decide ((ixItem j).2 = (ixItem ix).2 ∧ (88 ≤ j.val ↔ 88 ≤ ix.val))

/-- Conditions of R444 for an item of a pickup. -/
def State.pickupFree (s : State) (p : PickupId) : Bool :=
  let k := s.pickups[p]
  let x := s.sides[p]
  s.svUp p && k.engine == .following && k.seq == .none && x.writeState == .idle && !(x.reads.any fun r => r.ladder.isSome)

/-- Conditions of R444 for item 11. -/
def State.spindleFree (s : State) (i : SpindleId) : Bool :=
  let m := s.spindles[i]
  s.mtUp i && m.mode == .running && m.wobbleSource.isSome && m.detourBase.isNone && m.reference == s.spindleReference i

/-- CAL_ITEM_START (R444): an item that is Due or never ran starts; one that needs a written lane seeks there. -/
def execCalItemStart (item : Fin 12) (inst : Fin 8) (s : State) : Out :=
  match itemIx item inst with
  | none => .next s
  | some ix =>
    let x := s.cal.items[ix]
    let ready := s.coreUp && s.itemOn ix && decide (s.ob Obj.calEnable = 1) && s.host.activation.isNone && !s.calBusy ix
      && (x.state == .due || x.state == .neverRun) && !x.retryWaits
    let begin_ (s : State) (back : Option Target) : State := s.updItem ix fun x => { x with
      state := .running, results := [], voids := 0, steps := 0, startTemperature := s.ob Obj.calTemperature, returnTarget := back
      disturbance := s.disturbance item.val inst.val, dueSince := if x.state = .due then x.dueSince else s.time }
    s.when ready fun s =>
      if item.val = 11 then
        if h : inst.val < 4 then (if s.spindleFree ⟨inst.val, h⟩ then begin_ s none else s) else s
      else if !s.pickupFree inst || (item.val == 9 && !s.pcaLeft inst) then s
      else if needsWritten item.val then
        match s.writtenLane inst with
        | none => s
        | some lane =>
          let k := s.pickups[inst]
          if k.lane = some lane then begin_ s none
          else (begin_ s (some { layer := k.layer.getD 0, lane := k.lane.getD 0 })).startSeek inst
            { layer := k.layer.getD 0, lane := lane }
      else begin_ s none

/-- Whether a pickup has had no dispatched media command for 2 ms (R445). -/
def State.quiet (s : State) (p : PickupId) : Bool :=
  s.undisturbed p && match Sparse.find (nsidOf p) s.host.mediaEnded with
    | some t => decide (2 ≤ s.msSince t)
    | none => true

/-- CAL_STEP (R445): a step runs where no media command of the pickup has been dispatched for 2 ms, or once the item was recorded as deferred. -/
def execCalStep (item : Fin 12) (inst : Fin 8) (s : State) : Out :=
  match itemIx item inst with
  | none => .next s
  | some ix =>
    let x := s.cal.items[ix]
    let ps := itemPickups item.val inst.val
    let free := item.val == 11 || s.pickupFree inst
    s.when (s.coreUp && x.state == .running && free && (x.deferredRecorded || ps.all s.quiet)) fun s =>
      s.updItem ix fun x => { x with steps := x.steps + 1 }

/-- The pickup seeks back to where it was before the item. -/
def State.seekBack (s : State) (ix : Fin 92) (inst : Fin 8) : State :=
  match (s.cal.items[ix]).returnTarget with
  | none => s
  | some t =>
    let s := s.updItem ix fun x => { x with returnTarget := none }
    let k := s.pickups[inst]
    if k.engine == .following && k.seq == .none then s.startSeek inst t else s

/-- An attempt fails (R446): a new one after `CalRetryDelay`, or Failed after `CalRetries` in succession. -/
def State.itemFails (s : State) (ix : Fin 92) : State :=
  let (item, inst) := ixItem ix
  let n := (s.cal.items[ix]).failures + 1
  if s.obN Obj.calRetries ≤ n then
    ((s.updItem ix fun x => { x with state := .failed, failures := 0, results := [], voids := 0, deferredRecorded := false }).bump
      Obj.calFailures 0 0).report Isl.core Ev.calFailed [(item : Int), (inst : Int)]
  else s.updItem ix fun x => { x with state := .due, failures := n, results := [], voids := 0, retryWaits := true, failedAt := s.time }

/-- An agreed value (R442, R446, R448): the item is Valid, its active ΔT follows the change, and its set is placed; the friction torque
waits for a standstill. -/
def State.itemAgrees (s : State) (ix : Fin 92) (value : List Int) : State :=
  let (item, inst) := ixItem ix
  let x := s.cal.items[ix]
  let tol := s.ob Obj.calTolerance 0 (item - 1)
  let far := x.lastAgreed != [] && !agree item (4 * tol) x.lastAgreed value
  let near := x.lastAgreed != [] && agree item tol x.lastAgreed value
  let runs := if near then x.agreedRuns + 1 else 0
  let delta : Int := if far then max 100 (s.deltaT x / 2) else if 8 ≤ runs then 0 else x.activeDelta
  let s := (s.updItem ix fun x => { x with
    state := .valid, temperature := x.startTemperature, activeDelta := delta, agreedRuns := if 8 ≤ runs then 0 else runs
    lastAgreed := value, failures := 0, voids := 0, results := [], deferredRecorded := false
    agreedAtHours := s.obN Obj.operatingHours }).bump Obj.calRunsAgreed 0 0
  if item = 11 then
    if h : inst < 4 then s.updM ⟨inst, h⟩ fun m => { m with pendingFriction := some (value.getD 0 0) } else s
  else
    let layer := if h : inst < 8 then ((s.pickups[(⟨inst, h⟩ : PickupId)]).layer.getD 0) else 0
    let es := ((itemKeys item inst layer).zip value).map fun (e : (Nat × Bool) × Int) =>
      ({ key := e.1.1, value := e.2, carried := e.1.2 } : Staged)
    ({ s with cal := { s.cal with unapplied := s.cal.unapplied ++ [(item, inst, es, x.startTemperature)] } }).placeInternal 2 es

/-- CAL_RUN_END (R443, R446, R447): a run ends. It is void where something disturbed it; item 9 ends without a result, as for want of a written
lane, where no segment is left. Two results that agree, or a third that agrees with one of them, end the item; the pickup seeks back. -/
def execCalRunEnd (item : Fin 12) (inst : Fin 8) (raw : CalRaw) (s : State) : Out :=
  match itemIx item inst, s.runResults inst raw with
  | some ix, some results =>
    let x := s.cal.items[ix]
    s.when (s.coreUp && x.state == .running && decide (0 < x.steps)) fun s =>
      let now := s.disturbance item.val inst.val
      let s := s.updItem ix fun x => { x with steps := 0, disturbance := now }
      let tol := s.ob Obj.calTolerance 0 (item.val - 1)
      if now ≠ x.disturbance then
        if 2 ≤ x.voids then (s.itemFails ix).seekBack ix inst else s.updItem ix fun x => { x with voids := x.voids + 1 }
      else if item.val = 9 && !s.pcaLeft inst then (s.updItem ix fun x => { x with state := .due, results := [], voids := 0 }).seekBack ix inst
      else
        let s := s.runLeaves inst raw
        match x.results with
        | [] => s.updItem ix fun x => { x with results := [results], voids := 0 }
        | [a] =>
          if agree item.val tol a results then (s.itemAgrees ix (meanOf a results)).seekBack ix inst
          else ((s.updItem ix fun x => { x with results := [a, results], voids := 0 }).bump Obj.calDisagreements 0 0).report Isl.core
            Ev.calDisagree ([(item.val : Int), (inst.val : Int)] ++ a ++ results)
        | a :: b :: _ =>
          if agree item.val tol a results then (s.itemAgrees ix (meanOf a results)).seekBack ix inst
          else if agree item.val tol b results then (s.itemAgrees ix (meanOf b results)).seekBack ix inst
          else (s.itemFails ix).seekBack ix inst
  | _, _ => .next s

/-- CAL_RETRY (R446): `CalRetryDelay` has passed since the attempt failed. -/
def execCalRetry (item : Fin 12) (inst : Fin 8) (s : State) : Out :=
  match itemIx item inst with
  | none => .next s
  | some ix =>
    s.when (s.coreUp && decide ((s.cal.items[ix]).failedAt + sTicks (s.obN Obj.calRetryDelay) ≤ s.time)) fun s =>
      s.updItem ix fun x => { x with retryWaits := false }

/-- CAL_DEFERRED (R445): an item has been Due for longer than `CalMaxDefer`; recorded once. -/
def execCalDeferred (item : Fin 12) (inst : Fin 8) (s : State) : Out :=
  match itemIx item inst with
  | none => .next s
  | some ix =>
    let x := s.cal.items[ix]
    s.when (s.coreUp && s.itemOn ix && (x.state == .due || x.state == .running) && !x.deferredRecorded
        && decide (x.dueSince + sTicks (s.obN Obj.calMaxDefer) < s.time)) fun s =>
      (s.updItem ix fun x => { x with deferredRecorded := true }).report Isl.core Ev.calDeferred [(item.val : Int), (inst.val : Int)]

/-! ### The ledger (R454, R457) -/

/-- OPERATING_HOUR (R442, R457): a whole hour in PS0 or PS1; items at `CalMaxInterval` become Due. -/
def execOperatingHour (s : State) : Out :=
  s.when (s.running && decide (s.host.powerState < 2)) fun s =>
    let s := s.setOb Obj.operatingHours 0 0 (min (2 ^ 32 - 1) (s.ob Obj.operatingHours + 1))
    let most := s.obN Obj.calMaxInterval
    s.forEach (allFin 92) fun s ix =>
      let x := s.cal.items[ix]
      if most ≠ 0 ∧ x.state = .valid ∧ x.agreedAtHours + most ≤ s.obN Obj.operatingHours then s.makeDue ix else s

/-- Read power of the beam of a laser entry, in 0.01 mW: instance 5p + beam, the guide beam as 4 (R455). -/
def State.laserPower (s : State) (inst : Nat) : Int :=
  if inst % 5 = 4 then s.ob Obj.readPowerGuide (inst / 5) else s.ob Obj.readPower (inst / 5) (inst % 5)

/-- Quantity of a ledger code (R453): from the objects where one holds it; the threshold current in 0.01 mA and the slope in µW / mA of the line
through the laser currents at `ReadPower` and 1.25 times it, none where the driver answers 0xFFFF; the held focus outputs of the last mount; the
running mean of Σ over `ReadPowerGuide`. -/
def State.quantity (s : State) (code inst : Nat) (currents : Nat × Nat) : Option Int :=
  let (a, b) : Int × Int := (currents.1, currents.2)
  let answered := decide (currents.1 ≠ 0xFFFF ∧ currents.2 ≠ 0xFFFF)
  match code with
  | 1 => if answered then some (5 * a - 4 * b) else none
  | 2 => if answered then some (if b ≤ a then Config.real Tag.laserSlope [a, b] else rnd (250 * s.laserPower inst) (b - a).toNat) else none
  | 4 => if h : inst < 8 then
      let k := s.pickups[(⟨inst, h⟩ : PickupId)]
      match k.heldFocus[3], k.heldFocus[0] with
      | some far, some near => some (rnd (far - near) 3)
      | _, _ => none
    else none
  | 8 => if h : inst < 8 then some (rnd (s.pickups[(⟨inst, h⟩ : PickupId)]).sumMean (s.obN Obj.readPowerGuide inst)) else none
  | 3 => some (s.ob Obj.lensShiftPerUnit inst)
  | 5 => some (s.ob Obj.resonance inst 0)
  | 6 => some (s.ob Obj.resonance inst 1)
  | 7 => some (s.ob Obj.frictionTorque inst)
  | 9 => some (s.ob Obj.ringOscDelay 0 inst)
  | 10 => some (s.value Obj.adcOffset inst)
  | 11 => some (s.value Obj.rawMarginIterations inst)
  | _ => none

/-- A list without its every second item. -/
def everySecond {α : Type} : List α → List α
  | [] => []
  | [a] => [a]
  | a :: _ :: l => a :: everySecond l

/-- A point is added to an entry (R454); a 33rd halves the points and doubles the interval. -/
def LedgerEntry.addPoint (e : LedgerEntry) (v : Option Int) (interval : Nat) : LedgerEntry :=
  let full := decide (32 ≤ e.points.length)
  let d := if full then min 15 (e.decimation + 1) else e.decimation
  { e with points := (if full then everySecond e.points else e.points) ++ [v], decimation := d, dueAt := e.dueAt + interval * 2 ^ d }

/-- LEDGER_POINT (R454): the first point of a quantity makes its entry; a later one falls due by the operating hours and is stored empty
outside `LedgerTempWindow`. -/
def execLedgerPoint (code instance_ : Nat) (currents : Nat × Nat) (s : State) : Out :=
  s.when (s.coreUp && decide (instance_ < s.ledgerInstances code)) fun s =>
    let hours := s.obN Obj.operatingHours
    let temp := s.ob Obj.calTemperature
    let interval := s.obN Obj.ledgerInterval
    match s.quantity code instance_ currents with
    | none => s
    | some v =>
      let record (s : State) (v : Option Int) : State :=
        ({ s with cal := { s.cal with planDue := true } }).report Isl.core Ev.agePoint [(code : Int), (instance_ : Int), v.getD (-(2 ^ 31))]
      match s.entryOf code instance_ with
      | none =>
        if 256 ≤ s.cal.ledger.length then s
        else
          let e : LedgerEntry := { code := code, inst := instance_, decimation := 0, reference := v, referenceTemp := temp, firstHours := hours
                                   points := [some v], dueAt := hours + interval }
          record { s with cal := { s.cal with ledger := s.cal.ledger ++ [e] } } (some v)
      | some e =>
        if hours < e.dueAt then s
        else
          let v := if ((temp - e.referenceTemp).natAbs : Int) ≤ s.ob Obj.ledgerTempWindow * 100 then some v else none
          record { s with cal := { s.cal with ledger := s.cal.ledger.map fun x =>
            if x.code = code ∧ x.inst = instance_ then x.addPoint v interval else x } } v

/-! ### The margin plan (R458 to R460) -/

/-- What the plan does beyond its sets: item 9 becomes Due where the plan calls for OPC. -/
def State.planDueOpc (s : State) (p : PickupId) : State :=
  match itemIx 9 p with
  | some ix => if s.planOpc p then s.makeDue ix else s
  | none => s

/-- MARGIN_PLAN (R459, R460): the estimate; in mode 1 the changes become the proposal, in mode 2 they are placed. -/
def execMarginPlan (s : State) : Out :=
  s.when (s.coreUp && s.cal.planDue && decide (s.host.powerState < 2) && s.host.activation.isNone && !s.planRuns) fun s =>
    let s := { s with cal := { s.cal with planDue := false } }.estimate
    let mode := s.obN Obj.marginPlanMode
    let ps := (allFin 8).filter fun (p : PickupId) => (s.sides[p]).built
    let sets := ps.map fun p => (p, s.planPickup p)
    let global := s.planGlobal
    if mode = 0 then s
    else if mode = 1 then
      let all := (sets.flatMap fun x => x.2) ++ global
      ({ s with cal := { s.cal with proposal := (all.filter fun (e : Staged) => !e.carried).map fun (e : Staged) => (e.key, e.value) } }).report Isl.core
        Ev.planProposed []
    else
      let s := s.forEach ps State.planDueOpc
      (s.forEach sets fun s x => s.placePlan x.1 x.2).placeInternal 1 global

/-- MARGIN_PLAN_REQUEST (R459). -/
def execMarginPlanRequest (cl : Client) (v : Int) (s : State) : Out :=
  .next (s.hostWrite cl Obj.marginPlanRequest 0 0 v false false fun s => { s with cal := { s.cal with planDue := true } })

/-- PLAN_SET_RELEASE (R460): the pickup's engine neither acquires nor holds any more, so its set is placed. -/
def execPlanSetRelease (p : PickupId) (s : State) : Out :=
  let e := (s.pickups[p]).engine
  s.when (s.coreUp && e != .acquiring && e != .defectHold) fun s =>
    match s.cal.heldSets.find? fun x => x.1 == p with
    | none => s
    | some (_, es) =>
      ({ s with cal := { s.cal with heldSets := s.cal.heldSets.filter fun x => x.1 != p } }).placeInternal 1 es

end Sys2Proof.Machine
end

