-- ==== Sys2Proof/Machine/TraceOps.lean ====
section
/-! DEFINITION. Trace taps: what a sampling edge adds to the armed trace channels (R495 to R497). -/

namespace Sys2Proof.Machine

/-- Samples of a channel. -/
def traceDepth : Nat := 65536

/-- An armed channel takes a sample of edge n: the first one fixes `TraceStartN`; in Once the memory fills once, in Ring the
oldest sample makes room, and after a captured milestone `postLeft` counts down. -/
def Trace.take (t : Trace) (mode n : Nat) (v : Int) : Trace :=
  let t := if t.samples = [] then { t with startN := n } else t
  match mode with
  | 1 => if t.samples.length < traceDepth then { t with samples := t.samples ++ [v], stopN := n } else t
  | 2 =>
    if t.postLeft = some 0 then t
    else
      let l := t.samples ++ [v]
      { t with samples := if traceDepth < l.length then l.drop 1 else l, stopN := n, postLeft := t.postLeft.map fun k => k - 1 }
  | _ => t

/-- The sampling edge n of an island passes: every armed channel whose point lies there takes its value. -/
def State.traceTap (s : State) (src : IslandId) (n : Nat) (point : Nat → Option Int) : State :=
  s.forEach (allFin 8) fun s c =>
    let source := s.obN Obj.traceSource c
    let t := s.traces[c]
    if t.state == .armed && decide (source / 256 = src.val) && decide (n % 2 ^ (s.obN Obj.traceDecimation c) = 0) then
      match point (source % 256) with
      | some v => { s with traces := upd s.traces c fun t => t.take (s.obN Obj.traceMode c) n v }
      | none => s
    else s

end Sys2Proof.Machine
end

