-- ==== Sys2Proof/Machine/Milestones.lean ====
section
/-! DEFINITION. Meanings of the commands of the milestone unit and the trace channels (chapter 13, R489 to R497). -/

namespace Sys2Proof.Machine

/-! ### Triggers (R489) -/

/-- MILESTONE_REQUEST (R489): the software trigger. -/
def execMilestoneRequest (cl : Client) (v : Int) (s : State) : Out :=
  .next (s.hostWrite cl Obj.milestoneRequest 0 0 v false false fun s => s.trigger 0 0)

/-- MILESTONE_BALL_EDGE (R489): the unit ignores its own pulse, which lies in the tracking period of T0. -/
def execMilestoneBallEdge (s : State) : Out :=
  s.when (s.svUp 0) fun s =>
    if s.milestone.ballDriven && decide (s.milestone.t0N = s.gridN) then { s with milestone := { s.milestone with ballDriven := false } }
    else s.trigger 2 0

/-- The ring channels that are armed stop `TracePostSamples` samples after T0 (R497). -/
def State.stopRings (s : State) : State :=
  s.forEach (allFin 8) fun s c =>
    if (s.traces[c]).state == .armed && s.obN Obj.traceMode c == 2 && (s.traces[c]).postLeft.isNone then
      { s with traces := upd s.traces c fun t => { t with postLeft := some (s.obN Obj.tracePostSamples c) } }
    else s

/-- MILESTONE (R489, R490, R492): the triggers registered are taken at T0, `cycle` ns after the sampling edge; the milestone is captured
unless an earlier capture stands. -/
def execMilestone (cycle : Nat) (s : State) : Out :=
  s.when (s.svUp 0 && s.milestone.pendingSources != 0) fun s =>
    let m := s.milestone
    let taken := m.state == .idle
    let s := { s with milestone := { m with pendingSources := 0, pendingDetail := 0 } }
    let n := s.recorder.nextSeq
    let s := if taken then s.freeze.stopRings else s.bump Obj.milestonesMissed 0 0
    let s := if (s.memUp && s.recorder.running) then
        s.ownNext Ev.recMilestone [(m.pendingSources.toNat : Int), (m.pendingDetail : Int), bit taken] else s
    if taken then
      { s with milestone := { s.milestone with
          state := .capturing, seq := n, sources := m.pendingSources, detail := m.pendingDetail, t0N := s.gridN, t0Cycle := cycle % 625
          tick := s.tick, blocks := .replicate 48 {}, ballDriven := s.obN Obj.milestoneBallOut == 1 } }
    else s

/-! ### Capture (R490, R491, R493, R494) -/

/-- Words of SVp. -/
def State.svWords (s : State) (p : Nat) : List Int :=
  let k := s.pk p
  [k.engine.code + k.holdCause.toNat * 2 ^ 8, s.ob Obj.servoOverrunStatus p, k.xT, k.xF, (at_ k.loops {} 1).u, (at_ k.loops {} 0).u, k.sum,
   k.wobble, s.value Obj.currentLane p + s.value Obj.currentLayer p * 2 ^ 16, usteps (s.ax p).position]

/-- Words of CHg. -/
def State.chWords (s : State) (g : Nat) : List Int :=
  let c := s.chn g
  [(s.channelMode g).code + c.lastStatus.code * 2 ^ 8, c.stream, c.place, s.value Obj.vgaGain g, c.phase,
   s.value Obj.timingFreqOffset g, s.value Obj.envelopeMean g,
   bit c.envFlag + 2 * bit c.guideFlagged + 4 * bit ((s.pk (g / 4)).engine == .defectHold), s.value Obj.adcOffset g,
   s.value Obj.itiCoupling g (g % 4 + 1)]

/-- Words of MTs. -/
def State.mtWords (s : State) (i : Nat) : List Int :=
  let m := s.sp i
  [m.mode.code, m.measured, m.angle, m.currentD, m.currentQ, m.torque, m.vbus, m.fault.toNat, m.reference, m.source]

/-- Words of HOST. -/
def State.hostWords (s : State) : List Int :=
  let out (c : CtrlId) : Int := ((s.host.cmds.filter fun k => k.ref.ctrl == c).length : Nat)
  let d := s.host.lastDoorbell
  [(s.ctl 0).mode.code + (s.ctl 1).mode.code * 2 ^ 8, (s.host.tolls.length : Nat), out 0, out 1, (d.1 : Nat), (d.2 : Nat), s.host.powerState,
   s.value Obj.queuePoolSqUsed, s.value Obj.queuePoolCqUsed, 0]

/-- Words of CORE; the program counters of its cores lie outside the manual, each is a free value. -/
def State.coreWords (s : State) : List Int :=
  (List.range 4).map (fun j => Config.freeValue (s.freeCount + j))
    ++ [s.staging.mode.code, s.value Obj.stagedCount, s.value Obj.selfTestSegment, 0, 0, 0]

/-- Words of MEM. -/
def State.memWords (s : State) : List Int :=
  let items (lo : Nat) : Int := ((List.range 32).map fun j => (s.ramp (lo + j)).items.length).foldl (fun a b => a + b) 0
  [s.value Obj.mergeEntriesUsed, s.value Obj.trackerEntriesUsed, s.value Obj.poolBusy, s.value Obj.poolQueueDepth, s.value Obj.workspaceClusters,
   items 0, items 32, (s.recorder.backlog.length : Nat), (s.recorder.buffer.length : Nat), s.value Obj.layByLines]

/-- Words of Verge. -/
def State.vergeWords (s : State) : List Int :=
  let comps := (allFin 4).foldl (fun acc k => acc + if (s.verge.comps[k]).tripped then 2 ^ k.val else 0) 0
  [(s.tick % 2 ^ 32 : Nat), (s.tick / 2 ^ 32 : Nat), comps, s.verge.offset % 2 ^ 32, s.verge.offset / 2 ^ 32, 0, 0, 0, 0, 0]

/-- The ten words of an island (R494). -/
def State.latchWords (s : State) (i : IslandId) : List Int :=
  if i.val < 32 then s.chWords i.val
  else if i.val < 40 then s.svWords (i.val - 32)
  else if i.val < 44 then s.mtWords (i.val - 40)
  else if i.val = 44 then s.hostWords
  else if i.val = 45 then s.coreWords
  else if i.val = 46 then s.memWords
  else s.vergeWords

/-- MILESTONE_LATCH (R490, R491): an island that runs latches its registers, `latencyNs` after T0; the capture is Held once every island that runs has. -/
def execMilestoneLatch (island : IslandId) (latencyNs : Nat) (s : State) : Out :=
  s.when (s.milestone.state == .capturing && s.islandUp island && !(s.milestone.blocks[island]).valid) fun s =>
    let measured := decide (44 ≤ island.val)
    let at_ := s.milestone.t0Cycle + latencyNs
    let b : CaptureBlock := {
      valid := true, measured := measured, uncertainty := if measured then s.milestone.uncertainty.getD (island.val - 44) 0 else 0
      latencyNs := latencyNs, latchN := s.milestone.t0N + at_ / 625, latchCycle := at_ % 625, words := s.latchWords island }
    let s := { s with freeCount := s.freeCount + 4 }
    let s := { s with milestone := { s.milestone with blocks := upd s.milestone.blocks island fun _ => b } }
    if (allFin 48).all fun i => !s.islandUp i || (s.milestone.blocks[i]).valid then
      { s with milestone := { s.milestone with state := .held } }
    else s

/-- MILESTONE_RELEASE (R492). -/
def execMilestoneRelease (cl : Client) (v : Int) (s : State) : Out :=
  .next (s.hostWrite cl Obj.milestoneRelease 0 0 v false false fun s =>
    if s.milestone.state == .held then { s with milestone := { s.milestone with state := .idle } } else s)

/-! ### Traces (R497) -/

/-- TRACE_ARM (R497): the channel is armed at the next sampling edge; mode Off takes no sample. -/
def execTraceArm (cl : Client) (ch : Fin 8) (v : Int) (s : State) : Out :=
  .next (if v ≠ 1 then s else s.hostWrite cl Obj.traceCommand ch 0 v false false fun s =>
    { s with traces := upd s.traces ch fun _ => { state := .armed } })

/-- TRACE_STOP (R497): the channel stops at once. -/
def execTraceStop (cl : Client) (ch : Fin 8) (v : Int) (s : State) : Out :=
  .next (if v ≠ 2 then s else s.hostWrite cl Obj.traceCommand ch 0 v false false fun s =>
    { s with traces := upd s.traces ch fun t => { t with state := if t.state = .armed then .stopped else t.state } })

/-- TRACE_COMPLETE (R497): Once has its 65,536 samples, or Ring the samples after T0. -/
def execTraceComplete (ch : Fin 8) (s : State) : Out :=
  let t := s.traces[ch]
  let mode := s.obN Obj.traceMode ch
  s.when (t.state == .armed && ((mode == 1 && decide (traceDepth ≤ t.samples.length)) || (mode == 2 && t.postLeft == some 0))) fun s =>
    { s with traces := upd s.traces ch fun t => { t with state := .stopped } }

end Sys2Proof.Machine
end

