-- ==== Sys2Proof/Machine/DomReads.lean ====
section
/-! DEFINITION. Bytes of the STR and DOM objects, and the value that a read of an object returns (R363 to R365). -/

namespace Sys2Proof.Machine

/-! ### Byte strings -/

/-- ASCII bytes of a string, padded with blanks to a length (R364). -/
def strBytes (n : Nat) (t : String) : List Byte :=
  let b := (t.toList.map fun c => BitVec.ofNat 8 c.toNat).take n
  b ++ List.replicate (n - b.length) 0x20#8
/-- Bytes padded with zeros, or cut, to a length. -/
def padTo (n : Nat) (b : List Byte) : List Byte := b.take n ++ List.replicate (n - b.length) 0#8

/-- `ModelNumber`: the ordering code of R3. -/
def Variant.model : Variant → String
  | .s => "VP6480-S" | .d => "VP6480-D" | .q => "VP6480-Q"

/-! ### Events (R468, R481) -/

/-- The 32 bytes of a record; one whose word cannot be read is all 0xFF (R436). -/
def State.recordBytes (s : State) (r : Record) : List Byte :=
  if s.recorder.unreadable.contains r.seq then List.replicate 32 0xFF#8
  else
    let payload := (Config.payloadBytes r.code r.payload).take 16
    let flags := (if r.continued then 1 else 0) + (if r.summary then 2 else 0) + (if r.frozen then 4 else 0)
    let head := leBytes 8 r.seq ++ leBytes 2 r.code ++ leBytes 1 r.source ++ leBytes 1 (flags : Nat) ++ leBytes 1 payload.length ++ [0#8]
      ++ padTo 16 payload
    head ++ leBytes 2 (crc16 head)

/-- Records from `EventReadSequence` on, of the event buffer or else the running area, in sequence order, 128 at most. -/
def State.eventRecords (s : State) : List Record :=
  let from_ := s.obN Obj.eventReadSequence
  let r := s.recorder
  let all := (r.valid.filter fun x => !(r.buffer.any fun y => y.seq == x.seq)) ++ r.buffer
  let put (l : List (Nat × Record)) (x : Record) : List (Nat × Record) := Sparse.insert x.seq x l
  (((all.filter fun x => decide (from_ ≤ x.seq)).foldl put []).map fun e => e.2).take 128

/-! ### Calibration data (R449, R455) -/

/-- Keys of a saved set, in ascending order: the members of R450 that exist. -/
def setKeys (j : Nat) : List Nat :=
  (List.range 65536).flatMap fun idx =>
    if indexExists idx then ((List.range 256).map fun sub => idx * 256 + sub).filter fun key =>
      calSetOf key == some j && (match findRow idx (key % 256) with | some (r, _, _) => !r.type.isBytes | none => false)
    else []

/-- Item that calibrates an object of a set, if any. -/
def itemOfKey (key : Nat) : Option (Nat × Nat) :=
  (List.range 11).findSome? fun n => (List.range 8).findSome? fun inst =>
    let layers := if n + 1 = 9 then [0, 1, 2, 3] else [0]
    if layers.any (fun l => (itemKeys (n + 1) inst l).any fun e => e.1 == key) then some (n + 1, inst) else none

/-- Kept temperature of the item of an object (R449). -/
def State.keyTemperature (s : State) (key : Nat) : Int :=
  match itemOfKey key with
  | some (item, inst) => (s.calItem item inst).temperature
  | none => -32768

/-- `CalibrationSet` (R449). -/
def State.setBytes (s : State) (j : Nat) : List Byte :=
  let entry (key : Nat) : List Byte := match findRow (key / 256) (key % 256) with
    | some (r, i, k) => leBytes 2 (key / 256 : Nat) ++ leBytes 1 (key % 256 : Nat) ++ leBytes 1 r.type.code ++ leBytes 2 (s.keyTemperature key)
        ++ [0#8, 0#8] ++ leBytes 8 (s.ob r i k)
    | none => []
  let keys := setKeys j
  let body := padTo 8192 (keys.flatMap entry)
  let head := leBytes 2 1 ++ leBytes 2 keys.length ++ leBytes 4 (s.ob Obj.calSetGeneration 0 j) ++ leBytes 8 s.otp.dieIdentity
    ++ leBytes 8 s.tick ++ leBytes 4 (s.ob Obj.operatingHours) ++ List.replicate 32 0#8
  head ++ leBytes 4 (crc32 (head ++ body)) ++ body

/-- `AgeingLedger` (R455). -/
def State.ledgerBytes (s : State) : List Byte :=
  let point (p : Option Int) : List Byte := leBytes 4 (p.getD (-(2 ^ 31)))
  let entry (e : LedgerEntry) : List Byte :=
    leBytes 1 e.code ++ leBytes 1 e.inst ++ leBytes 1 e.points.length ++ leBytes 1 e.decimation ++ leBytes 4 e.reference
      ++ leBytes 2 e.referenceTemp ++ [0#8, 0#8] ++ leBytes 4 e.firstHours ++ padTo 128 (e.points.flatMap point)
  let body := padTo 36864 (s.cal.ledger.flatMap entry)
  let head := leBytes 2 1 ++ leBytes 2 s.cal.ledger.length ++ leBytes 8 s.otp.dieIdentity ++ leBytes 4 (s.ob Obj.operatingHours)
    ++ List.replicate 44 0#8
  head ++ leBytes 4 (crc32 (head ++ body)) ++ body

/-! ### Other data -/

/-- `RunoutMap` of a layer: focus, tracking and tilt of point m at byte 6m (R112). -/
def State.mapBytes (s : State) (p layer : Nat) : List Byte :=
  let m := at_ (s.pk p).maps {} layer
  (List.range 4096).flatMap fun n =>
    let x := m.at n
    leBytes 2 x.1 ++ leBytes 2 x.2.1 ++ leBytes 2 x.2.2

/-- `MilestoneCapture` (R493). -/
def State.captureBytes (s : State) : List Byte :=
  let m := s.milestone
  let head := leBytes 8 m.seq ++ leBytes 1 m.sources.toNat ++ [0#8] ++ leBytes 2 m.detail ++ leBytes 8 m.t0N ++ leBytes 2 m.t0Cycle
    ++ leBytes 8 m.tick ++ List.replicate 30 0#8
  let block (i : Nat) (b : CaptureBlock) : List Byte :=
    leBytes 1 i ++ leBytes 1 ((if b.valid then 1 else 0) + (if b.measured then 2 else 0) : Nat) ++ leBytes 2 b.uncertainty ++ leBytes 4 b.latencyNs
      ++ leBytes 8 b.latchN ++ leBytes 2 b.latchCycle ++ List.replicate 6 0#8 ++ padTo 40 (b.words.flatMap fun w => leBytes 4 w)
  if m.state == .held then head ++ leBytes 4 (crc32 head) ++ (m.blocks.toList.mapIdx block).flatten else List.replicate 3136 0#8

/-- `TraceWindow`: 4,096 samples from 4,096 × `TraceWindowSelect` on (R497). -/
def State.traceBytes (s : State) (c : Nat) : List Byte :=
  let l := ((at_ s.traces {} c).samples.drop (4096 * s.obN Obj.traceWindowSelect c)).take 4096
  padTo 16384 (l.flatMap fun v => leBytes 4 v)

/-- `ScrubSummary` (R423). -/
def State.scrubBytes (s : State) : List Byte :=
  let l := s.mem.scrubSummary
  let f (i : Nat) : Int := l.getD i 0
  if l = [] then List.replicate 32 0#8
  else leBytes 4 (f 0) ++ leBytes 4 (f 1) ++ leBytes 8 (f 2) ++ leBytes 4 (f 3) ++ leBytes 4 (f 4) ++ leBytes 4 (f 5) ++ leBytes 1 (f 6)
    ++ leBytes 1 (f 7) ++ leBytes 1 (f 8) ++ [0#8]

/-- `TrackerTable` (R438). -/
def State.trackerBytes (s : State) : List Byte :=
  let st (t : TrackState) : Nat := match t with | .counting => 1 | .writtenBack => 2 | .pinned => 3
  padTo 512 (s.mem.tracker.flatMap fun t =>
    leBytes 4 ((if t.ddr then 2 ^ 31 else 0) + t.word : Nat) ++ leBytes 2 t.count ++ leBytes 1 (st t.state) ++ [0#8])

/-- `PlanProposal` (R465). -/
def State.proposalBytes (s : State) : List Byte :=
  padTo 4096 (s.cal.proposal.flatMap fun e =>
    let t := match findRow (e.1 / 256) (e.1 % 256) with | some (r, _, _) => r.type.code | none => 0
    leBytes 2 (e.1 / 256 : Nat) ++ leBytes 1 (e.1 % 256 : Nat) ++ leBytes 1 t ++ leBytes 4 e.2)

/-- `SlotHeader` (R524, R532). -/
def Image.headerBytes (m : Image) : List Byte :=
  leBytes 4 m.magic ++ leBytes 2 m.format ++ leBytes 2 m.device ++ leBytes 4 m.bodyLength ++ leBytes 1 m.securityVersion ++ leBytes 1 m.keyIndex
    ++ [0#8, 0#8] ++ leBytes 8 m.revision ++ List.replicate 8 0#8 ++ beBytes 32 m.bodyDigest.toNat ++ beBytes 64 m.signature.toNat

/-- Bytes of an STR or DOM object. -/
def State.bytesOf (s : State) (r : Row) (i k : Nat) : List Byte :=
  if r == Obj.runoutMap then s.mapBytes i k
  else if r == Obj.ldpcBaseMatrix then (List.range 4).flatMap fun a => (List.range 36).flatMap fun c => leBytes 2 (ldpcEntry a c)
  else if r == Obj.discId then beBytes 16 (s.sd i).discId.toNat
  else if r == Obj.digestValue then beBytes 32 (((s.shownZone i).digest.getD 0).toNat)
  else if r == Obj.serialNumber then (List.range 20).map fun j => BitVec.ofNat 8 (Config.perDevice (100 + j))
  else if r == Obj.modelNumber then strBytes 40 s.otp.variant.model
  else if r == Obj.latencyHistogram then (List.range 64).flatMap fun b => leBytes 4 ((Sparse.get (0 : Nat) s.host.latency (64 * k + b) : Nat) : Int)
  else if r == Obj.vendorName then strBytes 32 "Xanael Devices"
  else if r == Obj.deviceName then strBytes 32 "Verop VP6480"
  else if r == Obj.firmwareRevision then leBytes 8 s.power.revision
  else if r == Obj.stagedList then
    s.staging.entries.flatMap fun e => leBytes 2 (e.key / 256 : Nat) ++ leBytes 1 (e.key % 256 : Nat) ++ [0#8]
  else if r == Obj.scrubSummary then s.scrubBytes
  else if r == Obj.trackerTable then s.trackerBytes
  else if r == Obj.ageingLedger then s.ledgerBytes
  else if r == Obj.planProposal then s.proposalBytes
  else if r == Obj.calibrationSet then s.setBytes k
  else if r == Obj.eventWindow then padTo 4096 (s.eventRecords.flatMap s.recordBytes)
  else if r == Obj.originWindow then
    padTo 4096 (((s.recorder.origin.drop (s.obN Obj.originReadIndex)).take 128).flatMap s.recordBytes)
  else if r == Obj.milestoneCapture then s.captureBytes
  else if r == Obj.traceWindow then s.traceBytes i
  else if r == Obj.slotHeader then match at_ s.power.slots none k with
    | some m => m.headerBytes
    | none => List.replicate 128 0#8
  else s.dom r i k

/-- Bytes that a read of an object returns: little-endian values, byte strings as they are (R365). -/
def State.readBytes (s : State) (r : Row) (i k : Nat) : List Byte :=
  if r.type.isBytes then s.bytesOf r i k else leBytes r.type.size (s.value r i k)

end Sys2Proof.Machine
end

