-- ==== Sys2Proof/Machine/Memory.lean ====
section
/-! DEFINITION. Meanings of the commands of the memories and on-ramps (chapter 11). -/

namespace Sys2Proof.Machine

/-! ### Merge buffer (R415, R416) -/

/-- MERGE_DRAIN (R416): an entry drains that is full, that is the oldest of a full buffer, or that a cache disable drains. -/
def execMergeDrain (ddr : Bool) (span : Nat) (s : State) : Out :=
  s.when s.memUp fun s =>
    match s.mem.merge.find? fun e => e.ddr == ddr && e.span == span with
    | none => s
    | some e =>
      let oldest := decide (mergeDepth ≤ s.mem.merge.length) && s.mem.merge.head? == some e
      if decide (64 ≤ e.bytes.length) || oldest || s.mem.cacheDisabling then s.drain ddr span else s

/-- MERGE_DRAIN_TIMEOUT (R416): `MergeDrainTime`, in nanoseconds, has passed since the entry was taken. -/
def execMergeDrainTimeout (ddr : Bool) (span : Nat) (s : State) : Out :=
  s.when s.memUp fun s =>
    match s.mem.merge.find? fun e => e.ddr == ddr && e.span == span with
    | none => s
    | some e => if e.since + (s.obN Obj.mergeDrainTime + 624) / 625 ≤ s.time then s.drain ddr span else s

/-! ### Reads that the checker corrects or refuses (R408, R419, R432, R436) -/

/-- Words of the on-ramp banks: 64 on-ramps of two banks of 32 items of four words (R430). -/
def rampWords : Nat := 16384
/-- Words of the event buffer: four for each record of the ring (R468). -/
def bufferWords : Nat := 32768
/-- Words of the trace memory (R495). -/
def traceWords : Nat := 262144

/-- Whether a place exists in a memory, by the codes of `LastUncorrectableAddress` (R437). -/
def placeExists (memory place : Nat) : Bool :=
  match memory with
  | 0 => decide (place < 8 * sramWords)
  | 8 => ddrExists place
  | 1 => ddrExists place
  | 2 => ddrExists place
  | 3 => decide (place < rampWords)
  | 5 => decide (place < bufferWords)
  | 6 => decide (place < traceWords)
  | _ => false

/-- Address with its memory code. -/
def codedAddress (memory place : Nat) : Int := (memory * 2 ^ 60 + place : Nat)

/-- A running scrub pass counts a word that is not Clean (R423). -/
def State.scrubHit (s : State) (byte : Nat) (syndrome : Byte) : State :=
  s.updMem fun m => { m with scrub := m.scrub.map fun x =>
    let c := classify syndrome
    { x with
      corrected := x.corrected + (if c.corrected then 1 else 0)
      uncorrectable := x.uncorrectable + (if c.lost then 1 else 0)
      firstFail := if x.firstFail.isSome then x.firstFail else some (byte, syndrome.toNat, c.code) } }

/-- CORRECTED_READ (R408, R419, R432): counted and recorded; words of shared SRAM and of the LPDDR5 are reported to the tracker, those of an
on-ramp are counted there. The test window is ignored (R413). -/
def execCorrectedRead (memory place : Nat) (syndrome : BitVec 8) (scrub : Bool) (s : State) : Out :=
  if !placeExists memory place then .fault (.noSuchAddress memory place)
  else s.when (s.memUp && (classify syndrome).corrected && !(memory == 0 && inWindow (place / 8))) fun s =>
    let s := (s.bump Obj.correctedWords 0 0).report Isl.mem Ev.memCorrected [codedAddress memory place, (syndrome.toNat : Int)]
    let s := if scrub && memory == 0 then s.scrubHit (place / 8 * 8) syndrome else s
    match memory with
    | 0 => s.trackWord false (place / 8)
    | 8 => s.trackWord true (place / 8)
    | 3 => s.bump Obj.onRampCorrected (place / 256) 0
    | _ => s

/-- Owners of R436, numbered in the order of its table (numbering of the model). -/
inductive WordOwner where
  | frameStore | workspace | runoutMap | clusterMap | writeBuffer | staging | host | cache | onRamp | core | scheduler | merge
  | eventBuffer | trace | milestone | storage | nobody
deriving DecidableEq, Repr

/-- Number of an owner in EV_MEM_UNCORRECTABLE. -/
def WordOwner.code : WordOwner → Int
  | .frameStore => 0 | .workspace => 1 | .runoutMap => 2 | .clusterMap => 3 | .writeBuffer => 4 | .staging => 5 | .host => 6
  | .cache => 7 | .onRamp => 8 | .core => 9 | .scheduler => 10 | .merge => 11 | .eventBuffer => 12 | .trace => 13 | .milestone => 14
  | .storage => 15 | .nobody => 16

/-- Owner of a place (R404, R405). -/
def placeOwner (memory byte : Nat) : WordOwner :=
  match memory with
  | 0 => if byte < 0x400000 then .frameStore else if byte < 0x4C0000 then .runoutMap else if byte < 0x500000 then .scheduler
         else if byte < 0x700000 then .host else if byte < 0x800000 then .staging else .core
  | 8 => if byte < 0x10000000 then .clusterMap else if byte < 0x50000000 then .writeBuffer else if byte < 0x52000000 then .workspace
         else if byte < 0x54000000 then .nobody else .storage
  | 3 => .onRamp
  | 5 => .eventBuffer
  | 6 => .trace
  | _ => .cache

/-- Owner of a lost word. -/
def ownerOf (memory byte : Nat) (holds : WordHolds) : WordOwner :=
  match memory, holds with
  | 0, .mergeEntry => .merge
  | 8, .mergeEntry => .merge
  | 0, .captureBlock _ => .milestone
  | 8, .captureBlock _ => .milestone
  | _, _ => placeOwner memory byte

/-- A word of a merge-buffer entry is lost: the merged word is stored Poisoned (R416, R436). -/
def State.mergeWordLost (s : State) (ddr : Bool) (word : Nat) : State :=
  match s.mem.merge.find? fun e => e.ddr == ddr && e.span == word / 8 && decide (0 < e.valid (word % 8)) with
  | none => s
  | some e =>
    let left := e.bytes.filter fun b => b.1 / 8 != word % 8
    let s := s.updMem fun m => { m with merge := m.merge.map fun x => if x = e then { x with bytes := left } else x }
    let old := s.mem.cell ddr word
    ((s.updMem fun m => m.store ddr word (poisonWord ddr word (e.merged (word % 8) old.data))).bump Obj.mergePoisoned 0 0).report
      Isl.mem Ev.memMergePoison [memAddress ddr (8 * word)]

/-- A slot without the twelve soft values of a word of it: they are erased (R155, R168, R436). -/
def FrameSlot.wordLost (f : FrameSlot) (word : Nat) : FrameSlot :=
  { f with soft := f.soft.mapIdx fun j v => if (f.soft.length - 1 - j) / 12 = word then 0 else v }

/-- A word of a frame store is lost: its soft values are erased (R155, R436). -/
def State.frameWordLost (s : State) (byte : Nat) : State :=
  let bank := byte / 0x100000
  let ch := byte % 0x100000 / 0x1B800
  let slot := byte % 0x100000 % 0x1B800 / 0x9210
  if h : bank < 4 ∧ ch < 8 ∧ slot < 3 then
    s.updC ⟨bank * 8 + ch, by omega⟩ fun c => { c with
      slots := upd c.slots ⟨slot, h.2.2⟩ fun x => x.map fun f => f.wordLost (byte % 0x100000 % 0x1B800 % 0x9210 / 8) }
  else s

/-- Words of a stored codeword, and of the 140 of a cluster (R405). -/
def codewordWords : Nat := 1728
/-- First of the ten LLRs that lie whole in a word of a stored codeword, six bits each. -/
def firstLlr (word : Nat) : Nat := (64 * word + 5) / 6

/-- A word of a workspace is lost: its ten LLRs become 0 (R436). The n-th cluster of the pickup that has a place lies n-th (log 161). -/
def State.llrsLost (s : State) (byte : Nat) : State :=
  let off := byte - 0x50000000
  let w := off % 0x400000 / 8
  if h : off / 0x400000 < 8 then
    let p : PickupId := ⟨off / 0x400000, h⟩
    match ((s.sides[p]).reads.filter fun r => r.inWorkspace)[w / (140 * codewordWords)]? with
    | none => s
    | some r =>
      let n := w % (140 * codewordWords) / codewordWords
      let first := firstLlr (w % codewordWords)
      let half : Fin 2 := if n % 2 = 0 then 0 else 1
      s.updSector p r.layer r.q (n / 2) fun x =>
        x.keep half ((x.llrs half).mapIdx fun i v => if first ≤ i ∧ i < first + 10 then 0 else v)
  else s

/-- The columns of a runout map that lie in a lost word read as 0 (R436); point m lies at byte 6m, focus, tracking, tilt. -/
def RunoutMap.wordLost (r : RunoutMap) (byte : Nat) : RunoutMap :=
  let w := byte / 8 * 8
  let inWord (b : Nat) : Bool := decide (w ≤ b ∧ b < w + 8)
  { r with points := (List.range 3).foldl (fun l i =>
      let m := w / 6 + i
      let (a, b, c) := Sparse.get (0, 0, 0) l m
      if m < 4096 then
        Sparse.put (0, 0, 0) l m (if inWord (6 * m) then 0 else a, if inWord (6 * m + 2) then 0 else b, if inWord (6 * m + 4) then 0 else c)
      else l) r.points }

/-- A word of a runout map is lost. -/
def State.mapWordLost (s : State) (byte : Nat) : State :=
  let i := (byte - 0x400000) / 0x6000
  if h : i < 32 then
    s.updP ⟨i / 4, by omega⟩ fun k => { k with maps := upd k.maps ⟨i % 4, by omega⟩ fun r => r.wordLost ((byte - 0x400000) % 0x6000) }
  else s

/-- A word of a cluster-map entry is lost: the entry is stored Poisoned (R436). Entry i = p · 2^21 + layer · 2^19 + q (R50). -/
def State.entryLost (s : State) (byte : Nat) : State :=
  let i := byte / 16
  if h : i / 2 ^ 21 < 8 then
    let p : PickupId := ⟨i / 2 ^ 21, h⟩
    let layer := i / 2 ^ 19 % 4
    let q := i % 2 ^ 19
    if s.sides[p].built || s.sides[p].building then s.setEntry p layer q { s.entry p layer q with poisoned := true } else s
  else s

/-- A word of an on-ramp item is lost (R432); word index 4 · (64k + 32 · bank + slot) + word. -/
def State.itemLost (s : State) (word : Nat) : State :=
  if h : word / 256 < 64 then
    let k : RampId := ⟨word / 256, h⟩
    let r := s.ramps[k]
    let bank := decide (32 ≤ word / 4 % 64)
    let slot := word / 4 % 32
    let pool := if bank = r.fillBank then r.filling else r.draining
    match pool.find? fun x => x.slot == slot with
    | none => s
    | some x =>
      let s := s.updRamp k fun r => (r.remove x).settle (s.ob Obj.onRampMode k == 0) false
      let s := (s.bump Obj.onRampItemsLost k 0).report Isl.mem Ev.memOnrampItemLost [(k.val : Int), (slot + if bank then 32 else 0 : Nat)]
      s.finishCmd x.cmd .internalError
  else s

/-- A word of the event buffer is lost: its record is not programmed and counts as dropped; `EventWindow` returns it unreadable. -/
def State.recordLost (s : State) (word : Nat) : State :=
  let pos := word / 4
  let r := s.recorder
  let first := r.ringCount - r.buffer.length
  match (r.buffer.mapIdx fun i x => ((first + i) % bufferSize, x)).find? fun e => e.1 == pos with
  | none => s
  | some (_, x) =>
    let waits := r.backlog.any fun e => e.record.seq == x.seq
    let s := s.updR fun r => { r with
      unreadable := r.unreadable ++ [x.seq], backlog := r.backlog.filter fun e => e.record.seq != x.seq
      page := r.page.filter fun y => y.seq != x.seq }
    if waits then s.countGap x.seq else s

/-- The two samples of a lost word of the trace memory read as 0x8000_0000; sample j of a channel was stored at j mod 65,536. -/
def State.samplesLost (s : State) (word : Nat) : State :=
  if h : word / 32768 < 8 then
    let ch : Fin 8 := ⟨word / 32768, h⟩
    let t := s.traces[ch]
    let total := (t.stopN - t.startN) / 2 ^ (s.obN Obj.traceDecimation ch) + 1
    let first := total - t.samples.length
    let hit (i : Nat) : Bool := decide ((first + i) % 65536 / 2 = word % 32768)
    { s with traces := upd s.traces ch fun t => { t with samples := t.samples.mapIdx fun i v => if hit i then -(2 ^ 31) else v } }
  else s

/-- What the owner of a lost word does (R436). -/
def State.ownerActs (s : State) (memory byte : Nat) (holds : WordHolds) : State :=
  match ownerOf memory byte holds, holds with
  | .merge, _ => s.mergeWordLost (memory == 8) (byte / 8)
  | .milestone, .captureBlock i => { s with milestone := { s.milestone with blocks := upd s.milestone.blocks i fun b => { b with valid := false } } }
  | .frameStore, _ => s.frameWordLost byte
  | .runoutMap, _ => s.mapWordLost byte
  | .clusterMap, _ => s.entryLost byte
  | .workspace, _ => s.llrsLost byte
  | .writeBuffer, .buffered p z c => if (byte - 0x10000000) / 0x8000000 = p.val then s.bufferLost p z c else s
  | .staging, .command k => s.finishCmd k .internalError
  | .host, .command k => s.finishCmd k .internalError
  | .scheduler, .command k => s.finishCmd k .internalError
  | .scheduler, .run p => s.abandonRun p .gates
  | .core, _ => { s with power := { s.power with coreDown := true } }
  | .onRamp, _ => s.itemLost byte
  | .eventBuffer, _ => s.recordLost byte
  | .trace, _ => s.samplesLost byte
  | .storage, .download => { s with host := { s.host with downloadBad := true } }
  | _, _ => s

/-- UNCORRECTABLE_READ (R427, R432, R436): counted and recorded, and the owner acts. A cache or lay-by word only costs its line. The test
window is ignored (R413). -/
def execUncorrectableRead (memory place : Nat) (syndrome : BitVec 8) (scrub : Bool) (holds : WordHolds) (s : State) : Out :=
  if !placeExists memory place then .fault (.noSuchAddress memory place)
  else s.when (s.memUp && (classify syndrome).lost && !(memory == 0 && inWindow (place / 8))) fun s =>
    let s := ((s.bump Obj.uncorrectableWords 0 0).setOb Obj.lastUncorrectableAddress 0 0 (codedAddress memory place)).setOb
      Obj.lastUncorrectableSyndrome 0 0 syndrome.toNat
    let s := if scrub && memory == 0 then s.scrubHit (place / 8 * 8) syndrome else s
    match ownerOf memory place holds with
    | .cache =>
      (s.bump Obj.cacheLineRepairs 0 0).updMem fun m =>
        if memory = 1 then { m with cache := m.cache.filter fun e => e.2 != place / 64 }
        else { m with layby := m.layby.filter fun l => l != place / 64 }
    | o => (s.report Isl.mem Ev.memUncorrectable [codedAddress memory place, (syndrome.toNat : Int), o.code]).ownerActs memory place holds

/-! ### Split writes (R413, R414) -/

/-- Whether `SplitCommand` is refused with ObjectBusy. -/
def State.splitBusy (s : State) : Bool := decide (s.ob Obj.splitWriteEnable ≠ 1)
/-- The word at `SplitAddress`. -/
def State.splitWord (s : State) : Nat := s.obN Obj.splitAddress / 8

/-- RAW_WRITE (R414): `SplitData` and `SplitCheck` as given. -/
def execRawWrite (cl : Client) (v : Int) (s : State) : Out :=
  .next (if v ≠ 1 then s else s.hostWrite cl Obj.splitCommand 0 0 v false s.splitBusy fun s =>
    s.updMem fun m => m.store false s.splitWord
      { data := BitVec.ofNat 64 (s.obN Obj.splitData), check := BitVec.ofNat 8 (s.obN Obj.splitCheck) })

/-- ENCODED_WRITE (R414): `SplitData` with its computed check bits. -/
def execEncodedWrite (cl : Client) (v : Int) (s : State) : Out :=
  .next (if v ≠ 2 then s else s.hostWrite cl Obj.splitCommand 0 0 v false s.splitBusy fun s =>
    s.updMem fun m => m.store false s.splitWord (encodeWord false s.splitWord (BitVec.ofNat 64 (s.obN Obj.splitData))))

/-- SPLIT_READ (R414): data after correction, stored check bits, syndrome and class; nothing is written back. -/
def execSplitRead (cl : Client) (v : Int) (s : State) : Out :=
  .next (if v ≠ 3 then s else s.hostWrite cl Obj.splitCommand 0 0 v false s.splitBusy fun s =>
    let c := s.mem.cell false s.splitWord
    let f := foldOf false s.splitWord
    (((s.setOb Obj.splitReadData 0 0 (c.corrected f).toNat).setOb Obj.splitReadCheck 0 0 c.check.toNat).setOb
      Obj.splitSyndrome 0 0 (c.syndrome f).toNat).setOb Obj.splitClass 0 0 (classify (c.syndrome f)).code)

/-! ### The scrubber (R422, R423) -/

/-- First byte after the range that `ScrubStart` and `ScrubLength` name. -/
def State.scrubEnd (s : State) : Nat := s.obN Obj.scrubStart + s.obN Obj.scrubLength

/-- SCRUB_START (R422, R423): a pass begins; ObjectBusy while one runs. -/
def execScrubStart (cl : Client) (v : Int) (s : State) : Out :=
  .next (if v ≠ 1 then s else
    s.hostWrite cl Obj.scrubCommand 0 0 v (decide (0xFFFC00 < s.scrubEnd)) s.mem.scrub.isSome fun s =>
      s.updMem fun m => { m with
        scrubPasses := m.scrubPasses + 1
        scrub := some { start := s.obN Obj.scrubStart, next := s.obN Obj.scrubStart, stop := s.scrubEnd, wordsRead := 0, corrected := 0
                        uncorrectable := 0, firstFail := none, stopping := false } })

/-- SCRUB_STOP (R423): the pass ends at the next word. -/
def execScrubStop (cl : Client) (v : Int) (s : State) : Out :=
  .next (if v ≠ 2 then s else s.hostWrite cl Obj.scrubCommand 0 0 v false false fun s =>
    s.updMem fun m => { m with scrub := m.scrub.map fun x => { x with stopping := true } })

/-- `ScrubSummary` of a pass that ends after some words with a status, as its fields (R423), and EV_MEM_SCRUB_DONE. -/
def State.endScrub (s : State) (x : Scrub) (wordsRead status : Nat) : State :=
  let f := x.firstFail.getD (0xFFFFFFFF, 0, 0)
  (s.updMem fun m => { m with
    scrub := none
    scrubSummary := [m.scrubPasses, x.start, wordsRead, x.corrected, x.uncorrectable, f.1, f.2.1, f.2.2, status] }).report Isl.mem
      Ev.memScrubDone [(wordsRead : Int), (x.corrected : Int), (x.uncorrectable : Int)]

/-- SCRUB_DONE (R423): the pass has read its whole range, or as many words as it had when it was stopped. -/
def execScrubDone (wordsRead : Nat) (s : State) : Out :=
  s.when s.memUp fun s =>
    match s.mem.scrub with
    | none => s
    | some x => if x.stopping then s.endScrub x (min wordsRead ((x.stop - x.start) / 8)) 1 else s.endScrub x ((x.stop - x.start) / 8) 0

/-! ### Cache (R424 to R429) -/

/-- CACHE_DISABLE (R427): 0 is written to `CacheEnable`; requests wait while the merge buffer drains. -/
def execCacheDisable (cl : Client) (v : Int) (s : State) : Out :=
  .next (if v ≠ 0 then s else s.hostWrite cl Obj.cacheEnable 0 0 v false false fun s =>
    let s := s.setOb Obj.cacheEnable 0 0 0
    if s.mem.cacheOn then (s.updMem fun m => { m with cacheDisabling := true }).endDisable else s)

/-- CACHE_ENABLE (R427): 1 is written to `CacheEnable`; every line is invalid. -/
def execCacheEnable (cl : Client) (v : Int) (s : State) : Out :=
  .next (if v ≠ 1 then s else s.hostWrite cl Obj.cacheEnable 0 0 v false s.mem.cacheDisabling fun s =>
    let s := s.setOb Obj.cacheEnable 0 0 1
    if s.mem.cacheOn then s else s.updMem fun m => { m with cacheOn := true, cache := [], layby := [] })

/-- Maintenance that waited for a fill acts (R429). -/
def State.runWaiting (s : State) (line way : Nat) : State :=
  let due := s.mem.waitingMaintenance.filter fun x => x.waitsFor line way
  let s := s.updMem fun m => { m with waitingMaintenance := m.waitingMaintenance.filter fun x => !x.waitsFor line way }
  s.forEach due fun s x => s.maintain x.op x.address

/-- CACHE_FILL (R425, R426, R429): the access of a requester to a line: a hit where the cache holds it; a miss lands in the way that the
pseudo-LRU gives among those of its `WayMask`, and allocates nothing where that is 0; a line that the lay-by held moves from there; waiting
maintenance then acts. -/
def execCacheFill (requester : Fin 4) (line : Nat) (s : State) : Out :=
  s.when (s.memUp && s.mem.cacheOn && !s.mem.cacheDisabling && ddrExists (64 * line)) fun s =>
    if s.mem.holdsLine line then s.bump Obj.cacheHits 0 requester
    else
      let s := s.bump Obj.cacheMisses 0 requester
      let s := if s.mem.layby.contains line then s.bump Obj.layByHits 0 requester else s
      match s.wayFor requester line with
      | none => s
      | some way => (s.allocate requester line way).runWaiting line way

/-- A maintenance operation written to `MaintenanceCommand` (R428, R429): it waits for a fill in flight, or for the end of a disable that
runs, and acts at once otherwise. -/
def State.maintenance (s : State) (cl : Client) (op v : Int) (fillInFlight : Bool) : State :=
  if v ≠ op then s else
    s.hostWrite cl Obj.maintenanceCommand 0 0 v false false fun s =>
      let address := s.obN Obj.maintenanceAddress
      if op = 7 && !inWriteBuffers address then s.bump Obj.zeroLineRefused 0 0
      else if s.mem.cacheDisabling || (fillInFlight && s.mem.cacheOn) then
        s.updMem fun m => { m with waitingMaintenance := m.waitingMaintenance ++ [{ op := op.toNat, address := address }] }
      else s.maintain op.toNat address

/-- CLEAN_BY_ADDRESS (R428). -/
def execCleanByAddress (cl : Client) (v : Int) (fillInFlight : Bool) (s : State) : Out := .next (s.maintenance cl 1 v fillInFlight)
/-- INVALIDATE_BY_ADDRESS (R428). -/
def execInvalidateByAddress (cl : Client) (v : Int) (fillInFlight : Bool) (s : State) : Out := .next (s.maintenance cl 2 v fillInFlight)
/-- CLEAN_AND_INVALIDATE_BY_ADDRESS (R428). -/
def execCleanAndInvalidateByAddress (cl : Client) (v : Int) (fillInFlight : Bool) (s : State) : Out :=
  .next (s.maintenance cl 3 v fillInFlight)
/-- CLEAN_BY_SET_AND_WAY (R428). -/
def execCleanBySetAndWay (cl : Client) (v : Int) (fillInFlight : Bool) (s : State) : Out := .next (s.maintenance cl 4 v fillInFlight)
/-- INVALIDATE_BY_SET_AND_WAY (R428). -/
def execInvalidateBySetAndWay (cl : Client) (v : Int) (fillInFlight : Bool) (s : State) : Out := .next (s.maintenance cl 5 v fillInFlight)
/-- CLEAN_AND_INVALIDATE_BY_SET_AND_WAY (R428). -/
def execCleanAndInvalidateBySetAndWay (cl : Client) (v : Int) (fillInFlight : Bool) (s : State) : Out :=
  .next (s.maintenance cl 6 v fillInFlight)
/-- ZERO_A_LINE (R428). -/
def execZeroALine (cl : Client) (v : Int) (fillInFlight : Bool) (s : State) : Out := .next (s.maintenance cl 7 v fillInFlight)

/-! ### On-ramps (R430 to R434) -/

/-- ON_RAMP_READ (R430, R433): the media scheduler reads an item. -/
def execOnRampRead (k : RampId) (s : State) : Out := s.when s.memUp fun s => s.rampRead k

/-- ON_RAMP_IDLE_TIMEOUT (R434): the timer reaches `OnRampIdleTimeout` and restarts. -/
def execOnRampIdleTimeout (k : RampId) (s : State) : Out :=
  s.when (s.memUp && (s.ramps[k]).timer && decide ((s.ramps[k]).timerFrom + usTicks (s.obN Obj.onRampIdleTimeout k) ≤ s.time)) fun s =>
    (s.updRamp k fun r => { (if r.maySwap then r.swap else r) with attention := true, timerFrom := s.time }).bump Obj.idleTimeoutsFired k 0

end Sys2Proof.Machine
end

