-- ==== Sys2Proof/Machine/Spindle.lean ====
section
/-! DEFINITION. Meanings of the commands of the spindle drive and rate matching (chapter 7). -/

namespace Sys2Proof.Machine

/-! ### Commands (R267, R275, R283, R559) -/

/-- A write of `SpindleCommand`. -/
def State.spindleCommand (s : State) (cl : Client) (i : SpindleId) (v cmd : Int) (busy : Bool) (effect : State → State) : State :=
  if v ≠ cmd then s else s.hostWrite cl Obj.spindleCommand i 0 v false busy effect

/-- SPINDLE_START (R267): refused with ObjectBusy in a Fault that cannot clear (R283). -/
def execSpindleStart (cl : Client) (i : SpindleId) (v : Int) (s : State) : Out :=
  s.when (s.mtUp i) fun s =>
    s.spindleCommand cl i v 1 ((s.spindles[i]).mode == .fault && !s.faultClearable i) fun s => s.startSpindle i false

/-- SPINDLE_STOP (R559, R271). -/
def execSpindleStop (cl : Client) (i : SpindleId) (v : Int) (s : State) : Out :=
  s.when (s.mtUp i) fun s => s.spindleCommand cl i v 2 false fun s => s.stopSpindle i

/-- SPINDLE_COAST (R559). -/
def execSpindleCoast (cl : Client) (i : SpindleId) (v : Int) (s : State) : Out :=
  s.when (s.mtUp i) fun s => s.spindleCommand cl i v 3 false fun s => s.coastSpindle i

/-- SPINDLE_START_REVERSE (R275): only while both pickups are Off or Parked and no mount waits. -/
def execSpindleStartReverse (cl : Client) (i : SpindleId) (v : Int) (s : State) : Out :=
  s.when (s.mtUp i) fun s =>
    let free := i.pickups.all fun p => (s.pickups[p]).idle && (s.pickups[p]).mountResult != .mounting
    s.spindleCommand cl i v 4 (!free || ((s.spindles[i]).mode == .fault && !s.faultClearable i)) fun s => s.startSpindle i true

/-! ### Starting (R267 to R270) -/

/-- SENSING_END (R267): after 20 ms the table of findings, for StartReverse with the directions exchanged. -/
def execSensingEnd (i : SpindleId) (s : State) : Out :=
  let m := s.spindles[i]
  s.when (s.mtUp i && m.mode == .sensing && !m.gatesDriven && decide (1000 ≤ m.sensedCount)) fun s =>
    let found := speedOf (s.obN Obj.polePairs i) m.sensedTurn m.sensedCount
    let n := if m.reverse then -found else found
    let angle := rotorAngle m.sensedAngle found
    if s.belowFloor i || decide (n.natAbs < 30000) then
      ((s.updM i fun m => { m with
        mode := .aligning, gatesDriven := true, source := 1, measured := found, forcedAngle := 0, phaseAt := s.time }).bump
        Obj.startsFromRest i 0).spinReport i Ev.spinSensed [found, 0]
    else if s.rpm Obj.handoverSpeed i ≤ n then
      (((s.seed i angle found).updM i fun m => { m with gatesDriven := true, method := 1, attemptAt := s.time, lossAt := s.time }).bump
        Obj.catchSpins i 0).spinReport i Ev.spinSensed [found, 1]
    else
      (((s.seed i angle found).updM i fun m => { m with
        mode := .braking, afterBrake := .startFromRest, gatesDriven := true, locked := decide (n < 0), reference := found }).bump
        Obj.brakedStarts i 0).spinReport i Ev.spinSensed [found, 2]

/-- ALIGN_END (R268 step 4): after `AlignTime` the blind ramp under the forced angle. -/
def execAlignEnd (i : SpindleId) (s : State) : Out :=
  let m := s.spindles[i]
  s.when (s.mtUp i && m.mode == .aligning && decide (s.obN Obj.alignTime i * 1600 ≤ s.time - m.phaseAt)) fun s =>
    s.updM i fun m => { m with mode := .ramping, source := 1, plausibleRun := 0, measured := 0, phaseAt := s.time }

/-- The spindle is Running and EV_SPIN_STARTED carries method and elapsed time in ms (R288). -/
def State.enterRunning (s : State) (i : SpindleId) : State :=
  let m := s.spindles[i]
  (s.updM i fun m => { m with
    mode := .running, source := 2, reference := m.measured, starting := false, startAttempts := 0, implausibleRun := 0, locked := true
    phaseAt := s.time, settledSince := none, stopping := false }).spinReport i Ev.spinStarted [(m.method : Int), (s.msSince m.startedAt : Nat)]

/-- Whether the handover test of R269 passes: the check for 32 consecutive periods, and the observer within 10 % of the forced speed, which has
reached `HandoverSpeed`. -/
def State.handoverPasses (s : State) (i : SpindleId) : Bool :=
  let m := s.spindles[i]
  let n := s.forcedSpeed i
  decide (32 ≤ m.plausibleRun) && decide (s.rpm Obj.handoverSpeed i ≤ n.natAbs) && decide (10 * (m.observed - n).natAbs ≤ n.natAbs)

/-- HANDOVER (R269): the speed integrator takes K_t · `RampCurrent` · sin δ, and i_d falls from its part of the ramp current. -/
def execHandover (i : SpindleId) (s : State) : Out :=
  let m := s.spindles[i]
  s.when (s.mtUp i && m.mode == .ramping && s.handoverPasses i) fun s =>
    let delta := anglePhase (wrapAngle (angleBetween m.forcedAngle m.angle))
    let current := s.ob Obj.rampCurrent i
    (s.updM i fun m => { m with
      integralSpeed := rnd (s.torqueOf i current * sine delta) (2 ^ 30), fallFrom := rnd (current * cosine delta) (2 ^ 30)
      measured := m.observed }).enterRunning i

/-- START_ATTEMPT_FAIL (R269): the forced speed has reached `RampLimitSpeed`; the gates go low, the disc is braked to rest under R274. -/
def execStartAttemptFail (i : SpindleId) (s : State) : Out :=
  s.when (s.mtUp i && (s.spindles[i]).mode == .ramping && decide (s.rpm Obj.rampLimitSpeed i ≤ (s.forcedSpeed i).natAbs)
      && !s.handoverPasses i) fun s =>
    (s.updM i fun m => { m.gatesOff with
      mode := .braking, gatesDriven := true, locked := false, afterBrake := .retry, startAttempts := m.startAttempts + 1
      failedAt := s.time, source := 0 }).bump Obj.startFailures i 0

/-- START_RETRY (R269): 500 ms later the next attempt, or Fault with StartFail after `StartAttempts`. -/
def execStartRetry (i : SpindleId) (s : State) : Out :=
  let m := s.spindles[i]
  s.when (s.mtUp i && (m.startWaits || (m.mode == .braking && m.afterBrake == .retry)) && decide (msTicks 500 ≤ s.time - m.failedAt)) fun s =>
    if s.obN Obj.startAttempts i ≤ m.startAttempts then
      (s.spinReport i Ev.spinStartFail []).faultSpindle i .startFail
    else (s.beginSensing i m.reverse).updM i fun x => { x with startAttempts := m.startAttempts, startedAt := m.startedAt }

/-- CATCH_SPIN_LOCK (R270): the speed loop closes with its reference at the measured speed. -/
def execCatchSpinLock (i : SpindleId) (s : State) : Out :=
  let m := s.spindles[i]
  s.when (s.mtUp i && m.mode == .sensing && m.gatesDriven && decide (32 ≤ m.plausibleRun)) fun s =>
    (s.updM i fun m => { m with measured := m.observed }).enterRunning i

/-! ### Current and torque control (R253 to R259) -/

/-- Braking limit on T* above `RegenLimit` (R273). -/
def State.brakeLimit (s : State) (i : SpindleId) : Int :=
  let lim := s.torqueLimit i
  let over_ := ((s.spindles[i]).vbus : Int) - s.ob Obj.regenLimit i
  let band := s.ob Obj.regenBand i
  if over_ ≤ 0 then lim else if band ≤ over_ then 0 else rnd (lim * (band - over_)) band.toNat

/-- The trace points of MTs (R496). -/
def Spindle.point (m : Spindle) : Nat → Option Int
  | 0 => some m.currentD | 1 => some m.currentQ | 2 => some m.measured | 3 => some m.vbus | 4 => some m.torque | 5 => some m.angle
  | _ => none

/-- Phase whose sample exceeds a limit: 0 U, 1 V, 2 W, with its current. -/
def tripped (lim : Int) (l : List Int) : Option (Int × Int) :=
  (l.zipIdx.find? fun x => decide (lim < x.1.natAbs)).map fun x => ((x.2 : Int), x.1)

/-- Energy that loss braking burns in one period, in units of 10^-11 mJ, carried into `LossBrakeEnergy` (R273). -/
def State.burn (s : State) (i : SpindleId) : State :=
  let m := s.spindles[i]
  let acc := m.lossAcc + (3 * s.ob Obj.phaseResistance i * m.currentD * m.currentD).toNat
  (s.updM i fun m => { m with lossAcc := acc % 10 ^ 11 }).bump Obj.lossBrakeEnergy i 0 (acc / 10 ^ 11)

/-- What a period's samples say of the rotor: the terminal vector while no gate conducts, else an open amplitude while the zero vector is applied;
the observer, from the terminal voltages alone while the gates are low; the runs of the check (R256, R257, R267, R274). -/
def State.followRotor (s : State) (i : SpindleId) (mV : List Int) : State :=
  let m := s.spindles[i]
  let (ia, ib) := clarkeOf m.currents
  let (va, vb) := clarkeOf mV
  let free := !m.gatesDriven || m.released
  let s := s.updM i fun m =>
    if free then (if m.pulse then m else m.sense va vb)
    else if s.zeroBraking i then { m with amplitude := Config.real Tag.brakedAmplitude [ia, ib, m.emfA, m.emfB] } else m
  let s := if free && !m.pulse && (m.mode == .reacquiring || m.mode == .coasting) then s.timeCrossings i mV else s
  if m.mode == .stopped || m.mode == .fault then s
  else
    let s := if free then s.observe i (1000 * va) (1000 * vb) (if m.mode == .coasting then 0 else ia) (if m.mode == .coasting then 0 else ib)
      else s.observe i m.appliedA m.appliedB ia ib
    let ok := s.plausible i m (s.spindles[i])
    let judged := m.mode == .running || (m.mode == .braking && !s.zeroBraking i)
    s.updM i fun m => { m with
      plausibleRun := if ok then m.plausibleRun + 1 else 0, implausibleRun := if ok || !judged then 0 else m.implausibleRun + 1 }

/-- What the gates do in the next period (R254, R268, R274, R277): a forced angle moves on; a reacquisition whose crossings agree engages the loop; a
disc that coasts after giving up is braked once its crossings show a speed below `HandoverSpeed` (R279). -/
def State.driveMotor (s : State) (i : SpindleId) : State :=
  let m := s.spindles[i]
  let slow := m.found.any fun n => decide ((n.natAbs : Int) < s.rpm Obj.handoverSpeed i)
  let s := match m.mode, m.found with
    | .ramping, _ => s.updM i fun m => { m with
        forcedAngle := wrapAngle ((m.forcedAngle : Int) + turnOf (s.ob Obj.polePairs i) (s.forcedSpeed i) 20000) }
    | .reacquiring, some n =>
      if m.gatesDriven || slow then s
      else (s.seed i (rotorAngle m.sensedAngle n) n).updM i fun m => { m with gatesDriven := true, integralSpeed := m.torqueBeforeLoss }
    | .coasting, some _ =>
      if slow && !m.coastCommanded && (m.stopping || m.afterBrake == AfterBrake.faultObserver) then s.updM i fun m => { m with mode := .braking, gatesDriven := true, locked := false } else s
    | _, _ => s
  let s := if (s.spindles[i]).gatesDriven && !s.zeroBraking i then s.currentLoop i else s
  s.driveLegs i

/-- PWM_PERIOD (R253 to R257, R283): samples and SPs_FLT_N; an overcurrent trips the spindle; observer, check and current loop; the trace points. -/
def execPwmPeriod (i : SpindleId) (currents : List Int) (voltages : List Nat) (fltHigh : Bool) (s : State) : Out :=
  s.when (s.mtUp i) fun s =>
    let mA := currents.map fun c => s.currentOf i c
    let s := s.updM i fun m => { m with currents := mA, fltHigh := fltHigh }
    match tripped (s.ob Obj.phaseCurrentTrip i) mA with
    | some (ph, cur) =>
      if (s.spindles[i]).fault.getLsbD 4 then s
      else ((s.bump Obj.overcurrentTrips i 0).spinReport i Ev.spinOvercurrent [ph, cur]).faultSpindle i .overcurrent
    | none =>
      let s := (s.followRotor i (voltages.map fun v => (s.voltageOf i v : Int))).driveMotor i
      let s := if (s.spindles[i]).gatesDriven && (s.spindles[i]).brakes then s.burn i else s
      s.forEach (List.range 32) fun s j => s.traceTap (Isl.mt i) (s.gridN / 32 * 32 + j) (s.spindles[i]).point

/-- DTC_EVALUATION (R258, R259): the flux estimator runs under FOC as well; under DTC the comparators select the next vector. -/
def execDtcEvaluation (i : SpindleId) (currents : List Int) (s : State) : Out :=
  s.when (s.mtUp i && (s.spindles[i]).gatesDriven) fun s =>
    let (ia, ib) := clarkeOf (currents.map fun c => s.currentOf i c)
    let s := s.integrateFlux i ia ib
    if (s.spindles[i]).dtc && (s.spindles[i]).mode == .running then s.switchVector i ia ib else s

/-! ### The speed loop (R259 to R266) -/

/-- Source pickup of R261: the lowest-numbered pickup that follows with a good LAW within the last revolution; none in reverse. -/
def State.sourcePickup (s : State) (i : SpindleId) : Option PickupId :=
  let m := s.spindles[i]
  if (m.mode == .running || m.mode == .braking) && !m.reverse then
    i.pickups.find? fun p => (s.pickups[p]).engine == .following && (s.pickups[p]).lane.isSome && decide ((s.pickups[p]).lawDiscardRun < 256)
  else none

/-- Number of a source pickup, 0xFF for none. -/
def sourceCode : Option PickupId → Int
  | some p => (p.val : Int) | none => 0xFF

/-- Speed in 0.001 rpm of a wobble that advances by a number of 2^-16 counts in a tracking period (R261). -/
def wobbleSpeed (rate : Nat) : Int := rnd (rate * 96000000000) (65536 * 73728)

/-- N_meas in 0.001 rpm by the source of R261: the forced speed, the source pickup's wobble carrier, or the observer. -/
def State.speedMeasured (s : State) (i : SpindleId) : Int :=
  let m := s.spindles[i]
  match m.mode, s.sourcePickup i with
  | .ramping, _ => s.forcedSpeed i
  | _, some p => wobbleSpeed (s.pickups[p]).wobbleRate
  | _, none => m.observed

/-- The reference after one speed sample: toward its goal at no more than `SpeedSlewLimit` (R266). -/
def slewed (ref goal limit : Int) : Int := clampInt (ref - rnd limit 5) (ref + rnd limit 5) goal

/-- Inertia term J · dN_ref/dt of R260 in µN·m, of a change of the reference in one speed sample. -/
def State.inertiaTorque (s : State) (i : SpindleId) (change : Int) : Int :=
  rnd (s.ob Obj.rotorInertia i * change * piDigits) (60 * 10 ^ 30)

/-- SPEED_SAMPLE (R260 to R266): feedback source, reference, phase lock, torque command with its clamps, DTC handover and the
revolution counters. -/
def execSpeedSample (i : SpindleId) (s : State) : Out :=
  s.when (s.mtUp i && ((s.spindles[i]).mode == .running || (s.spindles[i]).mode == .braking || (s.spindles[i]).mode == .ramping
      || (s.spindles[i]).mode == .coasting || (s.spindles[i]).mode == .reacquiring)) fun s =>
    let m := s.spindles[i]
    let src := s.sourcePickup i
    let milliRpm := s.speedMeasured i
    let count := src.elim 0 fun p => (s.pickups[p]).wobble
    let changed := decide (src ≠ m.wobbleSource)
    let s := if changed then s.spinReport i Ev.spinWobbleLock [sourceCode m.wobbleSource, sourceCode src] else s
    let goal := s.spindleReference i
    let ref := if m.mode == .running || m.mode == .braking then slewed m.reference goal (s.ob Obj.speedSlewLimit i) else m.reference
    let meas := if changed then (count : Int) else m.phaseMeas + (count - m.phaseMeas) % 73728
    let phRef := if changed then meas * 65536 else m.phaseRef + rnd (ref * 73728 * 200 * 65536) (60 * 10 ^ 9)
    let ph := clampInt (-7372 * 65536) (7372 * 65536) (phRef - meas * 65536)
    let e := ref - milliRpm + (if src.isSome then rnd (s.ob Obj.phaseLockGain i * ph) 65536 else 0)
    let integ := m.integralSpeed + rnd (s.ob Obj.speedKi i * e) 5000000
    let raw := rnd (s.ob Obj.speedKp i * e) 1000 + integ + s.inertiaTorque i (ref - m.reference) + s.ob Obj.frictionTorque i * milliRpm.sign
    let brake := s.brakeLimit i
    let drive := s.torqueLimit i
    let t := if 0 ≤ milliRpm then clampInt (-brake) drive raw else clampInt (-drive) brake raw
    let dtc := decide (s.obN Obj.controlMode i = 1) && m.mode == .running && decide (m.reference.natAbs ≤ ref.natAbs)
    let wraps := src.isSome && !changed && decide (meas / 73728 ≠ m.phaseMeas / 73728)
    let acc := m.revAcc + milliRpm.natAbs
    let tgt := s.spindleTarget i
    let near := decide (1000 * (milliRpm - ref).natAbs ≤ ref.natAbs) && decide (ref = goal)
    let s := s.updM i fun m => { m with
      measured := milliRpm, reference := ref, goal := tgt, wobbleSource := src, wobbleSince := if changed then s.time else m.wobbleSince
      source := if m.mode == .ramping then 1 else if m.mode == .running || m.mode == .braking then (if src.isSome then 3 else 2) else 0
      settledSince := if near then m.settledSince.or (some s.time) else none
      phaseMeas := meas, phaseRef := phRef, integralSpeed := if t = raw then integ else m.integralSpeed
      torque := if m.mode == .running || m.mode == .braking then t else m.torque, dtc := dtc
      errorPpm := if wraps && decide (m.accRef + ref ≠ 0) then
          rnd ((m.accN + milliRpm - m.accRef - ref) * 100000000 * (m.accRef + ref).sign) (m.accRef + ref).natAbs else m.errorPpm
      accN := if wraps || changed then 0 else m.accN + milliRpm, accRef := if wraps || changed then 0 else m.accRef + ref
      revAcc := acc % 300000000, foldbackRecorded := if ref.natAbs < m.reference.natAbs then m.foldbackRecorded else false }
    let s := s.bump Obj.revolutionsTotal i 0 (acc / 300000000)
    if dtc ≠ m.dtc then s.spinReport i Ev.spinModeChanged [if dtc then 1 else 0] else s

/-- AT_SPEED (R266): within 0.1 % of the reference that R265 asks for, for `SpeedSettleTime` without a break; at mount speed it is t0 of
R106. -/
def execAtSpeed (i : SpindleId) (s : State) : Out :=
  let m := s.spindles[i]
  s.when (s.mtUp i && m.mode == .running && (m.settledSince.any fun t => decide (s.obN Obj.speedSettleTime i * 1600 ≤ s.time - t))
      && decide (m.reference = s.spindleReference i)) fun s =>
    if s.mounting i then
      s.forEach i.pickups fun s p =>
        let k := s.pickups[p]
        if k.mountResult == .mounting && k.seq == .none && k.idle then
          s.updP p fun k => { k with seq := .mount, phase := .idle, mountStart := s.time }
        else s
    else s

/-! ### The motor bus (R272, R273, R278) -/

/-- The loss-braking trim of one 5 µs sample, in µA: it grows above `LossBrakeLevel` and decays at the same rate below (R273). -/
def State.trim (s : State) (i : SpindleId) (mV : Nat) : Int :=
  let m := s.spindles[i]
  if s.obN Obj.lossBrakeMode i = 0 then 0
  else clampInt 0 (s.ob Obj.idBrakeMax i * 1000) (m.lossTrim + rnd (s.ob Obj.lossBrakeRate i * ((mV : Int) - s.ob Obj.lossBrakeLevel i) * 5) 1000)

/-- The low-side pulse of the next 5 µs (R278): every second sample above `RegenLimit` while a reacquisition has no chopper, as long as the phase
currents lie below `ShortBrakeCurrent`. -/
def State.pulseGates (s : State) (i : SpindleId) (regen : Bool) : State :=
  let m := s.spindles[i]
  let on := m.mode == .reacquiring && !m.gatesDriven && regen && decide (s.obN Obj.chopperEnable i = 0) && !m.pulse
    && m.currents.all fun x => decide (x.natAbs < s.ob Obj.shortBrakeCurrent i)
  if on = m.pulse then s
  else s.updM i fun m => { (m.mapLegs fun _ l => if on then (l.next 5000).turn false 0 (s.ob Obj.pwmDeadTime i) else l.off 5000) with pulse := on }

/-- VBUS_SAMPLE (R272, R278): chopper, trim, regeneration fold-back, trip, the run below `VbusLow` and the recovery of a low bus. -/
def execVbusSample (i : SpindleId) (code : Nat) (s : State) : Out :=
  s.when (s.mtUp i) fun s =>
    let mV := s.voltageOf i code
    let m := s.spindles[i]
    let above (r : Row) : Bool := decide (s.ob r i < (mV : Int))
    let below (r : Row) : Bool := decide ((mV : Int) < s.ob r i)
    let regen := above Obj.regenLimit
    let en := decide (s.obN Obj.chopperEnable i = 1)
    let chop := en && (above Obj.chopperOn || (m.chopper && !below Obj.chopperOff) || (m.mode == .reacquiring && regen))
    let low := below Obj.vbusLow
    let ends := !regen && decide (0 < m.peakVbus) && !m.foldbackRecorded
    let braking := m.mode == .braking || decide (m.torque < 0)
    let chopAcc := m.chopAcc + (if chop then 5 else 0)
    let s := (s.updM i fun m => { m with
      vbus := mV, chopper := chop, lossTrim := s.trim i mV, chopAcc := chopAcc % 1000, lowRun := if low then m.lowRun + 1 else 0
      peakVbus := if regen && braking then max m.peakVbus mV else if regen then m.peakVbus else 0
      foldbackSince := if regen && decide (m.peakVbus = 0) then s.time else m.foldbackSince
      foldbackRecorded := m.foldbackRecorded || ends
      fault := if low then m.fault else m.fault &&& ~~~SpindleFaultBit.vbusLow.mask, lowRecorded := m.lowRecorded && low }).bump
        Obj.chopperOnTime i 0 (chopAcc / 1000)
    let s := s.pulseGates i regen
    let s := if ends then (s.bump Obj.regenFoldbacks i 0).spinReport i Ev.spinRegenFoldback [(m.peakVbus : Int), (s.msSince m.foldbackSince : Nat)]
      else s
    if above Obj.vbusTrip && !m.fault.getLsbD 2 then ((s.bump Obj.vbusTrips i 0).spinReport i Ev.spinVbusTrip []).faultSpindle i .vbusTrip else s

/-- VBUS_LOW (R272): below `VbusLow` for 1 ms, 200 samples. -/
def execVbusLow (i : SpindleId) (s : State) : Out :=
  let m := s.spindles[i]
  s.when (s.mtUp i && decide (200 ≤ m.lowRun) && !m.lowRecorded) fun s =>
    (s.updM i fun m => { m with fault := m.fault ||| SpindleFaultBit.vbusLow.mask, lowRecorded := true }).spinReport i Ev.spinVbusLow []

/-! ### Losing the rotor (R276 to R279), faults and rest (R274, R283) -/

/-- OBSERVER_LOST (R276). -/
def execObserverLost (i : SpindleId) (s : State) : Out :=
  let m := s.spindles[i]
  s.when (s.mtUp i && (m.mode == .running || m.mode == .braking) && decide (3 ≤ m.implausibleRun)) fun s =>
    let s := (s.updM i fun m => { m.gatesOff with
      mode := .reacquiring, reacquireAttempts := 0, torqueBeforeLoss := m.torque, plausibleRun := 0, implausibleRun := 0, locked := false
      lossAt := s.time, attemptAt := s.time, sensedCount := 0, sensedTurn := 0, lines := [], crossings := [], found := none
      source := 0 }).bump Obj.observerLosses i 0
    (s.holdBoth i).spinReport i Ev.spinObserverLost [m.measured, m.torque]

/-- The spindle gives up (R279): Coasting, gates low, both pickups park; at rest it ends in Fault, or Stopped where a stop had been
commanded (R283). -/
def State.giveUp (s : State) (i : SpindleId) : State :=
  let s := (s.updM i fun m => { m.gatesOff with
    mode := .coasting, afterBrake := if m.stopping then .stop else .faultObserver, starting := false }).bump Obj.giveUps i 0
  (s.spinReport i Ev.spinGaveUp []).parkBoth i .spindleLost

/-- REACQUISITION_ATTEMPT_END (R277, R279): the check has passed for 64 periods; or 50 ms are over, or the crossings show a speed below
`HandoverSpeed`. A catch-spin whose check has not passed within 20 ms ends here as the first attempt (R270). -/
def execReacquisitionAttemptEnd (i : SpindleId) (s : State) : Out :=
  let m := s.spindles[i]
  let age := s.time - m.attemptAt
  let slow := m.found.any fun n => decide ((n.natAbs : Int) < s.rpm Obj.handoverSpeed i)
  let won := m.mode == .reacquiring && m.gatesDriven && decide (64 ≤ m.plausibleRun)
  let lost := (m.mode == .reacquiring && (decide (msTicks 50 ≤ age) || (slow && !m.gatesDriven)))
    || (m.mode == .sensing && m.gatesDriven && decide (msTicks 20 ≤ age ∧ m.plausibleRun < 32))
  s.when (s.mtUp i && (won || lost)) fun s =>
    let n := m.reacquireAttempts + 1
    if won then
      let s := (s.updM i fun m => { m with
        mode := if m.stopping then .braking else .running, source := 2, reference := m.observed, measured := m.observed, locked := true
        fallFrom := 0, settledSince := none, plausibleRun := 0, reacquireAttempts := 0 }).bump Obj.reacquisitions i 0
      let s := s.forEach i.pickups fun s p => s.updP p fun k => { k with rotorBack := true }
      let s := s.spinReport i Ev.spinReacquired [(n : Int), (s.msSince m.lossAt : Nat)]
      if m.starting then s.enterRunning i else s
    else if (m.mode == .reacquiring && slow) || decide (s.obN Obj.reacquireAttempts i ≤ n) then
      (s.updM i fun m => { m with reacquireAttempts := n }).giveUp i
    else s.updM i fun m => { m.gatesOff with
      mode := .reacquiring, reacquireAttempts := n, attemptAt := s.time, plausibleRun := 0, sensedCount := 0, sensedTurn := 0, lines := []
      crossings := [], found := none }

/-- GATE_FAULT (R283): SPs_FLT_N low for 1 µs, in any state. -/
def execGateFault (i : SpindleId) (s : State) : Out :=
  s.when (s.mtUp i) fun s =>
    (((s.updM i fun m => { m with fltHigh := false }).bump Obj.gateDriverFaults i 0).spinReport i Ev.spinGateFault []).faultSpindle i .gateDriver

/-- AT_REST (R274, R271, R559): the sensed amplitude has fallen below the floor. -/
def execAtRest (i : SpindleId) (s : State) : Out :=
  let m := s.spindles[i]
  s.when (s.mtUp i && (m.mode == .coasting || s.zeroBraking i) && s.belowFloor i) fun s =>
    let rest : SpindleMode → Spindle → Spindle := fun mode m => { m.gatesOff with
      mode := mode, enabled := false, measured := 0, reference := 0, source := 0, torque := 0, chopper := false
      stopping := false, coastCommanded := false, afterBrake := .stop, dtc := false, locked := false }
    match m.afterBrake with
    | .stop => (s.updM i (rest .stopped)).spinReport i Ev.spinStopped [if m.coastCommanded || !m.stopping then 1 else 0]
    | .startFromRest => ((s.updM i (rest .stopped)).startOrWait i m.reverse).updM i fun x => { x with method := 2, startedAt := m.startedAt }
    | .retry => s.updM i fun m => { (rest .stopped m) with startWaits := true }
    | .faultObserver => (s.updM i (rest .stopped)).faultSpindle i .observerLost

/-! ### Rate matching (R280, R281) -/

/-- Blocks of a pickup's write stream that wait in the buffer: those of the zone of its last run. -/
def Side.streamBlocks (x : Side) : List BufferedBlock :=
  x.buffer.filter fun b => x.lastRunEnd.any fun e => b.lba / zoneBlocks == e.1

/-- Whether a pickup streams writes (R280). -/
def State.streamsWrites (s : State) (i : SpindleId) (p : PickupId) : Bool :=
  let x := s.sides[p]
  decide (s.obN Obj.streamRuns i ≤ x.streamRuns) && x.streamBlocks.any fun b => !b.inRun

/-- Whether a pickup streams reads (R280). -/
def State.streamsReads (s : State) (i : SpindleId) (p : PickupId) : Bool := decide (s.obN Obj.streamReads i ≤ (s.sides[p]).streamReads)

/-- What lies within the last second. -/
def State.lastSecond (s : State) (l : List (Nat × Nat × Nat)) : List (Nat × Nat × Nat) := l.filter fun e => decide (s.time - e.1 ≤ sTicks 1)

/-- km of R281 in bytes per revolution: what the stream's runs or reads of the last second moved; before the first measurement 4 · B(L) · 0.535 / 8
for reads and a third of it for writes. -/
def State.movedPerRev (s : State) (p : PickupId) (writes : Bool) : Int :=
  let x := s.sides[p]
  let l := s.lastSecond (if writes then x.movedWrites else x.movedReads)
  let bytes := (l.map fun e => e.2.1).sum
  let revs := (l.map fun e => e.2.2).sum
  let read := rnd (bitsPerRev ((s.pickups[p]).lane.getD 0) * 2140) 8000
  if revs = 0 ∨ bytes = 0 then (if writes then rnd read 3 else read) else max 1 (rnd (bytes * 300000000) revs)

/-- Average of the stream's host data rate in bytes/s: the rate since the last evaluation enters with a weight of the time constant, which the manual
leaves to the window (R281). -/
def State.hostRate (s : State) (i : SpindleId) (j : Fin 2) (writes : Bool) : Int :=
  let m := s.spindles[i]
  let x := s.sides[i.pickup j]
  let old := m.hostRates.getD j.val 0
  let span := s.time - m.evaluatedAt
  let new := if span = 0 then old else rnd ((if writes then x.hostWritten else x.hostRead) * 1600000) span
  old + rnd ((new - old) * Config.real Tag.average [span, s.ob Obj.rateMatchWindow i]) (2 ^ 30)

/-- nm of one streaming pickup in 0.001 rpm with whether it sits at the floor (R281): rh in bytes/s. -/
def State.matchedSpeed (s : State) (i : SpindleId) (p : PickupId) (writes : Bool) (rh : Int) : Int × Bool :=
  let b := bitsPerRev ((s.pickups[p]).lane.getD 0)
  let nff := rnd (60000 * rh) (s.movedPerRev p writes).toNat
  let x := s.sides[p]
  let f : Int := if writes then (x.streamBlocks.length / 64 : Nat) else (x.reads.length : Nat)
  let fref := if writes then s.ob Obj.rateMatchFillWrite i else s.ob Obj.rateMatchFillRead i
  let nm := rnd (nff * (2 ^ 15 * fref + s.ob Obj.rateMatchGain i * (f - fref))) (2 ^ 15 * fref).toNat
  let floor_ := rnd (60 * s.ob Obj.rateMatchMinRate i * 1000000) b
  (min (max nm floor_) (s.spindleTarget i), decide (nm ≤ floor_))

/-- RATE_MATCH_EVALUATION (R280, R281): the larger of the streaming pickups' nm. -/
def execRateMatchEvaluation (i : SpindleId) (s : State) : Out :=
  s.when (s.mtUp i) fun s =>
    let en := s.obN Obj.rateMatchEnable i
    let writes (j : Fin 2) : Bool := en.testBit 0 && s.streamsWrites i (i.pickup j)
    let one (j : Fin 2) : Option (Int × Bool × Bool) :=
      let w := writes j
      let r := en.testBit 1 && s.streamsReads i (i.pickup j)
      if w || r then
        let (nm, atFloor) := s.matchedSpeed i (i.pickup j) w (s.hostRate i j w)
        some (nm, atFloor, w)
      else none
    let l := [one 0, one 1]
    let rates := (allFin 2).map fun j => if (l.getD j.val none).isSome then s.hostRate i j (writes j) else 0
    let best := l.foldl (fun a b => match a, b with
      | some x, some y => if x.1 < y.1 then some y else some x
      | none, b => b
      | a, none => a) none
    let s := s.updM i fun m => { m with
      hostRates := rates, evaluatedAt := s.time, matched := best.map fun b => b.1
      rateMatch := match best with | none => 0 | some (_, f, w) => if f then 3 else if w then 1 else 2
      floorSince := l.mapIdx fun j o => if o.any fun x => x.2.1 then ((m.floorSince.getD j none).or (some s.time)) else none
      floorRecorded := l.mapIdx fun j o => o.isSome && m.floorRecorded.getD j false }
    s.forEach i.pickups fun s p => s.updS p fun x => { x with
      hostWritten := 0, hostRead := 0, movedWrites := s.lastSecond x.movedWrites, movedReads := s.lastSecond x.movedReads }

/-- RATE_FLOOR (R281): nm has sat at its floor for a whole second; once per stream. -/
def execRateFloor (p : PickupId) (s : State) : Out :=
  let i := p.spindle
  let m := s.spindles[i]
  s.when (s.mtUp i && ((m.floorSince.getD p.side none).any fun t => decide (sTicks 1 ≤ s.time - t)) && !(m.floorRecorded.getD p.side false)) fun s =>
    (s.updM i fun m => { m with floorRecorded := (List.range 2).map fun j => m.floorRecorded.getD j false || j == p.side }).spinReport i
      Ev.spinRateFloor [(p.val : Int), m.hostRates.getD p.side 0]

/-- FRICTION_TORQUE_APPLY (R448): the agreed value is applied once the spindle is Stopped, and recorded with the old value and the
temperature. -/
def execFrictionTorqueApply (i : SpindleId) (s : State) : Out :=
  let m := s.spindles[i]
  s.when (s.mtUp i && m.mode == .stopped && m.pendingFriction.isSome) fun s =>
    let old := s.ob Obj.frictionTorque i
    let new := m.pendingFriction.getD 0
    let s := (s.putKey (Obj.frictionTorque.key i 0) new).updM i fun m => { m with pendingFriction := none }
    let s := { s with cal := { s.cal with planDue := true } }
    s.report Isl.core Ev.calRun [11, (i.val : Int), old, new, (at_ s.cal.items {} (88 + i.val)).temperature]

end Sys2Proof.Machine
end

