-- ==== Sys2Proof/Machine/FirmwareOps.lean ====
section
/-! DEFINITION. Shared operations of firmware images: gathering and parsing a download, the checks of R526, the boot record, the image that
becomes active, and what a stop of the CORE island ends (R345, R395, R519 to R528). -/

namespace Sys2Proof.Machine

/-! ### Images (R524, R526, R527) -/

/-- Bytes of a download whose chunks follow one another from offset 0. -/
def gather : List (Nat × List Byte) → List Byte → Option (List Byte)
  | [], got => some got
  | (at_, b) :: rest, got => if at_ = got.length then gather rest (got ++ b) else none

/-- Number in the bytes of a field in their own order. -/
def beField (b : List Byte) (off n : Nat) : Nat := ((b.drop off).take n).foldl (fun acc x => 256 * acc + x.toNat) 0

/-- Header and body of an image (R524); the security unit judges the signature from the header's first 128 bytes, which hold the signed ones,
the key index and the signature. -/
def parseImage (b : List Byte) : Image :=
  let len := leField b 8 4
  { magic := leField b 0 4, format := leField b 4 2, device := leField b 6 2, bodyLength := len, securityVersion := leField b 12 1
    keyIndex := leField b 13 1, revision := leField b 16 8, bodyDigest := BitVec.ofNat 256 (beField b 32 32)
    body := (b.drop 4096).take len, signature := BitVec.ofNat 512 (beField b 64 64), signed := Config.imageSigned (b.take 128) }

/-- The first check of R526 that an image fails: 0 header, 1 digest, 2 signature or key, 3 rollback (numbering of the model). A body that
is shorter than its length or longer than a slot has no digest to match. -/
def State.imageCheck (s : State) (m : Image) : Option Nat :=
  if ¬(m.magic = 0x4B565036 ∧ m.format = 1 ∧ m.device = 0x6480) then some 0
  else if m.body.length ≠ m.bodyLength ∨ 2093056 < m.bodyLength ∨ m.bodyLength % 4096 ≠ 0 ∨ m.bodyDigest ≠ Config.sha256 m.body then some 1
  else if !m.signed || decide (3 < m.keyIndex) || s.otp.keyRevoked.getLsbD m.keyIndex then some 2
  else if m.securityVersion < s.otp.rollback then some 3
  else none

/-- Image of a slot. -/
def State.slot? (s : State) (i : Nat) : Option Image := at_ s.power.slots none i

/-- Check that a slot fails; an empty slot fails the first. -/
def State.slotCheck (s : State) (i : Nat) : Option Nat :=
  match s.slot? i with
  | none => some 0
  | some m => s.imageCheck m

/-- The boot record is written with a change: its other copy, with the next Generation (R523). -/
def State.writeBoot (s : State) (active : Nat) (pending : Option Nat) : State :=
  if s.power.activeSlot = active ∧ s.power.pendingSlot = pending then s
  else { s with power := { s.power with
    activeSlot := active, pendingSlot := pending, bootGeneration := (s.power.bootGeneration + 1) % 2 ^ 32 } }

/-- An image becomes active (R527): boot record, running revision, rollback counter. -/
def State.becomeActive (s : State) (i : Nat) : State :=
  let s := s.writeBoot i none
  match s.slot? i with
  | none => s
  | some m =>
    let old := s.otp.rollback
    let s := { s with power := { s.power with revision := m.revision } }
    if old < m.securityVersion then
      let raised := max old (min 64 m.securityVersion)
      ({ s with otp := { s.otp with rollback := raised } }).report Isl.core Ev.fwRollbackRaised [(old : Int), (raised : Int)]
    else s

/-- A slot takes an image (R527). -/
def State.writeSlot (s : State) (i : Nat) (m : Image) : State :=
  let put (v : Vector (Option Image) 2) : Vector (Option Image) 2 := if h : i < 2 then v.set i (some m) else v
  ({ s with power := { s.power with slots := put s.power.slots } }).report Isl.core Ev.fwImageWritten [(i : Int)]

/-! ### The CORE island stops (R395, R462, R519) -/

/-- A staging area that is not committed is emptied, with result Aborted (R395); reasons count Request 0, Expired 1, Aborted 2. -/
def State.abortStaging (s : State) : State :=
  if s.staging.mode == .empty || s.staging.mode == .committed then s
  else ((s.emptyArea).switchOutcome .aborted none).report Isl.core Ev.switchoverDiscarded [s.ownerIdentity, 2]

/-- CORE stops: staging aborted, running items and waiting results void, the plan ends; a committed set goes on without a reply. -/
def State.coreStop (s : State) : State :=
  let s := s.abortStaging.voidItems
  let s := s.forEach s.cal.unapplied fun s u =>
    if s.cal.waiting.any (fun w => w.2 == u.2.2.1) then
      match (allFin 92).find? fun ix => decide (ixItem ix = (u.1, u.2.1)) with
      | some ix => s.makeDue ix
      | none => s
    else s
  let s := { s with cal := { s.cal with
    unapplied := s.cal.unapplied.filter fun u => !s.cal.waiting.any fun w => w.2 == u.2.2.1
    waiting := [], heldSets := [] } }
  { s with staging := { s.staging with replyTo := none }, power := { s.power with coreDown := true } }

/-- A slot that waits for a controller reset becomes active (R345): it is checked again, and CORE loads it. -/
def State.activatePending (s : State) : State :=
  match s.power.pendingSlot with
  | none => s
  | some i =>
    match s.slotCheck i with
    | some c => (s.writeBoot s.power.activeSlot none).report Isl.core Ev.fwSlotInvalid [(i : Int), (c : Int)]
    | none =>
      let s := s.coreStop.becomeActive i
      { s with power := { s.power with coreDown := false } }

end Sys2Proof.Machine
end

