-- ==== Sys2Proof/Machine/AuthOps.lean ====
section
/-! DEFINITION. Authorisation of writes to RWA objects: nonces, attempts, lockout (R387, R388), and the write of an RWA object that has
a row of its own. -/

namespace Sys2Proof.Machine

/-- What the server keeps for a client. -/
def State.client (s : State) (cl : Client) : ClientState :=
  (s.signpost.clients.find? fun c => c.client == cl).getD { client := cl, stored := [], serving := none, repeats := [], nonce := none }

/-- The same with a change. -/
def State.updClient (s : State) (cl : Client) (f : ClientState → ClientState) : State :=
  { s with signpost := { s.signpost with
    clients := (s.signpost.clients.filter fun c => c.client != cl) ++ [f (s.client cl)] } }

/-- A failed attempt: EV_SEC_AUTH_REFUSED; `AuthFailLimit` failures in a row lock every RWA write (R388). -/
def State.authFailed (s : State) (cl : Client) : State :=
  let n := s.obN Obj.authFailCount + 1
  let s := (s.setOb Obj.authFailCount 0 0 (min n 64 : Nat)).report Isl.core Ev.secAuthRefused [(cl.identity : Int)]
  if s.obN Obj.authFailLimit ≤ n && !s.signpost.locked then
    { s with signpost := { s.signpost with locked := true, lockedAt := s.time } }.report Isl.core Ev.secAuthLockout [(cl.identity : Int)]
  else s

/-- Whether a client holds a nonce that has not lapsed. -/
def State.nonceLives (s : State) (cl : Client) : Bool :=
  match (s.client cl).nonce with
  | some (t, _) => decide (s.time ≤ t + sTicks (s.obN Obj.authNonceLifetime))
  | none => false

/-- Check 12 of R371 for a write to an RWA object: `verdict` is none without Authorised, else whether the signature verifies against
the nonce that the client holds. The nonce serves this one attempt. -/
def State.authorise (s : State) (cl : Client) (key : Nat) (value : List Byte) (verdict : Option Bool) : State × Option Nat :=
  if s.signpost.locked then (s, some Abort.authorisationLocked)
  else match verdict with
  | none => (s, some Abort.authorisationRequired)
  | some good =>
    let lives := s.nonceLives cl
    let s := s.updClient cl fun c => { c with nonce := none }
    if good && lives then
      let s := (s.setOb Obj.authFailCount 0 0 0).bump Obj.authWrites 0 0
      (s.report Isl.core Ev.secAuthGranted
        [(cl.identity : Int), (key / 256 : Nat), (key % 256 : Nat), (((Config.sha256 value).toNat / 2 ^ 192 : Nat) : Int)], none)
    else (s.authFailed cl, some Abort.authorisationFailed)

/-- A write of an RWA object that has a row of its own: checks 10, 12, 13 and 15 of R371 in their order, then the object's effect. -/
def State.authWrite (s : State) (cl : Client) (r : Row) (i k : Nat) (v : Int) (verdict : Option Bool) (bad busy : Bool)
    (effect : State → State) : State :=
  if !s.coreUp then s
  else if !s.carrierMayWrite cl (r.key i k) then s.answer (some Abort.carrierWriteDisabled)
  else
    match s.authorise cl (r.key i k) (leBytes r.type.size v) verdict with
    | (s, some a) => s.answer (some a)
    | (s, none) =>
      if !(r.type.holds v && r.range.admits v) || bad then s.answer (some Abort.valueOutOfRange)
      else if busy then s.answer (some Abort.objectBusy)
      else (effect (s.recordWrite cl (r.key i k))).answer none

end Sys2Proof.Machine
end

