-- ==== Sys2Proof/Machine/ResetOps.lean ====
section
/-! DEFINITION. What a reset of the die keeps (R519), and the entry into PS3 (R349, R514, R515). -/

namespace Sys2Proof.Machine

/-- What a reset of every island but Verge leaves: the Verge domain with its comparator settings, the OTP, the NOR's contents and the
model's own fields; `cause` becomes `LastResetCause`. -/
def State.loseIslands (s : State) (cause : Nat) : State :=
  let r := s.recorder
  let p := s.power
  let z := State.reset
  let s : State := { z with
    time := s.time, freeCount := s.freeCount, pending := s.pending, verge := s.verge, otp := s.otp
    objs := s.objs.filter fun e => decide (0x1A10 ≤ e.1 / 256 ∧ e.1 / 256 < 0x1A14)
    recorder := { header := r.header, storeForeign := r.storeForeign, origin := r.origin, runningArea := r.runningArea
                  writeSlot := r.writeSlot, badSectors := r.badSectors }
    host := { unsafeShutdowns := s.host.unsafeShutdowns, mediaErrors := s.host.mediaErrors }
    power := { phase := .held, activeSlot := p.activeSlot, pendingSlot := p.pendingSlot, bootGeneration := p.bootGeneration
               slots := p.slots, norBlocks := p.norBlocks } }
  s.setOb Obj.lastResetCause 0 0 cause

/-- The reset that a system reset makes: spindles coast and are caught at the next start (R519). -/
def State.systemReset (s : State) (cause : Nat) : State :=
  let old := s.spindles
  let s := s.loseIslands cause
  s.forEach (allFin 4) fun s i =>
    let m := old[i]
    if m.mode == .stopped then s else s.updM i fun x => { x with mode := .coasting, measured := m.measured, vbus := m.vbus }

/-- PS3 is entered: every island but Verge is off, and VG_PWR_EN goes low (R349, R514, R515). -/
def State.enterPs3 (s : State) : State :=
  let s := s.loseIslands 2
  { s with power := { s.power with phase := .ps3 }, verge := { s.verge with pwrEn := false }, host := { s.host with powerState := 3 } }

end Sys2Proof.Machine
end

