-- ==== Sys2Proof/Machine/Recorder.lean ====
section
/-! DEFINITION. Meanings of the commands of the event recorder (chapter 13, R468 to R488). -/

namespace Sys2Proof.Machine

/-- Whether the recorder runs. -/
def State.recUp (s : State) : Bool := s.memUp && s.recorder.running

/-! ### Reports (R471 to R474) -/

/-- An Error Information entry that waits for its record's number takes it (R337, R472). -/
def State.noteErrorSeq (s : State) (tag : Option Nat) (n : Nat) : State :=
  match tag with
  | none => s
  | some t => s.forEach (allFin 2) fun s c => s.updCtrl c fun x => { x with
      errors := x.errors.map fun e => if e.tag = t then { e with eventSeq := some n } else e }

/-- Whether an open summary closes: its bucket is full again, or `SummaryMaxDelay` has passed since it opened (R474). -/
def State.summaryDue (s : State) (x : OpenSummary) : Bool :=
  decide (s.obN Obj.summaryMaxDelay ≤ s.msSince x.openedAt)
    || match s.policy x.code with
      | some w => !policyExempt w && decide (policyDepth w * tokenUnit ≤ s.tokens x.code w)
      | none => false

/-- The open summary of a code is written where it closes, with the number reserved at its opening (R474). -/
def State.closeSummary (s : State) (code : Nat) : State :=
  match s.recorder.summaries.find? fun x => x.code == code with
  | none => s
  | some x =>
    if s.summaryDue x then
      (s.updR fun r => { r with summaries := r.summaries.filter fun y => y.code != code }).ownRecord Isl.mem x.number
        Ev.recSuppressed false true [(code : Int), (x.count : Int)]
    else s

/-- A suppressed report is counted in the open summary of its code, or opens one, which reserves its number (R473, R474). -/
def State.suppress (s : State) (r : Report) : State :=
  let s := (s.closeSummary r.code).bump Obj.recordsSuppressed 0 0
  match s.recorder.summaries.find? fun x => x.code == r.code with
  | some x =>
    (s.updR fun q => { q with summaries := q.summaries.map fun y => if y.code = r.code then { y with count := y.count + 1 } else y })
      |>.noteErrorSeq r.errorEntry x.number
  | none =>
    let n := s.recorder.nextSeq
    ((s.takeSeq 1).updR fun q => { q with summaries := q.summaries ++ [{ code := r.code, number := n, count := 1, openedAt := s.time }] })
      |>.noteErrorSeq r.errorEntry n

/-- An accepted report takes its reserved number or the next one. -/
def State.acceptReport (s : State) (src : IslandId) (r : Report) (w : Option Nat) : State :=
  let n := r.reserved.getD s.recorder.nextSeq
  let s := if r.reserved.isSome then s else s.takeSeq 1
  let s := s.acceptRecord { seq := n, code := r.code, source := src.val, continued := false, summary := false, frozen := false,
                            payload := r.payload }
  (s.noteErrorSeq r.errorEntry n).attributes w

/-- A report meets the policy: Exempt entries have no bucket, an accepted report takes a token, one that finds none is
suppressed. A code that no entry matches has no limit and no attributes. -/
def State.judgeReport (s : State) (src : IslandId) (r : Report) : State :=
  let s := s.matchTrigger r.code
  match s.policy r.code with
  | none => s.acceptReport src r none
  | some w =>
    if policyExempt w then s.acceptReport src r (some w)
    else
      let level := s.tokens r.code w
      if tokenUnit ≤ level then (s.setTokens r.code (level - tokenUnit)).acceptReport src r (some w)
      else s.suppress r

/-- EVENT_REPORT (R473): the oldest report of an island's queue reaches the recorder. -/
def execEventReport (island : IslandId) (s : State) : Out :=
  s.when s.recUp fun s =>
    match (s.recorder.queues[island]).reports with
    | [] => s
    | r :: rest => (s.updR fun x => { x with queues := upd x.queues island fun q => { q with reports := rest } }).judgeReport island r

/-- REPORT_QUEUE_OVERFLOW (R471, R472): the queue has room again; its count is recorded under the number kept in advance, and the next
number is kept. -/
def execReportQueueOverflow (island : IslandId) (s : State) : Out :=
  let q := s.recorder.queues[island]
  s.when (s.recUp && decide (0 < q.overflow) && decide (q.reports.length < reportQueueDepth)) fun s =>
    let s := s.ownRecord island q.reservedNumber Ev.recQueueOverflow false true [(q.overflow : Int)]
    let n := s.recorder.nextSeq
    (s.takeSeq 1).updR fun x => { x with queues := upd x.queues island fun q => { q with overflow := 0, reservedNumber := n } }

/-- SUMMARY_CLOSE (R474): the bucket of a code with an open summary is full again, or `SummaryMaxDelay` has passed since it opened. -/
def execSummaryClose (code : Nat) (s : State) : Out := s.when s.recUp fun s => s.closeSummary code

/-- TICK_MARK (R478): `TickMarkInterval` after the last one, or after the start-up record. -/
def execTickMark (s : State) : Out :=
  s.when (s.recUp && decide (s.recorder.tickMarkAt + sTicks (s.obN Obj.tickMarkInterval) ≤ s.time)) fun s =>
    (s.updR fun r => { r with tickMarkAt := s.time }).ownNext Ev.recTickMark [(s.tick : Int), s.timeOfDay]

/-! ### Pages (R479, R483 to R485) -/

/-- Record slots of the running area: 258 sectors of 128. -/
def runningSlots : Nat := 33024

/-- The first position at or after a slot that lies in no skipped sector. -/
def Recorder.usable (r : Recorder) : Nat → Nat → Nat
  | 0, slot => slot
  | n + 1, slot =>
    if r.badSectors.contains (slot / 128) then Recorder.usable r n ((slot / 128 + 1) * 128 % runningSlots) else slot

/-- The records of the next page: up to eight of the backlog; a flush ends with its held record in the last slot of its last page. -/
def Recorder.nextPage (r : Recorder) : Option (List Record × Bool) :=
  let wait := r.backlog.map fun e => e.record
  match r.flush.filter fun f => !f.written with
  | none => if 8 ≤ wait.length then some (wait.take 8, false) else none
  | some f =>
    let need := if r.backlog.any (fun e => e.toOrigin) then 2 else 1
    let last := match f.pagesLeft with | some n => decide (n ≤ need) | none => false
    if last || decide (wait.length ≤ 7) then some (wait.take 7, true)
    else some (wait.take 8, false)

/-- PAGE_PROGRAM (R479, R485): a page is taken for programming. At the end of a power-fail flush the records beyond its pages are dropped
and counted in the held record. -/
def execPageProgram (s : State) : Out :=
  s.when (s.recUp && s.recorder.page == [] && !s.recorder.storeForeign) fun s =>
    match s.recorder.nextPage with
    | none => s
    | some (l, last) =>
      let r := s.recorder
      let left := if last then r.backlog.length - l.length else 0
      let held : List Record := if last then (match r.flush with
        | some f => [{ seq := f.number, code := Ev.recFlush, source := Isl.mem.val, continued := false, summary := false, frozen := false,
                       payload := [f.cause.code, (f.dropped + left : Nat)] }]
        | none => []) else []
      let cost := if r.backlog.any (fun e => e.toOrigin) then 2 else 1
      s.updR fun r => { r with
        page := l ++ held
        backlog := (if last then r.backlog.take l.length else r.backlog).mapIdx fun i e => { e with inPage := decide (i < l.length) || e.inPage }
        buffer := match held with
          | h :: _ => r.buffer.map fun x => if x.seq = h.seq then h else x
          | [] => r.buffer
        flush := r.flush.map fun f => { f with
          written := f.written || last, dropped := f.dropped + left, pagesLeft := f.pagesLeft.map fun n => n - cost } }

/-- EV_REC_NOR_GAP and its Continued record are written once the backlog has fallen below half its limit (R484). -/
def State.closeGap (s : State) : State :=
  match s.recorder.gapFirst with
  | none => s
  | some (n, first) =>
    if 2 * s.recorder.backlog.length < s.recorder.limit then
      let r := s.recorder
      let s := s.updR fun r => { r with gapFirst := none, gapLast := 0, gapCount := 0 }
      let s := s.ownRecord Isl.mem n Ev.recNorGap true true [(first : Int), (r.gapLast : Int)]
      s.ownRecord Isl.mem (n + 1) Ev.recNorGap false true [(r.gapCount : Int)]
    else s

/-- EV_REC_ORIGIN_FULL once the origin area holds its 4,096 records (R483). -/
def State.checkOrigin (s : State) : State :=
  if !s.recorder.originOpen && !s.recorder.originFullRecorded then
    (s.updR fun r => { r with originFullRecorded := true }).ownNext Ev.recOriginFull []
  else s

/-- A sector erase of a clear ends; the clear ends with its last one (R487). -/
def State.eraseDone (s : State) (failed : Bool) : State :=
  match s.recorder.clearing with
  | none => s
  | some n =>
    let sector := s.recorder.usable 258 s.recorder.writeSlot / 128
    let s := s.updR fun r => { r with
      clearing := if n ≤ 1 then none else some (n - 1)
      norState := if n ≤ 1 && r.norState = .clearing then .ready else r.norState }
    if failed then
      (s.updR fun r => { r with badSectors := r.badSectors ++ [(sector + 2) % 258] }).ownNext Ev.recNorFault [(34 + (sector + 2) % 258 : Nat)]
    else s

/-- PAGE_PROGRAM_DONE (R483): the page's records lie in the running area, and in the origin area while it takes them; a failure skips the
sector and the records wait again. With no page under way it is the end of a sector erase. -/
def execPageProgramDone (failed : Bool) (s : State) : Out :=
  s.when s.recUp fun s =>
    let r := s.recorder
    let slot := r.usable 258 r.writeSlot
    if r.page = [] then s.eraseDone failed
    else if failed then
      (s.updR fun r => { r with
        page := [], badSectors := r.badSectors ++ [slot / 128], writeSlot := (slot / 128 + 1) * 128 % runningSlots
        runningArea := lastN (32768 - 128 * (r.badSectors.length + 1)) r.runningArea
        flush := r.flush.map fun f => { f with written := f.written && !r.page.any fun x => x.code == Ev.recFlush }
        backlog := r.backlog.map fun e => { e with inPage := false } }).ownNext Ev.recNorFault [(34 + slot / 128 : Nat)]
    else
      let s := s.updR fun r => { r with
        page := [], writeSlot := (slot + 8) % runningSlots
        runningArea := lastN (32768 - 128 * r.badSectors.length) (r.runningArea ++ r.page)
        origin := (r.origin ++ (r.page.filter fun x =>
          x.code == Ev.recFlush || r.backlog.any fun e => e.inPage && e.toOrigin && e.record.seq == x.seq)).take originSize
        backlog := r.backlog.filter fun e => !e.inPage }
      s.closeGap.checkOrigin

/-! ### Flush, clear, initialisation (R479, R486 to R488) -/

/-- FLUSH_REQUEST (R479). -/
def execFlushRequest (cl : Client) (v : Int) (s : State) : Out :=
  .next (s.hostWrite cl Obj.flushRequest 0 0 v false false fun s => s.startFlush .request)

/-- Lowest sequence that the running area holds and that is not void. -/
def Recorder.lowest (r : Recorder) : Nat :=
  ((r.runningArea.filter fun x => match r.header with
    | some h => decide (h.clearCount = 0 ∨ h.clearSequence < x.seq)
    | none => true).map fun x => x.seq).min?.getD 0

/-- An accepted clear runs (R487): header, EV_REC_RUNNING_CLEARED, erasure in the background. -/
def State.runClear (s : State) (v : Nat) (client : Nat) : State :=
  let low := s.recorder.lowest
  let erase := (s.recorder.runningArea.filter fun x => decide (x.seq ≤ v)).length / 128
  let s := s.writeHeader fun h => { h with clearSequence := v, clearCount := h.clearCount + 1 }
  let s := s.ownNext Ev.recRunningCleared [(low : Int), (v : Int), (client : Int)]
  s.updR fun r => { r with
    runningArea := r.runningArea.filter fun x => decide (v < x.seq)
    clearing := if erase = 0 then none else some erase, clearWaits := none
    norState := if erase = 0 then r.norState else .clearing }

/-- FLUSH_DONE (R486, R498): the flush ends, after whole microseconds since it began; the held record has been programmed; a clear that waited runs, and a reset or PS3 that waited goes
on. -/
def execFlushDone (s : State) : Out :=
  s.when (s.recUp && s.recorder.page == []) fun s =>
    match s.recorder.flush with
    | none => s
    | some f =>
      if !f.written then s
      else
        let s := (s.updR fun r => { r with
          flush := none, eraseSuspended := false
          norState := if r.norState = .flushing then .ready else r.norState }).maxOb Obj.flushTimeMax 0 0 ((s.time - f.startedAt) * 5 / 8)
        let s := match s.recorder.clearWaits with
          | some (v, client) => s.runClear v client
          | none => s
        match f.cause with
        | .powerState => s.enterPs3
        | .reset => s.systemReset (s.obN Obj.lastResetCause)
        | _ => s

/-- RUNNING_AREA_CLEAR (R487): ValueOutOfRange outside the programmed range, ObjectBusy while another clear erases; during a flush it
waits (R498). -/
def execRunningAreaClear (cl : Client) (v : Int) (authorised : Option Bool) (s : State) : Out :=
  let r := s.recorder
  let high := (r.runningArea.map fun x => x.seq).max?.getD 0
  let bad := r.storeForeign || r.runningArea == [] || !decide ((r.lowest : Int) ≤ v ∧ v ≤ (high : Int))
  .next (s.authWrite cl Obj.runningAreaClear 0 0 v authorised bad (r.clearing.isSome || r.clearWaits.isSome) fun s =>
    let s := s.setOb Obj.runningAreaClear 0 0 v
    if s.recorder.flush.isSome then s.updR fun r => { r with clearWaits := some (v.toNat, cl.identity) } else s.runClear v.toNat cl.identity)

/-- A first header with a lease 65,536 above the next number (R482). -/
def State.firstHeader (s : State) : State :=
  let e := s.recorder.nextSeq + 65536
  { s with verge := { s.verge with leaseKept := max e s.verge.leaseKept } }.updR fun r => { r with
    leaseEnd := max e r.leaseEnd
    header := some { originCount := 0, generation := 1, dieIdentity := s.otp.dieIdentity, leaseEnd := max e r.leaseEnd, clearSequence := 0
                     clearCount := 0 } }

/-- EVENT_STORE_INIT (R488): a Foreign store is erased and started anew for this die. -/
def execEventStoreInit (cl : Client) (v : Int) (authorised : Option Bool) (s : State) : Out :=
  .next (s.authWrite cl Obj.eventStoreInit 0 0 v authorised false (!s.recorder.storeForeign) fun s =>
    (s.setOb Obj.eventStoreInit 0 0 v |>.updR fun r => { r with
      storeForeign := false, origin := [], runningArea := [], writeSlot := 0, badSectors := [], norState := .ready
      originFullRecorded := false }).firstHeader)

end Sys2Proof.Machine
end

