-- ==== Sys2Proof/Machine/PowerOps.lean ====
section
/-! DEFINITION. Shared operations of power and resets: the controller reset of R343, what a reset of the die keeps (R519), the stop of the
media, island resets and trips (R349, R505, R512, R519 to R522). -/

namespace Sys2Proof.Machine

/-! ### Controller reset (R230, R343) -/

/-- Kinds of `ResetCount` in the order of R519. -/
inductive ResetKind where
  | vergePowerOn | powerOn | system | core | island | controller
deriving DecidableEq, Repr

/-- Number of a kind. -/
def ResetKind.code : ResetKind → Nat
  | .vergePowerOn => 0 | .powerOn => 1 | .system => 2 | .core => 3 | .island => 4 | .controller => 5

/-- First block of each zone that a controller's discarded data held: buffered blocks, and writes that are dispatched and not in the buffer
yet. -/
def State.discardedFrom (s : State) (p : PickupId) (c : CtrlId) : List (Nat × Nat) :=
  let held := ((s.sides[p]).buffer.filter fun b => b.owner.ctrl == c).map fun b => b.lba
  let coming := (s.host.cmds.filter fun m => m.ref.ctrl == c && m.isWrite && m.sqe.nsid == nsidOf p && m.dispatched && m.result.isNone
    && !((s.sides[p]).buffer.any fun b => b.owner == m.ref)
    && decide ((s.zone p (zoneOf m.lba)).committed ≤ m.lba % zoneBlocks)).map fun m => m.lba
  let all := held ++ coming
  ((all.map zoneOf).eraseDups).map fun z =>
    (z, ((all.filter fun b => zoneOf b == z).map fun b => b % zoneBlocks).min?.getD 0)

/-- Whether a run holds data of a controller, or blocks at or after the first discarded block of its zone. -/
def Run.touched (r : Run) (c : CtrlId) (first : List (Nat × Nat)) : Bool :=
  (r.area == .user || r.area == .spare)
    && (r.commands.any (fun k => k.ctrl == c) || r.clusters.any fun x => first.any fun f => f.1 == x.zone && decide (f.2 < 64 * x.cluster + 64))

/-- One pickup's part of a controller reset: the current run stops, the data leave the buffer, the write pointers fall back, writes of the
other controller at or after the first discarded block fail. -/
def State.resetSide (s : State) (p : PickupId) (c : CtrlId) : State :=
  let first := s.discardedFrom p c
  let x := s.sides[p]
  let stop : Bool := match x.current with
    | some r => r.touched c first && r.clusters.any fun y => y.state != RunClusterState.committed
    | none => false
  let hit : List Run := (if stop then x.current.toList else []) ++ x.runs.filter fun r => r.touched c first
  let freed (b : BufferedBlock) : Bool := hit.any fun r => r.clusters.any fun y => y.zone == zoneOf b.lba && y.cluster == b.lba % zoneBlocks / 64
  let gone (lba : Nat) : Bool := first.any fun f => f.1 == zoneOf lba && decide (f.2 ≤ lba % zoneBlocks)
  let s := if stop then s.abandonRun p .controllerReset else s
  let s := s.updS p fun x => { x with
    runs := x.runs.filter fun r => !r.touched c first
    replacements := x.replacements.filter fun w => !(w.commands.any (fun k => k.ctrl == c) || gone (w.zone * zoneBlocks + 64 * w.cluster + 63))
    buffer := (x.buffer.filter fun b => !gone b.lba).map fun b => if freed b then { b with inRun := false } else b }
  let s := s.forEach first fun s f => s.updZone p f.1 fun z => z.fallBack (max f.2 z.committed)
  s.forEach (s.host.cmds.filter fun m =>
      m.ref.ctrl != c && m.isWrite && m.sqe.nsid == nsidOf p && m.dispatched && m.result.isNone && gone (m.lba + m.sqe.nlb)) fun s m =>
    s.finishCmd m.ref (if m.committed then .writeFault else .zoneInvalidWrite)

/-- A controller reset (R343); `kind` as in EV_HOST_CONTROLLER_RESET: 0 CC.EN, 1 Function Level Reset, 2 hot reset, 3 PERST#, 4 made by the
VP6480 itself (R512, R522). -/
def State.resetController (s : State) (c : CtrlId) (kind : Nat) : State :=
  let mine := s.host.cmds.filter fun m => m.ref.ctrl == c
  let s := s.forEach (allFin 8) fun s p => s.resetSide p c
  let s := s.leaveRamps fun k => k.ctrl == c
  let s := s.forEach mine fun s m => s.leaveReads m.ref true
  let s := s.noteEnded fun m => m.ref.ctrl == c
  let drop (e : PowerEntry) : PowerEntry := if e.cmd.any (fun k => k.ctrl == c) then { e with cmd := none } else e
  let s := { s with host := { s.host with
    cmds := s.host.cmds.filter fun m => m.ref.ctrl != c
    tolls := s.host.tolls.filter fun t => t.2.cmd.ctrl != c
    powerEntry := s.host.powerEntry.map drop } }
  let s := s.updCtrl c fun x => { x with
    mode := .disabled, shst := 0, sqs := [], cqs := [], features := [], aers := [], notices := [], abortMarks := [], changedNs := [], arbiter := {}
    processingPaused := false }
  let s := ((s.bump Obj.resetCount 0 ResetKind.controller.code).bump Obj.controllerResets c 0).report Isl.host Ev.hostControllerReset [(c.val + 1 : Nat), (kind : Int), (mine.length : Nat)]
  let s := s.endSelfTest 2 ((s.host.selfTest.map fun t => t.segment).getD 0)
  s.settleShutdowns.activatePending

/-! ### The media stop (R348, R505, R512) -/

/-- Every pickup parks as though `ParkRequest` had been written, and every spindle receives Stop. -/
def State.stopMedia (s : State) : State :=
  let s := s.forEach (allFin 8) fun s p => s.park p .request
  s.forEach (allFin 4) fun s i => s.stopSpindle i

/-- The enabled sides' stays are over: no pickup turns, no spindle moves. -/
def State.mediaDown (s : State) : Bool :=
  (allFin 8).all (fun (p : PickupId) => (s.pickups[p]).idle)
    && (allFin 4).all fun (i : SpindleId) => (s.spindles[i]).mode == .stopped || (s.spindles[i]).mode == .fault

/-! ### Resets of the die (R519) -/

/-- The reports that wait on an island's queue reach the recorder before the island enters reset (R498). -/
def State.drainQueue (s : State) (i : IslandId) : State :=
  if !s.recUp then s
  else
    let l := (s.recorder.queues[i]).reports
    let s := s.updR fun x => { x with queues := upd x.queues i fun q => { q with reports := [] } }
    s.forEach l fun s r => s.judgeReport i r

/-- A system reset (R519, R520): every island but MEM and Verge enters reset at once; the queues' reports go first, and MEM makes the reset
flush and then enters reset too. -/
def State.startReset (s : State) (cause : Nat) : State :=
  if s.recorder.running then
    let s := (s.forEach (allFin 48) State.drainQueue).startFlush .reset
    let r := s.recorder
    let m := s.mem
    let s := s.systemReset cause
    { s with recorder := r, mem := m, power := { s.power with phase := .resetFlush } }
  else s.systemReset cause

/-- Objects of an island return to their reset values; members of saved sets count as changed (R395, R450, R522). -/
def State.resetObjects (s : State) (i : IslandId) : State :=
  let mine (e : Nat × Int) : Bool := keyIsland e.1 == i
  let keys := (s.objs.filter mine).map fun e => e.1
  let s := { s with objs := s.objs.filter fun e => !mine e }
  s.forEach keys fun s k => s.noteChange k

/-- A reset of one SV, CH, MT or HOST island (R522). -/
def State.islandReset (s : State) (i : IslandId) (client : Nat) : State :=
  let s := (s.report Isl.core Ev.pwrIslandReset [(i.val : Int), (client : Int)]).bump Obj.resetCount 0 ResetKind.island.code
  let s := if s.staging.mode == .committed then { s with staging := { s.staging with resetIslands := s.staging.resetIslands ++ [i] } } else s
  let s :=
    if h : i.val < 32 then
      let g : BeamId := ⟨i.val, h⟩
      (s.truncateFrame g).updC g fun _ => {}
    else if h : i.val < 40 then
      let p : PickupId := ⟨i.val - 32, by omega⟩
      let s := if (s.pickups[p]).idle then s else (s.park p .request).parked p
      ((s.updP p fun _ => {}).losePosition p.sled .reset).updA p.sled fun _ => {}
    else if h : i.val < 44 then
      let m : SpindleId := ⟨i.val - 40, by omega⟩
      let s := (s.parkBoth m .spindleLost).resetSpindle m
      if m = 0 then s.forEach ((allFin 12).filter fun a => decide (8 ≤ a.val)) fun s a => (s.losePosition a .reset).updA a fun _ => {}
      else s
    else if i.val = 44 then s.forEach (allFin 2) fun s c => s.resetController c 4
    else s
  (s.drainQueue i).resetObjects i

end Sys2Proof.Machine
end

