-- ==== Sys2Proof/Machine/Controllers.lean ====
section
/-! DEFINITION. Meanings of the commands of controllers, shutdowns, host power states and links (chapter 9). -/

namespace Sys2Proof.Machine

/-! ### Controllers (R322, R343, R344) -/

/-- CONTROLLER_ENABLE (R322): CC.EN becomes 1; the admin queues have the given sizes, and the controller is ready. -/
def execControllerEnable (c : CtrlId) (weighted : Bool) (sqSize cqSize : Nat) (s : State) : Out :=
  let ok (n : Nat) : Bool := decide (2 ≤ n ∧ n ≤ queueEntries)
  s.when (s.hostUp && s.coreUp && (s.host.ctrls[c]).mode == .disabled && ok sqSize && ok cqSize) fun s =>
    (s.updCtrl c fun x => { x with
      mode := .ready, weighted := weighted, shst := 0
      sqs := [{ id := 0, cq := 0, size := sqSize, prio := 2, head := 0, tail := 0, deleting := none }]
      cqs := [{ id := 0, size := cqSize, vector := 0, head := 0, tail := 0, reserved := 0, interruptHeld := 0 }] }).report Isl.host
        Ev.hostControllerEnabled [(c.val + 1 : Nat)]

/-- A conventional reset of a port leaves PS3 (R349, R515). -/
def State.wakeByPort (s : State) : State :=
  { s.loseIslands 6 with verge := { s.verge with pwrEn := true, wakeCause := 6 } }

/-- CONTROLLER_RESET (R343): kinds 0 CC.EN, 1 Function Level Reset, 2 hot reset, 3 conventional reset of the port. -/
def execControllerReset (c : CtrlId) (kind : Fin 4) (s : State) : Out :=
  if s.power.phase == .ps3 then .next (if kind = 3 then s.wakeByPort else s)
  else s.when (s.hostUp && ((s.host.ctrls[c]).mode != .disabled || decide (1 ≤ kind.val))) fun s =>
    s.resetController c kind

/-- NORMAL_SHUTDOWN (R344): fetching stops, everything that is buffered is written, and the shutdown ends once nothing is left. -/
def execNormalShutdown (c : CtrlId) (s : State) : Out :=
  s.when (s.hostUp && (s.host.ctrls[c]).mode == .ready) fun s =>
    let s := s.updCtrl c fun x => { x with mode := .shuttingDown, shst := 1 }
    let s := s.forEach (allFin 8) fun s p => s.formAll p (s.sides[p]).waitingZones
    s.settleShutdown c

/-- ABRUPT_SHUTDOWN (R344): a controller reset that ends with CSTS.SHST = 0b10. -/
def execAbruptShutdown (c : CtrlId) (s : State) : Out :=
  s.when (s.hostUp && (s.host.ctrls[c]).mode != .disabled) fun s =>
    ((s.resetController c 0).updCtrl c fun x => { x with shst := 2 }).report Isl.host Ev.hostShutdown [(c.val + 1 : Nat), 1]

/-! ### Power states (R347 to R349) -/

/-- Whether a pickup writes: a run, a formed run, a journal pair (R348). -/
def State.writesLeft (s : State) : Bool :=
  (allFin 8).any fun (p : PickupId) =>
    let x := s.sides[p]
    x.current.isSome || x.runs != [] || x.pair.isSome || x.pairQueue != [] || x.replacements != []

/-- Whether a ladder is left. -/
def State.laddersLeft (s : State) : Bool :=
  (allFin 8).any fun (p : PickupId) => (s.sides[p]).reads.any fun r => r.ladder.isSome

/-- Whether the command that suspended an entry has left, or still keeps it waiting. -/
def State.suspenderGone (s : State) (e : PowerEntry) : Bool :=
  match e.suspendedBy with
  | none => true
  | some k => (s.cmd? k).isNone

/-- POWER_STATE_ENTRY (R348): runs, journal writes and ladders have ended; for PS2 and PS3 every pickup parks and every spindle stops. A
side whose door has stayed shut keeps its map for PS2 (R349). Calibration items that run become Due (R462). -/
def execPowerStateEntry (s : State) : Out :=
  s.when s.hostUp fun s =>
    match s.host.powerEntry with
    | none => s
    | some e =>
      if e.started || s.writesLeft || s.laddersLeft || !s.suspenderGone e then s
      else
        let s := { s with host := { s.host with powerEntry := some { e with started := true, suspendedBy := none }, powerExit := false } }
        let s := s.voidItems
        if e.toState < 2 then s
        else
          let mounted := (allFin 4).filter fun (i : SpindleId) => i.pickups.any fun p => (s.sides[p]).built || (s.pickups[p]).mountResult == .mounted
          let s := { s with host := { s.host with remount := mounted } }
          let s := if e.toState = 2 && !s.verge.doorTripped then
              s.forEach (allFin 8) fun s p => s.updS p fun x => { x with doorKept := x.built }
            else s
          s.stopMedia

/-- What PS2 takes from the islands (R514): SV and CH islands stop, sleds are Disabled and their positions lost. -/
def State.enterPs2 (s : State) : State :=
  let s := s.forEach (allFin 8) fun s (p : PickupId) => if s.pickupOn p then s.disableAxis p.sled .disable else s
  s.forEach (allFin 32) fun s g => s.updC g fun c => { c with mode := .off, frameLock := false }

/-- Entry into PS3 ends with the event flush, at whose end VG_PWR_EN goes low (R349, R395, R515). -/
def State.leaveForPs3 (s : State) : State :=
  let s := s.forEach (allFin 12) fun s a => if s.axisUp a then s.disableAxis a .supply else s
  let s := s.abortStaging
  let s := s.forEach (allFin 2) fun s c => s.updCtrl c fun x => { x with link := 0 }
  if s.recorder.running then s.startFlush .powerState else s.enterPs3

/-- POWER_STATE_ENTRY_END (R348, R349): entry has ended; its completion follows and EV_HOST_POWER_STATE carries both states. -/
def execPowerStateEntryEnd (s : State) : Out :=
  s.when s.hostUp fun s =>
    match s.host.powerEntry with
    | none => s
    | some e =>
      if !e.started || (decide (2 ≤ e.toState) && !s.mediaDown) then s
      else
        let old := s.host.powerState
        let s := match e.cmd with
          | some k => s.finishCmd k .success
          | none => s
        let s := { s with host := { s.host with
          powerEntry := none, powerState := if e.toState = 3 then old else e.toState
          lastOperational := if e.toState < 2 then e.toState else s.host.lastOperational } }
        let s := s.report Isl.host Ev.hostPowerState
          [((e.cmd.map fun k => k.ctrl.val + 1).getD 0 : Nat), (old : Int), (e.toState : Int)]
        if e.toState = 3 then s.leaveForPs3
        else if e.toState = 2 then s.enterPs2
        else if old = 2 then s.mountAgain
        else s

/-! ### Links (R321, R362) -/

/-- LINK_UP (R362): a link reaches L0. -/
def execLinkUp (c : CtrlId) (rate width : Nat) (s : State) : Out :=
  s.when (s.running || s.power.phase == .failed) fun s =>
    let old := (s.host.ctrls[c]).link
    let s := s.updCtrl c fun x => { x with link := 2, linkRate := rate, linkWidth := width }
    if old = 2 then s else s.report Isl.host Ev.hostLinkUp [(c.val : Int), (rate : Int), (width : Int)]

/-- LINK_DOWN (R362): a link leaves L0 and L1. -/
def execLinkDown (c : CtrlId) (s : State) : Out :=
  s.when ((s.host.ctrls[c]).link != 0) fun s =>
    (s.updCtrl c fun x => { x with link := 0, linkRate := 0, linkWidth := 0 }).report Isl.host Ev.hostLinkDown [(c.val : Int)]

/-! ### Histograms (R361) -/

/-- LATENCY_RESET (R361). -/
def execLatencyReset (cl : Client) (v : Int) (s : State) : Out :=
  .next (s.hostWrite cl Obj.latencyReset 0 0 v false false fun s => { s with host := { s.host with latency := [] } })

end Sys2Proof.Machine
end

