-- ==== Sys2Proof/Machine/Firmware.lean ====
section
/-! DEFINITION. Meanings of the commands of firmware download, commit and activation (R345, R346, R524 to R527). -/

namespace Sys2Proof.Machine

/-! ### Download and commit (R345, R527) -/

/-- FIRMWARE_IMAGE_DOWNLOAD (R326, R527): a piece of the image at its offset, CDW10 and CDW11 counting dwords. -/
def execFirmwareImageDownload (k : CmdRef) (s : State) : Out :=
  s.admin k (Cmd.op 0x11) fun s c =>
    let piece := c.sqe.bytes.take ((c.sqe.cdw10 + 1) * 4)
    ({ s with host := { s.host with download := Sparse.insert (c.sqe.cdw11 * 4) piece s.host.download } }).finishCmd k .success

/-- Status of a failed check: a rollback that the counter refuses, or an image that fails otherwise. -/
def commitStatus (check : Nat) : Status := if check = 3 then .activationProhibited else .invalidImage

/-- A commit that replaces a slot: the gathered image is checked before anything is erased; an uncorrectable word in it fails the commit
(R436). -/
def State.replaceSlot (s : State) (k : CmdRef) (c : Cmd) (next : State → Nat → State) : State :=
  let i := c.sqe.commitSlot - 1
  let image := (gather s.host.download []).map parseImage
  let bad := s.host.downloadBad
  let s := { s with host := { s.host with download := [], downloadBad := false } }
  match image with
  | none => s.finishCmd k .invalidImage
  | some m =>
    match s.imageCheck m with
    | some e => s.finishCmd k (commitStatus e)
    | none => if bad then s.finishCmd k .invalidImage else next (s.writeSlot i m) i

/-- The row of a commit action. -/
def State.firmwareCommit (s : State) (k : CmdRef) (action : Nat) (f : State → Cmd → State) : Out :=
  if s.host.activation.isSome then .next s else s.admin k (fun c => c.op 0x10 && c.sqe.commitAction == action) f

/-- FIRMWARE_COMMIT_REPLACE (R345): action 0b000. -/
def execFirmwareCommitReplace (k : CmdRef) (s : State) : Out :=
  s.firmwareCommit k 0 fun s c => s.replaceSlot k c fun s _ => s.finishCmd k .success

/-- FIRMWARE_COMMIT_REPLACE_ACTIVATE (R345): action 0b001. -/
def execFirmwareCommitReplaceActivate (k : CmdRef) (s : State) : Out :=
  s.firmwareCommit k 1 fun s c => s.replaceSlot k c fun s i => (s.writeBoot s.power.activeSlot (some i)).finishCmd k .success

/-- An existing slot is checked again. -/
def State.withSlot (s : State) (k : CmdRef) (c : Cmd) (f : State → Nat → State) : State :=
  let i := c.sqe.commitSlot - 1
  match s.slot? i with
  | none => s.finishCmd k .invalidImage
  | some m =>
    match s.imageCheck m with
    | some e => s.finishCmd k (commitStatus e)
    | none => f s i

/-- FIRMWARE_COMMIT_ACTIVATE_AT_RESET (R345): action 0b010. -/
def execFirmwareCommitActivateAtReset (k : CmdRef) (s : State) : Out :=
  s.firmwareCommit k 2 fun s c => s.withSlot k c fun s i => (s.writeBoot s.power.activeSlot (some i)).finishCmd k .success

/-! ### Activation without reset (R346) -/

/-- Step 1 of R346: notices, CSTS.PP, fetching stops on both controllers; a self-test ends with result 0x8 (R352). -/
def State.startActivation (s : State) (k : CmdRef) (i : Nat) : State :=
  let ps := (allFin 8).filter fun p => s.pickupOn p
  let s := { s with host := { s.host with activation := some { slot := i, cmd := k, loaded := false, startedAt := s.time, extraRunLeft := ps } } }
  let s := s.endSelfTest 8 ((s.host.selfTest.map fun (t : SelfTest) => t.segment).getD 0)
  let s := s.forEach (allFin 2) fun s c =>
    let s := if s.host.ctrls[c].notifies 9 then s.asyncEvent c 2 1 else s
    s.updCtrl c fun x => { x with processingPaused := true, mode := if x.mode = .ready then .paused else x.mode }
  s.report Isl.host Ev.hostFwActivationStart [(k.ctrl.val + 1 : Nat)]

/-- FIRMWARE_COMMIT_ACTIVATE_NOW (R346): action 0b011; its completion is posted at the end of the activation. -/
def execFirmwareCommitActivateNow (k : CmdRef) (s : State) : Out :=
  s.firmwareCommit k 3 fun s c => s.withSlot k c fun s i => s.startActivation k i

/-- Whether a fetched command holds an activation back (R346 step 2): a Read, a Verify or an admin command without its result. An
Asynchronous Event Request waits for an event, and the commit itself for the activation. -/
def Activation.waitsFor (a : Activation) (c : Cmd) : Bool :=
  c.result.isNone && (c.io opRead || c.io opVerify || (c.ref.sq == 0 && !c.op 0x0C && c.ref != a.cmd))

/-- Whether the media are idle for an activation: no run, no journal pair under way, no read left, and no fetched command that still runs
to completion (R346 steps 2 and 3). -/
def State.mediaIdle (s : State) (a : Activation) : Bool :=
  !s.host.cmds.any a.waitsFor && (allFin 8).all fun (p : PickupId) =>
    let x := s.sides[p]
    x.current.isNone && x.pair.isNone && x.reads == []

/-- FW_ACTIVATION_MEDIA_IDLE (R346 steps 3 and 4): CORE resets and loads the new image. -/
def execFwActivationMediaIdle (s : State) : Out :=
  s.when s.running fun s =>
    match s.host.activation with
    | none => s
    | some a =>
      if a.loaded || !s.mediaIdle a then s
      else ({ s.coreStop with host := { s.host with activation := some { a with loaded := true } } }).bump Obj.resetCount 0 ResetKind.core.code

/-- FW_ACTIVATION_DONE (R346 step 5, R527): the new image runs and is active; fetching resumes; the event carries the milliseconds since t0. -/
def execFwActivationDone (s : State) : Out :=
  s.when s.running fun s =>
    match s.host.activation with
    | none => s
    | some a =>
      if !a.loaded then s
      else
        let s := { s with power := { s.power with coreDown := false }, host := { s.host with activation := none } }
        let s := s.becomeActive a.slot
        let s := s.forEach (allFin 2) fun s c =>
          s.updCtrl c fun x => { x with processingPaused := false, mode := if x.mode = .paused then .ready else x.mode }
        (s.finishCmd a.cmd .success).report Isl.host Ev.hostFwActivationDone [(a.cmd.ctrl.val + 1 : Nat), (s.msSince a.startedAt : Nat)]

end Sys2Proof.Machine
end

