-- ==== Sys2Proof/Machine/Power.lean ====
section
/-! DEFINITION. Meanings of the commands of start-up, resets, clocks, the Verge domain and the debug port (chapter 14). -/

namespace Sys2Proof.Machine

/-! ### Start-up (R507, R509, R517, R518, R526) -/

/-- Whether the event store belongs to another die, or holds something without a valid header (R488). -/
def State.foreignStore (s : State) : Bool :=
  match s.recorder.header with
  | some h => h.dieIdentity != s.otp.dieIdentity
  | none => s.recorder.origin != [] || s.recorder.runningArea != []

/-- Verge tick that a record carries (R477, R478, R482). -/
def Record.tick? (r : Record) : Option Nat :=
  if r.code = Ev.recTickMark ∨ (r.code = Ev.recStartup ∧ r.continued) ∨ (r.code = Ev.recTimeSet ∧ !r.continued) then
    r.payload.head?.map Int.toNat
  else none

/-- Newest Verge tick of the event store. -/
def State.newestTick (s : State) : Option Nat := ((s.recorder.origin ++ s.recorder.runningArea).filterMap Record.tick?).max?

/-- `VergeTickBase` is set once after a Verge power-on (R509). -/
def State.setTickBase (s : State) (own : Bool) : State :=
  if s.verge.baseSet then s
  else
    let base := match own, s.newestTick with
      | true, some t => t + 32768 * s.obN Obj.tickMarkInterval + 1
      | _, _ => 0
    ({ s with verge := { s.verge with base := base, baseSet := true, offset := 0, powerLost := true } }).report Isl.verge Ev.vgPowerLost
      [(base : Int)]

/-- The record programmed last closes a power-fail or power-state flush. -/
def Recorder.closed (r : Recorder) : Bool :=
  match r.runningArea.getLast? with
  | some x => x.code == Ev.recFlush && (x.payload.head? == some 2 || x.payload.head? == some 3)
  | none => false

/-- The recorder starts (R469, R472, R482): number, lease, EV_REC_STARTUP pair, the queues' reserved numbers. -/
def State.startRecorder (s : State) : State :=
  let foreign := s.foreignStore
  let blank := s.recorder.header.isNone && !foreign
  let own := !foreign && !blank
  let kept := s.verge.leaseKept
  let start := if own then max kept ((s.recorder.header.map fun h => h.leaseEnd).getD 0) else kept
  let s := s.setTickBase own
  let closed := own && s.recorder.closed
  let flags : Int := (if closed then 1 else 0) + (if own then 0 else 2) + (if !own && kept == 0 then 4 else 0)
  let s := if !closed && own then { s with host := { s.host with unsafeShutdowns := s.host.unsafeShutdowns + 1 } } else s
  let s := s.updR fun r => { r with
    running := true, nextSeq := start, leaseEnd := start, storeForeign := foreign, norState := if foreign then .foreign else .ready
    originFullRecorded := decide (originSize ≤ r.origin.length), tickMarkAt := s.time }
  let s := if blank then s.firstHeader else s
  let s := s.ownPair Ev.recStartup [(s.tick : Int), s.timeOfDay] [flags]
  s.forEach (allFin 48) fun s i =>
    let n := s.recorder.nextSeq
    (s.takeSeq 1).updR fun r => { r with queues := upd r.queues i fun q => { q with reservedNumber := n } }

/-- Rows 0 to 1,023 of a bank are regular, 1,024 to 1,039 its spares. Bad spares are marked, failing rows retired (R411, R412). -/
def State.selfTest1 (s : State) (rows : List (Nat × Nat)) : State :=
  let bad := rows.filter fun r => decide (1024 ≤ r.2)
  let s := s.updMem fun m => { m with badSpares := (bad.map fun r => (r.1, r.2 - 1024)).eraseDups }
  s.forEach ((rows.filter fun r => decide (r.2 < 1024)).eraseDups) fun s r => s.retireRow r.1 r.2 0

/-- Banks whose failing rows outnumber their usable spares (R411), as a mask. -/
def failBanks (rows : List (Nat × Nat)) : Nat :=
  (List.range 16).foldl (fun m b =>
    let regular := ((rows.filter fun r => r.1 == b && decide (r.2 < 1024)).eraseDups).length
    let bad := ((rows.filter fun r => r.1 == b && decide (1024 ≤ r.2)).eraseDups).length
    if 16 - bad < regular then m + 2 ^ b else m) 0

/-- Crossing times in ns from SV0 by Source number that the table of R506 gives; SV0 has no crossing to itself. -/
def crossingTable (i : Nat) : Nat := if i < 4 then 120 else if i = 32 then 0 else 200

/-- The round trips of R507: 64 for each of HOST, CORE, MEM and Verge. Forward crossing and Uncertainty (R491), with one period of the
island's clock: 1 ns, 5/6 ns, 5/4 ns and 10^9/32,768 ns. -/
def State.measureCrossings (s : State) (trips : List Nat) : State :=
  let mine (j : Nat) : List Nat := (trips.drop (64 * j)).take 64
  let least (j : Nat) : Nat := (mine j).min?.getD 0
  let spread (j : Nat) : Nat := (mine j).max?.getD 0 - least j
  let period (j : Nat) : Nat × Nat := match j with | 0 => (1, 1) | 1 => (5, 6) | 2 => (5, 4) | _ => (1000000000, 32768)
  let s := s.forEach (List.range 48) fun s i =>
    s.setOb Obj.crossingForward 0 i (if i < 44 then (crossingTable i : Nat) else rnd (least (i - 44) : Nat) 2)
  { s with milestone := { s.milestone with uncertainty := (List.range 4).map fun j =>
    (rnd ((spread j * (period j).2 + 2 * (period j).1 : Nat) : Int) (2 * (period j).2)).toNat } }

/-- The slot that the boot ROM takes (R526), with the slot and the check that failed before it. -/
def State.bootChoice (s : State) : Option (Nat × Option (Nat × Nat)) :=
  let first := s.power.pendingSlot.getD s.power.activeSlot
  let other := 1 - first
  match s.slotCheck first with
  | none => some (first, none)
  | some c => if (s.slotCheck other).isNone then some (other, some (first, c)) else none

/-- Start-up stops in the failure state (R518): only Verge, HOST and the debug port run. -/
def State.failStartup (s : State) (cause : Nat) : State :=
  let s := s.setOb Obj.startupFailCause 0 0 cause
  let s := s.forEach (allFin 2) fun s c => s.updCtrl c fun x => { x with cfs := true }
  { s with power := { s.power with phase := .failed }, recorder := { s.recorder with running := false } }

/-- Kind of a start by its cause (R519, R531). -/
def startKind (cause : Nat) : ResetKind := match cause with
  | 0 => .vergePowerOn | 3 => .system | 4 => .system | 5 => .system | _ => .powerOn

/-- The grid starts and the start is counted (R517, R531). -/
def State.startGrid (s : State) (cause : Nat) : State :=
  { s with power := { s.power with gridBase := s.time } }.bump Obj.resetCount 0 (startKind cause).code

/-- Both clocks have locked, and self-test 0 has its result (R517). -/
def State.testArrays (s : State) (failingRows : List (Nat × Nat)) : State :=
  let s := { s with power := { s.power with quietLocked := true, systemLocked := true } }
  let s := (s.setOb Obj.selfTestFailBanks 0 0 (failBanks failingRows)).setOb Obj.selfTestTime 0 0 (s.free.natAbs % 2 ^ 32 : Nat)
  s.freeNext

/-- The recorder starts, the start-up is reported, and self-test 1 has its result (R517, R518). -/
def State.startReports (s : State) (cause : Nat) (failingRows : List (Nat × Nat)) : State :=
  let s := s.startRecorder
  let s := s.report Isl.verge Ev.pwrReset [(cause : Int)]
  let s := if cause = 2 ∨ cause = 6 then s.report Isl.verge Ev.vgWake [(s.verge.wakeCause : Int)] else s
  let s := s.report Isl.mem Ev.memSelftest
    [0, ((failingRows.filter fun r => decide (r.2 < 1024)).eraseDups.length : Nat), s.ob Obj.selfTestTime]
  s.selfTest1 failingRows

/-- The boot: the image of the slot starts, the crossings are measured, and the islands run (R517, R524). -/
def State.bootImage (s : State) (roundTrips : List Nat) : State :=
  match s.bootChoice with
  | none => s.failStartup 4
  | some (slot, bad) =>
    let s := match bad with
      | some (b, c) => s.report Isl.core Ev.fwSlotInvalid [(b : Int), (c : Int)]
      | none => s
    let s := s.becomeActive slot
    let s := s.measureCrossings roundTrips
    let m := s.slot? slot
    let s := s.report Isl.core Ev.fwBoot [(slot : Int), ((m.map fun x => x.securityVersion).getD 0 : Nat), (s.power.revision : Int)]
    let s := s.setOb Obj.startupTime 0 0 (s.free.natAbs % 2 ^ 32 : Nat)
    let s := s.freeNext
    let s : State := { s with
                      power := { s.power with phase := .running, coreDown := false }
                      signpost := { s.signpost with can := s.signpost.can.map fun x => { x with state := 1 } } }
    s.updMem fun m => { m with cacheOn := true }

/-- STARTUP (R517, R518): `failure` 1 clock, 2 self-test of another array, 3 LPDDR5; a bank without enough spares and the lack of a valid
image follow from the state. -/
def execStartup (failure : Fin 5) (failingRows : List (Nat × Nat)) (roundTrips : List Nat) (s : State) : Out :=
  s.when (s.verge.powered && (s.power.phase == .held || s.power.phase == .unpowered)) fun s =>
    let cause := s.obN Obj.lastResetCause
    let s := s.startGrid cause
    if failure = 1 then s.failStartup 1
    else
      let s := s.testArrays failingRows
      if failure = 2 ∨ failBanks failingRows ≠ 0 then (s.setOb Obj.selfTestResult 0 0 1).failStartup 2
      else
        let s := s.startReports cause failingRows
        if failure = 3 then s.failStartup 3 else s.bootImage roundTrips

/-- VERGE_POWER_ON (R508, R509, R519): VDDV is applied; everything resets, and the tick counter starts at 0. -/
def execVergePowerOn (s : State) : Out :=
  s.when (!s.verge.powered) fun s =>
    let s := { s with objs := [] }.loseIslands 0
    { s with verge := { powered := true, since := s.time, powerLost := true, pwrEn := true } }

/-! ### Resets (R519 to R522) -/

/-- SYSTEM_RESET (R520): SYS_RST_N low. -/
def execSystemReset (s : State) : Out :=
  s.when (s.running || s.power.phase == .failed) fun s => s.startReset 3

/-- WATCHDOG (R521): EV_PWR_WATCHDOG, and CORE stops. -/
def execWatchdog (s : State) : Out :=
  s.when s.coreUp fun s => (s.report Isl.core Ev.pwrWatchdog []).coreStop

/-- CORE_RESET (R521): CORE, which has stopped, reloads its image; the third within 60 s becomes a system reset. -/
def execCoreReset (s : State) : Out :=
  s.when (s.running && s.power.coreDown && !(s.host.activation.any fun a => a.loaded)) fun s =>
    let recent := (s.power.coreResets.filter fun t => decide (s.time ≤ t + sTicks 60)) ++ [s.time]
    if 3 ≤ recent.length then s.startReset 4
    else
      let s := s.coreStop.bump Obj.resetCount 0 ResetKind.core.code
      { s with power := { s.power with coreResets := recent, coreDown := false } }

/-- Whether an island is one that this variant has enabled and that a request may reset. -/
def State.resettable (s : State) (v : Int) : Bool :=
  decide (0 ≤ v) && (if v < 32 then decide (v < 8 * s.otp.variant.spindles) else if v < 40 then decide (v - 32 < 2 * s.otp.variant.spindles)
    else if v < 44 then decide (v - 40 < s.otp.variant.spindles) else v == 44)

/-- ISLAND_RESET_REQUEST (R522). -/
def execIslandResetRequest (cl : Client) (v : Int) (authorised : Option Bool) (s : State) : Out :=
  .next (s.authWrite cl Obj.islandResetRequest 0 0 v authorised (!s.resettable v) false fun s =>
    if h : v.toNat < 48 then s.islandReset ⟨v.toNat, h⟩ cl.identity else s)

/-! ### Clocks (R505) -/

/-- QUIET_PLL_UNLOCK (R505): every pickup parks, every spindle stops, until a new mount. -/
def execQuietPllUnlock (s : State) : Out :=
  s.when (s.running && s.power.quietLocked) fun s =>
    let s := { s with power := { s.power with quietLocked := false }, host := { s.host with remount := [], powerExit := false } }
    ((s.bump Obj.quietUnlockCount 0 0).report (Isl.sv 0) Ev.clkQuietUnlock []).stopMedia

/-- QUIET_PLL_RELOCK (R505). -/
def execQuietPllRelock (s : State) : Out :=
  s.when (s.running && !s.power.quietLocked) fun s =>
    ({ s with power := { s.power with quietLocked := true } }).report (Isl.sv 0) Ev.clkQuietRelock []

/-- SYSTEM_PLL_UNLOCK (R505): service continues. -/
def execSystemPllUnlock (s : State) : Out :=
  s.when (s.running && s.power.systemLocked) fun s =>
    ({ s with power := { s.power with systemLocked := false } }).report Isl.host Ev.clkSystemUnlock []

/-! ### Comparators (R511 to R513) -/

/-- A comparator trips: state, count, and outside PS3 its record with the effect of R512. -/
def State.trip (s : State) (k : Fin 4) (before effect : State → State) : State :=
  let s := { s with verge := { s.verge with comps := upd s.verge.comps k fun c => { c with tripped := true } } }
  let s := s.bump Obj.compTripCount k 0
  if s.running then effect ((before s).report Isl.verge Ev.vgTrip [(k.val : Int), 1]) else s

/-- Whether the condition of comparator k holds for an input in mV (R511): below the threshold for the supply, above it for shock and door;
the fourth compares `DieTemperature`. -/
def State.exceeds (s : State) (k : Fin 4) (level : Nat) : Bool :=
  match k with
  | 0 => decide ((level : Int) < s.ob Obj.compThreshold 0)
  | 1 => decide (s.ob Obj.compThreshold 1 < (level : Int))
  | 2 => decide (s.ob Obj.compThreshold 2 < (level : Int))
  | 3 => decide (s.ob Obj.compThreshold 3 < s.ob Obj.dieTemperature)

/-- Whether the condition of comparator k is absent (R511): over-temperature clears 10.00 °C below its threshold. -/
def State.absent (s : State) (k : Fin 4) (level : Nat) : Bool :=
  if k = 3 then decide (s.ob Obj.dieTemperature ≤ s.ob Obj.compThreshold 3 - 1000) else !s.exceeds k level

/-- The row of a trip: an input that stayed at `level` or beyond it for `heldUs` without a break trips after `CompFilter` (R511). -/
def State.tripRow (s : State) (k : Fin 4) (level heldUs : Nat) (before effect : State → State) : Out :=
  s.when (s.verge.powered && !(s.verge.comps[k]).tripped && s.exceeds k level && decide (s.obN Obj.compFilter k ≤ heldUs)) fun s =>
    s.trip k before effect

/-- Power fails (R230, R283, R330): runs stop, buffered data go, write pointers fall back, spindles coast once the passes have stopped. -/
def State.powerFails (s : State) : State :=
  let s := s.startFlush .powerFail
  let s := s.forEach (allFin 8) fun s p =>
    let zs := (s.sides[p]).zones.map fun z => z.1
    let s := (s.abandonRun p .powerFail).updS p fun x => { x with runs := [], replacements := [], buffer := [] }
    s.forEach zs fun s z => s.updZone p z fun y => y.fallBack y.committed
  s.forEach (allFin 4) fun s i => s.updM i fun m =>
    if m.mode == .stopped || m.mode == .fault then m else { m.gatesOff with mode := .coasting, locked := false, stopping := false, afterBrake := .stop, source := 0, matched := none }

/-- SUPPLY_FAIL (R512): the power-fail flush and the spindle outcome of R283. -/
def execSupplyFail (level heldUs : Nat) (s : State) : Out := s.tripRow 0 level heldUs (fun s => s) State.powerFails

/-- SHOCK_TRIP (R512): nothing beyond the record. -/
def execShockTrip (level heldUs : Nat) (s : State) : Out := s.tripRow 1 level heldUs (fun s => s) fun s => s

/-- The door of a cartridge has opened: no map is kept any more (R349, R512). -/
def State.doorOpens (s : State) : State :=
  let s := { s with verge := { s.verge with doorTripped := true } }
  s.forEach (allFin 8) fun s p =>
    if (s.sides[p]).doorKept then
      let s := s.updS p fun x => { x with doorKept := false }
      if (s.pickups[p]).idle then s.unmount p else s
    else s

/-- CARTRIDGE_DOOR_TRIP (R512). -/
def execCartridgeDoorTrip (level heldUs : Nat) (s : State) : Out := s.tripRow 2 level heldUs (fun s => s) State.doorOpens

/-- What over-temperature does (R512): both controllers reset, pickups park, spindles stop; PS3 follows once the media are down. -/
def State.overheats (s : State) : State :=
  let s := (s.forEach (allFin 2) fun s c => s.resetController c 4).stopMedia
  { s with host := { s.host with
    powerEntry := some { toState := 3, cmd := none, started := true, suspendedBy := none }, remount := [], powerExit := false } }

/-- OVER_TEMPERATURE_TRIP (R512): EV_PWR_THERMAL_SHUTDOWN comes first. -/
def execOverTemperatureTrip (heldUs : Nat) (s : State) : Out :=
  s.tripRow 3 0 heldUs (fun s => s.report Isl.verge Ev.pwrThermalShutdown [s.ob Obj.dieTemperature]) State.overheats

/-- COMPARATOR_CLEAR (R511): the condition has been absent for `CompFilter`. -/
def execComparatorClear (k : Fin 4) (level heldUs : Nat) (s : State) : Out :=
  s.when (s.verge.powered && s.absent k level && decide (s.obN Obj.compFilter k ≤ heldUs)) fun s =>
    { s with verge := { s.verge with comps := upd s.verge.comps k fun c => { c with tripped := false } } }

/-- Whether a cause wakes (R513, R515): comparators 0 to 2 on trip, 3 when clear, VG_WAKE_N, a conventional reset of a port. -/
def State.mayWake (s : State) (cause : Fin 6) : Bool :=
  if h : cause.val < 4 then
    s.ob Obj.compWakeEnable cause.val == 1 && ((s.verge.comps[(⟨cause.val, h⟩ : Fin 4)]).tripped != (cause.val == 3))
  else true

/-- WAKE (R513): causes 0 to 3 comparators, 4 VG_WAKE_N, 5 PCIe reset; VG_PWR_EN rises, and start-up follows. -/
def execWake (cause : Fin 6) (s : State) : Out :=
  s.when (s.power.phase == .ps3 && s.mayWake cause) fun s =>
    let s := s.loseIslands (if cause.val = 5 then 6 else 2)
    { s with verge := { s.verge with pwrEn := true, wakeCause := cause.val + 1 } }

/-- TIME_OF_DAY_WRITE (R510). -/
def execTimeOfDayWrite (cl : Client) (v : Int) (s : State) : Out :=
  .next (s.hostWrite cl Obj.timeOfDay 0 0 v false false fun s => s.setTimeOfDay v cl.identity)

/-- FIRMWARE_KEY_REVOKE (R528): not the key of the running image, and never the last. -/
def execFirmwareKeyRevoke (cl : Client) (v : Int) (authorised : Option Bool) (s : State) : Out :=
  let k := v.toNat
  let running := (s.slot? s.power.activeSlot).any fun m => m.keyIndex == k
  let mask := s.otp.keyRevoked ||| BitVec.ofNat 4 (2 ^ k)
  .next (s.authWrite cl Obj.firmwareKeyRevoke 0 0 v authorised (running || mask == 15#4) false fun s =>
    ({ s with otp := { s.otp with keyRevoked := mask } }).report Isl.core Ev.fwKeyRevoked [(k : Int)])

/-! ### Ports and supplies (R321, R354, R379, R382, R509, R514, R515, R530) -/

/-- LINK_L1_ENTRY (R321): ASPM L1 from L0. -/
def execLinkL1Entry (c : CtrlId) (s : State) : Out :=
  s.when ((s.host.ctrls[c]).link == 2) fun s => s.updCtrl c fun x => { x with link := 3 }

/-- ETH_LINK_CHANGE (R382): 0 down, 1 to 3 at 10, 100 and 1,000 Mbit/s. -/
def execEthLinkChange (speed : Fin 4) (s : State) : Out :=
  s.when s.running fun s => { s with signpost := { s.signpost with eth := { s.signpost.eth with link := speed.val } } }

/-- CAN_BUS_ERROR (R379): the error counters move under ISO 11898-1; ErrorPassive from 128 on. A port that is Off or BusOff stays so. -/
def execCanBusError (port : Fin 2) (transmit receive : Int) (s : State) : Out :=
  s.when (s.running && ((s.signpost.can[port]).state == 1 || (s.signpost.can[port]).state == 2)) fun s =>
    { s with signpost := { s.signpost with can := upd s.signpost.can port fun x =>
      let tx := ((x.txErrors : Int) + transmit).toNat
      let rx := ((x.rxErrors : Int) + receive).toNat
      { x with txErrors := tx, rxErrors := rx, state := if 128 ≤ tx ∨ 128 ≤ rx then 2 else 1 } } }

/-- VDDV_LOSS (R509): the Verge domain loses its tick, offset, kept lease end and comparator settings. -/
def execVddvLoss (s : State) : Out :=
  s.when s.verge.powered fun s =>
    { s with verge := { since := s.time }, objs := s.objs.filter fun e => !decide (0x1A10 ≤ e.1 / 256 ∧ e.1 / 256 < 0x1A14) }

/-- SUPPLY_REMOVED (R515, R519): every island except Verge is unpowered. In PS3 they are off already. -/
def execSupplyRemoved (s : State) : Out :=
  s.when (s.power.phase != .ps3) fun s =>
    let s := s.loseIslands 1
    { s with power := { s.power with phase := .unpowered } }

/-- LPDDR5_SELF_REFRESH_ENTRY (R514). -/
def execLpddr5SelfRefreshEntry (s : State) : Out :=
  s.when (s.memUp && s.host.powerState == 2) fun s => s.updMem fun m => { m with selfRefresh := true }

/-- RING_OSC_MEASUREMENT (R530): stage delays by Source number, of the islands that run. -/
def execRingOscMeasurement (delays : List Nat) (s : State) : Out :=
  s.when s.running fun s =>
    s.forEach (allFin 48) fun s i =>
      match delays[i.val]? with
      | some d => if s.islandUp i then s.setOb Obj.ringOscDelay 0 i (min 65535 d : Nat) else s
      | none => s

/-- INTERRUPT_COALESCING_TIME (R354): the held messages of a controller are sent. -/
def execInterruptCoalescingTime (c : CtrlId) (s : State) : Out :=
  s.when s.hostUp fun s =>
    let n := ((s.host.ctrls[c]).cqs.filter fun q => decide (0 < q.interruptHeld)).length
    s.updCtrl c fun x => { x with interrupts := x.interrupts + n, cqs := x.cqs.map fun q => { q with interruptHeld := 0 } }

/-! ### The debug port (R518 to R523) -/

/-- Image of a slot with a sector programmed: sector 0 is the header, the others belong to the body. -/
def State.programSlot (s : State) (i sector : Nat) (data : List Byte) : State :=
  let old := s.slot? i
  let body := (old.map fun m => m.body).getD []
  let at_ := 4096 * (sector - 1)
  let m : Option Image :=
    if sector = 0 then some (parseImage (data ++ List.replicate (4096 - data.length) 0xFF#8 ++ body))
    else
      let padded := body ++ List.replicate (at_ - body.length) 0xFF#8
      let m := old.getD (parseImage [])
      some { m with body := padded.take at_ ++ data ++ padded.drop (at_ + data.length) }
  let put (v : Vector (Option Image) 2) : Vector (Option Image) 2 := if h : i < 2 then v.set i m else v
  { s with power := { s.power with slots := put s.power.slots } }

/-- A copy of the boot record is current when it is valid and its Generation is higher (R523). -/
def State.programBoot (s : State) (data : List Byte) : State :=
  let gen := leField data 2 4
  if leField data 0 2 = 1 ∧ leField data 8 4 = crc32 (data.take 8) ∧ s.power.bootGeneration < gen ∧ leField data 6 1 < 2 then
    { s with power := { s.power with
      bootGeneration := gen, activeSlot := leField data 6 1
      pendingSlot := if leField data 7 1 < 2 then some (leField data 7 1) else none } }
  else s

/-- DEBUG_PORT_ACCESS (R518): kind 0 reads the failure objects, 1 programs the 4 KiB sector `arg` of the SPI NOR, 2 requests a system reset,
3 the reset of island `arg`. -/
def execDebugPortAccess (kind : Fin 4) (arg : Nat) (data : List Byte) (s : State) : Out :=
  s.when (s.running || s.power.phase == .failed) fun s =>
    match kind with
    | 0 => { s with power := { s.power with debugRead := [s.obN Obj.startupFailCause, s.obN Obj.selfTestFailBanks] } }
    | 1 =>
      let data := data.take 4096
      if arg < 0x200 then s.programSlot 0 arg data
      else if arg < 0x400 then s.programSlot 1 (arg - 0x200) data
      else
        let s := if arg < 0x402 then s.programBoot data else s
        { s with power := { s.power with norBlocks := Sparse.insert arg data s.power.norBlocks } }
    | 2 => s.startReset 5
    | _ => if h : arg < 48 then (if s.running && s.resettable arg then s.islandReset ⟨arg, h⟩ 0 else s) else s

end Sys2Proof.Machine
end

