-- ==== Sys2Proof/Machine/ReplyOps.lean ====
section
/-! DEFINITION. Messages of Signpost as bytes, how requests arrive on CAN and UDP, and how replies leave (R365, R368, R370, R373, R374,
R379 to R383). -/

namespace Sys2Proof

/-- Whether the server keeps a client's replies: CAN ports and UDP slots only. -/
def Client.keepsReplies : Client → Bool
  | .can _ => true | .udp _ => true | _ => false

/-- Whether two requests are equal in header and data. -/
def Request.same (a b : Request) : Bool := { a with wellSigned := b.wellSigned } == b

open Machine in
/-- A request from the bytes of a message (R368). -/
def Request.ofBytes (m : List Byte) (nonce : BitVec 128) (die : Nat) : Request where
  version := leField m 0 1
  service := leField m 1 1
  txid := leField m 2 2
  index := leField m 4 2
  sub := leField m 6 1
  flags := leField m 7 1
  offset := leField m 8 4
  length := leField m 12 2
  session := leField m 14 2
  data := m.drop 16
  wellSigned := Config.writeSigned m nonce die

/-- Bytes of a header. -/
def headerLength : Nat := 16

end Sys2Proof

namespace Sys2Proof.Machine

/-- Data of a reply: an aborted reply carries its abort code (R370). -/
def Reply.payload (p : Reply) : List Byte := match p.abort with
  | some a => leBytes 4 a
  | none => p.data

/-- A reply as bytes (R370): the request's header with Service, Status, Length and, at a session's start, Session replaced. -/
def Reply.bytes (p : Reply) (r : Request) : List Byte :=
  leBytes 1 r.version ++ leBytes 1 (r.service + 0x80 : Nat) ++ leBytes 2 r.txid ++ leBytes 2 r.index ++ leBytes 1 r.sub
    ++ leBytes 1 (if p.abort.isSome then 1 else 0) ++ leBytes 4 r.offset ++ leBytes 2 p.payload.length ++ leBytes 2 p.session ++ p.payload

/-! ### ISO 15765-2 on CAN FD (R380) -/

/-- A frame's payload padded with 0xCC to the next valid data length. -/
def canPad (b : List Byte) : List Byte :=
  let n := ([0, 1, 2, 3, 4, 5, 6, 7, 8, 12, 16, 20, 24, 32, 48, 64].find? fun x => decide (b.length ≤ x)).getD 64
  b ++ List.replicate (n - b.length) 0xCC#8

/-- A port begins to send a message: as a single frame if it fits, else with a first frame, whose escape carries lengths above 4,095. -/
def CanPort.beginSend (x : CanPort) (m : List Byte) : CanPort :=
  if m.length ≤ 62 then { x with sent := x.sent ++ [canPad ([0#8, BitVec.ofNat 8 m.length] ++ m)] }
  else
    let head : List Byte :=
      if m.length ≤ 4095 then [BitVec.ofNat 8 (0x10 + m.length / 256), BitVec.ofNat 8 m.length] else [0x10#8, 0#8] ++ beBytes 4 m.length
    { x with sent := x.sent ++ [head ++ m.take (64 - head.length)], tx := some { left := m.drop (64 - head.length), nextSn := 1, waits := 0 } }

/-- Messages that wait begin while none is being sent. -/
def CanPort.sendWaiting (x : CanPort) : CanPort :=
  x.toSend.foldl (fun x _ => match x.tx, x.toSend with
    | none, m :: rest => { x with toSend := rest }.beginSend m
    | _, _ => x) x

/-- A port sends a message, after those it has still to send. -/
def CanPort.send (x : CanPort) (m : List Byte) : CanPort := { x with toSend := x.toSend ++ [m] }.sendWaiting

/-- Up to `n` consecutive frames of the message being sent. -/
def CanPort.consecutive (x : CanPort) : Nat → CanPort
  | 0 => x
  | n + 1 => match x.tx with
    | none => x
    | some t =>
      let x := { x with sent := x.sent ++ [canPad (BitVec.ofNat 8 (0x20 + t.nextSn) :: t.left.take 63)] }
      let rest := t.left.drop 63
      if rest = [] then { x with tx := none } else { x with tx := some { left := rest, nextSn := (t.nextSn + 1) % 16, waits := 0 } }.consecutive n

/-- Wait frames in a row that a sender accepts. -/
def waitFrames : Nat := 8

/-- A flow-control frame: Continue To Send with a block size (0 for all), Wait, Overflow or anything else. -/
def CanPort.flowControl (x : CanPort) (status block : Nat) : CanPort :=
  match x.tx with
  | none => x
  | some t =>
    if status = 0 then (x.consecutive (if block = 0 then t.left.length else block)).sendWaiting
    else if status = 1 ∧ t.waits < waitFrames then { x with tx := some { t with waits := t.waits + 1 } }
    else { x with tx := none }.sendWaiting

/-! ### Replies leave (R370, R373, R374) -/

/-- A changed port: the times of its transfers move with the frames that come and go (R380). -/
def CanPort.timed (new old : CanPort) (now : Nat) : CanPort :=
  { new with rxAt := if new.rx = old.rx then old.rxAt else now, txAt := if new.tx = old.tx then old.txAt else now }

/-- CAN port with a change. -/
def State.updCan (s : State) (port : Fin 2) (f : CanPort → CanPort) : State :=
  { s with signpost := { s.signpost with can := upd s.signpost.can port fun x => (f x).timed x s.time } }

/-- Ethernet carrier with a change. -/
def State.updEth (s : State) (f : Eth → Eth) : State := { s with signpost := { s.signpost with eth := f s.signpost.eth } }

/-- Whether a CAN port takes part in the traffic of its bus: ErrorActive or ErrorPassive. -/
def State.canUp (s : State) (port : Fin 2) : Bool :=
  s.running && ((s.signpost.can[port]).state == 1 || (s.signpost.can[port]).state == 2)

/-- A message leaves on the client's carrier. -/
def State.transmit (s : State) (cl : Client) (m : List Byte) : State :=
  match cl with
  | .can port => if s.canUp port then s.updCan port fun x => x.send m else s
  | .udp slot => s.updEth fun x => { x with sent := x.sent ++ [.message slot.val m] }
  | _ => s

/-- A new arrival or a new service: what the carriers sent before is over. -/
def State.clearSent (s : State) : State :=
  { s with signpost := { s.signpost with can := s.signpost.can.map fun x => { x with sent := [] }, eth := { s.signpost.eth with sent := [] } } }

/-- Requests that the server queue holds. -/
def serverQueueSize : Nat := 32

/-- ServerBusy (R374): the request is not executed. -/
def State.serverBusy (s : State) (cl : Client) (r : Request) : State :=
  let p : Reply := { txid := r.txid, service := r.service + 0x80, abort := some Abort.serverBusy, session := r.session, data := [] }
  let s := ((s.bump Obj.requestsAborted 0 0).setOb Obj.lastAbortCode 0 0 Abort.serverBusy).report Isl.core Ev.signpostServerBusy
    [(cl.identity : Int)]
  s.transmit cl (p.bytes r)

/-- A request takes its place in the server queue. -/
def State.enqueue (s : State) (cl : Client) (r : Request) : State :=
  if s.signpost.queue.length < serverQueueSize then { s with signpost := { s.signpost with queue := s.signpost.queue ++ [(cl, r)] } }
  else s.serverBusy cl r

/-- The request that a CAN port holds goes to the server once the first is answered (R380). -/
def State.promoteHeld (s : State) (cl : Client) : State :=
  match cl with
  | .can port => match (s.signpost.can[port]).held with
    | some h => (s.updCan port fun x => { x with held := none }).enqueue cl h
    | none => s
  | _ => s

/-- The reply that left last takes the request's header, is stored for the client's repeats, eight of them, and leaves; repeats that came in
meanwhile get the same reply (R373). -/
def State.stampReply (s : State) (cl : Client) (r : Request) : State :=
  match s.signpost.lastReply with
  | none => s
  | some p =>
    let p := { p with txid := r.txid, service := r.service + 0x80, session := if p.session = 0 then r.session else p.session }
    let s := { s with signpost := { s.signpost with lastReply := some p } }
    let again := ((s.client cl).repeats.filter fun x => x.same r).length
    let keep (l : List (Request × Reply)) : List (Request × Reply) := lastN 8 ((l.filter fun x => x.1.txid != r.txid) ++ [(r, p)])
    let s := if cl.keepsReplies then s.updClient cl fun c => { c with
        stored := keep c.stored
        serving := if c.serving.any (fun x => x.same r) then none else c.serving
        repeats := c.repeats.filter fun x => !x.same r } else s
    let s := s.forEach (List.replicate (again + 1) ()) fun s _ => s.transmit cl (p.bytes r)
    s.promoteHeld cl

/-- A stored reply leaves again; the request is not executed (R373). -/
def State.resend (s : State) (cl : Client) (r : Request) (p : Reply) : State :=
  let s := { s with signpost := { s.signpost with lastReply := some p } }
  let s := match cl with | .udp _ => s.bump Obj.udpDuplicates 0 0 | _ => s
  s.transmit cl (p.bytes r)

/-- The stored reply to an equal request. -/
def State.storedReply (s : State) (cl : Client) (r : Request) : Option Reply :=
  (((s.client cl).stored.find? fun x => x.1.same r)).map fun x => x.2

/-- Whether an equal request of the same client waits or is being served. -/
def State.inService (s : State) (cl : Client) (r : Request) : Bool :=
  s.signpost.queue.any (fun x => x.1 == cl && x.2.same r) || (s.client cl).serving.any (fun x => x.same r)
    || match cl with
      | .can port => (s.signpost.can[port]).held.any fun x => x.same r
      | _ => false

/-- A request arrives complete on CAN or UDP (R373, R374, R380). -/
def State.arrive (s : State) (cl : Client) (r : Request) : State :=
  match s.storedReply cl r with
  | some p => s.resend cl r p
  | none =>
    if s.inService cl r then s.updClient cl fun c => { c with repeats := c.repeats ++ [r] }
    else match cl with
    | .can port =>
      if (s.client cl).serving.isSome || s.signpost.queue.any (fun x => x.1 == cl) then
        if (s.signpost.can[port]).held.isNone then s.updCan port fun x => { x with held := some r } else s.serverBusy cl r
      else s.enqueue cl r
    | _ => s.enqueue cl r

/-- A complete message from a client: one shorter than the header has been counted by the carrier and gets no reply. -/
def State.arriveBytes (s : State) (cl : Client) (m : List Byte) : State :=
  let nonce := ((s.client cl).nonce.map fun x => x.2).getD 0
  s.arrive cl (Request.ofBytes m nonce s.otp.dieIdentity)

end Sys2Proof.Machine
end

