-- ==== Sys2Proof/Machine/Servo.lean ====
section
/-! DEFINITION. Meanings of the servo loops' commands (chapter 2, with R124 and R125 of chapter 3). -/

namespace Sys2Proof.Machine

/-! ### One sampling edge (R59 to R72, R88 to R91) -/

/-- Σ, PP and FE of the quadrant codes (R56). -/
def quadSum (i : LoopInputs) : Int := i.qa + i.qb + i.qc + i.qd
/-- (A + D) - (B + C). -/
def quadPP (i : LoopInputs) : Int := (i.qa : Int) + i.qd - (i.qb + i.qc)
/-- (A + C) - (B + D). -/
def quadFE (i : LoopInputs) : Int := (i.qa : Int) + i.qc - (i.qb + i.qd)

/-- Divisor of the normalisation: the previous Σ, or `SumFloor` (R57); the full-scale sum is 65,536 codes. -/
def State.recipOf (s : State) (p : PickupId) : Nat := (max (s.pickups[p]).sum (2 * s.ob Obj.sumFloor p)).toNat

/-- Error gain times PP or FE times recip, by the gain that the state phase prepared (R64). The word keeps its exact value beyond the Q2.30 range:
what a measured position or an error does past it is the model's choice (log entry 148). -/
def State.normalised (s : State) (p : PickupId) (l : ServoLoop) (code : Int) : Int :=
  rnd ((s.pickups[p]).loops[l.idx].factor * code) (s.recipOf p)

/-- The measured position x_T (R67). -/
def State.measureT (s : State) (p : PickupId) (i : LoopInputs) : Int :=
  s.normalised p .tracking (quadPP i) - q30Mul (s.ob Obj.lensShiftGain p) (s.pickups[p]).lensShift

/-- The measured position x_F (R68). -/
def State.measureF (s : State) (p : PickupId) (i : LoopInputs) : Int := s.normalised p .focus (quadFE i)

/-- W3 + W0 as posted. -/
def Pickup.wobbleSum (k : Pickup) : Int := k.postedW0.getD 0 + k.postedW3.getD 0

/-- Skew ratio (W3 - W0) / (W3 + W0) times its gain (R69). -/
def State.skewMeasure (s : State) (p : PickupId) : Int :=
  let k := s.pickups[p]
  rnd (k.loops[ServoLoop.skew.idx].factor * ((k.postedW3.getD 0 : Nat) - (k.postedW0.getD 0 : Nat))) k.wobbleSum.toNat

/-- Whether the skew feedback runs open: low wobble, a writing outer beam, or a reassigned array (R70, R196). -/
def State.skewOpen (s : State) (p : PickupId) : Bool :=
  let k := s.pickups[p]
  decide (k.wobbleSum < s.ob Obj.wobbleFloor p) || decide (k.reassign ≠ 0) || (s.channels[p.beam 0]).mode == .writing
    || (s.channels[p.beam 3]).mode == .writing

/-- The error of a loop: the prepared offset term less what is measured (R64, R67 to R72, R196). -/
def State.loopError (s : State) (p : PickupId) (i : LoopInputs) (l : ServoLoop) : Int :=
  let k := s.pickups[p]
  let offset := k.loops[l.idx].offset
  match l with
  | .tracking =>
    let e := offset - s.normalised p .tracking (quadPP i)
    if k.reassign = 0 then e else rnd (e * k.reassignScale) 1024
  | .focus => offset - s.measureF p i
  | .skew => offset - s.skewMeasure p
  | .tilt => offset - q30Mul (k.loops[ServoLoop.tilt.idx]).factor k.phi
  | .sledOuter => offset

/-- `ServoOverrunStatus` with flags set (R97). -/
def State.servoFlag (s : State) (p : PickupId) (mask : Nat) : State :=
  s.setOb Obj.servoOverrunStatus p 0 (Nat.lor (s.obN Obj.servoOverrunStatus p) mask : Nat)

/-- Flag of a loop in `ServoOverrunStatus` (R97). -/
def overrunFlag : ServoLoop → Nat
  | .tracking => 1 | .focus => 2 | .skew => 4 | .tilt => 8 | .sledOuter => 16

/-- A loop overruns: the DAC keeps its output, the sample is dropped and what was prepared serves the next one; flag and count advance
(R82, R88, R91). -/
def State.overrun (s : State) (p : PickupId) (l : ServoLoop) (mapLate : Bool) : State :=
  let s := (s.bump (overrunRow l) p 0).servoFlag p (overrunFlag l)
  let s := if mapLate then s.servoFlag p 0x100 else s
  let s := s.updLoop p l fun v => { v with lateRun := v.lateRun + 1, onTimeRun := 0, edgeLate := v.fromBank.isSome }
  (s.updP p fun k => { k with mapDisturbed := true }).report (Isl.sv p) Ev.servoOverrun
    [(p.val : Int), (l.idx.val : Int), ((s.pickups[p]).loops[l.idx].lateRun : Int), if mapLate then 1 else 0]

/-- Crossing velocity that a short seek aims at with d passages to count, in µm/s: min(`ShortSeekVmax`, √(2 · `ShortSeekAccel` · 800 nm · d)),
toward the target (R119). -/
def State.seekVelocity (s : State) (p : PickupId) (d : Int) : Int :=
  let v : Int := min (s.ob Obj.shortSeekVmax p * 1000) (rndSqrt (1600000 * s.obN Obj.shortSeekAccel p * d.natAbs))
  if d < 0 then -v else v

/-- What the direct phase takes before limit and slew, by the loop's condition, from the cascade's part of w (R63, R70, R86, R102, R119,
R120). -/
def State.rawOutput (s : State) (p : PickupId) (l : ServoLoop) (e wfb : Int) : Int :=
  let k := s.pickups[p]
  let v := k.loops[l.idx]
  let w := wfb + v.added + v.inject
  match v.mode with
  | .closed => if l = .skew && k.skewFrozen then w else q30OfAcc ((s.bank p l).dtot * e) + w
  | .held => w
  | .opened =>
    if l = .tracking && k.phase == .shortSeek then
      Config.real Tag.seekDrive [s.seekVelocity p k.passagesLeft - k.crossVelocity] + v.added + v.inject
    else if l = .tracking && k.phase == .longSeek then v.seqOutput + v.added + v.inject
    else v.seqOutput + v.inject

/-- The part of an opened loop's output that the sequence supplies: without the repetitive-control term that goes on in a seek, and without an
external contribution. -/
def Pickup.sequencePart (k : Pickup) (l : ServoLoop) (u : Int) : Int :=
  let v := k.loops[l.idx]
  u - v.inject - (if l = .tracking && (k.phase == .shortSeek || k.phase == .longSeek) then v.added else 0)

/-- A loop on time at its own sample: direct phase, output stage, state phase (R63 to R66). A bank that became active since the last sample
is adjusted for before the direct phase, or after it when the sample of its edge overran (R79, R80). -/
def State.loopOnTime (s : State) (p : PickupId) (i : LoopInputs) (l : ServoLoop) : State :=
  let k := s.pickups[p]
  let v := k.loops[l.idx]
  let bank := s.bank p l
  let live := v.mode == .closed && !(l = .skew && k.skewFrozen)
  let (x0, st0) := if live then bank.fit v.x v.s1 else (v.x, v.s1)
  let x0 := match v.fromBank with
    | some old => if live && !v.edgeLate then bank.bumpless x0 (old.zeroOutput v.x v.s1) (bank.zeroOutput x0 st0) else x0
    | none => x0
  let wfb := if live && v.fromBank.isSome then bank.zeroOutput x0 st0 else v.wfb
  let e := s.loopError p i l
  let (u, atLimit) := s.clampOut p l v.u (s.rawOutput p l e wfb)
  let (ufb, x, st, sat) := if live then bank.sample x0 st0 e else (v.wfb, x0, st0, false)
  let x := match v.fromBank with
    | some old => if live && v.edgeLate then bank.bumpless x (old.zeroOutput x st) (bank.zeroOutput x st) else x
    | none => x
  let s := s.updLoop p l fun v => { v with
    x := x, s1 := st, wfb := if live then bank.zeroOutput x st else v.wfb, u := u, dac := dacCode l u
    ufb := if v.mode == .opened then k.sequencePart l u else ufb
    history := ((if v.mode == .opened then k.sequencePart l u else ufb) :: v.history).take 104
    lateRun := 0, faultRaised := false, onTimeRun := v.onTimeRun + 1
    saturatedRun := if atLimit then v.saturatedRun + 1 else 0
    fromBank := if live then none else v.fromBank, edgeLate := if live then false else v.edgeLate, lastError := e }
  let s := if sat then s.servoFlag p 0x200 else s
  let s := if l = .tracking then
      s.updP p fun k => { k with
        lensShift := k.lensShift + rnd (Config.real Tag.lensCoefficient [s.ob Obj.lensShiftCorner p] * (u - k.lensShift)) (2 ^ 30) }
    else s
  s.updLoop p l fun v => s.prepared p l v

/-- Whether a loop's work is late at an edge, or a map point that its state phase reads (R82, R88). -/
def lateAt (i : LoopInputs) (l : ServoLoop) : Bool :=
  i.lateMask.getLsbD l.idx.val || (i.mapLate.getLsbD l.idx.val && l.rcSub.isSome)

/-- A loop at the edge n: nothing off its own samples; late or on time. -/
def State.loopEdge (s : State) (p : PickupId) (i : LoopInputs) (n : Nat) (l : ServoLoop) : State :=
  if n % l.ratio ≠ 0 then s
  else if lateAt i l then s.overrun p l (i.mapLate.getLsbD l.idx.val && l.rcSub.isSome)
  else s.loopOnTime p i l

/-- The skew feedback freezes at its last value, or resumes from its states, at a skew sample on time (R70). -/
def State.skewEdge (s : State) (p : PickupId) : State :=
  let open_ := s.skewOpen p
  let k := s.pickups[p]
  let v := k.loops[ServoLoop.skew.idx]
  let bank := s.bank p .skew
  if open_ = k.skewFrozen then s
  else
    (s.updP p fun k => { k with skewFrozen := open_ }).updLoop p .skew fun w =>
      if w.mode == .closed then
        { w with wfb := if open_ then v.ufb else bank.zeroOutput (bank.fit v.x v.s1).1 (bank.fit v.x v.s1).2 }
      else w

/-- The sled outer loop issues one set-point increment u_D · 256 microsteps, clamped, while it is closed (R72, R295, R296); an external
set-point in reference mode shifts the set-point by its contribution (R94). -/
def State.sledOuterWord (s : State) (p : PickupId) : State :=
  let a := s.axes[p.sled]
  let v := (s.pickups[p]).loops[ServoLoop.sledOuter.idx]
  if (a.mode == .standstill || a.mode == .slaved) && !a.frozen then
    if v.mode == .closed then
      let lim := ustep (s.ob Obj.sledOuterMaxStep p.sled.inst)
      let d := clampInt (-lim) lim (rnd (v.u * 65536) (2 ^ 30))
      let ext := if s.outputMode p .sledOuter then 0 else rnd (s.contributionOf p .sledOuter * 65536 * 256) (2 ^ 30)
      let moved := ext - (s.pickups[p]).sledExt
      (s.updP p fun k => { k with sledExt := ext }).updA p.sled fun a => { a with
        mode := .slaved, position := a.position + d + moved, wordSource := .sledOuter, wordVelocity := d, wordFinal := false
        coil := if s.otp.variant == .q then a.coil else s.ob Obj.runCurrent p.sled.inst * 1000 }
    else s.updA p.sled fun a => { a with mode := .standstill, wordSource := .hold, wordVelocity := 0, wordFinal := false }
  else s

/-! ### Supervision (R84 to R86, R124) -/

/-- Plant model of a loop: one biquad driven by ufb (R84); states and coefficients. -/
def plantStep (co st : List Int) (ufb : Int) : Int × List Int :=
  let (z, n1, n2, _) := biquadStep co (st.getD 0 0) (st.getD 1 0) ufb
  (z, [n1, n2])

/-- A run of consecutive samples. -/
def runOf (met : Bool) (n : Nat) : Nat := if met then n + 1 else 0

/-- Causes that the rules of R84 have met, by their runs. -/
def State.rulesMet (s : State) (p : PickupId) (k : Pickup) : BitVec 16 :=
  (if s.obN Obj.trackingResidualCount p ≤ k.runTracking then Hold.trackingResidual else 0)
    ||| (if s.obN Obj.focusResidualCount p ≤ k.runFocus then Hold.focusResidual else 0)
    ||| (if s.obN Obj.sumDropCount p ≤ k.runSum then Hold.sumDropout else 0)
    ||| (if s.obN Obj.focusLostCount p ≤ k.runLost then Hold.focusLost else 0)

/-- Residual, sum and focus rules on the sample just taken, for the loops that no sequence has opened or holds (R84, R103). In defect hold the
residual checks and the running mean of Σ stop, and what the other two rules meet accumulates (R85, R86). -/
def State.supervise (s : State) (p : PickupId) (tOn fOn : Bool) : State :=
  let k := s.pickups[p]
  let holds := k.engine == .defectHold
  let t := k.loops[ServoLoop.tracking.idx]
  let f := k.loops[ServoLoop.focus.idx]
  let watched (m : LoopMode) : Bool := m == .closed || (m == .held && holds && k.seq == .none)
  let (pt, plantT) := plantStep ((List.range 5).map fun j => s.ob Obj.trackingPlant p j) k.plantT t.ufb
  let (pf, plantF) := plantStep ((List.range 5).map fun j => s.ob Obj.focusPlant p j) k.plantF f.ufb
  let rT := if tOn then k.xT - pt else k.rT
  let rF := if fOn then k.xF - pf else k.rF
  let farT := t.mode == .closed && !holds && decide (lengthWord (s.ob Obj.trackingResidualLimit p) 2560 < rT.natAbs)
  let farF := f.mode == .closed && !holds && decide (lengthWord (s.ob Obj.focusResidualLimit p) 10240 < rF.natAbs)
  let dark := watched t.mode && decide (k.sum * 2 ^ 31 < s.ob Obj.sumDropLevel p * k.sumMean)
  let lost := watched f.mode && decide (q15 (s.ob Obj.focusLostLevel p) < k.feNorm.natAbs)
  let k := { k with
    plantT := if tOn then plantT else k.plantT, plantF := if fOn then plantF else k.plantF, rT := rT, rF := rF
    runTracking := if tOn then runOf farT k.runTracking else k.runTracking, runFocus := if fOn then runOf farF k.runFocus else k.runFocus
    runSum := if tOn then runOf dark k.runSum else k.runSum, runLost := if fOn then runOf lost k.runLost else k.runLost
    sumMean := if tOn && !holds then k.sumMean + rnd (k.sum * 2 ^ 16 - k.sumMean) (2 ^ (s.obN Obj.sumMeanShift p)) else k.sumMean }
  let met := s.rulesMet p k
  s.updP p fun _ => if holds then { k with holdCause := k.holdCause ||| met } else { k with holdPending := k.holdPending ||| met }

/-- Whether the exit conditions of R124 hold at this sample. -/
def State.exitMet (s : State) (p : PickupId) : Bool :=
  let k := s.pickups[p]
  decide (s.ob Obj.holdExitSumLevel p * k.sumMean ≤ k.sum * 2 ^ 31)
    && decide ((k.xT.natAbs : Int) < lengthWord (s.ob Obj.holdExitTrackLevel p) 2560)
    && decide ((k.xF.natAbs : Int) < lengthWord (s.ob Obj.holdExitFocusLevel p) 10240)
    && (!hasAny k.holdCause Hold.hostRequest || k.holdReleased)
    && (!hasAny k.holdCause Hold.spindleObserverLoss || k.rotorBack)
    && (!hasAny k.holdCause Hold.trackingLoopFault || decide (256 ≤ k.loops[ServoLoop.tracking.idx].onTimeRun))
    && (!hasAny k.holdCause Hold.focusLoopFault || decide (256 ≤ k.loops[ServoLoop.focus.idx].onTimeRun))

/-- Sums of ufb of one bin (R113). -/
def addBin (bins : List BinSums) (bin : Nat) (u : List (Option Int)) : List BinSums :=
  let one : BinSums := { bin := bin, sums := u.map fun x => x.getD 0, counts := u.map fun x => if x.isSome then 1 else 0 }
  let add (b : BinSums) : BinSums :=
    { b with sums := List.zipWith (fun a c => a + c) b.sums one.sums, counts := List.zipWith (fun a c => a + c) b.counts one.counts }
  if bins.any (fun b => b.bin == bin) then bins.map fun b => if b.bin = bin then add b else b else bins ++ [one]

/-- The trace points of SVp (R496); latencies without a bound are open values. -/
def State.servoPoint (s : State) (p : PickupId) (n pt : Nat) : Option Int :=
  let k := s.pickups[p]
  let l (x : ServoLoop) := k.loops[x.idx]
  match pt with
  | 0x00 => some (l .tracking).lastError | 0x01 => some (l .focus).lastError | 0x02 => some (l .skew).lastError
  | 0x03 => some (l .tilt).lastError | 0x04 => some (l .tracking).ufb | 0x05 => some (l .focus).ufb
  | 0x06 => some (l .tracking).u | 0x07 => some (l .focus).u | 0x08 => some (l .skew).u | 0x09 => some (l .tilt).u
  | 0x0A => some k.sum | 0x0B => some k.rT | 0x0C => some k.rF | 0x0D => some (s.rcTerm p .tracking k.wobble)
  | 0x12 => some k.wobble
  | _ => if 0x0E ≤ pt ∧ pt ≤ 0x11 then some (Config.real Tag.latency [(p.val : Int), (pt : Int), (n : Int)]) else none

/-- The trace points of CHg (R496). -/
def State.channelPoint (s : State) (g : BeamId) (pt : Nat) : Option Int :=
  let c := s.channels[g]
  match pt with
  | 0x00 => some c.lastX | 0x01 => some c.lastY | 0x02 => some (rnd (c.zs.headD 0) (2 ^ 20)) | 0x03 => some c.lastEps
  | 0x04 => some (rnd c.lastPhi 1024) | 0x05 => some (rnd c.gain (2 ^ 20)) | 0x06 => some c.envelope
  | 0x07 => some ((if c.envFlag then 1 else 0) + (if c.guideFlagged then 2 else 0)
      + (if (s.pickups[g.pickup]).engine != .following then 4 else 0))
  | _ => none

/-! ### Activation (R79, R80) -/

/-- Whether a staged entry is an object of a loop's bank. -/
def bankEntry (p : PickupId) (l : ServoLoop) (e : Staged) : Bool := decide (e.key / 256 = 0x3010 + 0x100 * p.val + l.bank)

/-- A loop's staged words become its active bank. The integrator state is adjusted at the loop's next own sample, and not for an opened
loop, whose states are set when it closes. -/
def State.activateBank (s : State) (p : PickupId) (l : ServoLoop) : State :=
  let old := s.bank p l
  let s := s.forEach (s.staging.entries.filter (bankEntry p l)) fun s e => s.putKey e.key e.value
  s.updLoop p l fun v =>
    if v.mode == .opened then v else { v with fromBank := some (v.fromBank.getD old), edgeLate := v.fromBank.isSome && v.edgeLate }

/-- Loops of a pickup whose banks the committed set changes and that have not taken them yet; a pickup whose island was reset since the commit
takes none (R395). -/
def State.banksDue (s : State) (p : PickupId) : List ServoLoop :=
  let done := (s.staging.activated.filter fun a => a.1 == p).foldl (fun (m : BitVec 5) a => m ||| a.2) 0
  if s.staging.mode == .committed && !s.staging.resetIslands.contains (Isl.sv p) then
    allLoops.filter fun l => !done.getLsbD l.idx.val && s.staging.entries.any (bankEntry p l)
  else []

/-- Banks become active at edge n, and the event says which (R79, R101). -/
def State.activateBanks (s : State) (p : PickupId) (named : List ServoLoop) (n : Nat) : State :=
  if named = [] then s
  else
    let s := s.forEach named fun s l => s.activateBank p l
    let mask : BitVec 5 := named.foldl (fun m l => m ||| BitVec.ofNat 5 (2 ^ l.idx.val)) 0
    let s := { s with staging := { s.staging with activated := s.staging.activated ++ [(p, mask)] } }
    s.report (Isl.sv p) Ev.servoBankActivated [(p.val : Int), (mask.toNat : Int), (n : Int)]

/-- The sample of edge n computes with the banks of a committed set whose edge has come, whether or not BANK_ACTIVATION has run (R79). -/
def State.activateDue (s : State) (p : PickupId) (n : Nat) : State :=
  if s.staging.edge ≤ n then s.activateBanks p (s.banksDue p) n else s

/-! ### The sampling edge -/

/-- Wobble components over one period: of PDp_SI, of PDp_SO, and the amplitude in WPP in Q1.15 of 1,024 codes (R56, R71, R108). -/
def wobbleParts (i : LoopInputs) (phase advance : Nat) : (Int × Int) × (Int × Int) × Int :=
  let si := demodulate phase advance (i.halves.map fun h => (h.1 : Int))
  let so := demodulate phase advance (i.halves.map fun h => (h.2 : Int))
  (si, so, amplitudeOf (si.1 - so.1, si.2 - so.2) i.halves.length 1024)

/-- Direction in which a signal crosses zero between two samples: 1 rising, -1 falling, 0 not. -/
def crossing (old new : Int) : Int := if old < 0 ∧ 0 ≤ new then 1 else if 0 ≤ old ∧ new < 0 then -1 else 0

/-- The wobble signals of a period: the counter moves with the detected phase or at the predicted rate (R58), the tilt sums grow and
give Φ at a tilt sample (R71). -/
def State.wobbleEdge (s : State) (p : PickupId) (i : LoopInputs) (n : Nat) : State :=
  let rate := if i.wobbleDetected then i.wobbleAdvance else s.wobblePredicted p
  s.updP p fun k =>
    let (si, so, level) := wobbleParts i k.wobbleFrac rate
    let (a, b, c, d) := k.tiltSums
    let sums := (a + si.1, b + si.2, c + so.1, d + so.2)
    let total := k.wobble * 65536 + k.wobbleFrac + rate
    let k := k.setWobble (total / 65536 % 73728) (total % 65536)
    { k with
      wobbleRate := rate, wobbleSeen := i.wobbleDetected, wobbleLevel := level
      guideSums := i.halves.map fun h => ((h.1 + h.2 : Nat) : Int)
      phi := if n % 32 = 0 then quadratureRatio (sums.1, sums.2.1) (sums.2.2.1, sums.2.2.2) else k.phi
      tiltSums := if n % 32 = 0 then (0, 0, 0, 0) else sums }

/-- The guide-beam signals of a sample on time (R56, R57, R67, R68): positions, zero crossings of PP and FE, and the peak Σ of an
S-curve, by the Σ of the sample before. -/
def State.measureEdge (s : State) (p : PickupId) (i : LoopInputs) (tOn fOn : Bool) : State :=
  let fe := quadFE i
  let pp := quadPP i
  let xT := if tOn then s.measureT p i else (s.pickups[p]).xT
  let xF := if fOn then s.measureF p i else (s.pickups[p]).xF
  let norm := rnd (fe * 2 ^ 30) (s.recipOf p)
  s.updP p fun k => { k with
    xT := xT, xF := xF, fe := if fOn then fe else k.fe, fePrev := if fOn then k.fe else k.fePrev
    feNorm := if fOn then norm else k.feNorm, feCross := if fOn then crossing k.fe fe else k.feCross
    curvePeak := if fOn && decide (crossing k.fe fe = -1) then quadSum i else max k.curvePeak (quadSum i)
    pp := if tOn then pp else k.pp, ppCross := if tOn then crossing k.pp pp else k.ppCross }

/-- Runs below the settle and lock levels (R106, R108, R110). -/
def State.settleEdge (s : State) (p : PickupId) (tOn fOn sOn : Bool) : State :=
  s.updP p fun k => { k with
    settleT := if tOn then runOf (decide ((k.xT.natAbs : Int) < lengthWord (s.ob Obj.captureSettleLevel p) 2560)) k.settleT else k.settleT
    settleF := if fOn then runOf (decide ((k.xF.natAbs : Int) < lengthWord (s.ob Obj.focusSettleLevel p) 10240)) k.settleF else k.settleF
    lockRun := if sOn then runOf (decide (k.loops[ServoLoop.skew.idx].lastError.natAbs < 2 ^ 24)) k.lockRun else k.lockRun }

/-- The guide sums of a period go to the four channels of the pickup (R158). -/
def State.sendGuide (s : State) (p : PickupId) : State :=
  let l := (s.pickups[p]).guideSums
  s.forEach (allFin 4) fun s b =>
    let g := p.beam b
    s.updC g fun c =>
      if c.mode == .off || c.mode == .writing then c
      else l.zipIdx.foldl (fun c x =>
        c.guideSample (s.chOb Obj.guideDropLevel g) (s.chOb Obj.guideDropCount g).toNat (decide (s.chOb Obj.guideFlagEnable g = 1))
          (c.guidePlace (s.chOb Obj.guideToBeamDelay g) (l.length - 1 - x.2)) x.1) c

/-- One tracking sampling edge of SVp: banks due, the wobble counter, every loop that samples at it, supervision and the exit run of a hold,
the learning bins and the trace channels, the copies of the edge in CH(4p) to CH(4p+3) among them. -/
def State.sampleEdge (s : State) (p : PickupId) (i : LoopInputs) : State :=
  let edge := max s.time (match (s.pickups[p]).lastEdge with | some t => t + 1 | none => 0)
  let n := edge - s.power.gridBase
  let tOn := !(lateAt i .tracking)
  let fOn := decide (n % 2 = 0) && !(lateAt i .focus)
  let sOn := decide (n % 8 = 0) && !(lateAt i .skew)
  let s := s.activateDue p n
  let s := (({ s with time := edge, xspAin := i.xspAin }).wobbleEdge p i n).sendGuide p
  let s := (s.updP p fun k => { k.sweepOn edge with lastEdge := some edge }).measureEdge p i tOn fOn
  let s := match (s.pickups[p]).brakeUntil with
    | some t => if t ≤ edge then
        (s.updP p fun k => { k with brakeUntil := none }).updLoop p .focus fun v => { v with seqOutput := v.holdUfb }
      else s
    | none => s
  let s := if sOn then s.skewEdge p else s
  let s := s.forEach allLoops fun s l => s.loopEdge p i n l
  let s := if n % 64 = 0 && !(lateAt i .sledOuter) then s.sledOuterWord p else s
  let s := if tOn then s.updP p fun k => { k with sum := quadSum i } else s
  let s := (s.settleEdge p tOn fOn sOn).supervise p tOn fOn
  let s := if (s.pickups[p]).engine == .defectHold && tOn then
      s.updP p fun k => { k with exitRun := runOf (s.exitMet p) k.exitRun }
    else s
  let s := s.updP p fun k => { k with
    xTHistory := if tOn then (k.xT :: k.xTHistory).take 65536 else k.xTHistory
    xFHistory := if fOn then (k.xF :: k.xFHistory).take 32768 else k.xFHistory
    bins := if k.phase == .mapLearn || k.engine == .following then
        addBin k.bins (k.wobble / 18)
          [if fOn then some k.loops[ServoLoop.focus.idx].ufb else none,
           if tOn then some k.loops[ServoLoop.tracking.idx].ufb else none,
           if n % 32 = 0 && !(lateAt i .tilt) then some k.loops[ServoLoop.tilt.idx].ufb else none]
      else k.bins }
  let s := s.traceTap (Isl.sv p) n (s.servoPoint p n)
  s.forEach (allFin 4) fun s b =>
    let g := p.beam b
    if s.chUp g then s.traceTap (Isl.ch g) n (s.channelPoint g) else s

/-- LOOP_SAMPLE (R63). -/
def execLoopSample (p : PickupId) (i : LoopInputs) (s : State) : Out :=
  s.when (s.svUp p) fun s => s.sampleEdge p i

/-- OUTPUT_SATURATED (R66): once the output has sat at its limit for 1,024 samples; the run then starts again. -/
def execOutputSaturated (p : PickupId) (l : ServoLoop) (s : State) : Out :=
  s.when (s.svUp p && decide (1024 ≤ (s.pickups[p]).loops[l.idx].saturatedRun)) fun s =>
    (s.updLoop p l fun v => { v with saturatedRun := 0 }).report (Isl.sv p) Ev.servoOutputSaturated [(p.val : Int), (l.idx.val : Int)]

/-- Cause bit of a loop fault. -/
def faultCause : ServoLoop → BitVec 16
  | .tracking => Hold.trackingLoopFault | .focus => Hold.focusLoopFault | _ => 0

/-- LOOP_FAULT (R89): at the third consecutive overrun of tracking or focus, once per run; a second fault within
`RefaultWindow` of a fault exit parks (R125). -/
def execLoopFault (p : PickupId) (l : ServoLoop) (s : State) : Out :=
  let v := (s.pickups[p]).loops[l.idx]
  s.when (s.svUp p && (l == .tracking || l == .focus) && decide (3 ≤ v.lateRun) && !v.faultRaised) fun s =>
    let s := (s.bump Obj.loopFaultCount p 0).report (Isl.sv p) Ev.servoLoopFault [(p.val : Int), (l.idx.val : Int)]
    let s := s.updLoop p l fun v => { v with faultRaised := true }
    match (s.pickups[p]).lastFaultExit with
    | some t =>
      if s.msSince t < s.obN Obj.refaultWindow p then s.park p .repeatFault else s.enterHold p (faultCause l) 0 0
    | none => s.enterHold p (faultCause l) 0 0

/-- Samples counted toward the rules met, as tracking and focus samples back from edge n (R86). -/
def Pickup.skips (k : Pickup) (n : Nat) : Nat × Nat :=
  let t := max (if hasAny k.holdPending Hold.trackingResidual then k.runTracking else 0)
    (if hasAny k.holdPending Hold.sumDropout then k.runSum else 0)
  let f := max (if hasAny k.holdPending Hold.focusResidual then k.runFocus else 0)
    (if hasAny k.holdPending Hold.focusLost then k.runLost else 0)
  (max t (if f = 0 then 0 else n % 2 + 2 * f - 1), max f (n / 2 - (n - t) / 2))

/-- DEFECT_HOLD_ENTERED (R84, R85): with the causes whose rules the samples have met. -/
def execDefectHoldEntered (p : PickupId) (s : State) : Out :=
  s.when (s.svUp p) fun s =>
    let k := s.pickups[p]
    let (a, b) := k.skips ((k.lastEdge.getD s.time) - s.power.gridBase)
    s.enterHold p k.holdPending a b

/-- DEFECT_HOLD_REQUEST (R98): a write of 1. -/
def execDefectHoldRequest (cl : Client) (p : PickupId) (v : Int) (s : State) : Out :=
  s.when (s.svUp p) fun s => s.hostWrite cl Obj.defectHoldRequest p 0 v false false fun s => s.enterHold p Hold.hostRequest 0 0

/-- HOLD_RELEASE (R124, R130). -/
def execHoldRelease (cl : Client) (p : PickupId) (v : Int) (s : State) : Out :=
  s.when (s.svUp p) fun s => s.hostWrite cl Obj.holdRelease p 0 v false false fun s =>
    s.updP p fun k => { k with holdReleased := k.holdReleased || hasAny k.holdCause Hold.hostRequest }

/-- The exit of a hold without a loop fault (R87): integrators adjusted, causes cleared. A sequence that the hold did not abort goes on, which
the manual does not say (log entry 150). -/
def State.leaveHold (s : State) (p : PickupId) : State :=
  let s := (s.endHold p).forEach allLoops fun s l => s.unholdLoop p l
  if (s.pickups[p]).seq == .none then s.follow p else s

/-- DEFECT_HOLD_LEFT (R87, R124, R125): after `HoldExitCount` samples. An aborted mount parks instead (R103); a faulted focus
loop is closed by focus recovery, a faulted tracking loop by capture and a good LAW. -/
def execDefectHoldLeft (p : PickupId) (s : State) : Out :=
  let k := s.pickups[p]
  s.when (s.svUp p && k.engine == .defectHold && decide (s.obN Obj.holdExitCount p ≤ k.exitRun)) fun s =>
    let focusFault := hasAny k.holdCause Hold.focusLoopFault
    if k.abortedMount then s.park p .aborted
    else if focusFault || hasAny k.holdCause Hold.trackingLoopFault then
      let s := (s.endHold p).updP p fun k => { k with lastFaultExit := some s.time }
      let s := s.forEach [.skew, .tilt, .sledOuter] fun s l => s.unholdLoop p l
      s.startRecovery p (some (if focusFault then 2 else 1))
    else (s.leaveHold p).runQueued p

/-- HOLD_TIMEOUT (R126): the exit has not happened `HoldTimeout` after entry; no timeout for HostRequest and SpindleObserverLoss; an aborted mount parks (R103). -/
def execHoldTimeout (p : PickupId) (s : State) : Out :=
  let k := s.pickups[p]
  s.when (s.svUp p && k.engine == .defectHold && !hasAny k.holdCause (Hold.hostRequest ||| Hold.spindleObserverLoss)
      && decide (usTicks (s.obN Obj.holdTimeout p) ≤ s.time - k.holdEnteredAt)) fun s =>
    let s := (s.bump Obj.holdTimeoutCount p 0).report (Isl.sv p) Ev.acqHoldTimeout [(p.val : Int)]
    if k.abortedMount then s.park p .aborted else (s.endHold p).startRecovery p none

/-- SERVO_OVERRUN_STATUS_CLEAR (R97): writing 1 to a flag clears it, writing 0 has no effect. -/
def execServoOverrunStatusClear (cl : Client) (p : PickupId) (v : Int) (s : State) : Out :=
  s.when (s.svUp p) fun s => s.hostWrite cl Obj.servoOverrunStatus p 0 v false false fun s =>
    let old := BitVec.ofNat 16 (s.obN Obj.servoOverrunStatus p)
    s.setOb Obj.servoOverrunStatus p 0 ((old &&& ~~~(BitVec.ofInt 16 v)).toNat : Nat)

/-- BANK_ACTIVATION (R79): in the state phase before the edge of the committed set, the banks of the named loops become active. -/
def execBankActivation (p : PickupId) (loops : BitVec 5) (s : State) : Out :=
  s.when (s.svUp p && decide (s.staging.edge ≤ s.gridN + 1)) fun s =>
    s.activateBanks p ((s.banksDue p).filter fun l => loops.getLsbD l.idx.val) (max s.staging.edge (s.gridN + 1))

/-- XSP_STEP_EDGE (R93, R298): every following loop counts, saturating at 2^20; auxiliary axes on the pulse route count too. -/
def execXspStepEdge (dirHigh : Bool) (s : State) : Out :=
  s.when s.running fun s =>
    let d : Int := if dirHigh then 1 else -1
    let s := { s with xspDir := dirHigh }
    let s := s.forEach (allFin 8) fun s p =>
      if s.svUp p then
        s.forEach allLoops fun s l =>
          if s.obN Obj.setpointSource p l.idx.val = 2 then
            s.updLoop p l fun v => { v with pulseCount := clampInt (-(2 ^ 20)) (2 ^ 20) (v.pulseCount + d) }
          else s
      else s
    s.forEach (allFin 12) fun s (a : AxisId) =>
      if !a.isSled && s.axisUp a && decide (s.obN Obj.axisSource a.aux = 1) then
        s.updA a fun x => { x with extCount := clampInt (-(2 ^ 20)) (2 ^ 20) (x.extCount + d) }
      else s

end Sys2Proof.Machine
end

