-- ==== Sys2Proof/Machine/Switchover.lean ====
section
/-! DEFINITION. Meanings of the commands of the staging area and the switchover unit (R389 to R395). -/

namespace Sys2Proof.Machine

/-! ### SwitchoverRequest (R389, R391) -/

/-- A write of `SwitchoverRequest`: SwitchoverBusy comes before StagingOwned (check 14 of R371). -/
def State.switchWrite (s : State) (cl : Client) (v want : Int) (f : State → State) : State :=
  let g := s.staging
  if v ≠ want || !s.coreUp then s
  else if !s.carrierMayWrite cl (Obj.switchoverRequest.key 0 0) then s.answer (some Abort.carrierWriteDisabled)
  else if g.mode == .committed || g.mode == .checking then s.answer (some Abort.switchoverBusy)
  else if g.owner.any fun o => o != cl then s.answer (some Abort.stagingOwned)
  else f ((s.areaTouched cl).recordWrite cl (Obj.switchoverRequest.key 0 0))

/-- SWITCHOVER_APPLY (R391): the reply to a set that passes leaves after the apply instant. -/
def execSwitchoverApply (cl : Client) (v : Int) (s : State) : Out :=
  .next (s.switchWrite cl v 1 fun s => s.applyRequest cl true)

/-- SWITCHOVER_DISCARD (R391): on an empty area nothing changes. -/
def execSwitchoverDiscard (cl : Client) (v : Int) (s : State) : Out :=
  .next (s.switchWrite cl v 2 fun s =>
    if s.staging.mode == .empty then s.answer none
    else (((s.emptyArea).switchOutcome .discarded none).report Isl.core Ev.switchoverDiscarded [s.ownerIdentity, 0]).placeWaiting.answer none)

/-- SWITCHOVER_CHECK (R391): the checks run and nothing is applied. -/
def execSwitchoverCheck (cl : Client) (v : Int) (s : State) : Out :=
  .next (s.switchWrite cl v 3 fun s =>
    match s.switchCheck s.staging.entries with
    | some f => (s.switchRefused cl f).answer (some Abort.switchoverCheckFailed)
    | none => (s.switchOutcome .checkPassed none).answer none)

/-- STAGING_IDLE_TIMEOUT (R389): `StagingIdleTimeout` after the owner's last request to the area. -/
def execStagingIdleTimeout (s : State) : Out :=
  s.when (s.coreUp && s.staging.mode == .staging && decide (s.staging.lastAt + sTicks (s.obN Obj.stagingIdleTimeout) ≤ s.time)) fun s =>
    (((s.emptyArea).switchOutcome .expired none).report Isl.core Ev.switchoverDiscarded [s.ownerIdentity, 1]).placeWaiting

/-! ### The apply edge (R79, R390, R393 to R395, R448, R451, R460, R461) -/

/-- Banks of the set that are not active yet are activated (R79). -/
def State.activateRest (s : State) : State :=
  s.forEach (allFin 8) fun s p => s.activateBanks p (s.banksDue p) s.staging.edge

/-- A bank changed by another switchover than the plan's: gain scale 1.0, base at the present sensitivity (R461). -/
def State.resetPlanBase (s : State) (p : PickupId) (n code : Nat) : State :=
  let base := match (s.entryOf code p.val).bind LedgerEntry.lastFour with | some v => rnd v 4 | none => 0
  (s.putKey (Obj.planGainScale.key p n) 1024).putKey (Obj.gainBase.key p n) base

/-- What the new value of an object does beyond being read: correction of the write power, state sets of a channel, set-point routes, the
origin of an external axis source, the order of on-ramp items. -/
def State.applyEffect (s : State) (key : Nat) (old new : Int) : State :=
  match findRow (key / 256) (key % 256) with
  | none => s
  | some (r, i, k) =>
    if r == Obj.peakPower then
      if h : i / 4 < 8 then
        if k < 4 then s.updS ⟨i / 4, h⟩ fun x => { x with powerCorrection := Vector.ofFn fun b => if b.val = k then 0 else x.powerCorrection[b] } else s
      else s
    else if r == Obj.vgaGainInit || r == Obj.firTapInit || r == Obj.itiCouplingInit then
      if h : i < 32 then s.loadSets ⟨i, h⟩ else s
    else if r == Obj.setpointSource && old != new then
      if h : i < 8 then
        let s := s.updP ⟨i, h⟩ fun x => { x with loops := x.loops.mapIdx fun j v => if j = k then { v with pulseCount := 0 } else v }
        s.report (Isl.sv ⟨i, h⟩) Ev.servoSetpointRoute [(i : Int), (k : Int), new]
      else s
    else if r == Obj.axisSource && old != new then
      if h : i < 4 then s.updA ⟨8 + i, by omega⟩ fun a => { a with extOrigin := a.position, extCount := 0 } else s
    else if r == Obj.onRampMode && old != new then
      if h : i < 64 then
        let stay (l : List RampItem) : List RampItem := l.map fun x => { x with oldMode := some (x.oldMode.getD old.toNat) }
        let s := s.updRamp ⟨i, h⟩ fun q => { q with filling := stay q.filling, draining := stay q.draining }
        s.report Isl.mem Ev.memOnrampMode [(i : Int), new]
      else s
    else s

/-- Items of a restored set: Valid where their kept temperature is within ΔT, Due otherwise (R451). -/
def State.restoreItems (s : State) : State :=
  match s.cal.restoring with
  | none => s
  | some (j, temps) =>
    let s := { s with cal := { s.cal with restoring := none } }
    let s := s.forEach temps fun s t =>
      match (allFin 92).find? fun ix => decide (ixItem ix = (t.1, t.2.1)) with
      | none => s
      | some ix =>
        let x := s.cal.items[ix]
        let near := t.2.2 != -32768 && decide (((s.ob Obj.calTemperature - t.2.2).natAbs : Int) ≤ s.deltaT x)
        s.updItem ix fun x => { x with state := if near then .valid else .due, temperature := t.2.2, agreedAtHours := s.obN Obj.operatingHours
                                       dueSince := if x.state = .due then x.dueSince else s.time }
    s.report Isl.core Ev.calRestored [(j : Int), s.ob Obj.calSetGeneration 0 j]

/-- What the application of an internal client's set records: results of items, changes of the plan, a restored set. -/
def State.internalApplied (s : State) (owner : Option Client) (es : List Staged) (olds : List Int) (scope : Int) : State :=
  match owner with
  | some (.internal 1) => (s.bump Obj.planCount 0 0).report Isl.core Ev.planApplied [scope, (es.length : Nat)]
  | some (.internal 2) =>
    match s.cal.unapplied.find? fun u => u.2.2.1 == es with
    | none => s.restoreItems
    | some (item, inst, _, temp) =>
      let s := { s with cal := { s.cal with unapplied := s.cal.unapplied.filter fun u => u.2.2.1 != es, planDue := true } }
      let s := s.report Isl.core Ev.calRun ([(item : Int), (inst : Int)] ++ olds ++ es.map (fun e => e.value) ++ [temp])
      if item = 1 then s.placeInternal 2 s.reassignSet else s
  | _ => s

/-- The reply to the client that waits for the apply instant. -/
def State.replyApplied (s : State) (cl : Option Client) : State :=
  match cl with
  | none => s
  | some cl =>
    let s := s.answer none
    match cl with
    | .nvme c =>
      match s.host.cmds.find? fun m => m.ref.ctrl == c && m.ref.sq == 0 && m.op 0xC1 && m.stage == .taken && m.result.isNone with
      | some m => s.finishCmd m.ref .success
      | none => s
    | _ => match (s.client cl).serving with
      | some r => s.stampReply cl r
      | none => s

/-- SWITCHOVER_APPLY_EDGE (R393, R394): the islands that were not reset since the commit apply the set at its edge. -/
def execSwitchoverApplyEdge (s : State) : Out :=
  s.when (s.running && s.staging.mode == .committed && decide (s.staging.edge ≤ s.gridN + 1)) fun s =>
    let g := s.staging
    let es := g.entries.filter fun e => !g.resetIslands.contains (keyIsland e.key)
    let olds := es.map fun e => s.keyValue e.key
    let s := { s with staging := { g with entries := es } }.activateRest
    let s := s.forEach (es.zip olds) fun s x =>
      let s := s.putKey x.1.key x.1.value
      s.applyEffect x.1.key x.2 x.1.value
    let plan := g.owner == some (.internal 1)
    let s := if plan then s else s.forEach (allFin 8) fun s p =>
      let s := if es.any (bankEntry p .tracking) then s.resetPlanBase p 0 3 else s
      if es.any (bankEntry p .focus) then s.resetPlanBase p 1 4 else s
    let scope : Int := match localPickup g.entries with | some p => (p.val : Int) | none => 0xFF
    let s := s.setOb Obj.switchoverTick 0 0 g.edge
    let s := (s.setOb Obj.switchoverScope 0 0 scope).bump Obj.switchoverCount 0 0
    let owner := s.ownerIdentity
    let s := (s.switchOutcome .applied none).report Isl.core Ev.switchoverApplied ([owner, scope, (g.edge : Int), (g.staged.length : Nat)]
      ++ ((g.resetIslands.filter fun x => g.entries.any fun e => keyIsland e.key == x).eraseDups.map fun (x : IslandId) => (x.val : Int)))
    let s := s.emptyArea
    let s := s.forEach (allFin 4) fun s i => if (s.spindles[i]).startHeld then s.beginSensing i (s.spindles[i]).reverse else s
    let s := s.internalApplied g.owner es olds scope
    s.placeWaiting.replyApplied g.replyTo

end Sys2Proof.Machine
end

