-- ==== Sys2Proof/Machine/SignpostOps.lean ====
section
/-! DEFINITION. The Signpost server: which objects exist, reads, writes by access right, sessions, and the checks of R371 (chapter 10). -/

namespace Sys2Proof.Machine

/-! ### Existing objects (R6, R363, R371 checks 7 and 8, R375) -/

/-- Whether an instance of a row exists on this variant: fused-off instances are absent; the axis numbers 8 to 15 name nothing. -/
def State.instanceOn (s : State) (r : Row) (i : Nat) : Bool :=
  let n := s.otp.variant.spindles
  let a := i / r.count2
  match r.owner with
  | .all => true
  | .pickup => decide (a < 2 * n)
  | .beam => decide (a < 8 * n)
  | .spindle => decide (a < n)
  | .axis => decide (a < 2 * n) || decide (16 ≤ a)

/-- Whether the island of a Source number is enabled: CHg, SVp and MTs follow their instance, the others are always there (R6, R470). -/
def State.islandOn (s : State) (source : Nat) : Bool :=
  let n := s.otp.variant.spindles
  if source < 32 then decide (source < 8 * n)
  else if source < 40 then decide (source - 32 < 2 * n)
  else if source < 44 then decide (source - 40 < n)
  else true

/-- Whether an element of a row exists: the saved sets of fused-off pickups and the elements of fused-off islands do not (R6, R375). -/
def State.elementOn (s : State) (r : Row) (k : Nat) : Bool :=
  if r == Obj.calibrationSet || r == Obj.calSetGeneration then decide (k < 2 * s.otp.variant.spindles ∨ k = 8)
  else if r == Obj.crossingForward || r == Obj.ringOscDelay then s.islandOn k
  else true

/-- The object at an index and subindex, if it exists. -/
def State.lookup (s : State) (idx sub : Nat) : Option (Row × Nat × Nat) :=
  (findRow idx sub).filter fun x => s.instanceOn x.1 x.2.1 && s.elementOn x.1 x.2.2

/-- Whether an index exists. -/
def State.indexOn (s : State) (idx : Nat) : Bool := Obj.rows.any fun r => (r.instanceAt idx).any fun i => s.instanceOn r i

/-- Keys of the existing subindices in ascending order. -/
def State.allKeys (s : State) : List Nat :=
  (List.range 65536).flatMap fun idx =>
    if s.indexOn idx then ((List.range 256).filter fun sub => (s.lookup idx sub).isSome).map fun sub => idx * 256 + sub else []

/-- Access right of an element: entries 0 and 1 of `RatePolicy` are RO (R475). -/
def accessOf (r : Row) (k : Nat) : Access := if r == Obj.ratePolicy && decide (k < 2) then .ro else r.access

/-- An entry of Enumerate (R375). -/
def State.enumEntry (s : State) (key : Nat) : List Byte :=
  match s.lookup (key / 256) (key % 256) with
  | some (r, _, k) =>
    leBytes 2 (key / 256 : Nat) ++ leBytes 1 (key % 256 : Nat) ++ leBytes 1 r.type.code ++ leBytes 1 (accessOf r k).code ++ [0#8]
      ++ leBytes 2 r.type.size
  | none => []

/-! ### Reads (R366, R388, R389) -/

/-- Whether the staging area belongs to another client. -/
def State.areaForeign (s : State) (cl : Client) : Bool := s.staging.owner.any fun o => o != cl

/-- A read of `AuthChallenge`: a new nonce replaces the client's previous one (R388). -/
def State.newNonce (s : State) (cl : Client) : State × List Byte :=
  let v := Config.nonce s.signpost.nonces
  let s := { s with signpost := { s.signpost with nonces := s.signpost.nonces + 1 } }
  (s.updClient cl fun c => { c with nonce := some (s.time, v) }, beBytes 16 v.toNat)

/-- The value that a read returns, or the abort code that refuses it. -/
def State.readObject (s : State) (cl : Client) (r : Row) (i k : Nat) (staged : Bool) : State × Option Nat × List Byte :=
  if r == Obj.authChallenge then
    let (s, b) := s.newNonce cl
    (s, none, b)
  else if r == Obj.stagedList then
    if s.areaForeign cl then (s, some Abort.stagingOwned, []) else (s.areaTouched cl, none, s.readBytes r i k)
  else if r == Obj.enumeratedCount then (s, none, leBytes 2 s.allKeys.length)
  else if staged && r.access == .rws then
    if s.areaForeign cl then (s, some Abort.stagingOwned, [])
    else match s.staging.entries.find? fun e => e.key == r.key i k with
      | some e => (s.areaTouched cl, none, leBytes r.type.size e.value)
      | none => (s.areaTouched cl, none, s.readBytes r i k)
  else (s, none, s.readBytes r i k)

/-! ### Communication settings (R381, R383) -/

/-- Whether a key is a CAN, Ethernet or IP setting. -/
def isCommKey (key : Nat) : Bool := decide (0x1100 ≤ key / 256 ∧ key / 256 ≤ 0x1180)

/-- The value of a communication setting that is in effect. -/
def State.commOb (s : State) (r : Row) (i : Nat := 0) : Int :=
  ((s.signpost.commPending.find? fun e => e.key == r.key i 0).map fun e => e.inUse).getD (s.ob r i)

/-- A communication setting is written: the value in use stays in use until the reply is out. -/
def State.holdComm (s : State) (cl : Client) (key : Nat) (old : Int) : State :=
  if isCommKey key && !(s.signpost.commPending.any fun e => e.key == key) then
    { s with signpost := { s.signpost with commPending := s.signpost.commPending ++ [{ key := key, inUse := old, client := cl }] } }
  else s

/-! ### Conditions of the owner chapters (R371 checks 13 and 15) -/

/-- Objects that hold a largest value seen and are cleared by writing 0 (R367). -/
def holdsMaximum (r : Row) : Bool :=
  [Obj.fetchRoundTripMax, Obj.tollgateEntriesMax, Obj.poolQueueDepthMax, Obj.serviceTimeMax, Obj.flushTimeMax].contains r

/-- A mask whose ones are contiguous from bit 31 down. -/
def isNetmask (v : Int) : Bool := (List.range 33).any fun n => v == ((2 ^ 32 - 2 ^ n : Nat) : Int)

/-- Range conditions that the tables state beyond the ranges of R366: R367, R397, R398, R475, R529. -/
def State.beyondRange (s : State) (r : Row) (i : Nat) (v : Int) : Bool :=
  let idMax : Int := if s.obN Obj.canIdFormat i = 1 then 0x1FFFFFFF else 0x7FF
  if holdsMaximum r then v != 0
  else if r == Obj.ratePolicy then v.toNat.testBit 0 && policyDepth v.toNat == 0
  else if r == Obj.canRequestId then decide (idMax < v) || v == s.ob Obj.canResponseId i
  else if r == Obj.canResponseId then decide (idMax < v) || v == s.ob Obj.canRequestId i
  else if r == Obj.ipv4Netmask then !isNetmask v
  else if r == Obj.compThreshold then if i = 3 then decide (v < 9000) else decide (1700 < v)
  else false

/-- Whether the owner chapter's state condition refuses a write: R298 (`AxisSource`), R423, R497. -/
def State.objectBusy (s : State) (r : Row) (i k : Nat) (v : Int) : Bool :=
  if r == Obj.traceSource || r == Obj.traceDecimation || r == Obj.traceMode || r == Obj.tracePostSamples then
    (at_ s.traces {} i).state == .armed
  else if r == Obj.scrubStart || r == Obj.scrubLength then s.mem.scrub.isSome && v != s.ob r i k
  else if r == Obj.axisSource then
    let x := at_ s.axes {} (8 + i)
    v != s.ob r i k && !(x.mode == .standstill || x.mode == .disabled || x.mode == .fault || (x.mode == .slaved && x.speed == 0))
  else false

/-! ### Writes by access right (R366, R389) -/

/-- What an accepted RW write does beyond taking the value: a channel's value stays in use to its next frame start (R171), a deceleration that
comes within a down ramp is latched (R300). -/
def State.rwEffect (s : State) (r : Row) (i k : Nat) (v : Int) (old : Int) : State :=
  let key := r.key i k
  if r.owner == .beam then
    if h : i < 32 then s.updC ⟨i, h⟩ fun c => { c with inUse := if (Sparse.find key c.inUse).isSome then c.inUse else Sparse.insert key old c.inUse }
    else s
  else if r == Obj.axisDecel then
    let a := if i < 8 then i else i - 8
    if h : a < 12 then
      if (s.axes[a]).down then s.report (Isl.axis ⟨a, h⟩) Ev.axDecelLatched [(a : Int), v] else s
    else s
  else s

/-- A write to an RW or WO object without a row of its own: checks 13 and 15, then the value. -/
def State.writeRw (s : State) (cl : Client) (r : Row) (i k : Nat) (bytes : List Byte) : State :=
  let key := r.key i k
  if r.type.isBytes then
    let old := s.dom r i k
    let s := (s.recordWrite cl key).setDom r i k bytes
    (s.holdComm cl key (leNat old)).answer none
  else
    let v := r.type.decode bytes
    if !(r.type.holds v && r.range.admits v) || s.beyondRange r i v then s.answer (some Abort.valueOutOfRange)
    else if s.objectBusy r i k v then s.answer (some Abort.objectBusy)
    else
      let old := s.ob r i k
      let s := (((s.settleBuckets r).recordWrite cl key).putKey key v).rwEffect r i k v old
      (s.holdComm cl key old).answer none

/-- Entries of the staging area (R389). -/
def stagingSize : Nat := 4096

/-- Value of an object as the staging area would make it. -/
def State.stagedOr (s : State) (r : Row) (i k : Nat) : Int :=
  ((s.staging.entries.find? fun e => e.key == r.key i k).map fun e => e.value).getD (s.ob r i k)

/-- Range conditions of RWS objects that depend on the loop (R76, R77) or on another object (R174): the order m of an integrator state is the
staged one where one is staged. -/
def State.beyondStaged (s : State) (r : Row) (i k : Nat) (v : Int) : Bool :=
  let l := bankLoop i
  if r == Obj.biquadsUsed then decide ((l.biquads : Int) < v)
  else if r == Obj.ssOrder then decide ((l.maxOrder : Int) < v)
  else if r == Obj.integratorState then decide (v ≠ 0xFF ∧ s.stagedOr Obj.ssOrder i 0 ≤ v)
  else if r == Obj.itiCouplingInit then decide (s.ob Obj.itiLimit i < v.natAbs) || decide (k = i % 4)
  else false

/-- A write to an RWS object: checks 13 to 15, then the value enters the staging area. -/
def State.writeStaged (s : State) (cl : Client) (r : Row) (i k : Nat) (v : Int) : State :=
  let key := r.key i k
  let s := s.areaTouched cl
  let g := s.staging
  let held := g.entries.any fun e => e.key == key
  if !(r.type.holds v && r.range.admits v) || s.beyondStaged r i k v then s.answer (some Abort.valueOutOfRange)
  else if g.mode == .committed || g.mode == .checking then s.answer (some Abort.switchoverBusy)
  else if s.areaForeign cl then s.answer (some Abort.stagingOwned)
  else if !held && decide (stagingSize ≤ g.entries.length) then s.answer (some Abort.stagingFull)
  else if s.objectBusy r i k v then
    let s := if h : i < 4 then s.updA ⟨8 + i, by omega⟩ fun a => { a with lastResult := .busy } else s
    s.answer (some Abort.objectBusy)
  else
    let e : Staged := { key := key, value := v, carried := false }
    let entries := if held then g.entries.map fun x => if x.key = key then e else x else g.entries ++ [e]
    { s with staging := { g with mode := .staging, owner := some cl, entries := entries, lastAt := s.time } }.answer none

/-! ### Restores (R451, R456, R457) -/

/-- Bytes of a saved set that its SetCrc covers. -/
def crcCovers (b : List Byte) : List Byte := b.take 60 ++ b.drop 64

/-- Entry e of a saved set: key, type code, kept temperature, value. -/
def setEntryAt (b : List Byte) (e : Nat) : Nat × Nat × Int × Nat :=
  let o := 64 + 16 * e
  (leField b o 2 * 256 + leField b (o + 2) 1, leField b (o + 3) 1, ObjType.i16.decode ((b.drop (o + 4)).take 2), leField b (o + 8) 8)

/-- Whether a value of a saved set fits its object: its extension is right, and it lies in the object's range. -/
def entryValue (r : Row) (v : Nat) : Option Int :=
  let x : Int := if r.type.signed && decide (2 ^ 63 ≤ v) then (v : Int) - 2 ^ 64 else v
  if r.type.holds x && r.range.admits x then some x else none

/-- The entries of a `CalibrationSet` as staged values with their kept temperatures; none when the write is to be refused. -/
def State.setEntries (s : State) (j : Nat) (b : List Byte) : Option (List (Staged × Int)) :=
  let n := leField b 2 2
  let own := leField b 8 8 == s.otp.dieIdentity || s.ob Obj.calRestoreForeign == 1
  if leField b 0 2 ≠ 1 || leField b 60 4 ≠ crc32 (crcCovers b) || !own || decide (512 < n) then none
  else
    (List.range n).mapM fun e =>
      let (key, code, temp, v) := setEntryAt b e
      match s.lookup (key / 256) (key % 256) with
      | some (r, _, _) =>
        if calSetOf key == some j && r.type.code == code && !r.type.isBytes then
          (entryValue r v).map fun x => ({ key := key, value := x, carried := r.access != .rws }, temp)
        else none
      | none => none

/-- WriteEnd of a `CalibrationSet` (R390, R451): check 13, check 14, check 15, then the set is staged as internal client 2. -/
def State.restoreSet (s : State) (cl : Client) (j : Nat) (b : List Byte) : State :=
  let used := if h : j < 8 then !(s.pickups[j]).idle
    else (allFin 4).any fun i => s.spindleOn i && (s.spindles[i]).mode != .stopped
  match s.setEntries j b with
  | none => s.answer (some Abort.valueOutOfRange)
  | some l =>
    if s.staging.mode == .committed || s.staging.mode == .checking then s.answer (some Abort.switchoverBusy)
    else if s.staging.mode != .empty then s.answer (some Abort.stagingOwned)
    else if used then s.answer (some Abort.objectBusy)
    else
      let es := l.map fun x => x.1
      match s.switchCheck es with
      | some f => (s.switchRefused (.internal 2) f).answer (some Abort.switchoverCheckFailed)
      | none =>
        let temps := (l.filterMap fun x => (itemOfKey x.1.key).map fun n => (n.1, n.2, x.2)).eraseDups
        let s := s.recordWrite cl (Obj.calibrationSet.key 0 j)
        let s := { s with cal := { s.cal with restoring := some (j, temps) } }
        (s.placeNow 2 es).answer none

/-- Entry e of an `AgeingLedger` (R455). -/
def ledgerEntry (b : List Byte) (e interval : Nat) : LedgerEntry :=
  let o := 64 + 144 * e
  let n := min 32 (leField b (o + 2) 1)
  let i32 (p : Nat) : Int := ObjType.i32.decode ((b.drop p).take 4)
  let first := leField b (o + 12) 4
  let dec := leField b (o + 3) 1
  { code := leField b o 1, inst := leField b (o + 1) 1, decimation := dec, reference := i32 (o + 4)
    referenceTemp := ObjType.i16.decode ((b.drop (o + 8)).take 2), firstHours := first
    points := (List.range n).map fun k => let v := i32 (o + 16 + 4 * k); if v = -(2 ^ 31) then none else some v
    dueAt := first + n * interval * 2 ^ dec }

/-- WriteEnd of `AgeingLedger` (R456, R457). -/
def State.restoreLedger (s : State) (cl : Client) (b : List Byte) : State :=
  let n := leField b 2 2
  let good := leField b 0 2 == 1 && leField b 60 4 == crc32 (crcCovers b) && decide (n ≤ 256)
  let own := leField b 4 8 == s.otp.dieIdentity || s.ob Obj.calRestoreForeign == 1
  if !good || !own then s.answer (some Abort.valueOutOfRange)
  else if s.planRuns then s.answer (some Abort.objectBusy)
  else
    let l := ((List.range 256).map fun e => ledgerEntry b e (s.obN Obj.ledgerInterval)).filter fun e => e.code != 0
    let hours := max (s.obN Obj.operatingHours) (leField b 12 4)
    let s := s.recordWrite cl (Obj.ageingLedger.key 0 0)
    let s := { s with cal := { s.cal with ledger := l } }.setOb Obj.operatingHours 0 0 hours
    (s.report Isl.core Ev.ageLedgerRestored [(cl.identity : Int)]).answer none

/-! ### Writes of objects that have a row of their own -/

/-- The state that an outcome leaves. -/
def State.after (s : State) (o : Out) : State := match o with | .next t => t | _ => s

/-- Command of an instance number. -/
def onFin (n i : Nat) (f : Fin n → Out) : Option Out := if h : i < n then some (f ⟨i, h⟩) else none

/-- Commands of `SpindleCommand` (R285). -/
def State.spindleWrite (s : State) (cl : Client) (i : SpindleId) (v : Int) : Out :=
  if v = 2 then execSpindleStop cl i v s
  else if v = 3 then execSpindleCoast cl i v s
  else if v = 4 then execSpindleStartReverse cl i v s
  else execSpindleStart cl i v s

/-- Commands of `AxisCommand` (R316). -/
def State.axisWrite (s : State) (cl : Client) (a : AxisId) (v : Int) : Out :=
  if v = 2 then execAxisHalt cl a v s
  else if v = 3 then execAxisStop cl a v s
  else if v = 4 then execAxisHome cl a v s
  else if v = 5 then execAxisEnable cl a v s
  else if v = 6 then execAxisDisable cl a v s
  else if v = 7 then execClearFault cl a v s
  else execAxisMove cl a v s

/-- Commands of `MaintenanceCommand` (R428), with no fill of the line in flight. -/
def State.maintenanceWrite (s : State) (cl : Client) (v : Int) : Out :=
  if v = 2 then execInvalidateByAddress cl v false s
  else if v = 3 then execCleanAndInvalidateByAddress cl v false s
  else if v = 4 then execCleanBySetAndWay cl v false s
  else if v = 5 then execInvalidateBySetAndWay cl v false s
  else if v = 6 then execCleanAndInvalidateBySetAndWay cl v false s
  else if v = 7 then execZeroALine cl v false s
  else execCleanByAddress cl v false s

/-- The command that a write of an object with a row of its own is; `verdict` as in `State.authorise`. -/
def State.command (s : State) (cl : Client) (r : Row) (i : Nat) (v : Int) (verdict : Option Bool) : Option Out :=
  if r == Obj.defectHoldRequest then onFin 8 i fun p => execDefectHoldRequest cl p v s
  else if r == Obj.holdRelease then onFin 8 i fun p => execHoldRelease cl p v s
  else if r == Obj.servoOverrunStatus then onFin 8 i fun p => execServoOverrunStatusClear cl p v s
  else if r == Obj.mountRequest then some (execMountRequest cl v s)
  else if r == Obj.seekRequest then onFin 8 i fun p => execSeekRequest cl p v s
  else if r == Obj.parkRequest then onFin 8 i fun p => execParkRequest cl p v s
  else if r == Obj.spindleCommand then onFin 4 i fun m => s.spindleWrite cl m v
  else if r == Obj.axisCommand then onFin 12 (if i < 8 then i else i - 8) fun a => s.axisWrite cl a v
  else if r == Obj.latencyReset then some (execLatencyReset cl v s)
  else if r == Obj.splitCommand then
    some (if v = 2 then execEncodedWrite cl v s else if v = 3 then execSplitRead cl v s else execRawWrite cl v s)
  else if r == Obj.scrubCommand then some (if v = 2 then execScrubStop cl v s else execScrubStart cl v s)
  else if r == Obj.cacheEnable then some (if v = 0 then execCacheDisable cl v s else execCacheEnable cl v s)
  else if r == Obj.maintenanceCommand then some (s.maintenanceWrite cl v)
  else if r == Obj.calRequest then some (execCalRequest cl v s)
  else if r == Obj.marginPlanRequest then some (execMarginPlanRequest cl v s)
  else if r == Obj.flushRequest then some (execFlushRequest cl v s)
  else if r == Obj.runningAreaClear then some (execRunningAreaClear cl v verdict s)
  else if r == Obj.eventStoreInit then some (execEventStoreInit cl v verdict s)
  else if r == Obj.milestoneRequest then some (execMilestoneRequest cl v s)
  else if r == Obj.milestoneRelease then some (execMilestoneRelease cl v s)
  else if r == Obj.traceCommand then onFin 8 i fun c => if v = 2 then execTraceStop cl c v s else execTraceArm cl c v s
  else if r == Obj.islandResetRequest then some (execIslandResetRequest cl v verdict s)
  else if r == Obj.timeOfDay then some (execTimeOfDayWrite cl v s)
  else if r == Obj.firmwareKeyRevoke then some (execFirmwareKeyRevoke cl v verdict s)
  else if r == Obj.switchoverRequest then
    some (if v = 2 then execSwitchoverDiscard cl v s else if v = 3 then execSwitchoverCheck cl v s else execSwitchoverApply cl v s)
  else none

/-- An object with a row of its own: the row's meaning answers. Where it gives none (the island does not run, or no command has the value), the
value is out of range or the object is busy; an Apply that goes on is answered at its edge. -/
def State.runCommand (s : State) (r : Row) (v : Int) (o : Out) : State :=
  let t := { s with signpost := { s.signpost with lastReply := none } }.after o
  if t.signpost.lastReply.isSome || (r == Obj.switchoverRequest && t.staging.replyTo.isSome) then t
  else t.answer (some (if r.type.holds v && r.range.admits v then Abort.objectBusy else Abort.valueOutOfRange))

/-- Checks 12 to 15 of R371 and the write itself: `bytes` is the value, `verdict` as in `State.authorise`. -/
def State.writeObject (s : State) (cl : Client) (r : Row) (i k : Nat) (bytes : List Byte) (verdict : Option Bool) : State :=
  let v := r.type.decode bytes
  let s := { s with signpost := { s.signpost with lastReply := none } }
  match s.command cl r i v verdict with
  | some o => s.runCommand r v o
  | none =>
    if r == Obj.calibrationSet then s.restoreSet cl k bytes
    else if r == Obj.ageingLedger then s.restoreLedger cl bytes
    else match r.access with
    | .rws => s.writeStaged cl r i k v
    | .rwa => s.authWrite cl r i k v verdict false false fun s => s.setOb r i k v
    | _ => s.writeRw cl r i k bytes

/-! ### Sessions (R376 to R378) -/

/-- Sessions that expired and are told from those that never were. -/
def expiredKept : Nat := 8

/-- The session of a number, with its slot. -/
def State.session? (s : State) (number : Nat) : Option (Fin 8 × Session) :=
  (allFin 8).findSome? fun n => match s.signpost.sessions[n] with
    | some x => if x.number = number then some (n, x) else none
    | none => none

/-- A slot with another session, or with none. -/
def State.setSession (s : State) (n : Fin 8) (x : Option Session) : State :=
  { s with signpost := { s.signpost with sessions := upd s.signpost.sessions n fun _ => x } }

/-- Number of the session in a slot: open, nonzero, and different from those of the other slots. -/
def sessionNumber (count : Nat) (slot : Fin 8) : Nat := 8 * (Config.sessionNumber count % 8190 + 1) + slot.val

/-- Whether a session's client has sent no request on it for `SessionTimeout` (R376). -/
def State.sessionOver (s : State) (x : Session) : Bool := decide (s.obN Obj.sessionTimeout ≤ s.msSince x.lastAt)

/-- A session expires (R376). -/
def State.expireSession (s : State) (n : Fin 8) (x : Session) : State :=
  let s := s.setSession n none
  let s := { s with signpost := { s.signpost with expired := ((x.number, x.client) :: s.signpost.expired).take expiredKept } }
  s.report Isl.core Ev.signpostSessionExpired [(x.client.identity : Int)]

/-- Sessions that are over expire before a request is served. -/
def State.expireSessions (s : State) : State :=
  s.forEach (allFin 8) fun s n =>
    match s.signpost.sessions[n] with
    | some x => if s.sessionOver x then s.expireSession n x else s
    | none => s

/-- A session opens, or SessionsExhausted. -/
def State.openSession (s : State) (cl : Client) (write : Bool) (key total : Nat) (data reply : List Byte) : State :=
  match (allFin 8).find? fun n => (s.signpost.sessions[n]).isNone with
  | none => s.answer (some Abort.sessionsExhausted)
  | some n =>
    let number := sessionNumber s.signpost.sessionCount n
    let x : Session := { number := number, client := cl, write := write, index := key / 256, sub := key % 256, total := total, data := data, lastAt := s.time }
    let s := { s with signpost := { s.signpost with
      sessionCount := s.signpost.sessionCount + 1, expired := s.signpost.expired.filter fun e => e.1 != number } }
    (s.setSession n (some x)).answer none reply number

/-! ### The checks of R371 -/

/-- Services that write: their request carries data. -/
def writeService (svc : Nat) : Bool := svc == 2 || svc == 5 || svc == 6 || svc == 7 || svc == 8
/-- Services on a session. -/
def sessionService (svc : Nat) : Bool := svc == 4 || svc == 6 || svc == 7 || svc == 8

/-- Checks 1 to 5. -/
def formCheck (r : Request) : Option Nat :=
  if r.version ≠ 1 then some Abort.versionUnsupported
  else if !(decide (1 ≤ r.service ∧ r.service ≤ 9)) then some Abort.serviceUnknown
  else if decide (4 ≤ r.flags) || (r.offset != 0 && !(r.service == 4 || r.service == 6 || r.service == 9))
      || (r.session != 0 && !sessionService r.service) then some Abort.requestMalformed
  else if 4096 < r.length then some Abort.lengthTooLarge
  else if writeService r.service && r.data.length != r.length then some Abort.requestMalformed
  else none

/-- Check 6. -/
def State.sessionCheck (s : State) (cl : Client) (r : Request) : Option Nat :=
  match s.session? r.session with
  | some (_, x) =>
    if x.client == cl && (r.service == 8 || x.write == (r.service != 4)) then none else some Abort.sessionUnknown
  | none => if s.signpost.expired.any (fun e => e == (r.session, cl)) then some Abort.sessionExpired else some Abort.sessionUnknown

/-- Whether a service only reads. -/
def readService (svc : Nat) : Bool := svc == 1 || svc == 3

/-- Checks 7 to 10 for an object. -/
def State.accessCheck (s : State) (cl : Client) (r : Request) : Option Nat :=
  if !s.indexOn r.index then some Abort.objectNotFound
  else match s.lookup r.index r.sub with
  | none => some Abort.subindexNotFound
  | some (row, i, k) =>
    let a := accessOf row k
    if readService r.service then (if a == .wo then some Abort.writeOnly else none)
    else if a == .ro then some Abort.readOnly
    else if !s.carrierMayWrite cl (row.key i k) then some Abort.carrierWriteDisabled
    else none

/-- DOM objects that only a session moves (R372). -/
def segmented (r : Row) : Bool := match r.type with
  | .dom n => decide (4096 < n) || (r.access == .rwa && decide (4032 < n))
  | _ => false

/-- Bytes of the signature that an authorised write ends with (R387). -/
def signatureBytes (r : Request) : Nat := if r.flags.testBit 1 then 64 else 0
/-- Verdict for check 12. -/
def requestVerdict (r : Request) : Option Bool := if r.flags.testBit 1 then some r.wellSigned else none

/-- Check 11 for the services that name an object (R372, R378). -/
def lengthCheck (row : Row) (r : Request) : Option Nat :=
  let size := row.type.size
  match r.service with
  | 1 => if segmented row then some Abort.segmentedRequired else if r.length < size then some Abort.lengthMismatch else none
  | 2 => if segmented row then some Abort.segmentedRequired
         else if r.length ≠ size + signatureBytes r then some Abort.lengthMismatch else none
  | 3 => if r.length < 4 then some Abort.lengthMismatch else none
  | _ => if r.length ≠ 4 || leNat r.data ≠ size then some Abort.lengthMismatch else none

/-- The service of a request that names an object: Read, Write, ReadStart, WriteStart. -/
def State.objectService (s : State) (cl : Client) (r : Request) : State :=
  match s.accessCheck cl r with
  | some a => s.answer (some a)
  | none => match s.lookup r.index r.sub with
  | none => s.answer (some Abort.subindexNotFound)
  | some (row, i, k) => match lengthCheck row r with
  | some a => s.answer (some a)
  | none =>
    let key := row.key i k
    if r.service = 2 then s.writeObject cl row i k (r.data.take row.type.size) (requestVerdict r)
    else if r.service = 5 then s.openSession cl true key row.type.size [] []
    else
      let (s, bad, value) := s.readObject cl row i k (r.flags.testBit 0)
      match bad with
      | some a => s.answer (some a)
      | none => if r.service = 1 then s.answer none value else s.openSession cl false key value.length value (leBytes 4 value.length)

/-- The service of a request on a session: ReadSegment, WriteSegment, WriteEnd, SessionClose (R377, R378). -/
def State.segmentService (s : State) (cl : Client) (r : Request) : State :=
  match s.sessionCheck cl r with
  | some a => s.answer (some a)
  | none => match s.session? r.session with
  | none => s.answer (some Abort.sessionUnknown)
  | some (n, x) =>
    let x := { x with lastAt := s.time }
    let s := s.setSession n (if r.service = 7 ∨ r.service = 8 then none else some x)
    if r.service = 8 then s.answer none
    else if r.service = 4 then
      if x.total < r.offset + r.length then s.answer (some Abort.offsetInvalid) else s.answer none ((x.data.drop r.offset).take r.length)
    else if !s.carrierMayWrite cl (x.index * 256 + x.sub) then s.answer (some Abort.carrierWriteDisabled)
    else if r.service = 6 then
      if r.offset ≠ x.data.length then s.answer (some Abort.offsetInvalid)
      else if x.total < x.data.length + r.length then s.answer (some Abort.lengthMismatch)
      else (s.setSession n (some { x with data := x.data ++ r.data })).answer none
    else if x.data.length < x.total || r.length ≠ signatureBytes r then s.answer (some Abort.lengthMismatch)
    else match s.lookup x.index x.sub with
      | some (row, i, k) => s.writeObject cl row i k x.data (requestVerdict r)
      | none => s.answer (some Abort.subindexNotFound)

/-- Enumerate (R375): entries from number Offset on, as many as fit. -/
def State.enumerateService (s : State) (r : Request) : State :=
  if r.length < 8 then s.answer (some Abort.lengthMismatch)
  else s.answer none (((s.allKeys.drop r.offset).take (r.length / 8)).flatMap s.enumEntry)

/-- A request is served: the checks of R371 in their order, then its service. -/
def State.execRequest (s : State) (cl : Client) (r : Request) : State :=
  let s := { s with signpost := { s.signpost with lastReply := none } }.expireSessions
  match formCheck r with
  | some a => s.answer (some a)
  | none =>
    if r.service = 9 then s.enumerateService r
    else if sessionService r.service then s.segmentService cl r
    else s.objectService cl r

/-- The server takes a request that stands first in its queue, or that comes to an empty one (R367, R373, R374): it is served, or a stored
reply leaves again. An Apply that goes on keeps its client waiting. -/
def State.serve (s : State) (cl : Client) (r : Request) (mine : Bool) : Out :=
  s.when (s.coreUp && mine) fun s =>
    let run (s : State) : State :=
      let s := s.clearSent.execRequest cl r
      if s.signpost.lastReply.isSome then s.stampReply cl r else s.updClient cl fun c => { c with serving := some r }
    match s.signpost.queue with
    | x :: rest => if x = (cl, r) then run { s with signpost := { s.signpost with queue := rest } } else s
    | [] => match s.storedReply cl r with
      | some p => s.clearSent.resend cl r p
      | none => run s

end Sys2Proof.Machine
end

