-- ==== Sys2Proof/Machine/Carriers.lean ====
section
/-! DEFINITION. Meanings of the events of the CAN FD and Ethernet carriers (R379 to R383). -/

namespace Sys2Proof.Machine

/-! ### CAN FD (R379 to R381) -/

/-- Largest Signpost message: header and 4,096 bytes. -/
def messageMax : Nat := 4112

/-- A complete message: one shorter than the header is counted and gets no reply (R370, R397). -/
def State.canMessage (s : State) (port : Fin 2) (m : List Byte) : State :=
  if m.length < headerLength then s.bump Obj.canFramesIgnored port 0
  else (s.bump Obj.canMessagesReceived port 0).arriveBytes (.can port) m

/-- The reception of a port with a change. -/
def State.setRx (s : State) (port : Fin 2) (x : Option IsoRx) : State := s.updCan port fun p => { p with rx := x }

/-- A flow-control frame of the VP6480 with its status: block size 0, STmin 0. -/
def State.sendFlow (s : State) (port : Fin 2) (status : Byte) : State :=
  s.updCan port fun p => { p with sent := p.sent ++ [canPad [status, 0#8, 0#8]] }

/-- A single frame: length in the first byte, or in the second after an escape. -/
def State.singleFrame (s : State) (port : Fin 2) (f : List Byte) : State :=
  let n := leField f 0 1 % 16
  let (n, body) := if n = 0 then (leField f 1 1, f.drop 2) else (n, f.drop 1)
  let s := s.setRx port none
  if n = 0 ∨ body.length < n then s else s.canMessage port (body.take n)

/-- A first frame: Continue To Send, or Overflow above 4,112 bytes, counted. -/
def State.firstFrame (s : State) (port : Fin 2) (f : List Byte) : State :=
  let n := leField f 0 1 % 16 * 256 + leField f 1 1
  let be (b : List Byte) : Nat := b.foldl (fun a x => 256 * a + x.toNat) 0
  let (n, body) := if n = 0 then (be ((f.drop 2).take 4), f.drop 6) else (n, f.drop 2)
  if messageMax < n then ((s.setRx port none).sendFlow port 0x32#8).bump Obj.canFramesIgnored port 0
  else ((s.setRx port none).setRx port (some { expected := n, got := body.take n, nextSn := 1 })).sendFlow port 0x30#8

/-- A consecutive frame of the message being received; one out of sequence ends the reception. -/
def State.consecutiveFrame (s : State) (port : Fin 2) (f : List Byte) : State :=
  match (s.signpost.can[port]).rx with
  | none => s
  | some x =>
    if leField f 0 1 % 16 ≠ x.nextSn then s.setRx port none
    else
      let got := (x.got ++ f.drop 1).take x.expected
      if got.length < x.expected then s.setRx port (some { x with got := got, nextSn := (x.nextSn + 1) % 16 })
      else (s.setRx port none).canMessage port got

/-- CAN_FRAME (R379, R380): a frame on the request identifier in use; classical frames are ignored and counted. -/
def execCanFrame (port : Fin 2) (identifier : Nat) (classical : Bool) (payload : List Byte) (s : State) : Out :=
  s.when (s.canUp port && (identifier : Int) == s.commOb Obj.canRequestId port) fun s =>
    let s := s.clearSent
    if classical then s.bump Obj.canFramesIgnored port 0
    else match leField payload 0 1 / 16 with
    | 0 => s.singleFrame port payload
    | 1 => s.firstFrame port payload
    | 2 => s.consecutiveFrame port payload
    | 3 => s.updCan port fun x => x.flowControl (leField payload 0 1 % 16) (leField payload 1 1)
    | _ => s

/-- Whether a bound of ISO 15765-2 has passed since the last frame of a transfer (R380). -/
def State.isoLate (s : State) (at_ : Nat) : Bool := decide (1000 ≤ s.msSince at_)

/-- ISO_TP_TIMEOUT (R380): a transfer of the port whose next frame has not come for 1,000 ms is abandoned; replies that wait begin. -/
def execIsoTpTimeout (port : Fin 2) (s : State) : Out :=
  s.when (s.canUp port) fun s => s.clearSent.updCan port fun x =>
    { x with rx := if s.isoLate x.rxAt then none else x.rx, tx := if s.isoLate x.txAt then none else x.tx }.sendWaiting

/-- CAN_BUS_OFF (R379). -/
def execCanBusOff (port : Fin 2) (s : State) : Out :=
  s.when (s.canUp port) fun s =>
    let s := s.updCan port fun x => { x with state := 3, rx := none, tx := none, toSend := [], sent := [] }
    (s.bump Obj.canBusOffCount port 0).report Isl.core Ev.signpostCanBusOff [((Client.can port).identity : Int), (port.val : Int)]

/-- CAN_BUS_OFF_RECOVERY (R379): ErrorActive with error counters at 0. -/
def execCanBusOffRecovery (port : Fin 2) (s : State) : Out :=
  s.when (s.running && (s.signpost.can[port]).state == 3) fun s =>
    s.updCan port fun x => { x with state := 1, txErrors := 0, rxErrors := 0 }

/-! ### Ethernet and IP (R382, R383) -/

/-- Whether the Ethernet carrier is in use with its link up. -/
def State.ethUp (s : State) : Bool := s.running && s.commOb Obj.ethEnable == 1 && s.signpost.eth.link != 0

/-- Whether the carrier speaks a version of IP. -/
def State.ipUp (s : State) (v6 : Bool) : Bool :=
  s.ethUp && if v6 then s.commOb Obj.ipv6Enable == 1 else s.commOb Obj.ipv4Address != 0

/-- Client slots of UDP (R383). -/
def udpSlots : Nat := 16

/-- Slot of a source address and port: its own, a free one, or the least recently used, whose stored replies and nonce go. -/
def State.udpSlot (s : State) (address port : Nat) : State × Fin 16 :=
  let l := s.signpost.eth.slots
  let use (s : State) (n : Nat) : State × Fin 16 :=
    (s.updEth fun x => { x with slots := (n, address, port) :: x.slots.filter fun e => e.1 != n }, Fin.ofNat 16 n)
  match l.find? fun e => e.2 == (address, port) with
  | some e => use s e.1
  | none => match (List.range udpSlots).find? fun n => !l.any fun e => e.1 == n with
    | some n => use s n
    | none =>
      let n := (l.getLast?.map fun e => e.1).getD 0
      let gone (c : ClientState) : Bool := c.client == Client.udp (Fin.ofNat 16 n)
      use { s with signpost := { s.signpost with clients := s.signpost.clients.filter fun c => !gone c } } n

/-- UDP_DATAGRAM (R370, R382, R383): a whole datagram, reassembled where it came in fragments. -/
def execUdpDatagram (sourceAddress sourcePort destPort : Nat) (v6 checksumZero : Bool) (payload : List Byte) (s : State) : Out :=
  s.when (s.ipUp v6) fun s =>
    let s := s.clearSent
    if (destPort : Int) != s.commOb Obj.udpPort || (v6 && checksumZero) || decide (payload.length < headerLength)
        || decide (messageMax < payload.length) then
      s.bump Obj.udpDropped 0 0
    else
      let (s, slot) := (s.bump Obj.udpRequests 0 0).udpSlot sourceAddress sourcePort
      s.arriveBytes (.udp slot) payload

/-- ARP_REQUEST (R382): answered for the IPv4 address in use. -/
def execArpRequest (sourceMac targetAddress : Nat) (s : State) : Out :=
  s.when (s.ipUp false && (targetAddress : Int) == s.commOb Obj.ipv4Address) fun s =>
    s.clearSent.updEth fun x => { x with sent := [.arpReply sourceMac targetAddress s.otp.mac] }

/-- Link-local address: FE80::/64 with the modified EUI-64 of `MacAddress` (R382): the universal bit inverted, FF FE in the middle. -/
def State.linkLocal (s : State) : Nat :=
  let mac := s.otp.mac % 2 ^ 48
  let flipped := Nat.xor mac (2 ^ 41)
  0xFE80 * 2 ^ 112 + (flipped / 2 ^ 24 * 2 ^ 40 + 0xFFFE * 2 ^ 24 + flipped % 2 ^ 24)

/-- The static global address in use; 0 none. -/
def State.globalAddress (s : State) : Nat :=
  let kept := (s.signpost.commPending.find? fun e => e.key == Obj.ipv6Address.key 0 0).map fun e => e.inUse.toNat
  let bytes := match kept with
    | some v => (List.range 16).map fun n => BitVec.ofNat 8 (v / 256 ^ n)
    | none => s.dom Obj.ipv6Address 0 0
  bytes.foldl (fun a b => 256 * a + b.toNat) 0

/-- Whether an IPv6 address is one of the VP6480's. -/
def State.ownV6 (s : State) (a : Nat) : Bool := a == s.linkLocal || (s.globalAddress != 0 && a == s.globalAddress)

/-- ICMP_ECHO (R382): ICMP and ICMPv6 echo requests for an own address are answered. -/
def execIcmpEcho (v6 : Bool) (source target : Nat) (payload : List Byte) (s : State) : Out :=
  s.when (s.ipUp v6 && if v6 then s.ownV6 target else (target : Int) == s.commOb Obj.ipv4Address) fun s =>
    s.clearSent.updEth fun x => { x with sent := [.echoReply v6 target source payload] }

/-- NEIGHBOUR_SOLICITATION (R382): answered with an advertisement for an own address. -/
def execNeighbourSolicitation (source target : Nat) (s : State) : Out :=
  s.when (s.ipUp true && s.ownV6 target) fun s =>
    s.clearSent.updEth fun x => { x with sent := [.advertisement source target s.otp.mac] }

/-- REASSEMBLY_TIMEOUT (R382): the fragments gathered so far are discarded, and the datagram with them; it is counted among the datagrams
dropped. -/
def execReassemblyTimeout (_slot : Fin 4) (s : State) : Out := s.when s.ethUp fun s => s.bump Obj.udpDropped 0 0

/-! ### Settings take effect (R381, R383) -/

/-- Whether the reply to a client has left. -/
def State.replyOut (s : State) (cl : Client) : Bool := match cl with
  | .can port => (s.signpost.can[port]).tx.isNone && (s.signpost.can[port]).toSend.isEmpty
  | _ => true

/-- CAN port after its settings changed: Off while it is not in use, ErrorActive when it comes into use. -/
def CanPort.settle (x : CanPort) (enabled : Bool) : CanPort :=
  if enabled then { x with state := if x.state = 0 then 1 else x.state } else { x with state := 0, rx := none, tx := none, toSend := [] }

/-- COMM_SETTINGS_CHANGE (R381, R383): the settings written at an index, whose replies are out, take effect. -/
def execCommSettingsChange (index : Nat) (s : State) : Out :=
  s.when s.running fun s =>
    let ready (e : CommPending) : Bool := e.key / 256 == index && s.replyOut e.client
    let l := s.signpost.commPending.filter ready
    let s := { s with signpost := { s.signpost with commPending := s.signpost.commPending.filter fun e => !ready e } }
    let s := s.forEach (allFin 2) fun s port =>
      if l.any (fun e => e.key == Obj.canEnable.key port 0) then s.updCan port fun x => x.settle (s.ob Obj.canEnable port == 1) else s
    s.forEach l fun s e => s.report Isl.core Ev.signpostCommChanged [(e.client.identity : Int), (index : Int)]

end Sys2Proof.Machine
end

