-- ==== Sys2Proof/Machine/Pulses.lean ====
section
/-! DEFINITION. The laser driver port (R211 to R221): where a slot starts, write pulses, the driver's registers and what holds the gates. -/

namespace Sys2Proof.Machine

/-! ### Slots (R42, R211) -/

/-- Offset from the start of a lane, walking from a lane on. -/
def offsetAt : Nat → Nat → Nat → Nat
  | 0, _, b => b
  | n + 1, lane, b => if b < bitsPerRev lane then b else offsetAt n (lane + 1) (b - bitsPerRev lane)

/-- The start of stream slot n of an area: lane, wobble count, and what is left in channel bits times 73,728 (R211). -/
def slotStart (a : RunArea) (n : Nat) : Nat × Nat × Nat :=
  let b := n * slotBits
  let lane := laneAt lanes a.origin b
  let x := offsetAt lanes a.origin b * 73728
  (lane, x / bitsPerRev lane, x % bitsPerRev lane)

/-! ### Write strategy (R215) -/

/-- One pulse in 1/32 of a channel bit from the start of the frame: the rise and fall of the peak gate and the fall of the cool gate, which rises as the
peak gate falls. -/
structure Pulse where
  rise : Int
  fall : Int
  cool : Int
deriving DecidableEq, Repr

/-- Runs of equal levels, in order: level and length. -/
def levelRuns : List Bool → List (Bool × Nat)
  | [] => []
  | b :: l => match levelRuns l with
    | (c, n) :: r => if b == c then (c, n + 1) :: r else (b, 1) :: (c, n) :: r
    | [] => [(b, 1)]

/-- Class of a mark of n channel bits: 2T, 3T, 4T, longer. -/
def markClass (n : Nat) : Nat := if n ≤ 2 then 0 else if n = 3 then 1 else if n = 4 then 2 else 3

/-- Class of the space before a mark: 2T, 3T, longer. -/
def spaceClass (n : Nat) : Nat := if n ≤ 2 then 0 else if n = 3 then 1 else 2

/-- Rise, fall and cooling length of the marks among runs that start at channel bit t after a space of s bits. -/
def marksOf (g : RunSettings) : Nat → Nat → List (Bool × Nat) → List (Int × Int × Int)
  | _, _, [] => []
  | t, s, (level, n) :: r =>
    if level then
      let m := markClass n
      (32 * t + g.topStart.getD (3 * m + spaceClass s) 0, 32 * (t + n - 1 : Nat) + g.endShift.getD m 0, g.coolLength.getD m 0)
        :: marksOf g (t + n) 0 r
    else marksOf g (t + n) n r

/-- The pulses of marks: cooling ends `CoolLength` after the fall or at the next rise (R215). -/
def pulsesOf : List (Int × Int × Int) → List Pulse
  | [] => []
  | (rise, fall, cool) :: r =>
    let stop := fall + cool
    { rise := rise, fall := fall, cool := (r.head?.map fun x => min stop x.1).getD stop } :: pulsesOf r

/-- The write pulses of a frame as NRZ levels; a mark that begins the frame counts as one after a space of 4T or more. -/
def framePulses (g : RunSettings) (levels : List Bool) : List Pulse := pulsesOf (marksOf g 0 4 (levelRuns levels))

/-- Levels of the peak and the cool gate at an instant of a frame, in 1/32 of a channel bit (R212). -/
def pulseLevels (l : List Pulse) (t : Int) : Bool × Bool :=
  (l.any fun x => decide (x.rise ≤ t ∧ t < x.fall), l.any fun x => decide (x.fall ≤ t ∧ t < x.cool))

/-! ### The driver's registers (R213, R218) -/

/-- An SPI frame of 24 bits: bit 23 a read, bits 22 to 16 the address, the data below. -/
def spiFrame (read : Bool) (address : Nat) (data : BitVec 16) : BitVec 24 :=
  BitVec.ofNat 24 (read.toNat * 2 ^ 23 + address % 128 * 65536 + data.toNat)

/-- Unit of the power correction: k_b - 1 in 10^-9. -/
def correctionUnit : Nat := 1000000000

/-- Target of a beam in 10^-6 of 0.01 mW: `PeakPower` times the root of the rate over 704 Mbit/s (R218). -/
def State.powerTarget (s : State) (g : BeamId) : Nat :=
  let peak := ((s.sides[g.pickup]).settings.peakPower.getD g.inPickup.val 0).toNat
  rndSqrt (peak * peak * (s.channels[g]).rate * 10 ^ 12 / 704000000)

/-- What the VP6480 has written into a register of the driver of a pickup: powers in 0.01 mW, lights; none for what it only reads. -/
def State.driverRegister (s : State) (p : PickupId) (address : Nat) : Option Int :=
  let x := s.sides[p]
  if address = 0x01 then some (s.ob Obj.readPowerGuide p)
  else if 0x02 ≤ address ∧ address ≤ 0x05 then some (s.ob Obj.readPower p (address - 2))
  else if h : 0x06 ≤ address ∧ address ≤ 0x09 then some (x.peakWritten[(⟨address - 6, by omega⟩ : Fin 4)])
  else if 0x0A ≤ address ∧ address ≤ 0x0D then some (x.settings.coolPower.getD (address - 10) 0)
  else if address = 0x0E then some (if (s.pickups[p]).readPower then 0x1F else 0)
  else none

/-- For a frame that a beam writes, the driver's PeakPower register takes the target times k_b (R218). -/
def State.writePower (s : State) (g : BeamId) : State :=
  let target := s.powerTarget g
  s.updS g.pickup fun x => { x with
    peakWritten := upd x.peakWritten g.inPickup fun _ =>
      rnd ((target : Int) * (correctionUnit + x.powerCorrection[g.inPickup])) (1000000 * correctionUnit)
    writtenFrames := upd x.writtenFrames g.inPickup (· + 1) }

/-! ### The gates (R219, R221) -/

/-- Whether the slot that a beam writes matches the position carried forward: layer, and lane from its start to its end. -/
def State.slotMatches (s : State) (g : BeamId) (r : Run) : Bool :=
  let k := s.pickups[g.pickup]
  let c := s.channels[g]
  let from_ := (slotStart r.area c.stream).1
  decide (k.layer = some r.layer ∧ from_ ≤ k.laneNow ∧ k.laneNow ≤ laneAt lanes r.area.origin (c.stream * slotBits + frameBits))

/-- Whether the rate predicted for a beam lies within 400 to 720 Mbit/s (R219). -/
def State.rateAllows (s : State) (g : BeamId) : Bool :=
  let k := s.pickups[g.pickup]
  let rate := rnd (k.wobbleRate * 1600000 * bitsPerRev k.laneNow) (73728 * 65536)
  decide (400000000 ≤ rate ∧ rate ≤ 720000000)

/-- Number of the first condition of R221 that fails for a pickup's run, in the order of its list. -/
def State.gateFailure (s : State) (p : PickupId) : Option Nat :=
  let x := s.sides[p]
  let k := s.pickups[p]
  let beams := (allFin 4).map fun b => p.beam b
  let lit := beams.filter fun g => (s.channels[g]).mode == .writing && (s.channels[g]).written != []
  match x.current with
  | none => some 0
  | some r =>
    if !r.armed then some 0
    else if k.engine != .following then some 1
    else if x.slipSincePass then some 2
    else if !lit.all (fun g => s.slotMatches g r) then some 3
    else if x.driverFault ≠ 0 then some 4
    else if !beams.all (fun g => (s.channels[g]).mode != .writing || s.rateAllows g) then some 5
    else none

/-- Levels of LDp_PGb and LDp_CGb at an instant of the frame that a beam writes, in 1/32 of a channel bit: low unless every condition of R221 holds. -/
def State.laserGates (s : State) (g : BeamId) (t : Int) : Bool × Bool :=
  let c := s.channels[g]
  if c.mode == .writing && s.gateFailure g.pickup == none then pulseLevels (framePulses (s.sides[g.pickup]).settings c.written) t
  else (false, false)

/-! ### What a run takes at its start (R245, R247) -/

/-- The settings that a run takes: RW objects and the strategy and powers of its layer. -/
def State.runSettings (s : State) (p : PickupId) (layer : Nat) : RunSettings :=
  let n := p.val * 4 + layer
  { verifyIterations := s.obN Obj.verifyMaxIterations, verifyErased := s.obN Obj.verifyMaxErased
    replaceAttempts := s.obN Obj.replaceAttempts, checkpointClusters := s.obN Obj.checkpointClusters
    powerShift := s.obN Obj.powerLoopShift, monitorFrames := s.obN Obj.powerMonitorFrames
    peakPower := (List.range 4).map fun b => s.ob Obj.peakPower n b, coolPower := (List.range 4).map fun b => s.ob Obj.coolPower n b
    topStart := (List.range 12).map fun j => s.ob Obj.topStart n j, endShift := (List.range 4).map fun m => s.ob Obj.endShift n m
    coolLength := (List.range 4).map fun m => s.ob Obj.coolLength n m }

end Sys2Proof.Machine
end

