-- ==== Sys2Proof/Machine/Channel.lean ====
section
/-! DEFINITION. Meanings of the commands of the read channel (chapter 4). -/

namespace Sys2Proof.Machine

/-- Whether a channel's samples are flagged: defect hold or a sequence (R161). -/
def State.held (s : State) (g : BeamId) : Bool := (s.pickups[g.pickup]).engine != .following

/-! ### Frame starts (R136, R138, R140, R146, R163, R168, R171) -/

/-- Carrier frequency of the wobble that SVp measures, in 2^-16 Hz: its advance in a tracking period of 625 ns (R58, R146). -/
def Pickup.carrier (k : Pickup) : Nat := k.wobbleRate * 1600000

/-- Channel rate that R146 predicts for a lane, in bit/s. -/
def predictedRate (carrier lane : Nat) : Nat := (rnd (carrier * bitsPerRev lane) (73728 * 65536)).toNat

/-- Acquisition starts: the loops take their acquisition settings and the predicted frequency, the window is wide (R146, R147,
R163). -/
def Channel.acquire (c : Channel) : Channel :=
  { c with mode := .acquiring, frameLock := false, pendingAcquire := false, acquiringLoops := true, acqSamples := 0, phase := 0, freq := 0
           expected := 192, wideWindow := true, misses := 0, sinceGood := none }

/-- Corner of the AC coupling in Hz (R138). -/
def acCornerHz (selected : Int) : Nat := if selected = 0 then 100000 else if selected = 1 then 300000 else 1000000

/-- The front end takes its settings at the predicted rate (R138, R140). -/
def State.setFrontEnd (s : State) (g : BeamId) (rate : Nat) : State :=
  s.updC g fun c => { c with
    rate := rate, acCorner := acCornerHz (s.chOb Obj.acCorner g), ctfBoost := (s.chOb Obj.ctfBoost g).toNat
    ctfCorner := (rnd (s.chOb Obj.ctfCornerRatio g * rate) (2 ^ 15)).toNat }

/-- A_b: the alignment delay of a beam, by the largest G of its pickup (R149). -/
def State.alignDelay (s : State) (g : BeamId) : Nat :=
  let most := (allFin 4).foldl (fun m b => max m (s.chOb Obj.guideToBeamDelay (g.pickup.beam b))) 0
  (most - s.chOb Obj.guideToBeamDelay g).toNat

/-- Data track that a beam reads: beam b track b (R26), or that of the beam beside it while BeamReassign has shifted the array (R196); none where
the beam lies on a guide track. -/
def readTrack (reassign : Int) (b : Fin 4) : Option Nat :=
  if reassign = 0 then some b.val
  else if 0 < reassign then (if b.val = 0 then none else some (b.val - 1))
  else if b.val = 3 then none else some (b.val + 1)

/-- rms of the phase error over the frame that ends, in 1/1,024 bit (R172). -/
def Channel.phaseRms (c : Channel) : Nat :=
  if c.phaseCount = 0 then 0 else min 65535 (rnd (rndSqrt (c.phaseSquares / c.phaseCount)) 1024).toNat

/-- The frame that ends is closed: its phase residual stands, flagged regions that no slot can need any more are dropped. -/
def Channel.endFrame (c : Channel) : Channel :=
  { c with inUse := [], itiRecorded := false, phaseResidual := c.phaseRms, phaseSquares := 0, phaseCount := 0, searched := false
           overflowed := false, slot := none, regions := c.regions.filter fun r => decide (c.place - 4 * frameBits ≤ r.2) }

/-- Whether a slot of the stream is read back in the pass that runs (R206). -/
def State.verifies (s : State) (p : PickupId) (system : Bool) (layer q k : Nat) : Bool :=
  let t := (trackOf q k).val
  let back := match (s.sides[p]).writeState with
    | .pass2 => decide (t < 2)
    | .pass3 => decide (2 ≤ t)
    | _ => false
  back && (s.runCluster? p layer q).any fun r => r.1.area.system == system

/-- Reading stops at the next cluster boundary while the workspace is full (R184). -/
def State.readingStopped (s : State) (p : PickupId) (layer q : Nat) : Bool :=
  (s.sides[p]).workspaceStopped && match s.read? p layer q with
    | some r => r.sectors.all fun x => decide (x.c0 = .pending ∧ x.c1 = .pending)
    | none => true

/-- A wanted frame takes a free slot, or is handed over as Overflow (R168). -/
def State.storeFrame (s : State) (g : BeamId) (stream : Nat) : State :=
  let p := g.pickup
  let k := s.pickups[p]
  let layer := k.layer.getD 0
  let system := decide (k.laneNow < 256)
  let q := stream / sectors
  let sector := stream % sectors
  let f : FrameSlot := {
    system := system, base := stream * slotBits, soft := [], layer := layer, q := q, k := sector, searched := false, status := .flywheel
    matched := false, chain := none, align := 192, align2 := none, score1 := 0, score2 := 0, triedSecond := false, offered := 0
    erased0 := 0, erased1 := 0, verify := s.verifies p system layer q sector }
  match (allFin 3).find? (fun i => ((s.channels[g]).slots[i]).isNone) with
  | some i => s.updC g fun c => { c with slot := some i, slots := upd c.slots i (fun _ => some f) }
  | none =>
    let s := (s.bump Obj.frameStoreOverflows g 0).report (Isl.ch g) Ev.chFrameStoreOverflow [(g.val : Int)]
    (s.updC g fun c => { c with overflowed := true, lastStatus := .overflow }).handFrame p { f with status := .overflow } none

/-- A writing beam builds the frame of its stream slot from the run's data, and its driver takes the power of the frame (R210, R218). -/
def State.buildFrame (s : State) (g : BeamId) (stream : Nat) : State :=
  let p := g.pickup
  match s.runCluster? p ((s.pickups[p]).layer.getD 0) (stream / sectors) with
  | some (r, c) => (s.updC g fun x => { x with written := c.frame r.area r.layer p.side (stream % sectors) }).writePower g
  | none => s.updC g fun x => { x with written := [] }

/-- FRAME_START of a stream row on the track that the beam reads (R42, R146): pending settings take effect; the rate is predicted; a channel that
is to acquire does so when the pickup follows; a beam that writes builds its frame. Frames lie in the system and data areas, from lane 32
(R44). -/
def execFrameStart (g : BeamId) (row : Nat) (wanted : Bool) (s : State) : Out :=
  s.when (s.chUp g && (s.channels[g]).mode != .off) fun s =>
    let p := g.pickup
    let k := s.pickups[p]
    let s := s.updC g Channel.endFrame
    let c := s.channels[g]
    let rate := predictedRate k.carrier k.laneNow
    let s := s.setFrontEnd g rate
    match readTrack k.reassign g.inPickup with
    | none => s.updC g fun c => { c with mode := if c.mode == .locked then .acquiring else c.mode, frameLock := false, pendingAcquire := true }
    | some track =>
      let stream := 4 * row + track
      if c.mode == .writing then (s.updC g fun c => { c with stream := stream }).buildFrame g stream
      else if c.mode == .idle && s.held g then s
      else if rate < 200000000 ∨ 720000000 < rate then
        (s.updC g fun c => { c with mode := .idle, frameLock := false, pendingAcquire := true }).report
          (Isl.ch g) Ev.chRateOutOfRange [(g.val : Int), (rate : Int)]
      else
        let s := if (c.mode == .idle || c.pendingAcquire) && !s.held g then s.updC g Channel.acquire else s
        let delay := s.alignDelay g
        let s := s.updC g fun c => { c.moveTo (stream * slotBits) delay with stream := stream, wanted := wanted }
        if wanted && decide (32 ≤ k.laneNow) && !s.readingStopped p (k.layer.getD 0) (stream / sectors) then s.storeFrame g stream else s

/-! ### Waymarks and headers (R163 to R167) -/

/-- Score of a start: agreements in 48 bits of a list of decisions. -/
def waymarkScore (nrz : List Bool) (at_ : Nat) : Nat :=
  ((List.range 48).filter fun i => nrz.getD (at_ + i) false == waymark.getD i false).length

/-- Whether candidate a stands before candidate b: higher score, then nearer the expected start, then later. Candidates are
offset from the expected start, and score. -/
def candidateBefore (a b : Int × Nat) : Bool :=
  decide (b.2 < a.2) || (a.2 == b.2 && (decide (a.1.natAbs < b.1.natAbs) || (a.1.natAbs == b.1.natAbs && decide (b.1 ≤ a.1))))

/-- The candidate that stands before all others. -/
def best (l : List (Int × Nat)) : Option (Int × Nat) :=
  l.foldl (fun acc b => match acc with
    | none => some b
    | some a => if candidateBefore a b then some a else some b) none

/-- The first two candidates of a window of half-width w. -/
def candidates (nrz : List Bool) (w minScore : Nat) : List (Int × Nat) :=
  let all := (List.range (2 * w + 1)).filterMap fun (i : Nat) =>
    let score := waymarkScore nrz i
    if minScore ≤ score then some ((i : Int) - (w : Int), score) else none
  match best all with
  | none => []
  | some a => a :: (best (all.filter fun b => b ≠ a)).toList

/-- What the alignment of a frame found. -/
structure Alignment where
  status : FrameStatus
  align : Int
  align2 : Option Int
  score1 : Nat
  score2 : Nat
  header : Option Header

/-- Place of the newest decision and of the newest soft value (R135). -/
def Channel.decidedTo (c : Channel) : Int := c.place - 1 - latencyD - c.delay
def Channel.softTo (c : Channel) : Int := c.place - 1 - latencyS - c.delay

/-- Decision of a channel bit, and whether the beam was blank there. -/
def Channel.decisionAt (c : Channel) (place : Int) : Bool × Bool :=
  let i := c.decidedTo - place
  let d := if 0 ≤ i then c.levels.getD i.toNat (-1, false) else (-1, false)
  (decide (0 < d.1), d.2)

/-- Soft value of a channel bit that the channel still holds: 0 where a flag covers it (R160). -/
def Channel.softAt (c : Channel) (guard wide place : Int) : Int :=
  let i := c.softTo - place
  if i < 0 ∨ c.flaggedAt guard wide place then 0 else c.softs.getD i.toNat 0

/-- The header at a candidate: its 256 coded bits, a byte being an erasure when any of its bits is erased (R167). -/
def headerAt (soft : Int → Int) : Option Header :=
  decodeHeader (llrBytes (codedLlrs soft 0 256))
    ((List.range 32).filter fun i => (List.range 8).any fun b => codedErased soft (8 * i + b))

/-- The alignment of R164 for an expected start: from the decisions of the window and the header at a start. -/
def alignFrame (expected : Int) (w minScore : Nat) (nrz : List Bool) (header : Int → Option Header) : Alignment :=
  match candidates nrz w minScore with
  | [] => { status := .flywheel, align := expected, align2 := none, score1 := 0, score2 := 0, header := none }
  | (a1, s1) :: rest =>
    let second := rest.head?.map fun x => expected + x.1
    let score2 := (rest.head?.map fun x => x.2).getD 0
    let at1 := expected + a1
    match header at1 with
    | some h => { status := .headerFirst, align := at1, align2 := second, score1 := s1, score2 := score2, header := some h }
    | none =>
      match second.bind fun at2 => (header at2).map fun h => (at2, h) with
      | some (at2, h) => { status := .headerSecond, align := at2, align2 := some at1, score1 := s1, score2 := score2, header := some h }
      | none => { status := .headerInvalid, align := at1, align2 := second, score1 := s1, score2 := score2, header := none }

/-- Widening of the envelope flags and of the guide flags of a beam: `ErasureGuard`, and with it 8 bits and the crossing of 120 ns at the present
rate (R157, R158). -/
def State.guards (s : State) (g : BeamId) : Int × Int :=
  let guard := s.chOb Obj.erasureGuard g
  (guard, guard + 8 + (120 * ((s.channels[g]).rate : Int) + 999999999) / 1000000000)

/-- What the waymark search of the present frame finds: Blank where the beam was blank over the whole window (R166). -/
def State.searchFrame (s : State) (g : BeamId) (half : Nat) : Alignment :=
  let c := s.channels[g]
  let base : Int := c.stream * slotBits
  let window := (List.range (2 * half + 48)).map fun i => c.decisionAt (base + c.expected - half + i)
  let soft (a i : Int) : Int := c.softAt (s.guards g).1 (s.guards g).2 (base + a + 48 + i)
  let a := alignFrame c.expected half (s.chOb Obj.waymarkMinScore g).toNat (window.map fun x => x.1) fun a => headerAt (soft a)
  if window.all fun x => x.2 then { a with status := .blank, align := c.expected, align2 := none, header := none } else a

/-- Counter of a frame status (R172). -/
def State.countStatus (s : State) (g : BeamId) (st : FrameStatus) : State :=
  match st with
  | .headerFirst => s.bump Obj.headerFirstCount g 0
  | .headerSecond => s.bump Obj.secondCandidateCount g 0
  | .headerInvalid => s.bump Obj.headerInvalidCount g 0
  | .flywheel => s.bump Obj.flywheelCount g 0
  | _ => s

/-- HEADER_DECODE's comparison with the expected address (R39, R167). -/
def State.checkHeader (s : State) (g : BeamId) (h : Header) : State × Bool :=
  let p := g.pickup
  let c := s.channels[g]
  let layer := (s.pickups[p]).layer.getD 0
  let q := c.stream / sectors
  let k := c.stream % sectors
  if h.layer = layer ∧ h.side = p.side ∧ h.q = q ∧ h.sector = k then (s, true)
  else
    ((s.bump Obj.headerMismatchCount g 0).report (Isl.ch g) Ev.chHeaderMismatch
      [(g.val : Int), (layer : Int), (p.side : Int), (q : Int), (k : Int), (h.layer : Int), (h.side : Int), (h.q : Int), (h.sector : Int)],
     false)

/-- Distance to the last valid and matching header, after a frame (R187). -/
def chainAfter (before : Option Nat) (st : FrameStatus) (matched : Bool) : Option Nat :=
  match st with
  | .headerFirst => if matched then some 0 else none
  | .headerSecond => if matched then some 0 else none
  | .headerInvalid => before.map (· + 1)
  | .flywheel => before.map (· + 1)
  | _ => none

/-- What a search leaves in the channel: alignment, misses, status and its counter; an Overflow frame keeps its status (R164, R168, R172). -/
def State.noteSearch (s : State) (g : BeamId) (a : Alignment) : State :=
  let stored := !(s.channels[g]).overflowed
  let miss := a.status == .flywheel || a.status == .blank
  let s := s.updC g fun c => { c with
    wideWindow := false, searched := true, misses := if miss then c.misses + 1 else 0, expected := a.align
    lastStatus := if stored then a.status else c.lastStatus }
  let s := if !stored && a.status != .headerSecond then s else s.countStatus g a.status
  if a.status == .headerSecond then
    s.report (Isl.ch g) Ev.chSecondCandidate [(g.val : Int), a.align2.getD 0, (a.score1 : Int), a.align, (a.score2 : Int)]
  else s

/-- A valid header sets FrameLock (R165). -/
def State.lockFrame (s : State) (g : BeamId) (header : Option Header) : State :=
  let c := s.channels[g]
  if header.isSome && !c.frameLock then
    (s.updC g fun c => { c with frameLock := true, mode := .locked }).report (Isl.ch g) Ev.chLockAcquired [(g.val : Int), (c.stream : Int)]
  else s

/-- WAYMARK_SEARCH (R164): once per frame, when the decisions of the window and the soft values of a header at its last start are in hand. -/
def execWaymarkSearch (g : BeamId) (s : State) : Out :=
  let c := s.channels[g]
  let half := if c.wideWindow then 32 else (s.chOb Obj.waymarkWindow g).toNat
  s.when (s.chUp g && (c.mode == .acquiring || c.mode == .locked) && !c.searched
      && decide ((c.stream * slotBits : Nat) + c.expected + half + 48 + 384 ≤ c.softTo)) fun s =>
    let a := s.searchFrame g half
    let s := s.noteSearch g a
    let (s, matched) := match a.header with | some h => s.checkHeader g h | none => (s, false)
    let s := s.lockFrame g a.header
    let chain := chainAfter c.sinceGood a.status matched
    let s := s.updC g fun c => { c with sinceGood := chain }
    match c.slot with
    | none => s
    | some i =>
      match c.slots[i] with
      | none => s
      | some f =>
        let f := { f with searched := true, status := a.status, matched := matched, chain := chain, align := a.align
                          align2 := if a.status == .headerInvalid then a.align2 else none, score1 := a.score1, score2 := a.score2 }
        let s := s.updC g fun c => { c with slots := upd c.slots i (fun _ => some f) }
        (s.handFrame g.pickup f (a.header.map fun h => h.serial)).settle g.pickup f.layer f.q

/-- LOCK_LOST (R165). -/
def execLockLost (g : BeamId) (s : State) : Out :=
  let c := s.channels[g]
  s.when (s.chUp g && (c.mode == .acquiring || c.mode == .locked) && decide (s.chOb Obj.waymarkMissLimit g ≤ c.misses)) fun s =>
    ((s.updC g fun c => { c with frameLock := false, mode := .acquiring, pendingAcquire := true, misses := 0, sinceGood := none }).bump
      Obj.lockLossCount g 0).report (Isl.ch g) Ev.chLockLost [(g.val : Int)]

/-! ### Codewords and slots (R156, R162, R168, R169) -/

/-- The slot whose frame has a codeword next in turn: the frame before the present one first. -/
def Channel.offerSlot (c : Channel) (h : Fin 2) : Option (Fin 3 × FrameSlot) :=
  let fits (i : Fin 3) : Option (Fin 3 × FrameSlot) := match c.slots[i] with
    | some f => if !f.offered.getLsbD h.val && f.complete h then some (i, f) else none
    | none => none
  match (allFin 3).findSome? (fun i => if c.slot = some i then none else fits i) with
  | some r => some r
  | none => c.slot.bind fits

/-- CODEWORD_OFFER (R169): once the soft value of its last channel bit is in the store, the flags are applied and the erased coded bits counted
(R160, R162); a codeword with more than `AbandonBits` is Abandoned (R181). -/
def execCodewordOffer (g : BeamId) (half : Fin 2) (s : State) : Out :=
  s.when (s.chUp g) fun s =>
    let c := s.channels[g]
    match c.offerSlot half with
    | none => s
    | some (i, f) =>
      let f := (f.applyFlags c (s.guards g).1 (s.guards g).2 half)
      let n := f.erasedIn half
      let f := { f with offered := f.offered ||| BitVec.ofNat 2 (half.val + 1)
                        erased0 := if half = 0 then n else f.erased0, erased1 := if half = 1 then n else f.erased1 }
      let s := s.updC g fun c => { c with slots := upd c.slots i (fun _ => some f) }
      let s := s.bump Obj.erasedCodedBits g 0 n
      let s := if half = 1 then s.bump Obj.framesStored g 0 else s
      s.offerCodeword g i f half f.triedSecond

/-- Whether a job reads a slot. -/
def Job.uses (j : Job) (g : BeamId) (i : Fin 3) : Bool := j.beam == g && j.slot == some i

/-- FRAME_SLOT_RELEASE (R168): once no codeword of the slot waits or is at work. -/
def execFrameSlotRelease (g : BeamId) (slot : Fin 3) (s : State) : Out :=
  let busy := s.decoding.queue.any (fun j => j.uses g slot)
    || (allFin 24).any fun d => match s.decoding.decoders[d] with | some j => j.uses g slot | none => false
  s.when (s.chUp g && !busy) fun s => s.updC g fun c => { c with
    slots := upd c.slots slot (fun _ => none), slot := if c.slot = some slot then none else c.slot }

/-! ### Erasure flags (R157 to R160) -/

/-- ENVELOPE_FLAG: a run that has become long enough sets the flag from its first sample or ends it (R157, R159). -/
def execEnvelopeFlag (g : BeamId) (s : State) : Out :=
  let c := s.channels[g]
  s.when (s.chUp g && c.mode != .off && c.mode != .writing) fun s =>
    match c.envDue with
    | [] => s
    | (true, bit) :: rest =>
      (s.updC g fun c => { c with envDue := rest, flaggedFrom := some bit, envFlag := true }).bump Obj.envDropRuns g 0
    | (false, bit) :: rest => s.updC g fun c => { c with
        envDue := rest, flaggedFrom := none, envFlag := false
        regions := c.regions ++ (c.flaggedFrom.toList.map fun a => (a - (s.guards g).1, bit - 1 + (s.guards g).1)) }

/-- GUIDE_FLAG: a run of guide samples that has become long enough sets the flag from its first sample or ends it (R158). -/
def execGuideFlag (g : BeamId) (s : State) : Out :=
  let c := s.channels[g]
  s.when (s.chUp g && c.mode != .off && c.mode != .writing) fun s =>
    match c.guideDue with
    | [] => s
    | (true, bit) :: rest =>
      (s.updC g fun c => { c with guideDue := rest, guideFrom := some bit, guideFlagged := true }).bump Obj.guideDropRuns g 0
    | (false, bit) :: rest => s.updC g fun c => { c with
        guideDue := rest, guideFrom := none, guideFlagged := false
        regions := c.regions ++ (c.guideFrom.toList.map fun a => (a - (s.guards g).2, bit - 1 + (s.guards g).2)) }

/-! ### Adaptive loops (R139, R141 to R152) -/

/-- The hold flag of R161: it lasts from the first sample of a hold or a sequence to the one before the pickup follows again. -/
def Channel.holdFlag (c : Channel) (held : Bool) : Channel :=
  match held, c.holdFrom with
  | true, none => { c with holdFrom := some c.place }
  | false, some a => { c with holdFrom := none, regions := c.regions ++ [(a, c.place - 1)] }
  | _, _ => c

/-- Settings of the stages of a beam, from the objects in force (R171) and a detour's step of `FirMuShift` (R192). -/
def State.loopSettings (s : State) (g : BeamId) : LoopSettings :=
  let c := s.channels[g]
  let k := s.pickups[g.pickup]
  let n (r : Row) : Nat := (s.chOb r g).toNat
  { targetScale := s.chOb Obj.targetScale g, llrScale := s.chOb Obj.llrScale g
    offsetShift := n Obj.offsetMuShift, wobbleShift := n Obj.wobbleMuShift, wobbleReject := decide (n Obj.wobbleRejectEnable = 1)
    firShift := n Obj.firMuShift - k.detourEq, firAdapt := decide (n Obj.firAdaptEnable = 1)
    kp := n (if c.acquiringLoops then Obj.timingAcqKpShift else Obj.timingKpShift)
    ki := n (if c.acquiringLoops then Obj.timingAcqKiShift else Obj.timingKiShift)
    itiShift := n Obj.itiMuShift, itiAdapt := decide (n Obj.itiAdaptEnable = 1), itiLimit := s.chOb Obj.itiLimit g
    blankLevel := s.chOb Obj.blankLevel g, dropLevel := s.chOb Obj.envDropLevel g, dropCount := n Obj.envDropCount
    guard := (s.guards g).1, wide := (s.guards g).2, relockBits := n Obj.timingRelockBits
    wobblePhase := k.wobbleFrac, revBits := bitsPerRev k.laneNow, gainFactor := gainFactor c.gain }

/-- The four beams of a pickup as one of them sees them: a term is applied for a Locked beam that neither writes nor is blank (R151). -/
def State.neighbours (s : State) (g : BeamId) : List Neighbour :=
  (allFin 4).map fun j =>
    let b := g.pickup.beam j
    let o := s.channels[b]
    { chan := o, index := j.val, applied := decide (j ≠ g.inPickup) && o.mode == .locked && !o.blank
      guard := (s.guards b).1, wide := (s.guards b).2 }

/-- The gain after 16 codes: it holds at flagged samples, under `AgcHold` and while the beam is blank (R139). -/
def State.nextGain (s : State) (g : BeamId) (codes : List Int) (flagged : Bool) : Int :=
  let c := s.channels[g]
  let shift := s.chOb Obj.agcMuShift g - if c.acquiringLoops then 3 else 0
  let absSum : Int := codes.foldl (fun acc x => acc + (x.natAbs : Int)) 0
  if flagged || decide (s.chOb Obj.agcHold g = 1) || c.blank then c.gain else agcGain c.gain (s.chOb Obj.agcTarget g) shift absSum

/-- AGC_UPDATE (R139): 16 codes of the ADC pass the chain, and the gain follows their mean. -/
def execAgcUpdate (g : BeamId) (codes : List Int) (s : State) : Out :=
  let c := s.channels[g]
  s.when (s.chUp g && (c.mode == .acquiring || c.mode == .locked) && decide (codes.length = 16)) fun s =>
    let s := s.updC g fun c => { c.holdFlag (s.held g) with
      edgeN := s.gridN, sinceEdge := if c.edgeN = s.gridN then c.sinceEdge else 0 }
    let u := s.loopSettings g
    let start := (s.channels[g]).place
    let c' := codes.foldl (fun c x => c.sample u (s.neighbours g) x) s.channels[g]
    let flagged := (List.range 16).any fun i => c'.flaggedAt u.guard u.wide (start + i)
    let gain := s.nextGain g codes flagged
    let atEnd := decide (gain = -600 * fine ∨ gain = 3000 * fine)
    s.updC g fun _ => { c' with gain := gain, limitRun := if atEnd then c'.limitRun + 16 else 0, agcLimited := atEnd && c'.agcLimited }

/-- AGC_LIMIT (R139): the gain has sat at an end of its span for 65,536 samples; recorded once for each such stay. -/
def execAgcLimit (g : BeamId) (s : State) : Out :=
  s.when (s.chUp g && decide (65536 ≤ (s.channels[g]).limitRun) && !(s.channels[g]).agcLimited) fun s =>
    (s.updC g fun c => { c with agcLimited := true }).report (Isl.ch g) Ev.chAgcLimit [(g.val : Int)]

/-- ITI_FRAC_DELAY_STEP (R150): after 65,536 unflagged samples one step of 1/64 bit toward the least mean ε², or none, within ±1 bit; on equal
errors the present delay stays. -/
def execItiFracDelayStep (g : BeamId) (j : Fin 4) (s : State) : Out :=
  let f := (s.channels[g]).fracSums[j]
  s.when (s.chUp g && decide (j ≠ g.inPickup) && decide (65536 ≤ f.count)) fun s =>
    let d : Int := if f.here ≤ f.minus ∧ f.here ≤ f.plus then 0 else if f.minus < f.plus then -1 else 1
    s.updC g fun c => { c with
      frac := modifyAt c.frac j.val fun f => clampInt (-64) 64 (f + d), fracSums := upd c.fracSums j fun _ => {} }

/-- ITI_LIMIT (R152): once per frame. -/
def execItiLimit (g : BeamId) (j : Fin 4) (s : State) : Out :=
  let c := s.channels[g]
  let v := c.coupling.getD j.val 0
  s.when (s.chUp g && decide (j ≠ g.inPickup) && !c.itiRecorded && decide (s.chOb Obj.itiLimit g * fine ≤ (v.natAbs : Int))) fun s =>
    (s.updC g fun c => { c with itiRecorded := true }).report (Isl.ch g) Ev.chItiLimit
      [(g.val : Int), (j.val : Int), rnd v (2 ^ 20)]

/-! ### Timing (R146 to R148) -/

/-- TIMING_ACQ_END (R147): `TimingAcqBits` samples after acquisition started. -/
def execTimingAcqEnd (g : BeamId) (s : State) : Out :=
  let c := s.channels[g]
  s.when (s.chUp g && c.acquiringLoops && decide (s.chOb Obj.timingAcqBits g ≤ c.acqSamples)) fun s =>
    s.updC g fun c => { c with acquiringLoops := false }

/-- TIMING_RELOCK (R148): a run of flagged samples longer than `TimingRelockBits` has ended; FIR, cancellation and frame alignment keep their
state. -/
def execTimingRelock (g : BeamId) (s : State) : Out :=
  let c := s.channels[g]
  s.when (s.chUp g && (c.mode == .acquiring || c.mode == .locked) && c.relockDue) fun s =>
    s.updC g fun c => { c with acquiringLoops := true, acqSamples := 0, relockDue := false }

/-- Frequency of the timing loop against the prediction, in ppm (R146, R172). -/
def Channel.ppm (c : Channel) : Int := rnd (c.freq * 1000000) (2 ^ 20)

/-- TIMING_UNLOCK (R146): the loop has departed from the prediction by more than `TimingPullRange`. -/
def execTimingUnlock (g : BeamId) (s : State) : Out :=
  let c := s.channels[g]
  s.when (s.chUp g && (c.mode == .acquiring || c.mode == .locked) && !c.pendingAcquire
      && decide (s.chOb Obj.timingPullRange g < (c.ppm.natAbs : Int))) fun s =>
    ((s.updC g fun c => { c with pendingAcquire := true }).bump Obj.timingUnlockCount g 0).report
      (Isl.ch g) Ev.chTimingUnlock [(g.val : Int), c.ppm]

/-! ### Wobble amplitudes (R143) -/

/-- W of a beam since the last skew edge, in Q1.15 of the ADC's full scale: the mean of √(I² + Q²) over the VGA's factor. -/
def Channel.wobbleW (c : Channel) : Nat :=
  if c.wobbleCount = 0 then c.wobbleAmplitude else (clampInt 0 32767 (rnd c.wobbleSum (2 ^ 12 * c.wobbleCount))).toNat

/-- WOBBLE_AMPLITUDE_POST: at a skew sampling edge, every eighth of the channel's copy of n (R137, R59), the amplitudes are averaged; the outer
beams post theirs unless they write (R143). -/
def execWobbleAmplitudePost (p : PickupId) (s : State) : Out :=
  s.when (s.svUp p && decide (s.gridN % 8 = 0)) fun s =>
    let s := s.updChannels p fun c =>
      if c.mode == .off || c.mode == .writing then c
      else { c with wobbleAmplitude := c.wobbleW, wobbleSum := 0, wobbleCount := 0 }
    let posts (b : Fin 4) : Option Nat :=
      let c := s.channels[p.beam b]
      if c.mode == .off || c.mode == .writing then none else some c.wobbleAmplitude
    s.updP p fun k => { k with postedW0 := posts 0, postedW3 := posts 3 }

end Sys2Proof.Machine
end

