-- ==== Sys2Proof/Machine/Decoding.lean ====
section
/-! DEFINITION. Meanings of the commands of decoding and the detour ladder (chapter 5). -/

namespace Sys2Proof.Machine

/-! ### The pool (R179 to R184) -/

/-- The codeword that the pool takes next: first-pass, then cluster decode, then detours; the oldest of the class (R183). -/
def Decoding.takes (d : Decoding) : Option Job :=
  [PoolClass.firstPass, .cluster, .detour].findSome? fun cls => d.queue.find? fun j => j.cls == cls

/-- A codeword as a decoder starts it: with the LLRs fetched from the slot that holds its frame, and the settings in force (R179, R201). -/
def State.fetched (s : State) (j : Job) : Job :=
  match j.slot.bind fun i => (s.channels[j.beam]).slots[i] with
  | some f => { j with llrs := f.llrs j.half, limit := s.obN Obj.ldpcMaxIterations, offset := s.obN Obj.ldpcOffset }
  | none => j

/-- DECODER_DISPATCH (R183): an idle decoder takes the next codeword. -/
def execDecoderDispatch (d : DecoderId) (s : State) : Out :=
  s.when (s.memUp && (s.decoding.decoders[d]).isNone) fun s =>
    match s.decoding.takes with
    | none => s
    | some j => { s with decoding := { s.decoding with
        decoders := upd s.decoding.decoders d (fun _ => some (s.fetched j)), queue := s.decoding.queue.erase j } }

/-- SECOND_ALIGNMENT_OFFER: the codewords that have been offered are offered at the second candidate, the others will be there (R164). -/
def State.offerSecond (s : State) (g : BeamId) (i : Fin 3) (f : FrameSlot) : State :=
  let f' := { f with triedSecond := true, align := f.align2.getD f.align, align2 := some f.align }
  let f' := { f' with erased0 := f'.erasedIn 0, erased1 := f'.erasedIn 1 }
  let s := s.updC g fun c => { c with slots := upd c.slots i (fun _ => some f') }
  s.forEach ((allFin 2).filter fun h => f.offered.getLsbD h.val) fun s h => s.offerCodeword g i f' h true

/-- A codeword converged at the second candidate: the frame's alignment is taken from it, and the next frame's expected start while that frame has not
been searched (R163 to R165). -/
def State.confirmSecond (s : State) (g : BeamId) (i : Fin 3) (f : FrameSlot) : State :=
  let s := s.updC g fun c =>
    let base : Int := c.stream * slotBits
    { c with
      slots := upd c.slots i (fun _ => some { f with align2 := none })
      expected := if f.base = base ∨ (f.base + frameBits = base ∧ !c.searched) then f.align else c.expected }
  (s.bump Obj.secondCandidateCount g 0).report (Isl.ch g) Ev.chSecondCandidate
    [(g.val : Int), f.align2.getD 0, (f.score1 : Int), f.align, (f.score2 : Int)]

/-- A first-pass codeword ends Converged, or Failed with its LLRs stored (R180, R184, R185). -/
def State.endFirstPass (s : State) (j : Job) (r : DecodeResult) : State :=
  let p := j.beam.pickup
  if j.orphan then s
  else if r.converged then
    (s.updSector p j.layer j.q j.k fun x => x.setHalf j.half (.converged r.info)).settle p j.layer j.q
  else
    let s := s.bump Obj.codewordsFirstPassFailed 0 0
    let s := s.updSector p j.layer j.q j.k fun x => x.setHalf j.half (.failed r.unsatisfied)
    (s.keepLlrs p j.layer j.q j.k j.half j.llrs).settle p j.layer j.q

/-- The end of a codeword from a slot: a failure at the first candidate of a frame without a valid header leads to the second one (R164); a
codeword offered there is not taken at the first one again (R165). -/
def State.firstPassDone (s : State) (j : Job) (r : DecodeResult) : State :=
  let g := j.beam
  let s := s.bump Obj.codewordsDecoded 0 0
  match j.slot.bind fun i => ((s.channels[g]).slots[i]).map fun f => (i, f) with
  | none => s
  | some (i, f) =>
    if j.verifying then s.verifyCodeword g.pickup f j.half r
    else if !r.converged && f.status == .headerInvalid && !f.triedSecond && f.align2.isSome then s.offerSecond g i f
    else if !r.converged && f.triedSecond && !j.second then s
    else
      let s := if r.converged && j.second && f.align2.isSome then s.confirmSecond g i f else s
      if j.system then s else s.endFirstPass j r

/-- One re-decode of a cluster fewer is at work; the round ends with the last one (R188). -/
def State.redecodeLeft (s : State) (p : PickupId) (layer q : Nat) : State :=
  let s := s.updRead p layer q fun x => { x with queued := x.queued - 1 }
  match s.read? p layer q with
  | none => s
  | some x => if x.queued = 0 && x.decoding then s.roundEnd p layer q else s.settle p layer q

/-- Saturated sum of LLRs (R194). -/
def sumLlrs (a b : List Int) : List Int := (a.zip b).map fun p => clampInt (-31) 31 (p.1 + p.2)

/-- A reread codeword whose new LLRs alone fail is decoded from their sum with the stored ones; the workspace keeps the LLRs of the attempt that
ended with fewer unsatisfied checks, those of the new ones on a tie (R194). -/
def State.rereadFailed (s : State) (j : Job) (r : DecodeResult) : State :=
  let p := j.beam.pickup
  let stored := (((s.read? p j.layer j.q).bind fun x => x.sectors.find? fun x => x.k == j.k).map fun x => x.llrs j.half).getD []
  let store (n : Nat) (l : List Int) : State :=
    ((s.updSector p j.layer j.q j.k fun x => x.setHalf j.half (.failed n)).keepLlrs p j.layer j.q j.k j.half l).redecodeLeft p j.layer j.q
  match j.alone with
  | some (n, l) => if r.unsatisfied < n then store r.unsatisfied j.llrs else store n l
  | none =>
    if stored.isEmpty then store r.unsatisfied j.llrs
    else s.queueJob { j with slot := none, alone := some (r.unsatisfied, j.llrs), llrs := sumLlrs j.llrs stored }

/-- The end of a re-decode of a cluster decode or a detour (R188, R194). -/
def State.redecodeDone (s : State) (j : Job) (r : DecodeResult) : State :=
  let p := j.beam.pickup
  if j.orphan then s
  else if r.converged then
    (s.updSector p j.layer j.q j.k fun x => x.setHalf j.half (.converged r.info)).redecodeLeft p j.layer j.q
  else if j.slot.isSome || j.alone.isSome then s.rereadFailed j r
  else s.redecodeLeft p j.layer j.q

/-- CODEWORD_DECODE_DONE (R180): the decoder runs its codeword to the end and unloads the result. -/
def execCodewordDecodeDone (d : DecoderId) (s : State) : Out :=
  s.when s.memUp fun s =>
    match s.decoding.decoders[d] with
    | none => s
    | some j =>
      let r := ldpcDecode j.llrs j.offset j.limit
      let s := { s with decoding := { s.decoding with decoders := upd s.decoding.decoders d (fun _ => none) } }
      let s := s.bump Obj.iterationsTotal 0 0 r.iterations
      if j.cls = .firstPass then s.firstPassDone j r else s.redecodeDone j r

/-- WORKSPACE_RESUME: one of the two clusters is resolved; the third one is stored and reading goes on (R184). -/
def execWorkspaceResume (p : PickupId) (s : State) : Out :=
  s.when (s.memUp && (s.sides[p]).workspaceStopped && decide ((s.sides[p]).workspace < 2)) fun s =>
    let waits (r : ClusterRead) : Bool := !r.inWorkspace && !r.storedCodewords.isEmpty
    match (s.sides[p]).reads.find? waits with
    | none => (s.updS p fun x => { x with workspaceStopped := false }).readNext p
    | some r =>
      ((s.updS p fun x => { x with workspaceStopped := false }).updRead p r.layer r.q fun r => { r with inWorkspace := true }).readNext p

/-- OVERFLOW_REREAD: the sectors that found no slot are read again before any cluster decode; not a detour (R185). -/
def execOverflowReread (p : PickupId) (s : State) : Out :=
  s.when (s.memUp && s.svUp p) fun s =>
    match (s.sides[p]).reads.find? (fun r => r.sectors.any fun x => x.overflow) with
    | none => s
    | some r =>
      let s := s.updRead p r.layer r.q fun r => { r with sectors := r.sectors.map fun x =>
        if x.overflow then { x with overflow := false, c0 := .pending, c1 := .pending } else x }
      (s.bump Obj.overflowRereads 0 0).seekBefore p .user r.layer r.q

/-! ### The cluster decode (R187, R188) -/

/-- CLUSTER_DECODE_START (R188): every sector has ended its first pass, or a rung has run, and a data sector is not accepted. A third cluster, whose
LLRs wait for a place in the workspace, waits for it (R184, log entry 158). -/
def execClusterDecodeStart (p : PickupId) (layer : LayerId) (q : Nat) (s : State) : Out :=
  s.when s.memUp fun s =>
    match s.read? p layer q with
    | none => s
    | some r =>
      let ready := match r.ladder with
        | none => r.sectors.all SectorRead.ended
        | some l => l.running && !l.failedRung && decide (l.rereadsLeft = 0)
      let placed := r.inWorkspace || r.storedCodewords.isEmpty
      if ready && placed && !r.decoding && decide (r.round = 0) && decide (r.queued = 0) && !r.complete then
        (s.updRead p layer q fun r => { r with
          decoding := true, round := 1, roundLimit := s.obN Obj.jointRounds, settings := s.decodeSettings
          firstUnaccepted := if r.ladder.isNone then (r.sectors.filter fun x => !x.accepted).length else r.firstUnaccepted }).bump Obj.clusterDecodes 0 0
      else s

/-- OUTER_DECODE_DONE: the outer stage of a round ends; conflicts are recorded, Absent codewords that are filled with e ≤ 5 count
as Converged, and the codewords with stored LLRs are decoded again from them and the fills (R188). -/
def execOuterDecodeDone (p : PickupId) (layer : LayerId) (q : Nat) (s : State) : Out :=
  s.when s.memUp fun s =>
    match s.read? p layer q with
    | none => s
    | some r =>
      if !r.decoding || decide (r.queued ≠ 0) then s
      else
        let columns := r.columns
        let s := s.forEach (conflictsOf columns) fun s j => (s.bump Obj.outerConflicts 0 0).decReport p r Ev.decOuterConflict [(j : Int)]
        let s := s.updRead p layer q fun r => r.reencode columns
        let s := s.queueRedecodes p r .cluster r.settings.limit r.settings.offset
          (r.storedCodewords.map fun x => (x.1, x.2.1, filledLlrs r.settings.fill x.2.2 (fillsOf columns x.1 x.2.1)))
        if r.storedCodewords.isEmpty then s.roundEnd p layer q else s.settle p layer q

/-! ### The ladder (R192 to R198) -/

/-- The change that a rung applies (R192), with the settings of its ladder: offsets, the equaliser's restart, the array's shift, the speed. -/
def State.applyDetour (s : State) (p : PickupId) (d : DetourSettings) (code : Nat) (second : Bool) : State :=
  let sign : Int := if second then -1 else 1
  match code with
  | 2 => s.updP p fun k => { k with detourTrack := sign * d.trackStep }
  | 3 => s.updP p fun k => { k with detourFocus := sign * d.focusStep }
  | 4 =>
    let s := s.updP p fun k => { k with detourEq := d.eqMuStep }
    s.forEach (allFin 4) fun s b => s.updC (p.beam b) fun c => { c with taps := (s.initialSet (p.beam b)).taps }
  | 5 => s.updP p fun k => { k with reassign := sign, reassignSetpoint := d.setpoint, reassignScale := d.gainScale }
  | 6 => s.updM p.spindle fun m => { m with
      detourBase := some (m.detourBase.getD m.reference), detourRatio := if m.detourUsers = 0 then d.speedRatio else m.detourRatio
      detourUsers := m.detourUsers + 1 }
  | _ => s

/-- The read whose ladder has the pickup's turn. -/
def State.ladderRead (s : State) (p : PickupId) : Option (ClusterRead × Ladder) :=
  (s.sides[p]).reads.findSome? fun r => r.ladder.map fun l => (r, l)

/-- RUNG_START (R192): rungs that do not apply are skipped; the next one's change is applied and its reread seeks to the lane before the
cluster, or MoreIterations decodes the stored codewords again. -/
def execRungStart (p : PickupId) (s : State) : Out :=
  s.when (s.memUp && s.svUp p) fun s =>
    match s.ladderRead p with
    | none => s
    | some (r, l) =>
      if l.running then s
      else
        let s := s.prepareRung p r.layer r.q 7
        match s.read? p r.layer r.q with
        | none => s
        | some r =>
          match r.ladder with
          | none => s
          | some l =>
            let code := l.order.getD l.position 0
            let n := r.rereads code
            let s := s.updRead p r.layer r.q fun r => { r with
              round := 0, ladder := some { l with running := true, rungAt := s.time, rereadsLeft := n, failedRung := false } }
            if n = 0 then s.queueRedecodes p r .detour l.settings.iterations (s.obN Obj.ldpcOffset) r.storedCodewords
            else (s.applyDetour p l.settings code false).seekBefore p .user r.layer r.q

/-- REREAD_PASS_END: once its codewords have been decoded, the rung's change is removed; the rung's second pass starts where it has one (R192, R194,
R196). -/
def execRereadPassEnd (p : PickupId) (s : State) : Out :=
  s.when (s.memUp && s.svUp p) fun s =>
    match s.ladderRead p with
    | none => s
    | some (c, l) =>
      if !l.running || decide (l.rereadsLeft = 0) || decide (c.queued ≠ 0) then s
      else
        let code := l.order.getD l.position 0
        let s := s.endDetour p
        let still3 := match s.read? p c.layer c.q with
          | some c => decide (c.rereads 5 = 2)
          | none => false
        let more := decide (1 < l.rereadsLeft) && (code != 5 || still3)
        let s := s.updRead p c.layer c.q fun c => { c with ladder := some { l with rereadsLeft := if more then l.rereadsLeft - 1 else 0 } }
        let s := if more then (s.applyDetour p l.settings code true).seekBefore p .user c.layer c.q else s
        s.settle p c.layer c.q

/-- RUNG_END: the rung is recorded and its time reported; the ladder ends or stands at its next rung (R195). -/
def execRungEnd (p : PickupId) (s : State) : Out :=
  s.when s.memUp fun s =>
    match s.ladderRead p with
    | none => s
    | some (r, l) =>
      let decoded := !r.decoding && decide (r.queued = 0) && (decide (0 < r.round) || r.complete)
      if !l.running || decide (l.rereadsLeft ≠ 0) || !(decoded || l.failedRung) then s
      else
        let code := l.order.getD l.position 0
        let failing := (r.sectors.foldl (fun n x => n + (if x.c0.done then 0 else 1) + (if x.c1.done then 0 else 1)) 0 : Nat)
        let s := s.bump Obj.detourRungsRun 0 (code - 1)
        let s := s.decReport p r Ev.decRung [(code : Int), (s.msSince l.rungAt : Int), (failing : Int)]
        if r.complete then
          (s.bump Obj.detourRungsDecisive 0 (code - 1)).ladderEnd p r.layer r.q code
        else
          let s := s.updRead p r.layer r.q fun r => { r with ladder := some { l with
            running := false, position := l.position + 1, failedRung := false } }
          s.prepareRung p r.layer r.q 7

end Sys2Proof.Machine
end

