-- ==== Sys2Proof/Machine/Namespaces.lean ====
section
/-! DEFINITION. Meanings of the I/O commands: Flush, writes, reads, zone management (chapter 9). -/

namespace Sys2Proof.Machine

/-- A media command that the media scheduler has taken from its on-ramp and not yet worked on. -/
def State.onMedia (s : State) (k : CmdRef) (mine : Cmd → Bool) (f : State → PickupId → Cmd → State) : Out :=
  s.when s.memUp fun s =>
    match s.cmd? k with
    | none => s
    | some c =>
      match pickupOf c.sqe.nsid with
      | none => s
      | some p => if c.stage == .taken && c.result.isNone && !c.dataIn && mine c then f s p c else s

/-! ### Flush and writes (R208, R225, R330, R335, R338, R342) -/

/-- FLUSH (R342): it covers the writes of its namespaces that were fetched before it; runs are formed for their data at once. -/
def execFlush (k : CmdRef) (s : State) : Out :=
  s.when (s.hostUp && s.memUp) fun s =>
    match s.cmd? k with
    | none => s
    | some c =>
      if !(c.io opFlush) || c.stage != .fetched || c.result.isSome then s
      else
        let ps := if c.sqe.nsid = allNamespaces then (allFin 8).filter fun p => s.pickupOn p else (pickupOf c.sqe.nsid).toList
        let covers := (s.host.cmds.filter fun m =>
          m.isWrite && decide (m.fetchOrder < c.fetchOrder) && m.result.isNone && ps.any fun p => m.sqe.nsid == nsidOf p).map fun m => m.ref
        let s := s.updCmd k fun c => { c with stage := .taken, covers := covers }
        s.forEach ps fun s p => s.formCovered p covers

/-- A write's blocks enter the write buffer at its place; their data follow from host memory (R335, R338). -/
def State.bufferWrite (s : State) (p : PickupId) (c : Cmd) : State :=
  let blocks : List BufferedBlock := (List.range (c.sqe.nlb + 1)).map fun i =>
    { lba := c.lba + i, data := c.sqe.blocks.getD i 0, owner := c.ref, since := s.time, inRun := false, filling := true }
  (s.updS p fun x => { x with buffer := x.buffer ++ blocks }).updCmd c.ref fun c => { c with dataIn := true }

/-- WRITE (R330). -/
def execWrite (k : CmdRef) (s : State) : Out := s.onMedia k (fun c => c.io opWrite) fun s p c => s.bufferWrite p c

/-- ZONE_APPEND (R330): the place is the write pointer that dispatch gave it. -/
def execZoneAppend (k : CmdRef) (s : State) : Out := s.onMedia k (fun c => c.io opZoneAppend) fun s p c => s.bufferWrite p c

/-- DATA_READ_COMPLETION (R337, R338): a write's data are in the buffer and its entry becomes WriteBuffered; a poisoned or unsuccessful
completion fails the command, whose blocks leave the buffer. A Read whose data the host rejects fails alike. -/
def execDataReadCompletion (k : CmdRef) (good : Bool) (s : State) : Out :=
  s.when (s.hostUp && s.memUp) fun s =>
    match s.cmd? k with
    | none => s
    | some c =>
      match pickupOf c.sqe.nsid with
      | none => s
      | some p =>
        if !c.dataIn || c.result.isSome then s
        else if c.isWrite then
          if good then
            let s := s.updS p fun x => { x with
              buffer := x.buffer.map fun b => if b.owner = k then { b with filling := false, since := s.time } else b
              hostWritten := x.hostWritten + (c.sqe.nlb + 1) * bytesPerBlock }
            { s with host := { s.host with tolls := s.host.tolls.map fun t =>
              if t.2.cmd = k then (t.1, { t.2 with mode := tollBuffered }) else t } }
          else (s.finishCmd k .transferError).withdrawWrite p c
        else if c.io opRead && !good then s.finishCmd k .transferError
        else s

/-! ### Reads (R207, R327, R334) -/

/-- Whether a block below the write pointer is filler: listed, or skipped in a partial cluster whose run or replacement is under way. -/
def State.isFiller (s : State) (p : PickupId) (lba : Nat) : Bool :=
  let z := s.zone p (zoneOf lba)
  let off := lba % zoneBlocks
  let e := s.entry p (zoneLayer (zoneOf lba)) (homeQ (zoneOf lba) (off / 64))
  z.filler.any (fun f => decide (f ≤ off ∧ off / 64 = f / 64))
    || ((s.sides[p]).replacements.any (fun w => w.zone == zoneOf lba && w.cluster == off / 64 && w.fillers != 0))
    || e.state == .blank

/-- Where a block of a Read or Verify comes from. -/
inductive BlockSource where
  | unwritten | buffer (b : Block) | cluster (zone c : Nat) | lost
deriving DecidableEq, Repr

/-- Source of a block (R334): nothing, the write buffer, or its committed cluster. -/
def State.blockSource (s : State) (p : PickupId) (lba : Nat) : BlockSource :=
  let z := zoneOf lba
  let off := lba % zoneBlocks
  if (s.zone p z).wp ≤ off then .unwritten
  else match (s.sides[p]).buffer.find? fun b => b.lba == lba && !b.filling with
  | some b => .buffer b.data
  | none =>
    let e := s.entry p (zoneLayer z) (homeQ z (off / 64))
    if s.isFiller p lba then .unwritten
    else if e.state == .written || e.state == .retired then .cluster z (off / 64)
    else .lost

/-- A block goes to a Read's data. -/
def State.give (s : State) (k : CmdRef) (lba : Nat) (b : Block) : State :=
  s.updCmd k fun c => if c.io opRead then { c with dataOut := c.dataOut ++ [(lba, b)] } else c

/-- Blocks of a Read or Verify are served: zeros or an error for unwritten ones, the buffer, and reads of the clusters. -/
def State.serveRead (s : State) (p : PickupId) (c : Cmd) : State :=
  let k := c.ref
  let lbas := (List.range (c.sqe.nlb + 1)).map fun i => c.sqe.slba + i
  let src := lbas.map fun l => (l, s.blockSource p l)
  let clusters := (src.filterMap fun x => match x.2 with | .cluster z i => some (z, i) | _ => none).eraseDups
  let bad := clusters.filter fun x => (s.entry p (zoneLayer x.1) (homeQ x.1 x.2)).poisoned
  let good := clusters.filter fun x => !bad.contains x
  let strict := (s.host.ctrls[k.ctrl]).unwrittenFails c.sqe.nsid
  let s := s.updCmd k fun c => { c with dataIn := true, clustersLeft := good.length }
  let s := s.forEach src fun s x => match x.2 with
    | .unwritten => if strict then s.finishCmd k .unwrittenBlock else s.give k x.1 0
    | .buffer b => s.give k x.1 b
    | .lost => s.finishCmd k .unrecoveredRead
    | .cluster _ _ => s
  let s := if bad = [] then s else s.finishCmd k .internalError
  let s := s.forEach good fun s x => s.wantCluster p x.1 x.2 k
  if good = [] then s.finishCmd k .success else s

/-- What a Read leaves for R280: whether it began at the block after the Read before it. -/
def State.noteStream (s : State) (p : PickupId) (c : Cmd) : State :=
  s.updS p fun x => { x with
    streamReads := if x.lastReadEnd = some c.sqe.slba then x.streamReads + 1 else 0, lastReadEnd := some (c.sqe.slba + c.sqe.nlb + 1)
    movedReads := if x.lastReadEnd = some c.sqe.slba then x.movedReads else [], hostRead := x.hostRead + (c.sqe.nlb + 1) * bytesPerBlock }

/-- READ (R334): a side that has been unmounted since leaves every block unaccepted. -/
def execRead (k : CmdRef) (s : State) : Out :=
  s.onMedia k (fun c => c.io opRead) fun s p c =>
    if (s.sides[p]).built then (s.noteStream p c).serveRead p c else s.finishCmd k .unrecoveredRead

/-- VERIFY (R327). -/
def execVerify (k : CmdRef) (s : State) : Out :=
  s.onMedia k (fun c => c.io opVerify) fun s p c => if (s.sides[p]).built then s.serveRead p c else s.finishCmd k .unrecoveredRead

/-! ### Zones (R327, R330, R332, R333) -/

/-- Zone state in a zone descriptor. -/
def ZoneState.descriptor : ZoneState → Nat
  | .empty => 1 | .implicitlyOpened => 2 | .explicitlyOpened => 3 | .closed => 4 | .readOnly => 0xD | .full => 0xE

/-- Whether the reporting option of CDW13 [15:8] admits a zone state. -/
def ZoneState.reported (z : ZoneState) (option : Nat) : Bool :=
  match option with
  | 0 => true | 1 => z == .empty | 2 => z == .implicitlyOpened | 3 => z == .explicitlyOpened | 4 => z == .closed | 5 => z == .full
  | 6 => z == .readOnly | _ => false

/-- REPORT_ZONES (R327, R330): number of zones from the one that holds SLBA on, then state, start and write pointer of each. -/
def execReportZones (k : CmdRef) (s : State) : Out :=
  s.onCores k (fun c => c.io opZoneReceive) fun s c =>
    match pickupOf c.sqe.nsid with
    | none => s
    | some p =>
      let zs := (List.range zoneCount).filter fun z =>
        decide (zoneOf c.sqe.slba ≤ z) && (s.zone p z).state.reported (c.sqe.cdw13 / 0x100 % 0x100)
      let l := zs.flatMap fun z => [(s.zone p z).state.descriptor, z * zoneBlocks, z * zoneBlocks + (s.zone p z).wp]
      (s.giveData k (zs.length :: l)).finishCmd k .success

/-- Zones that a Zone Management Send's tollgate entries name. -/
def State.zonesOf (s : State) (k : CmdRef) : List Nat :=
  (s.host.tolls.filter fun t => t.2.cmd == k && t.2.mode == tollZone).map fun t => zoneOf t.2.start

/-- Whether a command is a zone action. -/
def Cmd.zoneSend (n : Nat) (c : Cmd) : Bool := c.io opZoneSend && c.sqe.zoneAction == n

/-- CLOSE_ZONE (R332, R340): Opened to Closed; buffered data stays. -/
def execCloseZone (k : CmdRef) (s : State) : Out :=
  s.onMedia k (Cmd.zoneSend 1) fun s p _ =>
    if !s.mayCommit k then s
    else
      let s := s.commit k
      (s.forEach (s.zonesOf k) fun s z => s.updZone p z fun x => { x with state := if x.state.open_ then .closed else x.state }).finishCmd k
        .success

/-- OPEN_ZONE (R332, R340): Empty or Closed to Explicitly Opened. -/
def execOpenZone (k : CmdRef) (s : State) : Out :=
  s.onMedia k (Cmd.zoneSend 3) fun s p _ =>
    if !s.mayCommit k then s
    else
      let s := s.commit k
      (s.forEach (s.zonesOf k) fun s z => s.updZone p z fun x => { x with
        state := if x.state = .empty ∨ x.state = .closed then .explicitlyOpened else x.state }).finishCmd k .success

/-- FINISH_ZONE (R332): the zone becomes Full, its buffered data is written with filler, and its seal is requested; the command completes
after the seals of its zones have committed. -/
def execFinishZone (k : CmdRef) (s : State) : Out :=
  s.onMedia k (Cmd.zoneSend 2) fun s p _ =>
    let zs := (s.zonesOf k).filter fun z => (s.zone p z).state == .empty || (s.zone p z).state.active
    let s := s.forEach zs fun s z =>
      ((s.updZone p z fun x => { x with state := .full, sealRequested := true }).zoneNotice p z (k.ctrl.val + 1))
    let s := s.forEach zs fun s z => s.formAll p [z]
    let s := s.updCmd k fun c => { c with dataIn := true, clustersLeft := zs.length }
    if zs = [] then s.finishCmd k .success else s

/-- A zone action that is allowed in no state: at the head of dispatch it fails with its first failing check, check 10 at the latest. -/
def State.refuseAction (s : State) (k : CmdRef) (action : Nat) : State :=
  match s.cmd? k with
  | none => s
  | some c =>
    match pickupOf c.sqe.nsid with
    | none => s
    | some p =>
      if c.zoneSend action && (s.dispatchHead k.ctrl k.sq).map (fun m => m.ref) == some k && !s.exiting p then
        match s.dispatchCheck p c with
        | some st => (s.updCmd k fun c => { c with stage := .done }).finishCmd k st
        | none => s
      else s

/-- RESET_ZONE (R332): Invalid Zone State Transition in every state, at check 10. -/
def execResetZone (k : CmdRef) (s : State) : Out := s.when s.hostUp fun s => s.refuseAction k 4

/-- OFFLINE_ZONE (R332): Invalid Zone State Transition in every state, at check 10. -/
def execOfflineZone (k : CmdRef) (s : State) : Out := s.when s.hostUp fun s => s.refuseAction k 5

/-- SET_ZONE_DESCRIPTOR_EXTENSION (R332): Invalid Field in Command at check 3, before any namespace or zone check. -/
def execSetZoneDescriptorExtension (k : CmdRef) (s : State) : Out :=
  s.when s.hostUp fun s =>
    match s.cmd? k with
    | none => s
    | some c =>
      if c.zoneSend 0x10 && c.result.isNone then (s.updCmd k fun c => { c with stage := .done }).finishCmd k .invalidField else s

end Sys2Proof.Machine
end

