-- ==== Sys2Proof/Machine/Signpost.lean ====
section
/-! DEFINITION. Meanings of the services of the Signpost server, of its two NVMe commands, and of authorisation (R366 to R378, R384, R385,
R388). -/

namespace Sys2Proof.Machine

/-- SIGNPOST_READ (R369); a request of no known service is refused here too (check 2 of R371). -/
def execSignpostRead (cl : Client) (r : Request) (s : State) : Out :=
  s.serve cl r (r.service == 1 || !decide (1 ≤ r.service ∧ r.service ≤ 9))

/-- SIGNPOST_WRITE (R366, R371). -/
def execSignpostWrite (cl : Client) (r : Request) (s : State) : Out := s.serve cl r (r.service == 2)

/-- READ_START (R377). -/
def execReadStart (cl : Client) (r : Request) (s : State) : Out := s.serve cl r (r.service == 3)

/-- READ_SEGMENT (R377). -/
def execReadSegment (cl : Client) (r : Request) (s : State) : Out := s.serve cl r (r.service == 4)

/-- WRITE_START (R378). -/
def execWriteStart (cl : Client) (r : Request) (s : State) : Out := s.serve cl r (r.service == 5)

/-- WRITE_SEGMENT (R378). -/
def execWriteSegment (cl : Client) (r : Request) (s : State) : Out := s.serve cl r (r.service == 6)

/-- WRITE_END (R378). -/
def execWriteEnd (cl : Client) (r : Request) (s : State) : Out := s.serve cl r (r.service == 7)

/-- SESSION_CLOSE (R378). -/
def execSessionClose (cl : Client) (r : Request) (s : State) : Out := s.serve cl r (r.service == 8)

/-- ENUMERATE (R375). -/
def execEnumerate (cl : Client) (r : Request) (s : State) : Out := s.serve cl r (r.service == 9)

/-- OBJECT_WRITE (R366): the write of one subindex, from check 7 of R371 on, for an object that has no row of its own. `authorised` is none
without Authorised, else the verdict on the signature. -/
def execObjectWrite (cl : Client) (index sub : Nat) (v : Int) (authorised : Option Bool) (s : State) : Out :=
  s.when s.coreUp fun s =>
    let r : Request := { version := 1, service := 2, txid := 0, index := index, sub := sub, flags := 0, offset := 0, length := 0,
                         session := 0, data := [], wellSigned := false }
    match s.accessCheck cl r with
    | some a => s.answer (some a)
    | none => match s.lookup index sub with
      | none => s.answer (some Abort.subindexNotFound)
      | some (row, i, k) =>
        if (s.command cl row i v authorised).isSome then s
        else if !row.type.isBytes && !row.type.holds v then s.answer (some Abort.lengthMismatch)
        else s.writeObject cl row i k (leBytes row.type.size v) authorised

/-- SESSION_EXPIRED (R376): `SessionTimeout` after the last request on it. -/
def execSessionExpired (n : Fin 8) (s : State) : Out :=
  s.when s.coreUp fun s =>
    match s.signpost.sessions[n] with
    | none => s
    | some x => if s.sessionOver x then s.expireSession n x else s

/-- AUTH_CHALLENGE_READ (R388): a read of `AuthChallenge` outside the server's queue. -/
def execAuthChallengeRead (cl : Client) (s : State) : Out :=
  s.when s.coreUp fun s =>
    let (s, _, b) := s.readObject cl Obj.authChallenge 0 0 false
    s.answer none b

/-- AUTH_LOCKOUT_END (R388): `AuthLockoutTime` after the failure that locked, RWA writes are checked again. The count of failures starts anew, or the next failure would lock at once. -/
def execAuthLockoutEnd (s : State) : Out :=
  s.when (s.coreUp && s.signpost.locked && decide (s.signpost.lockedAt + sTicks (s.obN Obj.authLockoutTime) ≤ s.time)) fun s =>
    { s with signpost := { s.signpost with locked := false } }.setOb Obj.authFailCount 0 0 0

/-! ### Get Object and Set Object (R384, R385) -/

/-- The request in the dwords of a command. -/
def objectRequest (e : Sqe) (set_ : Bool) : Request where
  version := 1
  service := e.cdw13 % 256
  txid := 0
  index := e.cdw10 / 65536
  sub := e.cdw10 / 256 % 256
  flags := e.cdw10 % 256
  offset := e.cdw11
  length := e.cdw12 % 65536
  session := e.cdw12 / 65536
  data := if set_ then e.bytes.take (e.cdw12 % 65536) else []
  wellSigned := e.wellSigned

/-- The command completes with the server's reply: the bytes given to the host and the session, or Signpost Abort with the code. -/
def State.objectReply (s : State) (k : CmdRef) (r : Request) : State :=
  match s.signpost.lastReply with
  | none => s
  | some p => match p.abort with
    | some a => (s.setDw0 k a).finishCmd k .signpostAbort
    | none =>
      (s.updCmd k fun c => { c with
        dw0 := p.data.length, dw1 := if p.session = 0 then r.session else p.session, signpost := p.data }).finishCmd k .success

/-- GET_OBJECT (R384): served when nothing stands before it. -/
def execGetObject (k : CmdRef) (s : State) : Out :=
  s.admin k (fun c => c.op 0xC0 && s.signpost.queue.isEmpty) fun s c =>
    let r := objectRequest c.sqe false
    (s.execRequest (.nvme k.ctrl) r).objectReply k r

/-- SET_OBJECT (R384): a SwitchoverRequest Apply that passes its check completes at the apply edge. -/
def execSetObject (k : CmdRef) (s : State) : Out :=
  s.admin k (fun c => c.op 0xC1 && s.signpost.queue.isEmpty) fun s c =>
    let r := objectRequest c.sqe true
    (s.execRequest (.nvme k.ctrl) r).objectReply k r

end Sys2Proof.Machine
end

