-- ==== Sys2Proof/Machine/WritePath.lean ====
section
/-! DEFINITION. Meanings of the commands of the write path (chapter 6). -/

namespace Sys2Proof.Machine

/-! ### Forming and arming (R208, R220) -/

/-- The clusters of a zone below which buffered data is needed at once: all of them for a Finish of the zone, an activation, a
power-state entry or a shutdown (R208, R344); those with covered blocks for a Flush (R342). 0 where nothing needs them. -/
def State.neededLimit (s : State) (p : PickupId) (zone : Nat) : Nat :=
  if (s.zone p zone).sealRequested || s.host.activation.isSome || s.host.powerEntry.isSome
      || (allFin 2).any fun c => (s.host.ctrls[c]).mode == .shuttingDown then zoneClusters
  else
    (s.host.cmds.filter fun c => c.flushes (nsidOf p) && c.stage == .taken && c.result.isNone).foldl
      (fun n c => max n ((s.sides[p]).coveredLimit zone c.covers)) 0

/-- RUN_FORM (R208): `WriteRunClusters` full clusters wait, or the data is needed at once. Only needed data takes a partial
cluster. -/
def execRunForm (p : PickupId) (zone : Nat) (partialToo : Bool) (s : State) : Out :=
  s.when (s.memUp && s.pickupOn p && decide (zone < zoneCount) && s.mayRun p
      && (s.host.activation.isNone || !(s.sides[p]).runs.any fun r => r.area == .user)) fun s =>
    let x := s.sides[p]
    let limit := s.neededLimit p zone
    let full := (List.range zoneClusters).filter fun c => x.fullCluster zone c
    let enough := decide (s.obN Obj.writeRunClusters ≤ full.length)
    if enough && !(partialToo && decide (0 < limit)) then s.formRun p zone false
    else s.formRunTo p zone partialToo limit

/-- Whether a full cluster has waited `RunFormTimeout` since the last of its blocks arrived (R208). -/
def State.fullLong (s : State) (p : PickupId) (zone c : Nat) : Bool :=
  let x := s.sides[p]
  x.fullCluster zone c && (x.waitingBlocks zone c).all fun b => decide (s.obN Obj.runFormTimeout ≤ s.msSince b.since)

/-- RUN_FORM_TIMEOUT (R208): the oldest full cluster has waited `RunFormTimeout`. -/
def execRunFormTimeout (p : PickupId) (zone : Nat) (s : State) : Out :=
  s.when (s.memUp && s.pickupOn p && decide (zone < zoneCount) && s.host.activation.isNone) fun s =>
    let x := s.sides[p]
    match x.firstWaiting zone with
    | some c => if s.fullLong p zone c then s.formRun p zone false else s
    | none => s

/-- Number of a map state for EV_WR_REFUSED (R51). -/
def MapEntryState.code : MapEntryState → Nat
  | .blank => 0 | .written => 1 | .retired => 2 | .spareFree => 3 | .spareInUse => 4 | .unusable => 5 | .absent => 0xF

/-- Whether the refusal unit admits a position of a run (R220, R557); a poisoned entry does not (R436). -/
def State.admits (s : State) (p : PickupId) (r : Run) (q : Nat) : Bool :=
  let x := s.sides[p]
  match r.area with
  | .user => (s.entry p r.layer q).state == .blank && !(s.entry p r.layer q).poisoned
  | .spare => (s.entry p r.layer q).state == .spareFree && !(s.entry p r.layer q).poisoned
  | .journalPrimary => decide (journalPlace x.markPrimary false = (r.layer, q) ∧ x.markPrimary < journalPositions)
  | .journalCopy => decide (journalPlace x.markCopy true = (r.layer, q) ∧ x.markCopy < journalPositions)
  | .control => decide (q = 0) && x.controlBlank.getD (r.layer / 2) false && !x.controlArmed.getD (r.layer / 2) false

/-- The unit's own state moves as it arms a run (R557). -/
def State.armed (s : State) (p : PickupId) (r : Run) : State :=
  match r.area with
  | .journalPrimary => (s.updS p fun x => { x with markPrimary := x.markPrimary + 1 }).checkJournal p
  | .journalCopy => (s.updS p fun x => { x with markCopy := x.markCopy + 1 }).checkJournal p
  | .control => s.updS p fun x => { x with controlArmed := modifyAt x.controlArmed (r.layer / 2) fun _ => true }
  | _ => s

/-- A refused run lights nothing: positions that were not admitted leave for a spare, the rest of the run's data waits again
(R220). -/
def State.refuseRun (s : State) (p : PickupId) (r : Run) : State :=
  let bad := r.clusters.filter fun c => !s.admits p r c.q
  let s := s.forEach bad fun s c =>
    (s.bump Obj.refusedArms p 0).report Isl.mem Ev.wrRefused
      [(p.val : Int), (r.layer : Int), (c.q : Int), ((s.entry p r.layer c.q).state.code : Int)]
  match r.area with
  | .user =>
    let s := s.forEach bad fun s c => s.needSpare p
      { layer := c.homeLayer, homeQ := c.homeQ, zone := c.zone, cluster := c.cluster, attempts := 0, reason := 2
        blocks := c.blocks, fillers := c.fillers, commands := (s.sides[p]).ownersOf c.zone c.cluster }
    let back (b : BufferedBlock) : Bool := r.clusters.any fun c =>
      decide (b.lba / zoneBlocks = c.zone ∧ b.lba % zoneBlocks / 64 = c.cluster) && !bad.contains c
    s.updS p fun x => { x with buffer := x.buffer.map fun b => if back b then { b with inRun := false } else b }
  | .journalPrimary => s.updS p fun x => { x with pair := x.pair.map fun j => { j with primaryAt := none } }
  | .journalCopy => s.updS p fun x => { x with pair := x.pair.map fun j => { j with copyAt := none } }
  | _ => s

/-- Whether a run waits for the ZoneOpened pair of its zone (R238). -/
def Side.waitsForPair (x : Side) (r : Run) : Bool :=
  (r.area == .user || r.area == .spare) && (x.pair.toList ++ x.pairQueue).any fun j => j.records.any fun e => match e.2 with
    | .zoneOpened z _ _ => r.clusters.any fun c => c.zone == z
    | _ => false

/-- Whether powers that an OPC of the pickup found wait for their switchover (R217 step 4). -/
def State.powersPending (s : State) (p : PickupId) : Bool :=
  (s.staging.entries ++ s.cal.waiting.flatMap fun w => w.2).any fun e =>
    (List.range 4).any fun l => (List.range 4).any fun b => e.key == Obj.peakPower.key (p.val * 4 + l) b

/-- Whether a run may begin beside the other pickup of its spindle (R264): while that one has a run in progress, the rate that R146 predicts for
the run's lane at the smaller of both targets lies within 400 to 720 Mbit/s. -/
def State.mayRunBeside (s : State) (p : PickupId) (r : Run) : Bool :=
  let i := p.spindle
  let other := if p.side = 0 then i.pickup 1 else i.pickup 0
  let lane := laneOf r.area ((r.clusters.map fun c => c.q).headD 0)
  !s.writing other || match optMin (s.pickupTarget i p) (s.pickupTarget i other) with
    | some n =>
      let rate := rnd (n * bitsPerRev lane) 60000
      decide (400000000 ≤ rate ∧ rate ≤ 720000000)
    | none => true

/-- RUN_ARM (R220): the first run in order is armed or refused; OPC has run for both pairs on its layer, and its powers are active
(R217). -/
def execRunArm (p : PickupId) (s : State) : Out :=
  s.when (s.memUp && s.svUp p) fun s =>
    let x := s.sides[p]
    match x.current, x.runs with
    | none, r :: rest =>
      let calibrated := (List.range 2).all fun i => x.opcDone.contains (r.layer * 2 + i)
      if !calibrated || s.powersPending p || x.waitsForPair r || (r.area == .user && !s.mayRun p) || !s.mayRunBeside p r then s
      else
        let s := if r.area == .user then { s with host := { s.host with
            activation := s.host.activation.map fun a => { a with extraRunLeft := a.extraRunLeft.filter fun y => y != p } } } else s
        let s := s.updS p fun x => { x with runs := rest }
        if r.clusters.all (fun c => s.admits p r c.q) then
          let s := s.armed p r
          let s := s.updS p fun x => { x with
            current := some { r with armed := true }, pass := 1, moveFrom := s.revolutions p.spindle, settings := s.runSettings p r.layer, verifyIterations := 0, verifyCodewords := 0 }
          s.seekBefore p r.area r.layer ((r.clusters.map fun c => c.q).headD 0)
        else s.refuseRun p r
    | _, _ => s

/-! ### Passes (R206, R221, R230) -/

/-- State of `WriteState` in a pass. -/
def passState (n : Nat) : WriteState := if n = 1 then .pass1 else if n = 2 then .pass2 else .pass3

/-- Beams that write in a pass (R206). -/
def passBeams (n : Nat) : List (Fin 4) := if n = 1 then [0, 1] else if n = 2 then [2, 3] else []

/-- WRITE_PASS_START (R206): a pass starts, or one that was interrupted resumes, while the pickup follows and the driver is healthy. -/
def execWritePassStart (p : PickupId) (s : State) : Out :=
  s.when (s.svUp p) fun s =>
    let x := s.sides[p]
    let k := s.pickups[p]
    let running := x.writeState == passState x.pass && decide (x.pass ≠ 0)
    if x.current.isNone || running || k.engine != .following || k.seq != .none || decide (x.driverFault ≠ 0) then s
    else
      let s := s.updS p fun x => { x with writeState := passState x.pass, gatesInhibited := false, slipSincePass := false }
      s.forEach (passBeams x.pass) fun s b => s.beamWriteStart (p.beam b)

/-- What the end of a run leaves for R280: whether it began where the run before it ended, in the same zone; its user bytes and
revolutions (R281). -/
def Side.noteRun (x : Side) (r : Run) (now revs : Nat) : Side :=
  match r.area, r.clusters.head?, r.clusters.getLast? with
  | .user, some a, some b =>
    let goes := decide (x.lastRunEnd = some (a.zone, r.layer, a.q))
    { x with
      streamRuns := if goes then x.streamRuns + 1 else 0, lastRunEnd := some (b.zone, r.layer, b.q + 1)
      movedWrites := (if goes then x.movedWrites else []) ++ [(now, ((r.clusters.map fun c => c.blocks.length).sum) * bytesPerBlock, revs - x.moveFrom)] }
  | _, _, _ => { x with streamRuns := 0, lastRunEnd := none, movedWrites := [] }

/-- The run in progress ends; `RawMarginIterations` is the mean of its verify codewords (R226). -/
def State.endRun (s : State) (p : PickupId) : State :=
  let x := s.sides[p]
  let s := if x.verifyCodewords = 0 then s
    else s.setOb Obj.rawMarginIterations p 0 (min 65535 (rnd (x.verifyIterations * 256 : Nat) x.verifyCodewords))
  let s := s.updS p fun x => { x.current.elim x (fun r => x.noteRun r s.time (s.revolutions p.spindle)) with current := none, writeState := .idle, pass := 0, gatesInhibited := false }
  s.readNext p

/-- Whether a read-back codeword of a pickup waits or is at work. -/
def State.verifying (s : State) (p : PickupId) : Bool :=
  s.decoding.queue.any (fun j => j.verifying && j.beam.pickup == p)
    || (allFin 24).any fun d => match s.decoding.decoders[d] with
      | some j => j.verifying && j.beam.pickup == p
      | none => false

/-- WRITE_PASS_END (R206): after pass 1 every position of the run has been lit; the sequencer seeks back for the next pass; after pass 3
the run ends, and a lit cluster of which a frame was not read back has failed verify. -/
def execWritePassEnd (p : PickupId) (s : State) : Out :=
  s.when (s.svUp p) fun s =>
    let x := s.sides[p]
    match x.current with
    | none => s
    | some r =>
      let first := (r.clusters.map fun c => c.q).headD 0
      if x.writeState != passState x.pass || decide (x.pass = 0) then s
      else if x.pass < 3 then
        let s := s.stopBeams p
        let s := s.updS p fun x => { x with pass := x.pass + 1, current := x.current.map fun r => { r with
          clusters := r.clusters.map fun c => if c.state == .unlit then { c with state := .lit } else c } }
        s.seekBefore p r.area r.layer first
      else if s.verifying p then s
      else
        let s := s.forEach (r.clusters.filter fun c => c.state == .lit) fun s c =>
          let k := ((List.range (2 * sectors)).find? fun n => !c.passed.contains n).getD 0 / 2
          s.verifyFails p r.layer c.q k .header
        s.endRun p

/-- Gate inhibit of R221 with the number of the condition that failed, in the order of its list. -/
def State.inhibitGates (s : State) (p : PickupId) (condition : Nat) : State :=
  let x := s.sides[p]
  if x.writeState == passState x.pass && decide (x.pass ≠ 0) then
    let s := (s.bump Obj.gateInhibits p 0).report (Isl.sv p) Ev.wrGateInhibit [(p.val : Int), (condition : Int)]
    s.interruptGates p .gates
  else s

/-- GATE_INHIBIT (R221): SVp sends an inhibit with the first condition that fails. -/
def execGateInhibit (p : PickupId) (s : State) : Out :=
  s.when (s.svUp p && (s.sides[p]).current.isSome) fun s =>
    match s.gateFailure p with
    | some n => s.inhibitGates p n
    | none => s

/-- Whether a beam finds marks in the slot that it reads: a waymark candidate (R164), or it is not blank (R159). -/
def Channel.findsMarks (c : Channel) : Bool :=
  !c.blank || (c.searched && (c.lastStatus == .headerFirst || c.lastStatus == .headerSecond || c.lastStatus == .headerInvalid))

/-- The cluster of a run in whose slot beam 2 or 3 of a pickup finds marks. -/
def State.notBlankAt (s : State) (p : PickupId) (r : Run) : Option RunCluster :=
  ([2, 3].filter fun b => (s.channels[p.beam b]).findsMarks).findSome? fun b =>
    r.clusters.find? fun c => decide (c.q = (s.channels[p.beam b]).stream / sectors) && (c.state == .unlit || c.state == .lit)

/-- NOT_BLANK (R222): the cluster of the slot becomes Unusable with reason 2, and the run is interrupted. -/
def execNotBlank (p : PickupId) (s : State) : Out :=
  let x := s.sides[p]
  s.when (s.svUp p && x.writeState == .pass1 && decide (x.pass = 1)) fun s =>
    match x.current with
    | none => s
    | some r0 =>
      match s.notBlankAt p r0 with
      | none => s
      | some c =>
        let s := s.updS p fun x => { x with current := some (s.litRun p r0) }
        let s := s.updRunCluster p c.q fun c => { c with state := .notBlank }
        let s := (s.bump Obj.notBlankTrips p 0).report (Isl.sv p) Ev.wrNotBlank [(p.val : Int), (r0.layer : Int), (c.q : Int)]
        (s.clusterFails p r0 c 2).interruptGates p .notBlank

/-! ### Write power (R214, R217, R218) -/

/-- POWER_MONITOR_READ (R214, R218): after every `PowerMonitorFrames` frames of writing, the correction moves toward the target within 0.80 to 1.25; a bound records
EV_WR_POWER_LIMIT, a driver fault inhibits the gates. -/
def execPowerMonitorRead (g : BeamId) (monitorPeak fault : BitVec 16) (s : State) : Out :=
  let p := g.pickup
  s.when (s.svUp p && (s.channels[g]).mode == .writing
      && decide ((s.sides[p]).settings.monitorFrames ≤ (s.sides[p]).writtenFrames[g.inPickup])) fun s =>
    let target := s.powerTarget g
    let old := (s.sides[p]).powerCorrection[g.inPickup]
    let diff : Int := (target : Int) - (monitorPeak.toNat : Int) * 1000000
    let new := if target = 0 then old
      else clampInt (-200000000) 250000000 (old + rnd (diff * correctionUnit) (target * 2 ^ (s.sides[p]).settings.powerShift))
    let s := s.updS p fun x => { x with
      driverFault := fault
      powerCorrection := upd x.powerCorrection g.inPickup fun _ => new
      writtenFrames := upd x.writtenFrames g.inPickup fun _ => 0 }
    let s := if new ≠ old ∧ (new = -200000000 ∨ new = 250000000) then
        s.report (Isl.sv p) Ev.wrPowerLimit [(p.val : Int), (g.inPickup.val : Int)] else s
    if fault ≠ 0 then s.inhibitGates p 4 else s

/-- OPC (R217): a segment is written in 8 steps and read back; of each beam the step with the least mean ε², times `OpcMargin`, is applied through a
switchover of internal client 2; a pair without a segment keeps its values. -/
def execOpc (p : PickupId) (pair : Fin 2) (errors : List (List Nat)) (s : State) : Out :=
  let x := s.sides[p]
  let k := s.pickups[p]
  s.when (s.svUp p && k.engine == .following && k.seq == .none && x.writeState == .idle && k.layer.isSome
      && decide (errors.length = 2)) fun s =>
    let layer := k.layer.getD 0
    let n := layer * 2 + pair.val
    let used := x.pcaUsed.getD n 0
    let s := s.noteOpc p n
    if pcaSegments ≤ used then
      if x.pcaExhaustedRecorded.contains n then s
      else (s.updS p fun x => { x with pcaExhaustedRecorded := x.pcaExhaustedRecorded ++ [n] }).report (Isl.sv p) Ev.wrPcaExhausted
        [(p.val : Int), (layer : Int), (pair.val : Int)]
    else
      let powers := s.opcPowers p pair errors
      let s := (s.takeSegment p n).reportOpc p pair powers
      let inst := p.val * 4 + layer
      s.placeInternal 2 (powers.map fun x => { key := Obj.peakPower.key inst x.1, value := x.2, carried := false })

/-! ### Replacement, seal and journal (R227 to R240) -/

/-- SPARE_RUN (R227). -/
def execSpareRun (p : PickupId) (s : State) : Out :=
  s.when (s.memUp && s.pickupOn p) fun s => s.spareRun p

/-- Whether a seal of a zone waits in a pair. -/
def Side.sealing (x : Side) (zone : Nat) : Bool :=
  (x.pair.toList ++ x.pairQueue).any fun j => j.records.any fun e => match e.2 with
    | .sealZone z .. => z == zone
    | _ => false

/-- Finish commands that wait for a zone's seal: Zone Management Send, action 2, of the namespace, on the zone or on all. -/
def State.finishers (s : State) (p : PickupId) (zone : Nat) : List CmdRef :=
  (s.host.cmds.filter fun c => c.io opZoneSend && c.sqe.nsid == nsidOf p && c.sqe.cdw13 % 256 == 2 && c.result.isNone
    && c.stage == .taken && (c.sqe.cdw13.testBit 8 || c.sqe.slba / zoneBlocks == zone)).map fun c => c.ref

/-- ZONE_SEAL (R234): the last cluster has committed, or a Finish arrived and nothing of the zone is left to commit; the seal record
takes the number reserved for EV_WR_ZONE_SEALED. -/
def execZoneSeal (p : PickupId) (zone : Nat) (s : State) : Out :=
  let z := s.zone p zone
  let x := s.sides[p]
  let left := x.buffer.any fun b => b.lba / zoneBlocks == zone
  s.when (s.memUp && s.pickupOn p && x.built && decide (zone < zoneCount)
      && (decide (z.committed = zoneBlocks) || (z.sealRequested && !left)) && z.digestState != .sealed && !x.sealing zone
      && z.state != .readOnly) fun s =>
    let n := s.recorder.nextSeq
    let s := s.takeSeq 1
    let d := z.digest.getD (s.digestInit p zone)
    s.formPair p [.sealZone zone z.digestClusters z.fillerBlocks (z.firstSerial.getD 0) z.lastSerial s.tick n d] (s.finishers p zone)

/-- JOURNAL_PAIR_WRITE (R238, R239, R558). -/
def execJournalPairWrite (p : PickupId) (s : State) : Out :=
  s.when (s.memUp && s.pickupOn p) fun s => s.writePair p

/-- Every map entry of a zone takes Sealed (R234). -/
def State.sealEntries (s : State) (p : PickupId) (zone : Nat) : State :=
  s.forEach (List.range zoneClusters) fun s c =>
    let layer := zoneLayer zone
    let q := homeQ zone c
    let e := s.entry p layer q
    let s := s.setEntry p layer q { e with sealed := true }
    if e.state == .retired then
      s.setEntry p e.linkLayer e.link { s.entry p e.linkLayer e.link with sealed := true }
    else s

/-- What the commit of a record's pair does (R234). -/
def State.recordCommitted (s : State) (p : PickupId) (r : JournalRecord) : State :=
  match r with
  | .sealZone zone _ _ _ _ _ number digest =>
    let s := s.sealEntries p zone
    let s := s.updZone p zone fun z => { z with digestState := .sealed, sealRequested := false, digest := some digest, state := .full }
    s.push Isl.mem { code := Ev.wrZoneSealed, payload := [(p.val : Int), (zone : Int), ((digest.toNat / 2 ^ 192 : Nat) : Int)]
                     reserved := some number, errorEntry := none }
  | _ => s

/-- Position of an index of an area for EV_WR_JOURNAL_WRITTEN: layer * 2^19 + q. -/
def journalKey (m : Option Nat) (copy : Bool) : Int :=
  let (layer, q) := journalPlace (m.getD 0) copy
  (posKey layer q : Nat)

/-- JOURNAL_PAIR_COMMIT (R238): both members stand on the disc; Finish commands complete. -/
def execJournalPairCommit (p : PickupId) (s : State) : Out :=
  s.when (s.memUp && s.pickupOn p) fun s =>
    match (s.sides[p]).pair with
    | none => s
    | some j =>
      if !(j.primaryDone && j.copyDone) then s
      else
        let s := s.report Isl.mem Ev.wrJournalWritten
          [(p.val : Int), journalKey j.primaryAt false, journalKey j.copyAt true, (j.records.length : Int)]
        let s := s.updS p fun x => { x with pair := none }
        let s := s.forEach j.records fun s r => s.recordCommitted p r.2
        s.forEach j.waiting fun s k => match s.cmd? k with
          | some c =>
            if c.isWrite then s
            else
              let s := s.updCmd k fun c => { c with clustersLeft := c.clustersLeft - 1 }
              if c.clustersLeft ≤ 1 then s.finishCmd k .success else s
          | none => s

/-! ### Map build at mount (R241 to R244, R557) -/

/-- DCB_CREATED: a DiscControl record is written to the blank positions named (R241, R242). -/
def State.writeControl (s : State) (p : PickupId) (copies : List Nat) : State :=
  let x := s.sides[p]
  let b := (JournalRecord.discControl x.discId s.otp.dieIdentity s.tick).bytes x.discId p.side 0
  s.forEach copies fun s i => s.updS p fun x => { x with
    runs := x.runs ++ [systemRun .control (2 * i) 0 x.writeCount b], writeCount := x.writeCount + 1 }

/-- DiscId of a first mount: the first 16 bytes of SHA-256 over DieIdentity, the Verge tick and the spindle (R241). -/
def State.newDiscId (s : State) (p : PickupId) : BitVec 128 :=
  (Config.sha256 (beBytes 8 s.otp.dieIdentity ++ beBytes 8 s.tick ++ beBytes 1 p.spindle.val)).extractLsb' 128 128

/-- The control block of a side at mount (R242); `blank` and `reads` give L0 and L2 of this side, then of the other side. Answers
the state and whether the map is built. -/
def State.controlAtMount (s : State) (p : PickupId) (blank reads : List Bool) (discId : BitVec 128) : State × Bool :=
  let b (i : Nat) : Bool := blank.getD i false
  let r (i : Nat) : Bool := reads.getD i false
  let s := s.updS p fun x => { x with
    controlBlank := [b 0, b 1], controlReads := [r 0, r 1], controlArmed := [false, false] }
  let created (s : State) : State := s.report Isl.mem Ev.wrDcbCreated [(p.val : Int), (p.side : Int)]
  if b 0 && b 1 then
    let id := if b 2 && b 3 then
        if (s.sides[p]).discId = 0 then s.newDiscId p else (s.sides[p]).discId
      else discId
    let s := s.updS p fun x => { x with discId := id }
    let s := if b 2 && b 3 then s.updS p.partner fun x => { x with discId := id } else s
    ((created s).writeControl p [0, 1], true)
  else if r 0 || r 1 then
    let s := s.updS p fun x => { x with discId := discId }
    let other := if r 0 then 1 else 0
    if r 0 && r 1 then (s, true)
    else if b other then (s.writeControl p [other], true)
    else (s.report Isl.mem Ev.wrDcbSingle [(p.val : Int), (p.side : Int), (2 * other : Int)], true)
  else (s.report Isl.mem Ev.wrDcbUnreadable [(p.val : Int), (p.side : Int)], false)

/-- A home position whose data a spare holds, and that spare (R53). -/
def State.setPair (s : State) (p : PickupId) (homeLayer homeQ spareLayer spareQ zone cluster serial : Nat) : State :=
  let base : MapEntry := { MapEntry.unwritten homeLayer homeQ with state := .written, zone := zone, cluster := cluster, serial := serial }
  let s := s.setEntry p homeLayer homeQ { base with state := .retired, linkLayer := spareLayer, link := spareQ }
  s.setEntry p spareLayer spareQ { base with state := .spareInUse, linkLayer := homeLayer, link := homeQ }

/-- A position found Unusable. -/
def State.setUnusable (s : State) (p : PickupId) (layer q : Nat) : State :=
  s.setEntry p layer q { MapEntry.unwritten layer q with state := .unusable, zone := 0x1FF, cluster := 0 }

/-- A home position below the written front, unless it is Retired or Unusable (R243). -/
def State.setWritten (s : State) (p : PickupId) (layer q : Nat) : State :=
  let e := s.entry p layer q
  if e.state == .blank then s.setEntry p layer q { e with state := .written } else s

/-- A journal record of the disc, type and fields in the order of R237, applied to the map. -/
def State.applyRecord (s : State) (p : PickupId) (r : List Nat) : State :=
  match r with
  | [1, hl, sl, zone, hq, sq, c, _why, serial] => s.setPair p hl hq sl sq zone c serial
  | [2, zone, first, _tick] => s.updZone p zone fun z => { z with opened := true, firstSerial := some first }
  | [3, zone, n, fillers, first, last, _tick, _ev, digest] =>
    let s := s.forEach (List.range n) fun s c => s.setWritten p (zoneLayer zone) (homeQ zone c)
    s.updZone p zone fun z => { z with
      opened := true, digestState := .sealed, digest := some (BitVec.ofNat 256 digest), digestClusters := n, fillerBlocks := fillers
      firstSerial := some first, lastSerial := last }
  | [4, zone, c, serial, digest] => s.updZone p zone fun z => { z with
      digest := some (BitVec.ofNat 256 digest), digestClusters := c + 1, lastSerial := serial }
  | [5, layer, _why, q] => s.setUnusable p layer q
  | _ => s

/-- A spare position of the scan: it passes and stands in for its home, or is Unusable; of two spares of one logical cluster the
higher WriteSerial wins (R243). -/
def State.applySpare (s : State) (p : PickupId) (x : Nat × Nat × Bool × Nat × Nat × Nat) : State :=
  let (layer, q, passes, zone, cluster, serial) := x
  if !passes then s.setUnusable p layer q
  else
    let hl := zoneLayer zone
    let hq := homeQ zone cluster
    let home := s.entry p hl hq
    if home.state == .retired then
      if home.serial < serial then
        (s.setUnusable p home.linkLayer home.link).setPair p hl hq layer q zone cluster serial
      else s.setUnusable p layer q
    else s.setPair p hl hq layer q zone cluster serial

/-- The tail of an open zone: its first blank home position f and how the verify-reads of positions f-64 to f-1 ended (R243). -/
def State.applyTail (s : State) (p : PickupId) (t : Nat × Nat × List Bool) : State :=
  let (zone, f, ends) := t
  let layer := zoneLayer zone
  let s := s.forEach (List.range (f - 64)) fun s c => s.setWritten p layer (homeQ zone c)
  s.forEach (List.range (min 64 f)) fun s i =>
    let c := f - 64 + i
    let q := homeQ zone c
    let e := s.entry p layer q
    if e.state == .retired then s
    else if ends.getD i false then s.setEntry p layer q { e with state := .written }
    else s.setUnusable p layer q

/-- Zone states and pointers at the end of the build (R225, R243). -/
def State.zonesAtMount (s : State) (p : PickupId) : State :=
  s.forEach (List.range zoneCount) fun s z =>
    let x := s.zone p z
    if !x.opened then s
    else if x.digestState == .sealed then
      (s.updZone p z fun x => { x with state := .full, committed := x.digestClusters * 64, wp := x.digestClusters * 64 }).sealEntries p z
    else
      let n := s.committedFrom p z 0 zoneClusters
      s.updZone p z fun x => { x with
        state := if n = 0 then .empty else .closed, committed := n * 64, wp := n * 64, digestState := .rebuilding }

/-- MAP_BUILD (R241 to R243): the control block is settled; journal, spare scan and tail search make the map; the marks stand at the
first blank position found in each area (R557). -/
def execMapBuild (p : PickupId) (dcbBlank dcbReads : List Bool) (discId : BitVec 128) (marks : List Nat)
    (records : List (List Nat)) (spares : List (Nat × Nat × Bool × Nat × Nat × Nat)) (tails : List (Nat × Nat × List Bool))
    (highSerial : Nat) (s : State) : Out :=
  let x := s.sides[p]
  s.when (s.memUp && s.svUp p && (s.pickups[p]).mountResult == .mounted && !x.built && !x.building) fun s =>
    let s := s.updS p fun x => { x with
      building := true, buildFrom := s.time, map := [], zones := [], changedZones := [], journalFullRecorded := false, sparesExhaustedRecorded := false
      markPrimary := marks.getD 0 0, markCopy := marks.getD 1 0, journalSeq := records.length, writeCount := highSerial + 1
      pendingRecords := [], pair := none, pairQueue := [], opcDone := [], reads := [] }
    let (s, builds) := s.controlAtMount p dcbBlank dcbReads discId
    if !builds then s.updS p fun x => { x with building := false }
    else
      let s := s.forEach records fun s r => s.applyRecord p r
      let s := s.forEach spares fun s x => s.applySpare p x
      let s := s.forEach tails fun s t => s.applyTail p t
      (s.zonesAtMount p).checkJournal p

/-- One cluster of a chain that is rebuilt (R231, R243): the next one in order carries the digest on. -/
def State.rebuildChain (s : State) (p : PickupId) (zone : Nat) (c : ChainCluster) : State :=
  let z := s.zone p zone
  if c.cluster ≠ z.digestClusters ∨ z.committed / 64 ≤ c.cluster then s
  else
    let d := digestNext (z.digest.getD (s.digestInit p zone)) c.cluster c.serial (contentDigest c.blocks)
    let e := s.entry p (zoneLayer zone) (homeQ zone c.cluster)
    let s := s.updZone p zone fun z => { z with
      digest := some d, digestClusters := c.cluster + 1, lastSerial := max c.serial z.lastSerial
      fillerBlocks := z.fillerBlocks + (64 - c.blocks.length)
      filler := if c.blocks.length < 64 then z.filler ++ [c.cluster * 64 + c.blocks.length] else z.filler }
    if e.state == .written then s.setEntry p (zoneLayer zone) (homeQ zone c.cluster) { e with serial := c.serial } else s

/-- MAP_BUILT (R244): the chains of the open zones have been rebuilt from the clusters read, each with its WriteSerial and its data sectors that hold a
block; the namespace becomes available. -/
def execMapBuilt (p : PickupId) (chains : List (Nat × List ChainCluster)) (s : State) : Out :=
  s.when (s.memUp && (s.sides[p]).building) fun s =>
    let s := s.forEach chains fun s z =>
      if (s.zone p z.1).digestState == .rebuilding then s.forEach z.2 fun s c => s.rebuildChain p z.1 c else s
    let s := s.forEach (List.range zoneCount) fun s z =>
      if (s.zone p z).digestState == .rebuilding then
        s.updZone p z fun x => { x with digestState := if x.digestClusters = 0 then .empty else .running }
      else s
    let unusable := ((s.sides[p]).map.filter fun e => e.2.state == .unusable).length
    let elapsed := s.msSince (s.sides[p]).buildFrom
    let s := s.updS p fun x => { x with building := false, built := true, doorKept := false }
    (s.report Isl.mem Ev.wrMapBuilt [(p.val : Int), (p.side : Int), (elapsed : Int), (unusable : Int)]).namespaceNotice p

end Sys2Proof.Machine
end

