-- ==== Sys2Proof/Machine/Dispatch.lean ====
section
/-! DEFINITION. The one place where a command meets its meaning (one arm for each row of the table). -/

namespace Sys2Proof.Machine

/-- The effect of a command on everything but the queue. -/
def exec (i : Instr) (s : State) : Host.Outcome State Fault Refusal :=
  match i with
  | .loopSample p inputs => Sys2Proof.Machine.execLoopSample p inputs s
  | .outputSaturated p l => Sys2Proof.Machine.execOutputSaturated p l s
  | .loopFault p l => Sys2Proof.Machine.execLoopFault p l s
  | .defectHoldEntered p => Sys2Proof.Machine.execDefectHoldEntered p s
  | .defectHoldRequest cl p v => Sys2Proof.Machine.execDefectHoldRequest cl p v s
  | .holdRelease cl p v => Sys2Proof.Machine.execHoldRelease cl p v s
  | .defectHoldLeft p => Sys2Proof.Machine.execDefectHoldLeft p s
  | .holdTimeout p => Sys2Proof.Machine.execHoldTimeout p s
  | .servoOverrunStatusClear cl p v => Sys2Proof.Machine.execServoOverrunStatusClear cl p v s
  | .bankActivation p loops => Sys2Proof.Machine.execBankActivation p loops s
  | .xspStepEdge dirHigh => Sys2Proof.Machine.execXspStepEdge dirHigh s
  | .mountRequest cl v => Sys2Proof.Machine.execMountRequest cl v s
  | .mountSequenceStart p deviceId fault => Sys2Proof.Machine.execMountSequenceStart p deviceId fault s
  | .focusClose p => Sys2Proof.Machine.execFocusClose p s
  | .focusSweepEnd p => Sys2Proof.Machine.execFocusSweepEnd p s
  | .focusSettle p => Sys2Proof.Machine.execFocusSettle p s
  | .guidePassage p => Sys2Proof.Machine.execGuidePassage p s
  | .captureSettle p => Sys2Proof.Machine.execCaptureSettle p s
  | .captureTimeout p => Sys2Proof.Machine.execCaptureTimeout p s
  | .sledSearchMoveEnd p => Sys2Proof.Machine.execSledSearchMoveEnd p s
  | .lawReceived p law => Sys2Proof.Machine.execLawReceived p law s
  | .lawLost p => Sys2Proof.Machine.execLawLost p s
  | .arrayLock p => Sys2Proof.Machine.execArrayLock p s
  | .arraySlow p => Sys2Proof.Machine.execArraySlow p s
  | .mapLearnRevolution p => Sys2Proof.Machine.execMapLearnRevolution p s
  | .mapAdaptRevolution p => Sys2Proof.Machine.execMapAdaptRevolution p s
  | .seekRequest cl p v => Sys2Proof.Machine.execSeekRequest cl p v s
  | .layerJumpStart p => Sys2Proof.Machine.execLayerJumpStart p s
  | .jumpKickEnd p => Sys2Proof.Machine.execJumpKickEnd p s
  | .jumpBrake p => Sys2Proof.Machine.execJumpBrake p s
  | .jumpFocusClose p => Sys2Proof.Machine.execJumpFocusClose p s
  | .layerJumpFail p => Sys2Proof.Machine.execLayerJumpFail p s
  | .longSeekSledStop p => Sys2Proof.Machine.execLongSeekSledStop p s
  | .seekFail p => Sys2Proof.Machine.execSeekFail p s
  | .recoveryAttemptEnd p => Sys2Proof.Machine.execRecoveryAttemptEnd p s
  | .parkRequest cl p v => Sys2Proof.Machine.execParkRequest cl p v s
  | .parkComplete p => Sys2Proof.Machine.execParkComplete p s
  | .frameStart g row wanted => Sys2Proof.Machine.execFrameStart g row wanted s
  | .waymarkSearch g => Sys2Proof.Machine.execWaymarkSearch g s
  | .lockLost g => Sys2Proof.Machine.execLockLost g s
  | .codewordOffer g half => Sys2Proof.Machine.execCodewordOffer g half s
  | .frameSlotRelease g slot => Sys2Proof.Machine.execFrameSlotRelease g slot s
  | .envelopeFlag g => Sys2Proof.Machine.execEnvelopeFlag g s
  | .guideFlag g => Sys2Proof.Machine.execGuideFlag g s
  | .agcUpdate g samples => Sys2Proof.Machine.execAgcUpdate g samples s
  | .agcLimit g => Sys2Proof.Machine.execAgcLimit g s
  | .itiFracDelayStep g j => Sys2Proof.Machine.execItiFracDelayStep g j s
  | .itiLimit g j => Sys2Proof.Machine.execItiLimit g j s
  | .timingAcqEnd g => Sys2Proof.Machine.execTimingAcqEnd g s
  | .timingRelock g => Sys2Proof.Machine.execTimingRelock g s
  | .timingUnlock g => Sys2Proof.Machine.execTimingUnlock g s
  | .wobbleAmplitudePost p => Sys2Proof.Machine.execWobbleAmplitudePost p s
  | .decoderDispatch d => Sys2Proof.Machine.execDecoderDispatch d s
  | .codewordDecodeDone d => Sys2Proof.Machine.execCodewordDecodeDone d s
  | .workspaceResume p => Sys2Proof.Machine.execWorkspaceResume p s
  | .overflowReread p => Sys2Proof.Machine.execOverflowReread p s
  | .clusterDecodeStart p layer q => Sys2Proof.Machine.execClusterDecodeStart p layer q s
  | .outerDecodeDone p layer q => Sys2Proof.Machine.execOuterDecodeDone p layer q s
  | .rungStart p => Sys2Proof.Machine.execRungStart p s
  | .rereadPassEnd p => Sys2Proof.Machine.execRereadPassEnd p s
  | .rungEnd p => Sys2Proof.Machine.execRungEnd p s
  | .runForm p zone partialToo => Sys2Proof.Machine.execRunForm p zone partialToo s
  | .runFormTimeout p zone => Sys2Proof.Machine.execRunFormTimeout p zone s
  | .runArm p => Sys2Proof.Machine.execRunArm p s
  | .writePassStart p => Sys2Proof.Machine.execWritePassStart p s
  | .writePassEnd p => Sys2Proof.Machine.execWritePassEnd p s
  | .powerMonitorRead g monitorPeak fault => Sys2Proof.Machine.execPowerMonitorRead g monitorPeak fault s
  | .gateInhibit p => Sys2Proof.Machine.execGateInhibit p s
  | .notBlank p => Sys2Proof.Machine.execNotBlank p s
  | .spareRun p => Sys2Proof.Machine.execSpareRun p s
  | .zoneSeal p zone => Sys2Proof.Machine.execZoneSeal p zone s
  | .journalPairWrite p => Sys2Proof.Machine.execJournalPairWrite p s
  | .journalPairCommit p => Sys2Proof.Machine.execJournalPairCommit p s
  | .opc p pair errors => Sys2Proof.Machine.execOpc p pair errors s
  | .mapBuild p dcbBlank dcbReads discId marks records spares tails highSerial => Sys2Proof.Machine.execMapBuild p dcbBlank dcbReads discId marks records spares tails highSerial s
  | .mapBuilt p chains => Sys2Proof.Machine.execMapBuilt p chains s
  | .spindleStart cl m v => Sys2Proof.Machine.execSpindleStart cl m v s
  | .spindleStop cl m v => Sys2Proof.Machine.execSpindleStop cl m v s
  | .spindleCoast cl m v => Sys2Proof.Machine.execSpindleCoast cl m v s
  | .spindleStartReverse cl m v => Sys2Proof.Machine.execSpindleStartReverse cl m v s
  | .sensingEnd m => Sys2Proof.Machine.execSensingEnd m s
  | .alignEnd m => Sys2Proof.Machine.execAlignEnd m s
  | .handover m => Sys2Proof.Machine.execHandover m s
  | .startAttemptFail m => Sys2Proof.Machine.execStartAttemptFail m s
  | .startRetry m => Sys2Proof.Machine.execStartRetry m s
  | .catchSpinLock m => Sys2Proof.Machine.execCatchSpinLock m s
  | .pwmPeriod m currents voltages fltHigh => Sys2Proof.Machine.execPwmPeriod m currents voltages fltHigh s
  | .dtcEvaluation m currents => Sys2Proof.Machine.execDtcEvaluation m currents s
  | .speedSample m => Sys2Proof.Machine.execSpeedSample m s
  | .atSpeed m => Sys2Proof.Machine.execAtSpeed m s
  | .vbusSample m code => Sys2Proof.Machine.execVbusSample m code s
  | .vbusLow m => Sys2Proof.Machine.execVbusLow m s
  | .observerLost m => Sys2Proof.Machine.execObserverLost m s
  | .reacquisitionAttemptEnd m => Sys2Proof.Machine.execReacquisitionAttemptEnd m s
  | .gateFault m => Sys2Proof.Machine.execGateFault m s
  | .atRest m => Sys2Proof.Machine.execAtRest m s
  | .rateMatchEvaluation m => Sys2Proof.Machine.execRateMatchEvaluation m s
  | .rateFloor p => Sys2Proof.Machine.execRateFloor p s
  | .frictionTorqueApply m => Sys2Proof.Machine.execFrictionTorqueApply m s
  | .profilePeriod a encoderDelta coils vm fltHigh => Sys2Proof.Machine.execProfilePeriod a encoderDelta coils vm fltHigh s
  | .axisMove cl a v => Sys2Proof.Machine.execAxisMove cl a v s
  | .axisHalt cl a v => Sys2Proof.Machine.execAxisHalt cl a v s
  | .axisStop cl a v => Sys2Proof.Machine.execAxisStop cl a v s
  | .axisHome cl a v => Sys2Proof.Machine.execAxisHome cl a v s
  | .axisEnable cl a v => Sys2Proof.Machine.execAxisEnable cl a v s
  | .axisDisable cl a v => Sys2Proof.Machine.execAxisDisable cl a v s
  | .clearFault cl a v => Sys2Proof.Machine.execClearFault cl a v s
  | .stall a => Sys2Proof.Machine.execStall a s
  | .stallRetry a => Sys2Proof.Machine.execStallRetry a s
  | .holdDelayExpiry a => Sys2Proof.Machine.execHoldDelayExpiry a s
  | .homeInput a high => Sys2Proof.Machine.execHomeInput a high s
  | .homingEnd a => Sys2Proof.Machine.execHomingEnd a s
  | .limitInput a positive high => Sys2Proof.Machine.execLimitInput a positive high s
  | .encoderError a => Sys2Proof.Machine.execEncoderError a s
  | .axisDriverFault a => Sys2Proof.Machine.execAxisDriverFault a s
  | .axisOvercurrent a code => Sys2Proof.Machine.execAxisOvercurrent a code s
  | .doorbellWrite c queue completion value => Sys2Proof.Machine.execDoorbellWrite c queue completion value s
  | .commandFetch c sq e roundTripNs => Sys2Proof.Machine.execCommandFetch c sq e roundTripNs s
  | .dispatch c sq latencyNs => Sys2Proof.Machine.execDispatch c sq latencyNs s
  | .tollgateStallRelease k latencyNs => Sys2Proof.Machine.execTollgateStallRelease k latencyNs s
  | .commitPoint k => Sys2Proof.Machine.execCommitPoint k s
  | .completionPost k dataNs wholeNs => Sys2Proof.Machine.execCompletionPost k dataNs wholeNs s
  | .deleteIoSubmissionQueue k => Sys2Proof.Machine.execDeleteIoSubmissionQueue k s
  | .createIoSubmissionQueue k => Sys2Proof.Machine.execCreateIoSubmissionQueue k s
  | .getLogPage k => Sys2Proof.Machine.execGetLogPage k s
  | .deleteIoCompletionQueue k => Sys2Proof.Machine.execDeleteIoCompletionQueue k s
  | .createIoCompletionQueue k => Sys2Proof.Machine.execCreateIoCompletionQueue k s
  | .identify k => Sys2Proof.Machine.execIdentify k s
  | .abort k targetWaits => Sys2Proof.Machine.execAbort k targetWaits s
  | .setFeatures k => Sys2Proof.Machine.execSetFeatures k s
  | .setFeaturesPowerManagement k => Sys2Proof.Machine.execSetFeaturesPowerManagement k s
  | .setFeaturesTimestamp k => Sys2Proof.Machine.execSetFeaturesTimestamp k s
  | .getFeatures k => Sys2Proof.Machine.execGetFeatures k s
  | .asynchronousEventRequest k => Sys2Proof.Machine.execAsynchronousEventRequest k s
  | .firmwareImageDownload k => Sys2Proof.Machine.execFirmwareImageDownload k s
  | .firmwareCommitReplace k => Sys2Proof.Machine.execFirmwareCommitReplace k s
  | .firmwareCommitReplaceActivate k => Sys2Proof.Machine.execFirmwareCommitReplaceActivate k s
  | .firmwareCommitActivateAtReset k => Sys2Proof.Machine.execFirmwareCommitActivateAtReset k s
  | .firmwareCommitActivateNow k => Sys2Proof.Machine.execFirmwareCommitActivateNow k s
  | .fwActivationMediaIdle => Sys2Proof.Machine.execFwActivationMediaIdle s
  | .fwActivationDone => Sys2Proof.Machine.execFwActivationDone s
  | .deviceSelfTestShort k => Sys2Proof.Machine.execDeviceSelfTestShort k s
  | .deviceSelfTestExtended k => Sys2Proof.Machine.execDeviceSelfTestExtended k s
  | .deviceSelfTestAbort k => Sys2Proof.Machine.execDeviceSelfTestAbort k s
  | .selfTestStep segmentEnds passes => Sys2Proof.Machine.execSelfTestStep segmentEnds passes s
  | .getObject k => Sys2Proof.Machine.execGetObject k s
  | .setObject k => Sys2Proof.Machine.execSetObject k s
  | .flush k => Sys2Proof.Machine.execFlush k s
  | .write k => Sys2Proof.Machine.execWrite k s
  | .read k => Sys2Proof.Machine.execRead k s
  | .verify k => Sys2Proof.Machine.execVerify k s
  | .zoneAppend k => Sys2Proof.Machine.execZoneAppend k s
  | .reportZones k => Sys2Proof.Machine.execReportZones k s
  | .closeZone k => Sys2Proof.Machine.execCloseZone k s
  | .finishZone k => Sys2Proof.Machine.execFinishZone k s
  | .openZone k => Sys2Proof.Machine.execOpenZone k s
  | .resetZone k => Sys2Proof.Machine.execResetZone k s
  | .offlineZone k => Sys2Proof.Machine.execOfflineZone k s
  | .setZoneDescriptorExtension k => Sys2Proof.Machine.execSetZoneDescriptorExtension k s
  | .controllerEnable c weighted sqSize cqSize => Sys2Proof.Machine.execControllerEnable c weighted sqSize cqSize s
  | .controllerReset c kind => Sys2Proof.Machine.execControllerReset c kind s
  | .normalShutdown c => Sys2Proof.Machine.execNormalShutdown c s
  | .abruptShutdown c => Sys2Proof.Machine.execAbruptShutdown c s
  | .powerStateEntry => Sys2Proof.Machine.execPowerStateEntry s
  | .powerStateEntryEnd => Sys2Proof.Machine.execPowerStateEntryEnd s
  | .linkUp c rate width => Sys2Proof.Machine.execLinkUp c rate width s
  | .linkDown c => Sys2Proof.Machine.execLinkDown c s
  | .latencyReset cl v => Sys2Proof.Machine.execLatencyReset cl v s
  | .signpostRead cl r => Sys2Proof.Machine.execSignpostRead cl r s
  | .signpostWrite cl r => Sys2Proof.Machine.execSignpostWrite cl r s
  | .readStart cl r => Sys2Proof.Machine.execReadStart cl r s
  | .readSegment cl r => Sys2Proof.Machine.execReadSegment cl r s
  | .writeStart cl r => Sys2Proof.Machine.execWriteStart cl r s
  | .writeSegment cl r => Sys2Proof.Machine.execWriteSegment cl r s
  | .writeEnd cl r => Sys2Proof.Machine.execWriteEnd cl r s
  | .sessionClose cl r => Sys2Proof.Machine.execSessionClose cl r s
  | .enumerate cl r => Sys2Proof.Machine.execEnumerate cl r s
  | .objectWrite cl index sub v authorised => Sys2Proof.Machine.execObjectWrite cl index sub v authorised s
  | .sessionExpired n => Sys2Proof.Machine.execSessionExpired n s
  | .canFrame port identifier classical payload => Sys2Proof.Machine.execCanFrame port identifier classical payload s
  | .isoTpTimeout port => Sys2Proof.Machine.execIsoTpTimeout port s
  | .canBusOff port => Sys2Proof.Machine.execCanBusOff port s
  | .canBusOffRecovery port => Sys2Proof.Machine.execCanBusOffRecovery port s
  | .udpDatagram sourceAddress sourcePort destPort v6 checksumZero payload => Sys2Proof.Machine.execUdpDatagram sourceAddress sourcePort destPort v6 checksumZero payload s
  | .arpRequest sourceMac targetAddress => Sys2Proof.Machine.execArpRequest sourceMac targetAddress s
  | .icmpEcho v6 source target payload => Sys2Proof.Machine.execIcmpEcho v6 source target payload s
  | .neighbourSolicitation source target => Sys2Proof.Machine.execNeighbourSolicitation source target s
  | .reassemblyTimeout slot => Sys2Proof.Machine.execReassemblyTimeout slot s
  | .commSettingsChange index => Sys2Proof.Machine.execCommSettingsChange index s
  | .authChallengeRead cl => Sys2Proof.Machine.execAuthChallengeRead cl s
  | .authLockoutEnd => Sys2Proof.Machine.execAuthLockoutEnd s
  | .switchoverApply cl v => Sys2Proof.Machine.execSwitchoverApply cl v s
  | .switchoverDiscard cl v => Sys2Proof.Machine.execSwitchoverDiscard cl v s
  | .switchoverCheck cl v => Sys2Proof.Machine.execSwitchoverCheck cl v s
  | .switchoverApplyEdge => Sys2Proof.Machine.execSwitchoverApplyEdge s
  | .stagingIdleTimeout => Sys2Proof.Machine.execStagingIdleTimeout s
  | .mergeDrain ddr span => Sys2Proof.Machine.execMergeDrain ddr span s
  | .mergeDrainTimeout ddr span => Sys2Proof.Machine.execMergeDrainTimeout ddr span s
  | .correctedRead memory place syndrome scrub => Sys2Proof.Machine.execCorrectedRead memory place syndrome scrub s
  | .uncorrectableRead memory place syndrome scrub holds => Sys2Proof.Machine.execUncorrectableRead memory place syndrome scrub holds s
  | .rawWrite cl v => Sys2Proof.Machine.execRawWrite cl v s
  | .encodedWrite cl v => Sys2Proof.Machine.execEncodedWrite cl v s
  | .splitRead cl v => Sys2Proof.Machine.execSplitRead cl v s
  | .scrubStart cl v => Sys2Proof.Machine.execScrubStart cl v s
  | .scrubStop cl v => Sys2Proof.Machine.execScrubStop cl v s
  | .scrubDone wordsRead => Sys2Proof.Machine.execScrubDone wordsRead s
  | .cacheDisable cl v => Sys2Proof.Machine.execCacheDisable cl v s
  | .cacheEnable cl v => Sys2Proof.Machine.execCacheEnable cl v s
  | .cacheFill requester line => Sys2Proof.Machine.execCacheFill requester line s
  | .cleanByAddress cl v fillInFlight => Sys2Proof.Machine.execCleanByAddress cl v fillInFlight s
  | .invalidateByAddress cl v fillInFlight => Sys2Proof.Machine.execInvalidateByAddress cl v fillInFlight s
  | .cleanAndInvalidateByAddress cl v fillInFlight => Sys2Proof.Machine.execCleanAndInvalidateByAddress cl v fillInFlight s
  | .cleanBySetAndWay cl v fillInFlight => Sys2Proof.Machine.execCleanBySetAndWay cl v fillInFlight s
  | .invalidateBySetAndWay cl v fillInFlight => Sys2Proof.Machine.execInvalidateBySetAndWay cl v fillInFlight s
  | .cleanAndInvalidateBySetAndWay cl v fillInFlight => Sys2Proof.Machine.execCleanAndInvalidateBySetAndWay cl v fillInFlight s
  | .zeroALine cl v fillInFlight => Sys2Proof.Machine.execZeroALine cl v fillInFlight s
  | .onRampRead k => Sys2Proof.Machine.execOnRampRead k s
  | .onRampIdleTimeout k => Sys2Proof.Machine.execOnRampIdleTimeout k s
  | .dieTemperatureSample centi => Sys2Proof.Machine.execDieTemperatureSample centi s
  | .calRequest cl v => Sys2Proof.Machine.execCalRequest cl v s
  | .calItemStart item inst => Sys2Proof.Machine.execCalItemStart item inst s
  | .calStep item inst => Sys2Proof.Machine.execCalStep item inst s
  | .calRunEnd item inst raw => Sys2Proof.Machine.execCalRunEnd item inst raw s
  | .calRetry item inst => Sys2Proof.Machine.execCalRetry item inst s
  | .calDeferred item inst => Sys2Proof.Machine.execCalDeferred item inst s
  | .operatingHour => Sys2Proof.Machine.execOperatingHour s
  | .ledgerPoint code instance_ currents => Sys2Proof.Machine.execLedgerPoint code instance_ currents s
  | .marginPlan => Sys2Proof.Machine.execMarginPlan s
  | .marginPlanRequest cl v => Sys2Proof.Machine.execMarginPlanRequest cl v s
  | .planSetRelease p => Sys2Proof.Machine.execPlanSetRelease p s
  | .eventReport island => Sys2Proof.Machine.execEventReport island s
  | .reportQueueOverflow island => Sys2Proof.Machine.execReportQueueOverflow island s
  | .summaryClose code => Sys2Proof.Machine.execSummaryClose code s
  | .tickMark => Sys2Proof.Machine.execTickMark s
  | .pageProgram => Sys2Proof.Machine.execPageProgram s
  | .pageProgramDone failed => Sys2Proof.Machine.execPageProgramDone failed s
  | .flushRequest cl v => Sys2Proof.Machine.execFlushRequest cl v s
  | .flushDone => Sys2Proof.Machine.execFlushDone s
  | .runningAreaClear cl v authorised => Sys2Proof.Machine.execRunningAreaClear cl v authorised s
  | .eventStoreInit cl v authorised => Sys2Proof.Machine.execEventStoreInit cl v authorised s
  | .milestoneRequest cl v => Sys2Proof.Machine.execMilestoneRequest cl v s
  | .milestoneBallEdge => Sys2Proof.Machine.execMilestoneBallEdge s
  | .milestone cycle => Sys2Proof.Machine.execMilestone cycle s
  | .milestoneLatch island latencyNs => Sys2Proof.Machine.execMilestoneLatch island latencyNs s
  | .milestoneRelease cl v => Sys2Proof.Machine.execMilestoneRelease cl v s
  | .traceArm cl ch v => Sys2Proof.Machine.execTraceArm cl ch v s
  | .traceStop cl ch v => Sys2Proof.Machine.execTraceStop cl ch v s
  | .traceComplete ch => Sys2Proof.Machine.execTraceComplete ch s
  | .startup failure failingRows roundTrips => Sys2Proof.Machine.execStartup failure failingRows roundTrips s
  | .vergePowerOn => Sys2Proof.Machine.execVergePowerOn s
  | .systemReset => Sys2Proof.Machine.execSystemReset s
  | .watchdog => Sys2Proof.Machine.execWatchdog s
  | .coreReset => Sys2Proof.Machine.execCoreReset s
  | .islandResetRequest cl v authorised => Sys2Proof.Machine.execIslandResetRequest cl v authorised s
  | .quietPllUnlock => Sys2Proof.Machine.execQuietPllUnlock s
  | .quietPllRelock => Sys2Proof.Machine.execQuietPllRelock s
  | .systemPllUnlock => Sys2Proof.Machine.execSystemPllUnlock s
  | .supplyFail level heldUs => Sys2Proof.Machine.execSupplyFail level heldUs s
  | .shockTrip level heldUs => Sys2Proof.Machine.execShockTrip level heldUs s
  | .cartridgeDoorTrip level heldUs => Sys2Proof.Machine.execCartridgeDoorTrip level heldUs s
  | .overTemperatureTrip heldUs => Sys2Proof.Machine.execOverTemperatureTrip heldUs s
  | .comparatorClear k level heldUs => Sys2Proof.Machine.execComparatorClear k level heldUs s
  | .wake cause => Sys2Proof.Machine.execWake cause s
  | .timeOfDayWrite cl v => Sys2Proof.Machine.execTimeOfDayWrite cl v s
  | .firmwareKeyRevoke cl v authorised => Sys2Proof.Machine.execFirmwareKeyRevoke cl v authorised s
  | .dataReadCompletion k good => Sys2Proof.Machine.execDataReadCompletion k good s
  | .linkL1Entry c => Sys2Proof.Machine.execLinkL1Entry c s
  | .ethLinkChange speed => Sys2Proof.Machine.execEthLinkChange speed s
  | .canBusError port transmit receive => Sys2Proof.Machine.execCanBusError port transmit receive s
  | .vddvLoss => Sys2Proof.Machine.execVddvLoss s
  | .supplyRemoved => Sys2Proof.Machine.execSupplyRemoved s
  | .lpddr5SelfRefreshEntry => Sys2Proof.Machine.execLpddr5SelfRefreshEntry s
  | .ringOscMeasurement delays => Sys2Proof.Machine.execRingOscMeasurement delays s
  | .interruptCoalescingTime c => Sys2Proof.Machine.execInterruptCoalescingTime c s
  | .debugPortAccess kind arg data => Sys2Proof.Machine.execDebugPortAccess kind arg data s

end Sys2Proof.Machine
end

