-- ==== Sys2Proof/Machine/Step.lean ====
section
/-! DEFINITION. One step of the block: the command at the front of the queue, or one idle tracking period. -/

namespace Sys2Proof.Machine

/-- One tracking period of 625 ns passes with no command (DESIGN CHOICE: the block's clock runs while the queue is empty). -/
def State.idle (s : State) : State := { s with time := s.time + 1 }

/-- The command at the front of the queue takes effect on the state with the queue's rest; on an empty queue a tracking period passes. -/
def step (s : State) : Host.Outcome State Fault Refusal :=
  match s.pending with
  | [] => .next s.idle
  | c :: rest => exec c { s with pending := rest }

/-- The state with the command that a word spells at the front of its queue; unchanged where the word spells none. -/
def State.withFetchWord (s : State) (nbits w : Nat) : State :=
  match decodeTableWord nbits w with
  | some c => { s with pending := c :: s.pending }
  | none => s

end Sys2Proof.Machine
end

