-- ==== Sys2Proof/Safety.lean ====
section
/-! DEFINITION. The terms in which claims about the block are stated: the parts of the state and what a command leaves unchanged, what the
fuse array may do, and the forms that tables, queues and banks keep. -/

namespace Sys2Proof.Machine

/-! ### Frames -/

/-- Parts of the state, one for each of its fields. -/
inductive Part where
  | time | freeCount | pending | objs | doms | pickups | channels | decoding | sides | spindles | axes | host | ramps | signpost | staging
  | mem | cal | recorder | milestone | traces | xspAin | xspDir | verge | power | otp
deriving DecidableEq, Repr

/-- A part is the same in two states. -/
def Part.same : Part → State → State → Prop
  | .time, s, t => t.time = s.time
  | .freeCount, s, t => t.freeCount = s.freeCount
  | .pending, s, t => t.pending = s.pending
  | .objs, s, t => t.objs = s.objs
  | .doms, s, t => t.doms = s.doms
  | .pickups, s, t => t.pickups = s.pickups
  | .channels, s, t => t.channels = s.channels
  | .decoding, s, t => t.decoding = s.decoding
  | .sides, s, t => t.sides = s.sides
  | .spindles, s, t => t.spindles = s.spindles
  | .axes, s, t => t.axes = s.axes
  | .host, s, t => t.host = s.host
  | .ramps, s, t => t.ramps = s.ramps
  | .signpost, s, t => t.signpost = s.signpost
  | .staging, s, t => t.staging = s.staging
  | .mem, s, t => t.mem = s.mem
  | .cal, s, t => t.cal = s.cal
  | .recorder, s, t => t.recorder = s.recorder
  | .milestone, s, t => t.milestone = s.milestone
  | .traces, s, t => t.traces = s.traces
  | .xspAin, s, t => t.xspAin = s.xspAin
  | .xspDir, s, t => t.xspDir = s.xspDir
  | .verge, s, t => t.verge = s.verge
  | .power, s, t => t.power = s.power
  | .otp, s, t => t.otp = s.otp

/-- Nothing but the named parts differs between two states. -/
def Frame (changed : List Part) (s t : State) : Prop := ∀ q : Part, q ∉ changed → q.same s t

/-- Parts of the state that a command may change, through any of its branches. -/
def mayChange : Instr → List Part
  | .loopSample .. => [.time, .objs, .pickups, .channels, .axes, .staging, .recorder, .traces, .xspAin]
  | .outputSaturated .. => [.objs, .pickups, .recorder]
  | .loopFault .. => [.objs, .pickups, .channels, .sides, .spindles, .axes, .host, .recorder, .milestone]
  | .defectHoldEntered .. => [.objs, .pickups, .channels, .axes, .recorder, .milestone]
  | .defectHoldRequest .. => [.freeCount, .objs, .pickups, .channels, .axes, .signpost, .recorder, .milestone]
  | .holdRelease .. => [.freeCount, .objs, .pickups, .signpost, .recorder]
  | .defectHoldLeft .. | .holdTimeout .. | .mountSequenceStart .. | .focusSweepEnd .. | .captureTimeout .. | .lawLost ..
    | .layerJumpFail .. | .seekFail .. | .workspaceResume .. | .overflowReread .. | .runArm .. | .writePassEnd .. | .startRetry ..
    | .vbusSample .. | .reacquisitionAttemptEnd .. | .gateFault .. | .atRest .. | .profilePeriod .. | .stall .. | .homeInput ..
    | .limitInput .. | .encoderError .. | .axisDriverFault .. | .axisOvercurrent .. | .read .. | .verify .. =>
    [.objs, .pickups, .channels, .sides, .spindles, .axes, .host, .recorder]
  | .servoOverrunStatusClear .. | .splitRead .. => [.freeCount, .objs, .signpost, .recorder]
  | .bankActivation .. => [.objs, .pickups, .staging, .recorder]
  | .xspStepEdge .. => [.pickups, .axes, .xspDir]
  | .mountRequest .. => [.freeCount, .objs, .pickups, .spindles, .signpost, .recorder, .verge]
  | .focusClose .. | .focusSettle .. | .guidePassage .. | .captureSettle .. | .mapAdaptRevolution .. | .jumpKickEnd ..
    | .jumpBrake .. | .jumpFocusClose .. | .longSeekSledStop .. | .atSpeed .. => [.pickups]
  | .sledSearchMoveEnd .. => [.pickups, .axes]
  | .lawReceived .. | .arrayLock .. | .arraySlow .. | .mapLearnRevolution .. | .recoveryAttemptEnd .. | .powerStateEntry
    | .calItemStart .. => [.objs, .pickups, .channels, .sides, .spindles, .axes, .host, .cal, .recorder]
  | .seekRequest .. | .parkRequest .. | .spindleStop .. | .spindleCoast .. =>
    [.freeCount, .objs, .pickups, .channels, .sides, .spindles, .axes, .host, .signpost, .recorder]
  | .layerJumpStart .. => [.objs, .pickups, .channels, .sides, .host, .recorder]
  | .parkComplete .. => [.objs, .pickups, .channels, .sides, .spindles, .host, .recorder, .verge]
  | .frameStart .. | .writePassStart .. | .powerMonitorRead .. | .gateInhibit .. | .notBlank .. =>
    [.objs, .channels, .sides, .host, .recorder]
  | .waymarkSearch .. | .outerDecodeDone .. | .rungStart .. | .rereadPassEnd .. | .rungEnd .. | .completionPost ..
    | .deleteIoSubmissionQueue .. => [.objs, .pickups, .channels, .decoding, .sides, .spindles, .axes, .host, .recorder]
  | .lockLost .. | .agcLimit .. | .itiLimit .. | .timingUnlock .. => [.objs, .channels, .recorder]
  | .codewordOffer .. => [.objs, .channels, .decoding, .sides, .recorder]
  | .frameSlotRelease .. | .agcUpdate .. | .itiFracDelayStep .. | .timingAcqEnd .. | .timingRelock .. => [.channels]
  | .envelopeFlag .. | .guideFlag .. => [.objs, .channels]
  | .wobbleAmplitudePost .. => [.pickups, .channels]
  | .decoderDispatch .. => [.decoding]
  | .codewordDecodeDone .. => [.objs, .pickups, .channels, .decoding, .sides, .spindles, .axes, .host, .mem, .recorder]
  | .clusterDecodeStart .. => [.objs, .sides]
  | .runForm .. | .runFormTimeout .. | .spareRun .. | .journalPairWrite .. | .journalPairCommit .. | .mapBuild .. | .mapBuilt ..
    | .setFeaturesPowerManagement .. | .flush .. | .finishZone .. | .normalShutdown .. => [.objs, .sides, .host, .recorder]
  | .zoneSeal .. => [.sides, .recorder, .verge]
  | .opc .. => [.objs, .sides, .staging, .cal, .recorder]
  | .spindleStart .. | .spindleStartReverse .. => [.freeCount, .objs, .spindles, .signpost, .recorder]
  | .sensingEnd .. | .handover .. | .catchSpinLock .. | .speedSample .. | .vbusLow .. | .rateFloor .. => [.objs, .spindles, .recorder]
  | .alignEnd .. | .dtcEvaluation .. => [.spindles]
  | .startAttemptFail .. => [.objs, .spindles]
  | .pwmPeriod .. => [.objs, .pickups, .channels, .sides, .spindles, .axes, .host, .recorder, .traces]
  | .observerLost .. => [.objs, .pickups, .channels, .spindles, .axes, .recorder, .milestone]
  | .rateMatchEvaluation .. => [.sides, .spindles]
  | .frictionTorqueApply .. => [.objs, .spindles, .cal, .recorder]
  | .axisMove .. | .axisHalt .. | .axisStop .. | .axisHome .. | .axisEnable .. | .axisDisable .. | .clearFault .. =>
    [.freeCount, .objs, .axes, .signpost, .recorder]
  | .stallRetry .. | .holdDelayExpiry .. => [.axes]
  | .homingEnd .. => [.objs, .axes, .recorder]
  | .doorbellWrite .. | .commitPoint .. | .createIoSubmissionQueue .. | .deleteIoCompletionQueue .. | .createIoCompletionQueue ..
    | .identify .. | .setFeatures .. | .getFeatures .. | .asynchronousEventRequest .. | .firmwareImageDownload .. | .reportZones ..
    | .resetZone .. | .offlineZone .. | .setZoneDescriptorExtension .. | .linkL1Entry .. | .interruptCoalescingTime .. => [.host]
  | .commandFetch .. => [.objs, .pickups, .spindles, .host, .mem, .recorder, .verge]
  | .dispatch .. => [.objs, .sides, .host, .ramps, .recorder]
  | .tollgateStallRelease .. => [.objs, .host, .ramps]
  | .getLogPage .. | .write .. | .zoneAppend .. | .closeZone .. | .openZone .. | .dataReadCompletion .. => [.sides, .host]
  | .abort .. => [.objs, .pickups, .channels, .decoding, .sides, .spindles, .axes, .host, .ramps, .recorder]
  | .setFeaturesTimestamp .. | .eventReport .. => [.objs, .host, .recorder, .milestone, .verge]
  | .firmwareCommitReplace .. | .firmwareCommitReplaceActivate .. => [.objs, .host, .recorder, .power]
  | .firmwareCommitActivateAtReset .. => [.host, .power]
  | .firmwareCommitActivateNow .. | .deviceSelfTestShort .. | .deviceSelfTestExtended .. | .deviceSelfTestAbort ..
    | .selfTestStep .. | .controllerEnable .. | .linkUp .. | .linkDown .. => [.objs, .host, .recorder]
  | .fwActivationMediaIdle => [.objs, .host, .staging, .cal, .recorder, .power]
  | .fwActivationDone => [.objs, .host, .recorder, .power, .otp]
  | .getObject .. | .setObject .. | .signpostRead .. | .signpostWrite .. | .readStart .. | .readSegment .. | .writeStart ..
    | .writeSegment .. | .writeEnd .. | .sessionClose .. | .enumerate .. | .objectWrite .. =>
    [.freeCount, .objs, .doms, .pickups, .channels, .decoding, .sides, .spindles, .axes, .host, .ramps, .signpost, .staging, .mem,
     .cal, .recorder, .milestone, .traces, .verge, .power, .otp]
  | .controllerReset .. | .debugPortAccess .. =>
    [.objs, .doms, .pickups, .channels, .decoding, .sides, .spindles, .axes, .host, .ramps, .signpost, .staging, .mem, .cal,
     .recorder, .milestone, .traces, .xspAin, .xspDir, .verge, .power, .otp]
  | .abruptShutdown .. =>
    [.objs, .pickups, .channels, .decoding, .sides, .spindles, .axes, .host, .ramps, .staging, .cal, .recorder, .power, .otp]
  | .powerStateEntryEnd | .flushDone | .vergePowerOn | .systemReset | .coreReset | .wake .. =>
    [.objs, .doms, .pickups, .channels, .decoding, .sides, .spindles, .axes, .host, .ramps, .signpost, .staging, .mem, .cal,
     .recorder, .milestone, .traces, .xspAin, .xspDir, .verge, .power]
  | .latencyReset .. => [.freeCount, .objs, .host, .signpost, .recorder]
  | .sessionExpired .. | .canFrame .. | .canBusOff .. | .udpDatagram .. | .commSettingsChange .. => [.objs, .signpost, .recorder]
  | .isoTpTimeout .. | .canBusOffRecovery .. | .arpRequest .. | .icmpEcho .. | .neighbourSolicitation .. | .ethLinkChange ..
    | .canBusError .. => [.signpost]
  | .reassemblyTimeout .. | .ringOscMeasurement .. => [.objs]
  | .authChallengeRead .. => [.freeCount, .objs, .signpost, .staging]
  | .authLockoutEnd => [.objs, .signpost]
  | .switchoverApply .. | .switchoverCheck .. => [.freeCount, .objs, .signpost, .staging, .recorder]
  | .switchoverDiscard .. => [.freeCount, .objs, .signpost, .staging, .cal, .recorder]
  | .switchoverApplyEdge =>
    [.freeCount, .objs, .pickups, .channels, .sides, .spindles, .axes, .host, .ramps, .signpost, .staging, .cal, .recorder]
  | .stagingIdleTimeout | .marginPlan | .planSetRelease .. => [.objs, .staging, .cal, .recorder]
  | .mergeDrain .. | .mergeDrainTimeout .. | .correctedRead .. | .scrubDone .. | .cacheFill .. => [.objs, .mem, .recorder]
  | .uncorrectableRead .. => [.objs, .pickups, .channels, .sides, .host, .ramps, .mem, .recorder, .milestone, .traces, .verge, .power]
  | .rawWrite .. | .encodedWrite .. | .scrubStart .. | .scrubStop .. | .cacheDisable .. | .cacheEnable .. | .cleanByAddress ..
    | .invalidateByAddress .. | .cleanAndInvalidateByAddress .. | .cleanBySetAndWay .. | .invalidateBySetAndWay ..
    | .cleanAndInvalidateBySetAndWay .. | .zeroALine .. => [.freeCount, .objs, .signpost, .mem, .recorder]
  | .onRampRead .. => [.host, .ramps]
  | .onRampIdleTimeout .. => [.objs, .ramps]
  | .dieTemperatureSample .. | .operatingHour => [.objs, .cal]
  | .calRequest .. | .marginPlanRequest .. => [.freeCount, .objs, .signpost, .cal, .recorder]
  | .calStep .. | .calRetry .. => [.cal]
  | .calRunEnd .. => [.objs, .pickups, .channels, .sides, .spindles, .axes, .host, .staging, .cal, .recorder]
  | .calDeferred .. | .ledgerPoint .. => [.objs, .cal, .recorder]
  | .reportQueueOverflow .. | .summaryClose .. | .tickMark | .pageProgramDone .. => [.objs, .recorder, .milestone, .verge]
  | .pageProgram => [.recorder]
  | .flushRequest .. | .eventStoreInit .. => [.freeCount, .objs, .signpost, .recorder, .verge]
  | .runningAreaClear .. | .timeOfDayWrite .. => [.freeCount, .objs, .signpost, .recorder, .milestone, .verge]
  | .milestoneRequest .. | .milestoneRelease .. => [.freeCount, .objs, .signpost, .recorder, .milestone]
  | .milestoneBallEdge => [.milestone]
  | .milestone .. => [.objs, .recorder, .milestone, .traces, .verge]
  | .milestoneLatch .. => [.freeCount, .milestone]
  | .traceArm .. | .traceStop .. => [.freeCount, .objs, .signpost, .recorder, .traces]
  | .traceComplete .. => [.traces]
  | .startup .. => [.freeCount, .objs, .host, .signpost, .mem, .recorder, .milestone, .verge, .power, .otp]
  | .watchdog => [.objs, .staging, .cal, .recorder, .power]
  | .islandResetRequest .. =>
    [.freeCount, .objs, .pickups, .channels, .decoding, .sides, .spindles, .axes, .host, .ramps, .signpost, .staging, .cal, .recorder,
     .milestone, .verge, .power, .otp]
  | .quietPllUnlock => [.objs, .pickups, .channels, .sides, .spindles, .axes, .host, .recorder, .power]
  | .quietPllRelock | .systemPllUnlock => [.objs, .recorder, .power]
  | .supplyFail .. => [.objs, .channels, .sides, .spindles, .host, .recorder, .verge]
  | .shockTrip .. => [.objs, .recorder, .verge]
  | .cartridgeDoorTrip .. => [.objs, .pickups, .sides, .host, .recorder, .verge]
  | .overTemperatureTrip .. =>
    [.objs, .pickups, .channels, .decoding, .sides, .spindles, .axes, .host, .ramps, .staging, .cal, .recorder, .verge, .power, .otp]
  | .comparatorClear .. => [.verge]
  | .firmwareKeyRevoke .. => [.freeCount, .objs, .signpost, .recorder, .otp]
  | .vddvLoss => [.objs, .verge]
  | .supplyRemoved =>
    [.objs, .doms, .pickups, .channels, .decoding, .sides, .spindles, .axes, .host, .ramps, .signpost, .staging, .mem, .cal,
     .recorder, .milestone, .traces, .xspAin, .xspDir, .power]
  | .lpddr5SelfRefreshEntry => [.mem]

/-- Every entry of a vector but one is the same. -/
def KeptBut {α : Type} {n : Nat} (i : Fin n) (v w : Vector α n) : Prop := ∀ j : Fin n, j ≠ i → w[j] = v[j]

/-! ### Writes of objects that have a command of their own (R371) -/

/-- CORE takes a write: the carrier may write, and the value is in the type and the range of the object. -/
structure State.Takes (s : State) (cl : Client) (r : Row) (i k : Nat) (v : Int) : Prop where
  /-- CORE runs. -/
  up : s.coreUp = true
  /-- Check 10. -/
  mayWrite : s.carrierMayWrite cl (r.key i k) = true
  /-- The value is one of the type. -/
  holds : r.type.holds v = true
  /-- Check 13. -/
  admits : r.range.admits v = true

/-- The write was carried out: its record is queued, the effect has happened and the reply carries no abort code. -/
def State.wrote (s : State) (cl : Client) (r : Row) (i k : Nat) (effect : State → State) : State :=
  (effect (s.recordWrite cl (r.key i k))).answer none

/-! ### Commands of the submission queues (R337, R338) -/

/-- CORE may take a fetched command: it is in its queue, unanswered, and its completion queue has a slot for it. -/
structure State.Waits (s : State) (k : CmdRef) (c : Cmd) : Prop where
  /-- CORE runs. -/
  up : s.coreUp = true
  /-- The command is in flight. -/
  found : s.cmd? k = some c
  /-- It was fetched and not yet taken. -/
  fetched : c.stage = .fetched
  /-- It has no status. -/
  unanswered : c.result = none
  /-- Its completion queue has a free slot. -/
  commits : s.mayCommit k = true

/-- The state after the commit point of a command that CORE takes. -/
def State.taken (s : State) (k : CmdRef) : State := (s.commit k).updCmd k fun c => { c with stage := .taken }

/-- A dispatched command waits for the media work of its pickup. -/
structure State.WaitsForMedia (s : State) (k : CmdRef) (p : PickupId) (c : Cmd) : Prop where
  /-- The memory island runs. -/
  up : s.memUp = true
  /-- The command is in flight. -/
  found : s.cmd? k = some c
  /-- Its namespace is that of the pickup. -/
  pickup : pickupOf c.sqe.nsid = some p
  /-- It was dispatched. -/
  taken : c.stage = .taken
  /-- It has no status. -/
  unanswered : c.result = none
  /-- Its media work has not begun. -/
  unserved : c.dataIn = false

/-! ### The fuse array (R525, R527, R528) -/

/-- What may happen to the OTP: identity and variant stay, no key comes back, the rollback counter never falls. -/
structure Otp.After (o p : Otp) : Prop where
  /-- Variant fuses. -/
  variant : p.variant = o.variant
  /-- DieIdentity. -/
  dieIdentity : p.dieIdentity = o.dieIdentity
  /-- MAC address. -/
  mac : p.mac = o.mac
  /-- Revocation bits that were blown stay blown. -/
  revoked : ∀ k, o.keyRevoked.getLsbD k = true → p.keyRevoked.getLsbD k = true
  /-- Rollback counter. -/
  rollback : o.rollback ≤ p.rollback

/-! ### Forms that every command keeps -/

/-- The object store lists its keys rising, each once. -/
def State.ObjectsOk (s : State) : Prop := Sparse.rising none s.objs = true ∧ Sparse.rising none s.doms = true

/-- A stored word with one of its 72 bits inverted: data bits 0 to 63, check bits from 64 on. -/
def flipBit (c : Cell) (i : Fin 72) : Cell :=
  if i.val < 64 then { c with data := c.data ^^^ BitVec.ofNat 64 (2 ^ i.val) }
  else { c with check := c.check ^^^ BitVec.ofNat 8 (2 ^ (i.val - 64)) }

/-- The stored words of a memory are in canonical form: addresses strictly rising, none listed that reads as an unlisted one. -/
def Mem.wf (m : Mem) : Prop :=
  Sparse.wf sramBackground m.sram = true ∧ Sparse.rising none m.ddr = true ∧ ∀ e ∈ m.ddr, e.2 ≠ ddrBackground e.1

/-- No report queue holds more than 512 reports, and the event buffer no more than 8,192 records (R471, R483). -/
def Recorder.Bounded (r : Recorder) : Prop :=
  (∀ i : IslandId, (r.queues[i]).reports.length ≤ reportQueueDepth) ∧ r.buffer.length ≤ bufferSize

/-- No sequence number at or beyond the lease end has been taken (R482). -/
def Recorder.Leased (r : Recorder) : Prop := r.nextSeq ≤ r.leaseEnd

/-- A bank of an on-ramp holds at most 32 items, and no full filling bank waits beside an empty draining one (R430). -/
def Ramp.Ok (r : Ramp) : Prop :=
  r.filling.length ≤ r.used ∧ r.used ≤ rampDepth ∧ r.draining.length ≤ rampDepth ∧ ¬(r.maySwap = true ∧ rampDepth ≤ r.used)

/-- Every on-ramp keeps its banks. -/
def State.RampsOk (s : State) : Prop := ∀ k : RampId, (s.ramps[k]).Ok

/-- Every form of this file. -/
structure State.Forms (s : State) : Prop where
  /-- Object store. -/
  objects : s.ObjectsOk
  /-- Shared SRAM and LPDDR5. -/
  memory : s.mem.wf
  /-- Report queues and event buffer. -/
  bounded : s.recorder.Bounded
  /-- Lease of sequence numbers. -/
  leased : s.recorder.Leased
  /-- On-ramps. -/
  ramps : s.RampsOk

end Sys2Proof.Machine
end

