-- ==== Sys2Proof/Certificates/Slice0/Obligations.lean ====
section
/-! DEFINITION. The statements for the provers: rules of the whole machine and of its parts, then, per family of commands, that each
command completes, with the next state that its rules give.

In a completion statement each clause speaks of one command. Its hypotheses speak of the state and the operands alone; its conclusion
is that the command answers a next state, and which. Operations that the next state names (`startSpindle`, `report`, `wrote`, …) are
those of the model, defined beside the rules they follow. Values that the manual leaves open occur as free values of Config. -/

open Sys2Proof Sys2Proof.Machine

/-! ### The queue of commands and the step -/

/-- A step takes the command at the front of the queue and carries it out on the state with the queue's rest. -/
def Obligations.StepRunsTheFrontCommand : Prop :=
  ∀ (c : Instr) (rest : List Instr) (s : State), s.pending = c :: rest → step s = exec c { s with pending := rest }

/-- On an empty queue one tracking period passes and nothing else happens: the model's choice (log entry 2). -/
def Obligations.EmptyQueueLetsOnePeriodPass : Prop :=
  ∀ s : State, s.pending = [] → step s = .next { s with time := s.time + 1 }

/-- No command adds to the queue or takes from it: a step takes exactly its front. -/
def Obligations.StepConsumesExactlyTheFront : Prop :=
  ∀ s t : State, step s = .next t → t.pending = s.pending.tail

/-- No command is refused, and the one fault is an access to a word that no memory has. -/
def Obligations.OnlyMissingWordsFault : Prop :=
  (∀ (c : Instr) (s : State) (r : Refusal), exec c s ≠ .refused r) ∧
  (∀ (c : Instr) (s : State) (f : Fault), exec c s = .fault f → ∃ memory place, f = .noSuchAddress memory place ∧
    placeExists memory place = false ∧ ((∃ syn scrub, c = .correctedRead memory place syn scrub) ∨
      (∃ syn scrub holds, c = .uncorrectableRead memory place syn scrub holds))) ∧
  (∀ (memory place : Nat) (syn : BitVec 8) (scrub : Bool) (holds : WordHolds) (s : State), placeExists memory place = false →
    exec (.correctedRead memory place syn scrub) s = .fault (.noSuchAddress memory place) ∧
    exec (.uncorrectableRead memory place syn scrub holds) s = .fault (.noSuchAddress memory place))

/-! ### Whole-machine rules -/

/-- State.reset keeps every form, holds no command, lists no changed object, and its islands are held. -/
def Obligations.ResetKeepsEveryForm : Prop :=
  State.reset.Forms ∧ State.reset.pending = [] ∧ State.reset.objs = [] ∧ State.reset.verge.powered = false ∧
    State.reset.power.phase = .held ∧ (∀ (r : Row) (i k : Nat), State.reset.ob r i k = r.default i k)

/-- Every step keeps the forms of tables, memories, report queues, lease and on-ramps, from every state that has them. -/
def Obligations.EveryStepKeepsEveryForm : Prop :=
  ∀ s t : State, s.Forms → step s = .next t → t.Forms

/-- Every command changes only the parts of the state that are named for it. -/
def Obligations.CommandsChangeOnlyTheirParts : Prop :=
  ∀ (c : Instr) (s t : State), exec c s = .next t → Frame (mayChange c) s t

/-- Revocation of a firmware key (R528). -/
def Obligations.FirmwareKeyRevocation : Prop :=
  (∀ (cl : Client) (k : Nat) (verdict : Option Bool) (s : State), s.Takes cl Obj.firmwareKeyRevoke 0 0 k →
    (s.authorise cl (Obj.firmwareKeyRevoke.key 0 0) (leBytes Obj.firmwareKeyRevoke.type.size k) verdict).2 = none →
    ((s.slot? s.power.activeSlot).any fun m => m.keyIndex == k) = false → s.otp.keyRevoked ||| BitVec.ofNat 4 (2 ^ k) ≠ 15#4 →
    ∃ t : State, exec (.firmwareKeyRevoke cl k verdict) s = .next t ∧ t.otp.keyRevoked.getLsbD k = true ∧
      (∀ j, j ≠ k → t.otp.keyRevoked.getLsbD j = s.otp.keyRevoked.getLsbD j) ∧
      t.recorder = (((s.authorise cl (Obj.firmwareKeyRevoke.key 0 0) (leBytes Obj.firmwareKeyRevoke.type.size k) verdict).1.recordWrite cl
        (Obj.firmwareKeyRevoke.key 0 0)).report Isl.core Ev.fwKeyRevoked [(k : Int)]).recorder) ∧
  (∀ (cl : Client) (k : Nat) (verdict : Option Bool) (s : State), s.Takes cl Obj.firmwareKeyRevoke 0 0 k →
    (s.authorise cl (Obj.firmwareKeyRevoke.key 0 0) (leBytes Obj.firmwareKeyRevoke.type.size k) verdict).2 = none →
    ((s.slot? s.power.activeSlot).any fun m => m.keyIndex == k) = true ∨ s.otp.keyRevoked ||| BitVec.ofNat 4 (2 ^ k) = 15#4 →
    exec (.firmwareKeyRevoke cl k verdict) s = .next
      ((s.authorise cl (Obj.firmwareKeyRevoke.key 0 0) (leBytes Obj.firmwareKeyRevoke.type.size k) verdict).1.answer
        (some Abort.valueOutOfRange))) ∧
  (∀ (s t : State) (k : Nat), step s = .next t → s.otp.keyRevoked.getLsbD k = true → t.otp.keyRevoked.getLsbD k = true)

/-- The fuses: no step changes the variant, the die identity or the MAC address, and the rollback counter never falls (R525, R527). -/
def Obligations.FusesOnlyBlow : Prop :=
  ∀ s t : State, step s = .next t → s.otp.After t.otp

/-! ### Instances -/

/-- Numbers of pickups, sides and beams (R10). -/
def Obligations.InstanceNumbering : Prop :=
  (∀ p : PickupId, p.val = 2 * p.spindle.val + p.side ∧ p.side < 2) ∧
  (∀ (p : PickupId) (b : Fin 4), (p.beam b).val = 4 * p.val + b.val ∧ (p.beam b).pickup = p ∧ (p.beam b).inPickup = b) ∧
  (∀ g : BeamId, g.val = 4 * g.pickup.val + g.inPickup.val) ∧
  (∀ (i : SpindleId) (side : Fin 2), (i.pickup side).val = 2 * i.val + side.val ∧ (i.pickup side).spindle = i)

/-- Layer of a zone and positions of its clusters (R48). -/
def Obligations.ZonesLieOnOneLayer : Prop :=
  (∀ z : Nat, zoneLayer z = z / 67) ∧
  (∀ z : Nat, z < zoneCount → zoneLayer z = if z ≤ 66 then 0 else if z ≤ 133 then 1 else if z ≤ 200 then 2 else 3) ∧
  (∀ z c : Nat, homeQ z (c + 1) = homeQ z c + 1) ∧
  (∀ z c z' c' : Nat, c < zoneClusters → c' < zoneClusters → zoneLayer z = zoneLayer z' → homeQ z c = homeQ z' c' → z = z' ∧ c = c')

/-- In the VP6480-Q the levels of the sled encoder balls have no effect (R5): neither the count of a period nor an encoder error. -/
def Obligations.SledEncoderHasNoEffectInQ : Prop :=
  (∀ (a : AxisId) (d d' : Int) (coils : List (Int × Int)) (vm : Nat) (flt : Bool) (s : State), a.isSled = true → s.otp.variant = .q →
    exec (.profilePeriod a d coils vm flt) s = exec (.profilePeriod a d' coils vm flt) s) ∧
  (∀ (a : AxisId) (s : State), a.isSled = true → s.otp.variant = .q → exec (.encoderError a) s = .next s)

/-- A command of one channel, axis, spindle or pickup leaves every other one as it was. -/
def Obligations.InstancesAreIndependent : Prop :=
  (∀ (g : BeamId) (c : Instr), (∃ samples, c = .agcUpdate g samples) ∨ (∃ slot, c = .frameSlotRelease g slot) ∨
      c = .envelopeFlag g ∨ c = .guideFlag g ∨ c = .lockLost g ∨
      (∃ j, c = .itiFracDelayStep g j) ∨ (∃ j, c = .itiLimit g j) ∨ c = .timingAcqEnd g ∨ c = .timingRelock g ∨
      c = .timingUnlock g →
    ∀ s t : State, exec c s = .next t → KeptBut g s.channels t.channels) ∧
  (∀ (i : SpindleId) (c : Instr), c = .sensingEnd i ∨ c = .alignEnd i ∨ c = .handover i ∨ c = .startAttemptFail i ∨
      c = .catchSpinLock i ∨ (∃ l, c = .dtcEvaluation i l) ∨ c = .speedSample i ∨ c = .vbusLow i ∨
      c = .rateMatchEvaluation i ∨ c = .frictionTorqueApply i →
    ∀ s t : State, exec c s = .next t → KeptBut i s.spindles t.spindles) ∧
  (∀ (a : AxisId) (c : Instr), c = .stallRetry a ∨ c = .holdDelayExpiry a ∨ c = .homingEnd a →
    ∀ s t : State, exec c s = .next t → KeptBut a s.axes t.axes) ∧
  (∀ (p : PickupId) (c : Instr), c = .focusClose p ∨ c = .focusSettle p ∨ c = .captureSettle p ∨ c = .guidePassage p ∨
      c = .mapAdaptRevolution p ∨ c = .jumpKickEnd p →
    ∀ s t : State, exec c s = .next t → KeptBut p s.pickups t.pickups)

/-! ### The object store and the writes of objects -/

/-- A stored object reads back as written, and every other object reads as before. -/
def Obligations.ObjectStoreReadsBack : Prop :=
  ∀ (s : State) (r : Row) (i k : Nat) (v : Int), s.ObjectsOk →
    (s.setOb r i k v).ob r i k = v ∧
    (∀ (r' : Row) (i' k' : Nat), r'.key i' k' ≠ r.key i k → (s.setOb r i k v).ob r' i' k' = s.ob r' i' k') ∧
    Frame [.objs] s (s.setOb r i k v)

/-- The checks of an object write stand in the order 10, 13, 15 of R371, and a refused write has no effect but its reply. -/
def Obligations.ObjectWriteChecksInOrder : Prop :=
  ∀ (s : State) (cl : Client) (r : Row) (i k : Nat) (v : Int) (bad busy : Bool) (f : State → State),
    (s.coreUp = false → s.hostWrite cl r i k v bad busy f = s) ∧
    (s.coreUp = true → s.carrierMayWrite cl (r.key i k) = false →
      s.hostWrite cl r i k v bad busy f = s.answer (some Abort.carrierWriteDisabled)) ∧
    (s.coreUp = true → s.carrierMayWrite cl (r.key i k) = true → (r.type.holds v && r.range.admits v) = false ∨ bad = true →
      s.hostWrite cl r i k v bad busy f = s.answer (some Abort.valueOutOfRange)) ∧
    (s.Takes cl r i k v → bad = false → busy = true → s.hostWrite cl r i k v bad busy f = s.answer (some Abort.objectBusy)) ∧
    (s.Takes cl r i k v → bad = false → busy = false → s.hostWrite cl r i k v bad busy f = s.wrote cl r i k f)

/-- `CarrierWriteMask` and the write services of the carriers (R386). -/
def Obligations.CarrierWriteMaskDecides : Prop :=
  (∀ (s : State) (cl : Client) (b key : Nat), cl.carrierBit = some b →
    (s.carrierMayWrite cl key = true ↔ (s.obN Obj.carrierWriteMask).testBit b = true ∨ key = Obj.carrierWriteMask.key 0 0)) ∧
  (∀ (s : State) (cl : Client), s.carrierMayWrite cl (Obj.carrierWriteMask.key 0 0) = true) ∧
  (∀ (s : State) (cl : Client) (r : Row) (i k b : Nat) (v : Int) (bad busy : Bool) (f : State → State), s.coreUp = true →
    cl.carrierBit = some b → (s.obN Obj.carrierWriteMask).testBit b = false → r.key i k ≠ Obj.carrierWriteMask.key 0 0 →
    s.hostWrite cl r i k v bad busy f = s.answer (some Abort.carrierWriteDisabled))

/-! ### Servo and acquisition -/

/-- Causes that arrive during a hold accumulate and are not reported again (R85). -/
def Obligations.HoldCausesAccumulate : Prop :=
  ∀ (p : PickupId) (s : State), s.svUp p = true → (s.pickups[p]).engine = .defectHold → (s.pickups[p]).seq ≠ .park →
    (s.pickups[p]).holdPending ≠ 0 → hasAny (s.pickups[p]).holdPending Hold.aborting = false →
    ∃ t, exec (.defectHoldEntered p) s = .next t ∧
      (t.pickups[p]).holdCause = (s.pickups[p]).holdCause ||| (s.pickups[p]).holdPending ∧
      (t.pickups[p]).engine = .defectHold ∧ t.recorder = s.recorder ∧ Frame [.pickups] s t ∧ KeptBut p s.pickups t.pickups

/-- One loop fault per run of overruns, and none of the skew, tilt and sled outer loops (R89, R90). -/
def Obligations.OneLoopFaultPerRun : Prop :=
  (∀ (p : PickupId) (l : ServoLoop) (s : State), (s.pickups[p]).loops[l.idx].faultRaised = true ∨ (s.pickups[p]).loops[l.idx].lateRun < 3 →
    exec (.loopFault p l) s = .next s) ∧
  (∀ (p : PickupId) (l : ServoLoop) (s : State), l = .skew ∨ l = .tilt ∨ l = .sledOuter → exec (.loopFault p l) s = .next s)

/-- Track following ends at the `LawMissLimit`th discarded LAW in a row (R123). -/
def Obligations.LawMissLimitEndsFollowing : Prop :=
  ∀ (p : PickupId) (s : State), s.svUp p = true → (s.pickups[p]).engine = .following →
    (s.obN Obj.lawMissLimit p ≤ (s.pickups[p]).lawDiscardRun →
      exec (.lawLost p) s = .next ((s.report (Isl.sv p) Ev.acqLawLost [(p.val : Int)]).startRecovery p none)) ∧
    ((s.pickups[p]).lawDiscardRun < s.obN Obj.lawMissLimit p → exec (.lawLost p) s = .next s) ∧
    Obj.lawMissLimit.default p 0 = 16

/-- A LAW with one wrong bit is never good (R30). -/
def Obligations.LawWithOneWrongBitIsDiscarded : Prop :=
  ∀ (w : BitVec 32) (i : Fin 32), lawGood w = true → lawGood (w ^^^ BitVec.ofNat 32 (2 ^ i.val)) = false

/-! ### Memory -/

/-- The checker: a word as stored reads Clean, any one wrong bit of its 72 is corrected, any two wrong bits are seen, and a word read at another
address never looks like one corrected bit (R406, R408). -/
def Obligations.CheckerCorrectsOneAndSeesTwo : Prop :=
  (∀ (d : Word64) (f : Nat), (Cell.mk d (checkBits d f)).syndrome f = 0) ∧
  (∀ (d : Word64) (f : Nat) (i : Fin 72), (flipBit (Cell.mk d (checkBits d f)) i).corrected f = d ∧
    (classify ((flipBit (Cell.mk d (checkBits d f)) i).syndrome f)).corrected = true) ∧
  (∀ (d : Word64) (f : Nat) (i j : Fin 72), i ≠ j →
    (classify ((flipBit (flipBit (Cell.mk d (checkBits d f)) i) j).syndrome f)).lost = true) ∧
  (∀ (d : Word64) (f f' : Nat), (classify ((Cell.mk d (checkBits d f)).syndrome f')).corrected = false)

/-- A stored word reads back, every other word of both memories reads as before, and the memory keeps its form. -/
def Obligations.MemoryStoreReadsBack : Prop :=
  ∀ (m : Mem) (ddr : Bool) (word : Nat) (c : Cell), m.wf →
    (m.store ddr word c).cell ddr word = c ∧
    (∀ (ddr' : Bool) (word' : Nat), (ddr', word') ≠ (ddr, word) → (m.store ddr word c).cell ddr' word' = m.cell ddr' word') ∧
    (m.store ddr word c).wf

/-- A raw and an encoded write store the window word at `SplitAddress` and no other word of either memory (R414). -/
def Obligations.SplitWritesStoreOneWord : Prop :=
  ∀ (cl : Client) (s : State), s.mem.wf → s.ObjectsOk → s.ob Obj.splitWriteEnable = 1 →
    (s.Takes cl Obj.splitCommand 0 0 1 → ∃ t, exec (.rawWrite cl 1) s = .next t ∧
      t.mem.cell false s.splitWord = { data := BitVec.ofNat 64 (s.obN Obj.splitData), check := BitVec.ofNat 8 (s.obN Obj.splitCheck) } ∧
      (∀ (ddr : Bool) (word : Nat), (ddr, word) ≠ (false, s.splitWord) → t.mem.cell ddr word = s.mem.cell ddr word)) ∧
    (s.Takes cl Obj.splitCommand 0 0 2 → ∃ t, exec (.encodedWrite cl 2) s = .next t ∧
      t.mem.cell false s.splitWord = encodeWord false s.splitWord (BitVec.ofNat 64 (s.obN Obj.splitData)) ∧
      (∀ (ddr : Bool) (word : Nat), (ddr, word) ≠ (false, s.splitWord) → t.mem.cell ddr word = s.mem.cell ddr word)) ∧
    (s.Takes cl Obj.splitCommand 0 0 3 → ∃ t, exec (.splitRead cl 3) s = .next t ∧ t.mem = s.mem)

/-! ### Calibration, recorder, power -/

/-- A void run counts neither as agreement nor as disagreement, and the third in a row is a failed attempt (R447). -/
def Obligations.ThirdVoidRunFails : Prop :=
  ∀ (item : Fin 12) (inst : Fin 8) (raw : CalRaw) (results : List Int) (ix : Fin 92) (s : State), itemIx item inst = some ix →
    s.runResults inst raw = some results → s.coreUp = true → (s.cal.items[ix]).state = .running → 0 < (s.cal.items[ix]).steps →
    s.disturbance item.val inst.val ≠ (s.cal.items[ix]).disturbance →
    ((s.cal.items[ix]).voids < 2 → ∃ t, exec (.calRunEnd item inst raw) s = .next t ∧ (t.cal.items[ix]).state = .running ∧
      (t.cal.items[ix]).voids = (s.cal.items[ix]).voids + 1 ∧ (t.cal.items[ix]).results = (s.cal.items[ix]).results ∧
      (t.cal.items[ix]).failures = (s.cal.items[ix]).failures ∧ Frame [.cal] s t ∧ KeptBut ix s.cal.items t.cal.items) ∧
    (2 ≤ (s.cal.items[ix]).voids → exec (.calRunEnd item inst raw) s =
      .next (((s.updItem ix fun x => { x with steps := 0, disturbance := s.disturbance item.val inst.val }).itemFails ix).seekBack ix inst))

/-- A report queue holds 512 reports; one that finds it full is lost and counted (R471). -/
def Obligations.FullReportQueueLosesAndCounts : Prop :=
  ∀ (s : State) (i : IslandId) (code : Nat) (payload : List Int),
    ((s.recorder.queues[i]).reports.length < 512 → ((s.report i code payload).recorder.queues[i]).reports =
        (s.recorder.queues[i]).reports ++ [{ code := code, payload := payload, reserved := none, errorEntry := none }] ∧
      ((s.report i code payload).recorder.queues[i]).overflow = (s.recorder.queues[i]).overflow) ∧
    (512 ≤ (s.recorder.queues[i]).reports.length →
      ((s.report i code payload).recorder.queues[i]).reports = (s.recorder.queues[i]).reports ∧
      ((s.report i code payload).recorder.queues[i]).overflow = (s.recorder.queues[i]).overflow + 1) ∧
    KeptBut i s.recorder.queues (s.report i code payload).recorder.queues ∧ Frame [.objs, .recorder] s (s.report i code payload)

/-- A milestone raised while a capture is under way or Held is counted and recorded with Captured 0; it latches nothing, freezes no record
and stops no trace (R492). -/
def Obligations.MilestoneDuringCaptureLatchesNothing : Prop :=
  ∀ (cycle : Nat) (s : State), s.svUp 0 = true → s.milestone.pendingSources ≠ 0 → s.milestone.state ≠ .idle →
    exec (.milestone cycle) s = .next (
      let u := ({ s with milestone := { s.milestone with pendingSources := 0, pendingDetail := 0 } }).bump Obj.milestonesMissed 0 0
      if u.memUp && u.recorder.running then
        u.ownNext Ev.recMilestone [(s.milestone.pendingSources.toNat : Int), (s.milestone.pendingDetail : Int), 0]
      else u)

/-- The wake from PS3 (R513). -/
def Obligations.WakeRaisesTheSupplyRequest : Prop :=
  ∀ (cause : Fin 6) (s : State), s.power.phase = .ps3 →
    (∀ k : Fin 4, k.val = cause.val → s.ob Obj.compWakeEnable k.val = 1 ∧ (s.verge.comps[k]).tripped = decide (k.val < 3)) →
    ∃ t, exec (.wake cause) s = .next t ∧ t.verge.pwrEn = true ∧ t.verge.wakeCause = cause.val + 1 ∧ t.power.phase = .held

/-- A command of an island that does not run changes nothing. -/
def Obligations.IslandsDownIgnoreTheirCommands : Prop :=
  (∀ (p : PickupId) (s : State), s.svUp p = false →
    (∀ i, exec (.loopSample p i) s = .next s) ∧ (∀ l, exec (.loopFault p l) s = .next s) ∧
    exec (.defectHoldEntered p) s = .next s ∧ exec (.defectHoldLeft p) s = .next s ∧ exec (.lawLost p) s = .next s ∧
    (∀ w, exec (.lawReceived p w) s = .next s) ∧ exec (.writePassStart p) s = .next s ∧ exec (.writePassEnd p) s = .next s) ∧
  (∀ (g : BeamId) (s : State), s.chUp g = false →
    (∀ r w, exec (.frameStart g r w) s = .next s) ∧ exec (.waymarkSearch g) s = .next s ∧
    (∀ x, exec (.agcUpdate g x) s = .next s) ∧ (∀ h, exec (.codewordOffer g h) s = .next s)) ∧
  (∀ (i : SpindleId) (s : State), s.mtUp i = false →
    (∀ cl v, exec (.spindleStart cl i v) s = .next s) ∧ (∀ a b c, exec (.pwmPeriod i a b c) s = .next s) ∧
    exec (.speedSample i) s = .next s ∧ exec (.gateFault i) s = .next s) ∧
  (∀ (a : AxisId) (s : State), s.axisUp a = false →
    (∀ d l e f, exec (.profilePeriod a d l e f) s = .next s) ∧ (∀ cl v, exec (.axisMove cl a v) s = .next s) ∧
    exec (.axisDriverFault a) s = .next s) ∧
  (∀ s : State, s.memUp = false → (∀ d, exec (.codewordDecodeDone d) s = .next s) ∧ (∀ k, exec (.write k) s = .next s) ∧
    (∀ k, exec (.read k) s = .next s) ∧ (∀ d n, exec (.mergeDrain d n) s = .next s) ∧ exec .pageProgram s = .next s) ∧
  (∀ s : State, s.coreUp = false → (∀ k, exec (.identify k) s = .next s) ∧ (∀ cl r, exec (.signpostRead cl r) s = .next s) ∧
    (∀ n, exec (.sessionExpired n) s = .next s) ∧ exec .marginPlan s = .next s)

/-! ### Codes, write pulses, gates, spares, queues -/

/-- The inner code's encoder (R176 to R178): every codeword is systematic, its information bits read back as the bytes that they came from, and
each of its 2,048 checks holds an even number of ones. -/
def Obligations.EveryCodewordMeetsEveryCheck : Prop :=
  ∀ v : HalfBlock, (ldpcEncode v).length = codeBits ∧ (ldpcEncode v).take infoBits = bitsOfHalf v ∧ halfOfBits (bitsOfHalf v) = v ∧
    ∀ row x : Nat, row < 4 → x < lifting → ((ldpcCheck row x).filter fun b => (ldpcEncode v).getD b false).length % 2 = 0

/-- A decode runs until its syndrome is zero or the limit is reached, and reports the checks that its last hard decisions leave (R180). -/
def Obligations.DecodeEndsByItsSyndrome : Prop :=
  ∀ (llrs : List Int) (offset limit : Nat), 1 ≤ limit →
    let start : MinSum := { posterior := llrs.toArray, message := Array.replicate (4 * 36 * lifting) 0 }
    let left (n : Nat) : Nat := unsatisfied (Nat.iterate (fun m : MinSum => m.iterate offset) n start).posterior
    let r := ldpcDecode llrs offset limit
    1 ≤ r.iterations ∧ r.iterations ≤ limit ∧ r.unsatisfied = left r.iterations ∧ (r.converged = true ↔ r.unsatisfied = 0) ∧
      (r.converged = false → r.iterations = limit) ∧ (∀ n, 1 ≤ n → n < r.iterations → left n ≠ 0)

/-- The laser gates of a mark (R215): between any levels before and after them, a space of s bits and a mark of n bits that starts at t_s. -/
def Obligations.WritePulsesFollowTheStrategy : Prop :=
  ∀ (g : RunSettings) (before after : List Bool) (s n : Nat), 1 ≤ s → 1 ≤ n → before.getLast? ≠ some false → after.head? ≠ some true →
    let l := framePulses g (before ++ List.replicate s false ++ List.replicate n true ++ after)
    let m := if n ≤ 2 then 0 else if n = 3 then 1 else if n = 4 then 2 else 3
    let σ := if s ≤ 2 then 0 else if s = 3 then 1 else 2
    let t : Int := before.length + s
    ∃ (i : Nat) (x : Pulse), l[i]? = some x ∧ x.rise = 32 * t + g.topStart.getD (3 * m + σ) 0 ∧
      x.fall = 32 * (t + n - 1) + g.endShift.getD m 0 ∧
      x.cool = match l[i + 1]? with
        | some y => min (x.fall + g.coolLength.getD m 0) y.rise
        | none => x.fall + g.coolLength.getD m 0

/-- Patterns of a phase's gates (R252). Each way in which the model forms a pattern keeps the two gates from being on at once, puts no edge
inside the interval about a tracking sampling edge, and lets a gate go on no earlier than a dead time after the other went off. -/
def Obligations.GatesOfAPhaseAreNeverOnTogether : Prop :=
  ∀ (l : Leg) (duty dead ns : Int) (high : Bool), 0 ≤ dead → (∀ t, l.level t ≠ (true, true)) →
    ∀ p ∈ [l.next ns, l.off ns, (l.next ns).turn high 0 dead, l.pwm duty dead],
      (∀ t, p.level t ≠ (true, true)) ∧ (∀ e ∈ p.edges, nearEdge e.ns = false) ∧
      (∀ (n : Nat) (e e' : GateEdge), p.edges[n]? = some e → p.edges[n + 1]? = some e' → e.on = false → e'.on = true → e.high ≠ e'.high →
        e.ns + dead ≤ e'.ns)

/-- The spare that an allocation takes (R45, R46): the lowest free position of the pool of the same layer, else of the first other layer of the same
side, in ascending order, whose pool is not empty. -/
def Obligations.SparesComeLowestFirst : Prop :=
  ∀ (s : State) (p : PickupId) (layer l q : Nat),
    (s.freeSpare p l = some q ↔ 274432 ≤ q ∧ q < 282920 ∧
      ((s.entry p l q).state = .spareFree ∧ (s.entry p l q).poisoned = false ∧ (s.sides[p]).inRuns l q = false) ∧
      (∀ q', 274432 ≤ q' → q' < q → ¬((s.entry p l q').state = .spareFree ∧ (s.entry p l q').poisoned = false ∧
        (s.sides[p]).inRuns l q' = false))) ∧
    (s.nextSpare p layer = some (l, q) ↔ s.freeSpare p l = some q ∧
      (l = layer ∨ l < 4 ∧ s.freeSpare p layer = none ∧ ∀ l', l' < l → s.freeSpare p l' = none)) ∧
    (s.nextSpare p layer = none ↔ s.freeSpare p layer = none ∧ ∀ l', l' < 4 → s.freeSpare p l' = none)

/-- Which submission queue a controller serves next (R324). -/
def Obligations.AdminAndUrgentQueuesComeFirst : Prop :=
  (∀ x : Controller, x.weighted = true → (x.sqs.any fun q => q.id == 0 && q.waits) = true → ∃ a, x.serveNext = some (0, a)) ∧
  (∀ x : Controller, x.weighted = true → (x.sqs.any fun q => q.id == 0 && q.waits) = false → x.inGroup 1 ≠ [] →
    ∃ i a, x.serveNext = some (i, a) ∧ i ∈ x.inGroup 1) ∧
  (∀ x : Controller, x.weighted = true → (x.sqs.any fun q => q.id == 0 && q.waits) = false → x.inGroup 1 = [] →
    (∃ g, g ∈ [2, 3, 4] ∧ x.inGroup g ≠ []) → ∃ g i a, g ∈ [2, 3, 4] ∧ x.serveNext = some (i, a) ∧ i ∈ x.inGroup g) ∧
  (∀ x : Controller, x.weighted = false → x.inGroup 0 ≠ [] → ∃ i a, x.serveNext = some (i, a) ∧ i ∈ x.inGroup 0)

/-- Sizes of the table of R9 that the model's numbers give: islands, queues, on-chip memory, trace and event buffers, cluster map, user
capacity of a disc, package balls. -/
def Obligations.SizesOfTheBlock : Prop :=
  Fintype.card IslandId = 48 ∧
  (∀ x : Controller, x.features = [] → 2 * (x.sqAllocated + 1) = 8192 ∧ 2 * (x.cqAllocated + 1) = 8192) ∧
  (∀ place : Nat, placeExists 0 place = true ↔ place < 16 * 2 ^ 20) ∧
  8 * traceDepth * 4 = 2 * 2 ^ 20 ∧ bufferSize * 32 = 256 * 2 ^ 10 ∧
  Fintype.card PickupId * 4 * 524288 = 16777216 ∧ (∀ z c : Nat, z < zoneCount → c < zoneClusters → homeQ z c < spareFrom) ∧
  2 * zoneCount * zoneBlocks * 4096 = 575525617664 ∧
  ([Band.top, .left, .right, .bottom].map Band.size).foldl (· + ·) 0 + 27 * 27 = 1521

/-! ### Completion of every command -/

/-- Servo loop commands complete: LOOP_SAMPLE (R63), OUTPUT_SATURATED (R66), LOOP_FAULT (R89, R125), DEFECT_HOLD_ENTERED (R85, R84),
DEFECT_HOLD_REQUEST (R98), HOLD_RELEASE (R124, R130), DEFECT_HOLD_LEFT (R87, R124), HOLD_TIMEOUT (R126, R103),
SERVO_OVERRUN_STATUS_CLEAR (R97), BANK_ACTIVATION (R79), XSP_STEP_EDGE (R93, R298). -/
def Obligations.ServoLoopCommandsComplete : Prop :=
  (∀ (p : PickupId) (i : LoopInputs) (s : State), s.svUp p = true →
    exec (.loopSample p i) s = .next (s.sampleEdge p i)) ∧
  (∀ (p : PickupId) (l : ServoLoop) (s : State),
    s.svUp p = true → 1024 ≤ (s.pickups[p]).loops[l.idx].saturatedRun →
    exec (.outputSaturated p l) s =
      .next ((s.updLoop p l fun v => { v with saturatedRun := 0 }).report (Isl.sv p) Ev.servoOutputSaturated [(p.val : Int), (l.idx.val : Int)])) ∧
  (∀ (p : PickupId) (l : ServoLoop) (s : State),
    s.svUp p = true → ((l == .tracking || l == .focus)) = true → 3 ≤ (s.pickups[p]).loops[l.idx].lateRun →
    (s.pickups[p]).loops[l.idx].faultRaised = false →
    exec (.loopFault p l) s = .next (
        let v := (s.pickups[p]).loops[l.idx]
        let s := (s.bump Obj.loopFaultCount p 0).report (Isl.sv p) Ev.servoLoopFault [(p.val : Int), (l.idx.val : Int)]
        let s := s.updLoop p l fun v => { v with faultRaised := true }
        match (s.pickups[p]).lastFaultExit with
        | some t =>
          if s.msSince t < s.obN Obj.refaultWindow p then s.park p .repeatFault else s.enterHold p (faultCause l) 0 0
        | none => s.enterHold p (faultCause l) 0 0)) ∧
  (∀ (p : PickupId) (s : State), s.svUp p = true →
    exec (.defectHoldEntered p) s = .next (
        let k := s.pickups[p]
        let (a, b) := k.skips ((k.lastEdge.getD s.time) - s.power.gridBase)
        s.enterHold p k.holdPending a b)) ∧
  (∀ (cl : Client) (p : PickupId) (v : Int) (s : State), s.svUp p = true → s.Takes cl Obj.defectHoldRequest p 0 v →
    exec (.defectHoldRequest cl p v) s = .next (s.wrote cl Obj.defectHoldRequest p 0 fun s => s.enterHold p Hold.hostRequest 0 0)) ∧
  (∀ (cl : Client) (p : PickupId) (v : Int) (s : State), s.svUp p = true → s.Takes cl Obj.holdRelease p 0 v →
    exec (.holdRelease cl p v) s =
      .next (s.wrote cl Obj.holdRelease p 0 fun s => s.updP p fun k => { k with holdReleased := k.holdReleased || hasAny k.holdCause Hold.hostRequest })) ∧
  (∀ (p : PickupId) (s : State),
    s.svUp p = true → s.pickups[p].engine = .defectHold → s.obN Obj.holdExitCount p ≤ s.pickups[p].exitRun →
    exec (.defectHoldLeft p) s = .next (
        let k := s.pickups[p]
        let focusFault := hasAny k.holdCause Hold.focusLoopFault
        if k.abortedMount then s.park p .aborted
        else if focusFault || hasAny k.holdCause Hold.trackingLoopFault then
          let s := (s.endHold p).updP p fun k => { k with lastFaultExit := some s.time }
          let s := s.forEach [.skew, .tilt, .sledOuter] fun s l => s.unholdLoop p l
          s.startRecovery p (some (if focusFault then 2 else 1))
        else (s.leaveHold p).runQueued p)) ∧
  (∀ (p : PickupId) (s : State),
    s.svUp p = true → s.pickups[p].engine = .defectHold →
    hasAny s.pickups[p].holdCause (Hold.hostRequest ||| Hold.spindleObserverLoss) = false →
    usTicks (s.obN Obj.holdTimeout p) ≤ s.time - s.pickups[p].holdEnteredAt →
    exec (.holdTimeout p) s = .next (
        let k := s.pickups[p]
        let s := (s.bump Obj.holdTimeoutCount p 0).report (Isl.sv p) Ev.acqHoldTimeout [(p.val : Int)]
        if k.abortedMount then s.park p .aborted else (s.endHold p).startRecovery p none)) ∧
  (∀ (cl : Client) (p : PickupId) (v : Int) (s : State), s.svUp p = true → s.Takes cl Obj.servoOverrunStatus p 0 v →
    exec (.servoOverrunStatusClear cl p v) s =
      .next (s.wrote cl Obj.servoOverrunStatus p 0 fun u => u.setOb Obj.servoOverrunStatus p 0 ((BitVec.ofNat 16 (u.obN Obj.servoOverrunStatus p) &&& ~~~(BitVec.ofInt 16 v)).toNat : Nat))) ∧
  (∀ (p : PickupId) (loops : BitVec 5) (s : State), s.svUp p = true → s.staging.edge ≤ s.gridN + 1 →
    exec (.bankActivation p loops) s =
      .next (s.activateBanks p ((s.banksDue p).filter fun l => loops.getLsbD l.idx.val) (max s.staging.edge (s.gridN + 1)))) ∧
  (∀ (dirHigh : Bool) (s : State), s.running = true →
    exec (.xspStepEdge dirHigh) s = .next (
        let d : Int := if dirHigh then 1 else -1
        let s := { s with xspDir := dirHigh }
        let s := s.forEach (allFin 8) fun s p =>
          if s.svUp p then
            s.forEach allLoops fun s l =>
              if s.obN Obj.setpointSource p l.idx.val = 2 then
                s.updLoop p l fun v => { v with pulseCount := clampInt (-(2 ^ 20)) (2 ^ 20) (v.pulseCount + d) }
              else s
          else s
        s.forEach (allFin 12) fun s (a : AxisId) =>
          if !a.isSled && s.axisUp a && decide (s.obN Obj.axisSource a.aux = 1) then
            s.updA a fun x => { x with extCount := clampInt (-(2 ^ 20)) (2 ^ 20) (x.extCount + d) }
          else s))

/-- Mount, focus and sled search commands complete: MOUNT_REQUEST (R106, R130), MOUNT_SEQUENCE_START (R106, R214), FOCUS_CLOSE (R107, R104), FOCUS_SWEEP_END (R107, R106),
FOCUS_SETTLE (R106, R116), GUIDE_PASSAGE (R108, R118), CAPTURE_SETTLE (R108), CAPTURE_TIMEOUT (R111, R106),
SLED_SEARCH_MOVE_END (R111, R106). -/
def Obligations.MountAndFocusCommandsComplete : Prop :=
  (∀ (cl : Client) (v : Int) (s : State),
    s.Takes cl Obj.mountRequest 0 0 v → s.running = true → ¬ 2 ^ s.otp.variant.spindles ≤ v →
    exec (.mountRequest cl v) s =
      .next (s.wrote cl Obj.mountRequest 0 0 fun u => u.forEach (allFin 4) fun u i => if v.toNat.testBit i.val && u.mtUp i then u.mountSpindle i else u)) ∧
  (∀ (p : PickupId) (deviceId fault : BitVec 16) (s : State),
    s.svUp p = true → s.pickups[p].seq = .mount → s.pickups[p].phase = .idle → s.pickups[p].idle = true →
    exec (.mountSequenceStart p deviceId fault) s = .next (
        let k := s.pickups[p]
        let s := s.updS p fun x => { x with driverId := deviceId, driverFault := fault }
        let s := if (s.axes[p.sled]).mode == .disabled then
            s.updA p.sled fun a => { a with mode := .standstill, positionValid := false, coil := s.ob Obj.holdCurrent p.sled.inst * 1000, frozen := false }
          else s
        let s := s.updP p fun k => { k with
          engine := .acquiring, phase := .focusSearch, readPower := true, sweeps := 0, sledMoves := 0, sledInward := false
          passageSeen := false, lastPassage := none, lane := none, layer := none, lawDiscardRun := 0, firstLawDue := false, arrayLocked := false
          jumpTries := 0, jumpStage := 0, heldTarget := none, lastLaw := none }
        let s := s.forEach (allFin 4) fun s b => (s.loadSets (p.beam b)).updC (p.beam b) fun c => { c with mode := .idle, pendingAcquire := true }
        let s := s.forEach [.tracking, .skew, .tilt, .sledOuter] fun s l => s.openLoop p l 0
        let s := s.searchSweep p
        if driverBad deviceId fault then
          (s.report (Isl.sv p) Ev.wrDriverFault [(p.val : Int), (deviceId.toNat : Int), (fault.toNat : Int)]).park p .aborted
        else s)) ∧
  (∀ (p : PickupId) (s : State),
    s.svUp p = true → s.pickups[p].phase = .focusSearch → s.pickups[p].feCross = 1 →
    2 * s.ob Obj.layerSumMin p ≤ s.pickups[p].curvePeak →
    exec (.focusClose p) s = .next (
        let k := s.pickups[p]
        (s.closeLoop p .focus).updP p fun k => { k with phase := .focusSettle, sweep := none, settleF := 0, stepFrom := s.time })) ∧
  (∀ (p : PickupId) (s : State),
    s.svUp p = true →
    (((s.pickups[p].phase == .focusSearch && s.sweepOver p) || (s.pickups[p].phase == .focusSettle && s.stepOver p (msTicks 5)))) = true →
    exec (.focusSweepEnd p) s = .next (
        let k := s.pickups[p]
        let s := s.updP p fun k => { k with phase := .focusSearch, sweeps := k.sweeps + 1 }
        let s := match k.sweep with
          | some w => s.startSweep p w.start w.stop
          | none => s.searchSweep p
        if k.seq == .mount && decide (s.obN Obj.focusSearchSweeps p ≤ k.sweeps + 1) then
          (s.report (Isl.sv p) Ev.acqFocusFail [(p.val : Int)]).park p .focusFail
        else s)) ∧
  (∀ (p : PickupId) (s : State),
    s.svUp p = true →
    ((s.pickups[p].phase == .focusSettle || (s.pickups[p].phase == .layerJump && decide (s.pickups[p].jumpStage = 4)))) = true →
    256 ≤ s.pickups[p].settleF →
    exec (.focusSettle p) s = .next (
        let k := s.pickups[p]
        if k.phase == .focusSettle then (s.startCapture p).updP p fun k => { k with phase := .trackCapture }
        else (s.startCapture p).updP p fun k => { k with jumpStage := 5 })) ∧
  (∀ (p : PickupId) (s : State),
    s.svUp p = true → s.pickups[p].ppCross ≠ 0 → s.ob Obj.crossWobbleLevel p < s.pickups[p].wobbleLevel →
    exec (.guidePassage p) s = .next (
        let k := s.pickups[p]
        let velocity : Option Nat := k.lastPassage.map fun t => (rnd 1280000 (s.time - t)).toNat
        let s := s.updP p fun k => { k with
          passageSeen := true, lastPassage := some s.time, ppCross := 0, crossVelocity := k.ppCross * (velocity.getD 0 : Nat) }
        if k.capturing then
          match velocity with
          | some v => if v < 100 * s.obN Obj.captureVelocity p then s.closeLoop p .tracking else s
          | none => s
        else if k.phase == .shortSeek && k.loops[ServoLoop.tracking.idx].mode == .opened then
          let left := k.passagesLeft - k.ppCross
          let s := s.updP p fun k => { k with passagesLeft := left }
          if left = 0 then s.closeLoop p .tracking else s
        else s)) ∧
  (∀ (p : PickupId) (s : State),
    s.svUp p = true →
    (s.pickups[p].phase == .trackCapture || s.pickups[p].phase == .shortSeek || (s.pickups[p].phase == .longSeek && decide (s.pickups[p].jumpStage = 1)) || (s.pickups[p].phase == .layerJump && decide (s.pickups[p].jumpStage = 5))) = true →
    s.pickups[p].loops[ServoLoop.tracking.idx].mode = .closed → 256 ≤ s.pickups[p].settleT →
    exec (.captureSettle p) s = .next (
        let k := s.pickups[p]
        s.updP p fun k => { k with
        firstLawDue := true, phase := if k.phase == .trackCapture then .lawCheck else k.phase
        jumpStage := if k.phase == .layerJump then 6 else k.jumpStage, stepFrom := s.time })) ∧
  (∀ (p : PickupId) (s : State),
    s.svUp p = true → s.pickups[p].phase = .trackCapture → s.stepOver p (msTicks (s.obN Obj.captureTimeout p)) = true →
    exec (.captureTimeout p) s = .next (
        let k := s.pickups[p]
        if k.passageSeen then s.startCapture p
        else
          let n := s.obN Obj.sledSearchMoves p
          let s := s.startCapture p
          if k.sledMoves < n then
            (s.updP p fun k => { k with sledMoves := k.sledMoves + 1 }).searchMove p (if k.sledInward then -1 else 1)
          else if !k.sledInward then
            (s.updP p fun k => { k with sledInward := true, sledMoves := 0 }).searchMove p (-(n : Int))
          else (s.report (Isl.sv p) Ev.acqNoGuide [(p.val : Int)]).park p .noGuide)) ∧
  (∀ (p : PickupId) (s : State),
    s.svUp p = true → s.pickups[p].phase = .sledSearch → (s.axes[p.sled]).mode ≠ .moving →
    exec (.sledSearchMoveEnd p) s = .next (
        let k := s.pickups[p]
        if k.sledInward && k.sledMoves = 0 then (s.updP p fun k => { k with sledMoves := 1 }).searchMove p (-1)
        else s.updP p fun k => { k with phase := .focusSettle, settleF := 0, stepFrom := s.time }))

/-- Lane address, array and map commands complete: LAW_RECEIVED (R122, R30), LAW_LOST (R123), ARRAY_LOCK (R110), ARRAY_SLOW (R110, R106),
MAP_LEARN_REVOLUTION (R113, R114), MAP_ADAPT_REVOLUTION (R115). -/
def Obligations.LaneAddressAndMapCommandsComplete : Prop :=
  (∀ (p : PickupId) (w : BitVec 32) (s : State),
    s.svUp p = true → s.pickups[p].idle = false → s.pickups[p].seq ≠ .park →
    exec (.lawReceived p w) s = .next (
        let k := s.pickups[p]
        if !lawGood w then s.lawDiscarded p
        else
          let s := s.bump Obj.lawGoodCount p 0
          if k.firstLawDue then
            if lawSide w ≠ p.side then
              if k.mountResult == .mounting then s.wrongSide p (lawSide w) else s.startRecovery p none
            else s.firstLaw p w
          else if k.engine == .following then s.followLaw p w
          else s.updP p fun k => k.alignLaw w)) ∧
  (∀ (p : PickupId) (s : State),
    s.svUp p = true → s.pickups[p].engine = .following → s.obN Obj.lawMissLimit p ≤ s.pickups[p].lawDiscardRun →
    exec (.lawLost p) s = .next ((s.report (Isl.sv p) Ev.acqLawLost [(p.val : Int)]).startRecovery p none)) ∧
  (∀ (p : PickupId) (s : State),
    s.svUp p = true → (s.pickups[p]).phase = .arrayAlign → 40 ≤ (s.pickups[p]).lockRun →
    exec (.arrayLock p) s = .next ((s.updP p fun k => { k with arrayLocked := true }).nextMap p)) ∧
  (∀ (p : PickupId) (s : State),
    s.svUp p = true → (s.pickups[p]).phase = .arrayAlign → s.stepOver p (msTicks 10) = true →
    exec (.arraySlow p) s =
      .next (((s.updP p fun k => { k with arrayLocked := true }).report (Isl.sv p) Ev.acqArraySlow [(p.val : Int)]).nextMap p)) ∧
  (∀ (p : PickupId) (s : State),
    s.svUp p = true → s.pickups[p].phase = .mapLearn → s.pickups[p].revolution.isSome = true →
    exec (.mapLearnRevolution p) s = .next (
        let k := s.pickups[p]
        let l := k.layer.getD 0
        let r := k.revolution.getD { bins := [], disturbed := true }
        let prms := columnRms r.bins
        let small := prms.all fun x => decide (x < q15 (s.ob Obj.mapConvergeLevel p))
        let good := if r.disturbed then 0 else if small then k.mapGood + 1 else 0
        let revs := k.mapRevs + 1
        let map := if r.disturbed then k.map else k.map.update r.bins (s.ob Obj.mapLearnGain p)
        let conv := decide (s.obN Obj.mapLearnMinRevs p ≤ revs) && decide (2 ≤ good)
        let ended := conv || decide (s.obN Obj.mapLearnMaxRevs p ≤ revs)
        let map := if ended then { map with state := if conv then .learned else .notConverged } else map
        let s := s.updP p fun k => { k with
          maps := if h : l < 4 then upd k.maps ⟨l, h⟩ (fun _ => map) else k.maps
          heldFocus := if h : l < 4 then (if ended && k.seq == .mount then upd k.heldFocus ⟨l, h⟩ (fun _ => some (k.loops[ServoLoop.focus.idx].holdMean 0))
            else k.heldFocus) else k.heldFocus
          mapRevs := revs, mapGood := good, revolution := none }
        if ended then
          let s := if conv then s.report (Isl.sv p) Ev.acqMapLearned [(p.val : Int), (l : Int), (revs : Int)]
            else s.report (Isl.sv p) Ev.acqMapNotConverged ([(p.val : Int), (l : Int)] ++ prms)
          s.nextMap p
        else s)) ∧
  (∀ (p : PickupId) (s : State),
    s.svUp p = true → s.pickups[p].engine = .following → (s.obN Obj.mapTrackShift p) ≠ 0 → s.pickups[p].layer.isSome = true →
    s.pickups[p].revolution.isSome = true →
    exec (.mapAdaptRevolution p) s = .next (
        let k := s.pickups[p]
        let shift := s.obN Obj.mapTrackShift p
        let r := k.revolution.getD { bins := [], disturbed := true }
        let map := if r.disturbed then k.map else k.map.update r.bins (rnd (2 ^ 15) (2 ^ shift))
        s.updP p fun k => { k with
          maps := match k.layer with
            | some l => if h : l < 4 then upd k.maps ⟨l, h⟩ (fun _ => map) else k.maps
            | none => k.maps
          revolution := none }))

/-- Seek, jump, recovery and park commands complete: SEEK_REQUEST (R118, R105), LAYER_JUMP_START (R116, R65), JUMP_KICK_END (R116), JUMP_BRAKE (R116),
JUMP_FOCUS_CLOSE (R116), LAYER_JUMP_FAIL (R117), LONG_SEEK_SLED_STOP (R120), SEEK_FAIL (R121),
RECOVERY_ATTEMPT_END (R127), PARK_REQUEST (R128, R105), PARK_COMPLETE (R128). -/
def Obligations.JumpSeekRecoveryParkCommandsComplete : Prop :=
  (∀ (cl : Client) (p : PickupId) (v : Int) (s : State),
    s.svUp p = true → s.Takes cl Obj.seekRequest p 0 v → ¬ lanes ≤ v.toNat % 65536 → ¬ (262144 : Int) ≤ v →
    (s.pickups[p]).seekBusy = false → (s.pickups[p]).engine = .following → (s.pickups[p]).seq = .none →
    exec (.seekRequest cl p v) s =
      .next (s.wrote cl Obj.seekRequest p 0 fun u => u.startSeek p { layer := v.toNat / 65536 % 4, lane := v.toNat % 65536 })) ∧
  (∀ (cl : Client) (p : PickupId) (v : Int) (s : State),
    s.svUp p = true → s.Takes cl Obj.seekRequest p 0 v → ¬ lanes ≤ v.toNat % 65536 → ¬ (262144 : Int) ≤ v →
    (s.pickups[p]).seekBusy = true →
    exec (.seekRequest cl p v) s =
      .next ((s.answer (some Abort.objectBusy)).report (Isl.sv p) Ev.acqRequestIgnored [(p.val : Int)])) ∧
  (∀ (p : PickupId) (s : State),
    s.svUp p = true → s.pickups[p].phase = .layerJump → s.pickups[p].jumpStage = 0 →
    exec (.layerJumpStart p) s = .next (
        let k := s.pickups[p]
        let kick := q15 (s.ob Obj.jumpKick p) * (if k.layer.getD 0 < k.jumpTo then -1 else 1)
        let base := k.loops[ServoLoop.focus.idx].holdMean 0
        let s := s.updP p fun k =>
          let k := k.updLoop .tracking fun v => v.hold (v.holdMean 0)
          let k := k.updLoop .skew fun v => v.hold v.ufb
          let k := k.updLoop .tilt fun v => v.hold v.ufb
          { k.noteHeld with
            jumpStage := 1, jumpTries := k.jumpTries + 1, stepFrom := s.time, engine := .acquiring, mapDisturbed := true, feCross := 0
            holdCause := k.holdCause ||| Hold.acquisitionRequest }
        (s.updLoop p .focus fun v => { v with mode := .opened, holdUfb := base, seqOutput := base + kick }).idleChannels p)) ∧
  (∀ (p : PickupId) (s : State),
    s.svUp p = true → s.pickups[p].phase = .layerJump → s.pickups[p].jumpStage = 1 →
    s.stepOver p (usTicks (s.obN Obj.jumpKickTime p)) = true →
    exec (.jumpKickEnd p) s = .next (
        let k := s.pickups[p]
        (s.updP p fun k => { k with jumpStage := 2 }).updLoop p .focus fun v => { v with seqOutput := v.holdUfb })) ∧
  (∀ (p : PickupId) (s : State),
    s.svUp p = true → s.pickups[p].phase = .layerJump → s.pickups[p].jumpStage = 2 → s.pickups[p].feTurned = true →
    exec (.jumpBrake p) s = .next (
        let k := s.pickups[p]
        let brake := q15 (s.ob Obj.jumpKick p) * (if k.layer.getD 0 < k.jumpTo then 1 else -1)
        (s.updP p fun k => { k with jumpStage := 3, brakeUntil := some (s.time + usTicks (s.obN Obj.jumpBrakeTime p)) }).updLoop p .focus
          fun v => { v with seqOutput := v.holdUfb + brake })) ∧
  (∀ (p : PickupId) (s : State),
    s.svUp p = true → s.pickups[p].phase = .layerJump → s.pickups[p].jumpStage = 3 →
    (s.pickups[p].feCross = if s.pickups[p].layer.getD 0 < s.pickups[p].jumpTo then 1 else -1) →
    exec (.jumpFocusClose p) s = .next (
        let k := s.pickups[p]
        (s.updP p fun k => { k with jumpStage := 4, layer := some k.jumpTo, brakeUntil := none, settleF := 0, stepFrom := s.time }).closeLoop p .focus)) ∧
  (∀ (p : PickupId) (s : State),
    s.svUp p = true → s.pickups[p].phase = .layerJump → 1 ≤ s.pickups[p].jumpStage → s.jumpLate p = true →
    exec (.layerJumpFail p) s = .next (
        let k := s.pickups[p]
        if s.obN Obj.jumpAttempts p ≤ k.jumpTries then
          (s.report (Isl.sv p) Ev.acqLayerJumpFail [(p.val : Int)]).startRecovery p none
        else
          (s.updP p fun k => { k with
            phase := .focusSearch, jumpStage := 0, brakeUntil := none, firstLawDue := false, sweeps := 0 }).recoverSweep p)) ∧
  (∀ (p : PickupId) (s : State),
    s.svUp p = true → s.pickups[p].phase = .longSeek → s.pickups[p].jumpStage = 0 → (s.axes[p.sled]).mode ≠ .moving →
    msTicks 2 ≤ s.time - (s.axes[p.sled]).moveEndedAt →
    exec (.longSeekSledStop p) s = .next (
        let k := s.pickups[p]
        (s.startCapture p).updP p fun k => { k with jumpStage := 1 })) ∧
  (∀ (p : PickupId) (s : State),
    s.svUp p = true → ((s.pickups[p].seq == .seek || s.pickups[p].seq == .recovery)) = true →
    (((s.pickups[p].phase == .shortSeek && decide (msTicks (s.obN Obj.shortSeekTimeout p) ≤ (s.time - s.pickups[p].passFrom))) || (s.pickups[p].phase == .longSeek && decide (msTicks (s.obN Obj.longSeekTimeout p) ≤ (s.time - s.pickups[p].passFrom))))) = true →
    exec (.seekFail p) s = .next (s.seekFails p)) ∧
  (∀ (p : PickupId) (s : State),
    s.svUp p = true → s.pickups[p].seq = .recovery →
    ((s.pickups[p].recovered || decide (s.attemptBound p ≤ s.time - s.pickups[p].attemptFrom))) = true →
    exec (.recoveryAttemptEnd p) s = .next (
        let k := s.pickups[p]
        if k.recovered then
          let s := s.report (Isl.sv p) Ev.acqRecovered [(p.val : Int), (k.rung : Int), (s.msSince k.recoveryStart : Nat)]
          let s := s.forEach [.skew, .tilt, .sledOuter] fun s l => s.unholdLoop p l
          if k.mountResult == .mounting then
            (s.updP p fun k => { k with seq := .mount, arrayLocked := true, holdCause := 0, heldTarget := none }).nextMap p
          else ((s.follow p).runQueued p).readNext p
        else s.attemptFails p)) ∧
  (∀ (cl : Client) (p : PickupId) (v : Int) (s : State), s.svUp p = true → s.Takes cl Obj.parkRequest p 0 v →
    exec (.parkRequest cl p v) s = .next (s.wrote cl Obj.parkRequest p 0 fun u => u.park p .request)) ∧
  (∀ (p : PickupId) (s : State),
    s.svUp p = true → (s.pickups[p]).seq = .park → (((s.pickups[p]).ramped || s.stepOver p (msTicks 1))) = true →
    exec (.parkComplete p) s = .next ((s.parked p).remountIdle))

/-- Frame, codeword, flag, gain, interference and timing commands complete: FRAME_START (R146, R42), WAYMARK_SEARCH (R164), LOCK_LOST (R165), CODEWORD_OFFER (R169, R160),
FRAME_SLOT_RELEASE (R168), ENVELOPE_FLAG (R157, R159), GUIDE_FLAG (R158), AGC_UPDATE (R139), AGC_LIMIT (R139),
ITI_FRAC_DELAY_STEP (R150), ITI_LIMIT (R152), TIMING_ACQ_END (R147), TIMING_RELOCK (R148), TIMING_UNLOCK (R146),
WOBBLE_AMPLITUDE_POST (R143, R137). -/
def Obligations.ReadChannelCommandsComplete : Prop :=
  (∀ (g : BeamId) (row : Nat) (wanted : Bool) (s : State), s.chUp g = true → (s.channels[g]).mode ≠ .off →
    exec (.frameStart g row wanted) s = .next (
        let p := g.pickup
        let k := s.pickups[p]
        let s := s.updC g Channel.endFrame
        let c := s.channels[g]
        let rate := predictedRate k.carrier k.laneNow
        let s := s.setFrontEnd g rate
        match readTrack k.reassign g.inPickup with
        | none => s.updC g fun c => { c with mode := if c.mode == .locked then .acquiring else c.mode, frameLock := false, pendingAcquire := true }
        | some track =>
          let stream := 4 * row + track
          if c.mode == .writing then (s.updC g fun c => { c with stream := stream }).buildFrame g stream
          else if c.mode == .idle && s.held g then s
          else if rate < 200000000 ∨ 720000000 < rate then
            (s.updC g fun c => { c with mode := .idle, frameLock := false, pendingAcquire := true }).report
              (Isl.ch g) Ev.chRateOutOfRange [(g.val : Int), (rate : Int)]
          else
            let s := if (c.mode == .idle || c.pendingAcquire) && !s.held g then s.updC g Channel.acquire else s
            let delay := s.alignDelay g
            let s := s.updC g fun c => { c.moveTo (stream * slotBits) delay with stream := stream, wanted := wanted }
            if wanted && decide (32 ≤ k.laneNow) && !s.readingStopped p (k.layer.getD 0) (stream / sectors) then s.storeFrame g stream else s)) ∧
  (∀ (g : BeamId) (s : State),
    s.chUp g = true → ((s.channels[g].mode == .acquiring || s.channels[g].mode == .locked)) = true →
    s.channels[g].searched = false →
    (s.channels[g].stream * slotBits : Nat) + s.channels[g].expected + (if s.channels[g].wideWindow then 32 else (s.chOb Obj.waymarkWindow g).toNat) + 48 + 384 ≤ s.channels[g].softTo →
    exec (.waymarkSearch g) s = .next (
        let c := s.channels[g]
        let half := if c.wideWindow then 32 else (s.chOb Obj.waymarkWindow g).toNat
        let a := s.searchFrame g half
        let s := s.noteSearch g a
        let (s, matched) := match a.header with | some h => s.checkHeader g h | none => (s, false)
        let s := s.lockFrame g a.header
        let chain := chainAfter c.sinceGood a.status matched
        let s := s.updC g fun c => { c with sinceGood := chain }
        match c.slot with
        | none => s
        | some i =>
          match c.slots[i] with
          | none => s
          | some f =>
            let f := { f with searched := true, status := a.status, matched := matched, chain := chain, align := a.align
                              align2 := if a.status == .headerInvalid then a.align2 else none, score1 := a.score1, score2 := a.score2 }
            let s := s.updC g fun c => { c with slots := upd c.slots i (fun _ => some f) }
            (s.handFrame g.pickup f (a.header.map fun h => h.serial)).settle g.pickup f.layer f.q)) ∧
  (∀ (g : BeamId) (s : State),
    s.chUp g = true → ((s.channels[g].mode == .acquiring || s.channels[g].mode == .locked)) = true →
    s.chOb Obj.waymarkMissLimit g ≤ s.channels[g].misses →
    exec (.lockLost g) s = .next (
        let c := s.channels[g]
        ((s.updC g fun c => { c with frameLock := false, mode := .acquiring, pendingAcquire := true, misses := 0, sinceGood := none }).bump
        Obj.lockLossCount g 0).report (Isl.ch g) Ev.chLockLost [(g.val : Int)])) ∧
  (∀ (g : BeamId) (half : Fin 2) (s : State), s.chUp g = true →
    exec (.codewordOffer g half) s = .next (
        let c := s.channels[g]
        match c.offerSlot half with
        | none => s
        | some (i, f) =>
          let f := (f.applyFlags c (s.guards g).1 (s.guards g).2 half)
          let n := f.erasedIn half
          let f := { f with offered := f.offered ||| BitVec.ofNat 2 (half.val + 1)
                            erased0 := if half = 0 then n else f.erased0, erased1 := if half = 1 then n else f.erased1 }
          let s := s.updC g fun c => { c with slots := upd c.slots i (fun _ => some f) }
          let s := s.bump Obj.erasedCodedBits g 0 n
          let s := if half = 1 then s.bump Obj.framesStored g 0 else s
          s.offerCodeword g i f half f.triedSecond)) ∧
  (∀ (g : BeamId) (slot : Fin 3) (s : State),
    s.chUp g = true →
    (s.decoding.queue.any (fun j => j.uses g slot) || (allFin 24).any fun d => match s.decoding.decoders[d] with | some j => j.uses g slot | none => false) = false →
    exec (.frameSlotRelease g slot) s = .next (
        s.updC g fun c => { c with
        slots := upd c.slots slot (fun _ => none), slot := if c.slot = some slot then none else c.slot })) ∧
  (∀ (g : BeamId) (s : State),
    s.chUp g = true → s.channels[g].mode ≠ .off → s.channels[g].mode ≠ .writing →
    exec (.envelopeFlag g) s = .next (
        let c := s.channels[g]
        match c.envDue with
        | [] => s
        | (true, bit) :: rest =>
          (s.updC g fun c => { c with envDue := rest, flaggedFrom := some bit, envFlag := true }).bump Obj.envDropRuns g 0
        | (false, bit) :: rest => s.updC g fun c => { c with
            envDue := rest, flaggedFrom := none, envFlag := false
            regions := c.regions ++ (c.flaggedFrom.toList.map fun a => (a - (s.guards g).1, bit - 1 + (s.guards g).1)) })) ∧
  (∀ (g : BeamId) (s : State),
    s.chUp g = true → s.channels[g].mode ≠ .off → s.channels[g].mode ≠ .writing →
    exec (.guideFlag g) s = .next (
        let c := s.channels[g]
        match c.guideDue with
        | [] => s
        | (true, bit) :: rest =>
          (s.updC g fun c => { c with guideDue := rest, guideFrom := some bit, guideFlagged := true }).bump Obj.guideDropRuns g 0
        | (false, bit) :: rest => s.updC g fun c => { c with
            guideDue := rest, guideFrom := none, guideFlagged := false
            regions := c.regions ++ (c.guideFrom.toList.map fun a => (a - (s.guards g).2, bit - 1 + (s.guards g).2)) })) ∧
  (∀ (g : BeamId) (codes : List Int) (s : State),
    s.chUp g = true → ((s.channels[g].mode == .acquiring || s.channels[g].mode == .locked)) = true → codes.length = 16 →
    exec (.agcUpdate g codes) s = .next (
        let c := s.channels[g]
        let s := s.updC g fun c => { c.holdFlag (s.held g) with
          edgeN := s.gridN, sinceEdge := if c.edgeN = s.gridN then c.sinceEdge else 0 }
        let u := s.loopSettings g
        let start := (s.channels[g]).place
        let c' := codes.foldl (fun c x => c.sample u (s.neighbours g) x) s.channels[g]
        let flagged := (List.range 16).any fun i => c'.flaggedAt u.guard u.wide (start + i)
        let gain := s.nextGain g codes flagged
        let atEnd := decide (gain = -600 * fine ∨ gain = 3000 * fine)
        s.updC g fun _ => { c' with gain := gain, limitRun := if atEnd then c'.limitRun + 16 else 0, agcLimited := atEnd && c'.agcLimited })) ∧
  (∀ (g : BeamId) (s : State),
    s.chUp g = true → 65536 ≤ (s.channels[g]).limitRun → (s.channels[g]).agcLimited = false →
    exec (.agcLimit g) s =
      .next ((s.updC g fun c => { c with agcLimited := true }).report (Isl.ch g) Ev.chAgcLimit [(g.val : Int)])) ∧
  (∀ (g : BeamId) (j : Fin 4) (s : State),
    s.chUp g = true → j ≠ g.inPickup → 65536 ≤ (s.channels[g]).fracSums[j].count →
    exec (.itiFracDelayStep g j) s = .next (
        let f := (s.channels[g]).fracSums[j]
        let d : Int := if f.here ≤ f.minus ∧ f.here ≤ f.plus then 0 else if f.minus < f.plus then -1 else 1
        s.updC g fun c => { c with
          frac := modifyAt c.frac j.val fun f => clampInt (-64) 64 (f + d), fracSums := upd c.fracSums j fun _ => {} })) ∧
  (∀ (g : BeamId) (j : Fin 4) (s : State),
    s.chUp g = true → j ≠ g.inPickup → s.channels[g].itiRecorded = false →
    s.chOb Obj.itiLimit g * fine ≤ ((s.channels[g].coupling.getD j.val 0).natAbs : Int) →
    exec (.itiLimit g j) s = .next (
        let c := s.channels[g]
        let v := c.coupling.getD j.val 0
        (s.updC g fun c => { c with itiRecorded := true }).report (Isl.ch g) Ev.chItiLimit
        [(g.val : Int), (j.val : Int), rnd v (2 ^ 20)])) ∧
  (∀ (g : BeamId) (s : State),
    s.chUp g = true → s.channels[g].acquiringLoops = true → s.chOb Obj.timingAcqBits g ≤ s.channels[g].acqSamples →
    exec (.timingAcqEnd g) s = .next (
        let c := s.channels[g]
        s.updC g fun c => { c with acquiringLoops := false })) ∧
  (∀ (g : BeamId) (s : State),
    s.chUp g = true → ((s.channels[g].mode == .acquiring || s.channels[g].mode == .locked)) = true →
    s.channels[g].relockDue = true →
    exec (.timingRelock g) s = .next (
        let c := s.channels[g]
        s.updC g fun c => { c with acquiringLoops := true, acqSamples := 0, relockDue := false })) ∧
  (∀ (g : BeamId) (s : State),
    s.chUp g = true → ((s.channels[g].mode == .acquiring || s.channels[g].mode == .locked)) = true →
    s.channels[g].pendingAcquire = false → s.chOb Obj.timingPullRange g < (s.channels[g].ppm.natAbs : Int) →
    exec (.timingUnlock g) s = .next (
        let c := s.channels[g]
        ((s.updC g fun c => { c with pendingAcquire := true }).bump Obj.timingUnlockCount g 0).report
        (Isl.ch g) Ev.chTimingUnlock [(g.val : Int), c.ppm])) ∧
  (∀ (p : PickupId) (s : State), s.svUp p = true → s.gridN % 8 = 0 →
    exec (.wobbleAmplitudePost p) s = .next (
        let s := s.updChannels p fun c =>
          if c.mode == .off || c.mode == .writing then c
          else { c with wobbleAmplitude := c.wobbleW, wobbleSum := 0, wobbleCount := 0 }
        let posts (b : Fin 4) : Option Nat :=
          let c := s.channels[p.beam b]
          if c.mode == .off || c.mode == .writing then none else some c.wobbleAmplitude
        s.updP p fun k => { k with postedW0 := posts 0, postedW3 := posts 3 }))

/-- Decoding, workspace and reread commands complete: DECODER_DISPATCH (R183), CODEWORD_DECODE_DONE (R180), WORKSPACE_RESUME (R184), OVERFLOW_REREAD (R185),
CLUSTER_DECODE_START (R188, R184), OUTER_DECODE_DONE (R188), RUNG_START (R192), REREAD_PASS_END (R194, R192),
RUNG_END (R195). -/
def Obligations.DecodingCommandsComplete : Prop :=
  (∀ (d : DecoderId) (s : State), s.memUp = true → (s.decoding.decoders[d]).isNone = true →
    exec (.decoderDispatch d) s = .next (
        match s.decoding.takes with
        | none => s
        | some j => { s with decoding := { s.decoding with
            decoders := upd s.decoding.decoders d (fun _ => some (s.fetched j)), queue := s.decoding.queue.erase j } })) ∧
  (∀ (d : DecoderId) (s : State), s.memUp = true →
    exec (.codewordDecodeDone d) s = .next (
        match s.decoding.decoders[d] with
        | none => s
        | some j =>
          let r := ldpcDecode j.llrs j.offset j.limit
          let s := { s with decoding := { s.decoding with decoders := upd s.decoding.decoders d (fun _ => none) } }
          let s := s.bump Obj.iterationsTotal 0 0 r.iterations
          if j.cls = .firstPass then s.firstPassDone j r else s.redecodeDone j r)) ∧
  (∀ (p : PickupId) (s : State),
    s.memUp = true → (s.sides[p]).workspaceStopped = true → (s.sides[p]).workspace < 2 →
    exec (.workspaceResume p) s = .next (
        let waits (r : ClusterRead) : Bool := !r.inWorkspace && !r.storedCodewords.isEmpty
        match (s.sides[p]).reads.find? waits with
        | none => (s.updS p fun x => { x with workspaceStopped := false }).readNext p
        | some r =>
          ((s.updS p fun x => { x with workspaceStopped := false }).updRead p r.layer r.q fun r => { r with inWorkspace := true }).readNext p)) ∧
  (∀ (p : PickupId) (s : State), s.memUp = true → s.svUp p = true →
    exec (.overflowReread p) s = .next (
        match (s.sides[p]).reads.find? (fun r => r.sectors.any fun x => x.overflow) with
        | none => s
        | some r =>
          let s := s.updRead p r.layer r.q fun r => { r with sectors := r.sectors.map fun x =>
            if x.overflow then { x with overflow := false, c0 := .pending, c1 := .pending } else x }
          (s.bump Obj.overflowRereads 0 0).seekBefore p .user r.layer r.q)) ∧
  (∀ (p : PickupId) (layer : LayerId) (q : Nat) (s : State), s.memUp = true →
    exec (.clusterDecodeStart p layer q) s = .next (
        match s.read? p layer q with
        | none => s
        | some r =>
          let ready := match r.ladder with
            | none => r.sectors.all SectorRead.ended
            | some l => l.running && !l.failedRung && decide (l.rereadsLeft = 0)
          let placed := r.inWorkspace || r.storedCodewords.isEmpty
          if ready && placed && !r.decoding && decide (r.round = 0) && decide (r.queued = 0) && !r.complete then
            (s.updRead p layer q fun r => { r with
              decoding := true, round := 1, roundLimit := s.obN Obj.jointRounds, settings := s.decodeSettings
              firstUnaccepted := if r.ladder.isNone then (r.sectors.filter fun x => !x.accepted).length else r.firstUnaccepted }).bump Obj.clusterDecodes 0 0
          else s)) ∧
  (∀ (p : PickupId) (layer : LayerId) (q : Nat) (s : State), s.memUp = true →
    exec (.outerDecodeDone p layer q) s = .next (
        match s.read? p layer q with
        | none => s
        | some r =>
          if !r.decoding || decide (r.queued ≠ 0) then s
          else
            let columns := r.columns
            let s := s.forEach (conflictsOf columns) fun s j => (s.bump Obj.outerConflicts 0 0).decReport p r Ev.decOuterConflict [(j : Int)]
            let s := s.updRead p layer q fun r => r.reencode columns
            let s := s.queueRedecodes p r .cluster r.settings.limit r.settings.offset
              (r.storedCodewords.map fun x => (x.1, x.2.1, filledLlrs r.settings.fill x.2.2 (fillsOf columns x.1 x.2.1)))
            if r.storedCodewords.isEmpty then s.roundEnd p layer q else s.settle p layer q)) ∧
  (∀ (p : PickupId) (s : State), s.memUp = true → s.svUp p = true →
    exec (.rungStart p) s = .next (
        match s.ladderRead p with
        | none => s
        | some (r, l) =>
          if l.running then s
          else
            let s := s.prepareRung p r.layer r.q 7
            match s.read? p r.layer r.q with
            | none => s
            | some r =>
              match r.ladder with
              | none => s
              | some l =>
                let code := l.order.getD l.position 0
                let n := r.rereads code
                let s := s.updRead p r.layer r.q fun r => { r with
                  round := 0, ladder := some { l with running := true, rungAt := s.time, rereadsLeft := n, failedRung := false } }
                if n = 0 then s.queueRedecodes p r .detour l.settings.iterations (s.obN Obj.ldpcOffset) r.storedCodewords
                else (s.applyDetour p l.settings code false).seekBefore p .user r.layer r.q)) ∧
  (∀ (p : PickupId) (s : State), s.memUp = true → s.svUp p = true →
    exec (.rereadPassEnd p) s = .next (
        match s.ladderRead p with
        | none => s
        | some (c, l) =>
          if !l.running || decide (l.rereadsLeft = 0) || decide (c.queued ≠ 0) then s
          else
            let code := l.order.getD l.position 0
            let s := s.endDetour p
            let still3 := match s.read? p c.layer c.q with
              | some c => decide (c.rereads 5 = 2)
              | none => false
            let more := decide (1 < l.rereadsLeft) && (code != 5 || still3)
            let s := s.updRead p c.layer c.q fun c => { c with ladder := some { l with rereadsLeft := if more then l.rereadsLeft - 1 else 0 } }
            let s := if more then (s.applyDetour p l.settings code true).seekBefore p .user c.layer c.q else s
            s.settle p c.layer c.q)) ∧
  (∀ (p : PickupId) (s : State), s.memUp = true →
    exec (.rungEnd p) s = .next (
        match s.ladderRead p with
        | none => s
        | some (r, l) =>
          let decoded := !r.decoding && decide (r.queued = 0) && (decide (0 < r.round) || r.complete)
          if !l.running || decide (l.rereadsLeft ≠ 0) || !(decoded || l.failedRung) then s
          else
            let code := l.order.getD l.position 0
            let failing := (r.sectors.foldl (fun n x => n + (if x.c0.done then 0 else 1) + (if x.c1.done then 0 else 1)) 0 : Nat)
            let s := s.bump Obj.detourRungsRun 0 (code - 1)
            let s := s.decReport p r Ev.decRung [(code : Int), (s.msSince l.rungAt : Int), (failing : Int)]
            if r.complete then
              (s.bump Obj.detourRungsDecisive 0 (code - 1)).ladderEnd p r.layer r.q code
            else
              let s := s.updRead p r.layer r.q fun r => { r with ladder := some { l with
                running := false, position := l.position + 1, failedRung := false } }
              s.prepareRung p r.layer r.q 7))

/-- Run, write pass, spare, seal, journal, OPC and map commands complete: RUN_FORM (R208), RUN_FORM_TIMEOUT (R208), RUN_ARM (R220, R217), WRITE_PASS_START (R206), WRITE_PASS_END (R206),
POWER_MONITOR_READ (R218, R214), GATE_INHIBIT (R221), NOT_BLANK (R222), SPARE_RUN (R227), ZONE_SEAL (R234),
JOURNAL_PAIR_WRITE (R238, R239), JOURNAL_PAIR_COMMIT (R238), OPC (R217), MAP_BUILD (R243, R241), MAP_BUILT (R244). -/
def Obligations.WritePathCommandsComplete : Prop :=
  (∀ (p : PickupId) (zone : Nat) (partialToo : Bool) (s : State),
    s.memUp = true → s.pickupOn p = true → zone < zoneCount → s.mayRun p = true →
    ((s.host.activation.isNone || !(s.sides[p]).runs.any fun r => r.area == .user)) = true →
    exec (.runForm p zone partialToo) s = .next (
        let x := s.sides[p]
        let limit := s.neededLimit p zone
        let full := (List.range zoneClusters).filter fun c => x.fullCluster zone c
        let enough := decide (s.obN Obj.writeRunClusters ≤ full.length)
        if enough && !(partialToo && decide (0 < limit)) then s.formRun p zone false
        else s.formRunTo p zone partialToo limit)) ∧
  (∀ (p : PickupId) (zone : Nat) (s : State),
    s.memUp = true → s.pickupOn p = true → zone < zoneCount → s.host.activation.isNone = true →
    exec (.runFormTimeout p zone) s = .next (
        let x := s.sides[p]
        match x.firstWaiting zone with
        | some c => if s.fullLong p zone c then s.formRun p zone false else s
        | none => s)) ∧
  (∀ (p : PickupId) (s : State), s.memUp = true → s.svUp p = true →
    exec (.runArm p) s = .next (
        let x := s.sides[p]
        match x.current, x.runs with
        | none, r :: rest =>
          let calibrated := (List.range 2).all fun i => x.opcDone.contains (r.layer * 2 + i)
          if !calibrated || s.powersPending p || x.waitsForPair r || (r.area == .user && !s.mayRun p) || !s.mayRunBeside p r then s
          else
            let s := if r.area == .user then { s with host := { s.host with
                activation := s.host.activation.map fun a => { a with extraRunLeft := a.extraRunLeft.filter fun y => y != p } } } else s
            let s := s.updS p fun x => { x with runs := rest }
            if r.clusters.all (fun c => s.admits p r c.q) then
              let s := s.armed p r
              let s := s.updS p fun x => { x with
                current := some { r with armed := true }, pass := 1, moveFrom := s.revolutions p.spindle, settings := s.runSettings p r.layer, verifyIterations := 0, verifyCodewords := 0 }
              s.seekBefore p r.area r.layer ((r.clusters.map fun c => c.q).headD 0)
            else s.refuseRun p r
        | _, _ => s)) ∧
  (∀ (p : PickupId) (s : State), s.svUp p = true →
    exec (.writePassStart p) s = .next (
        let x := s.sides[p]
        let k := s.pickups[p]
        let running := x.writeState == passState x.pass && decide (x.pass ≠ 0)
        if x.current.isNone || running || k.engine != .following || k.seq != .none || decide (x.driverFault ≠ 0) then s
        else
          let s := s.updS p fun x => { x with writeState := passState x.pass, gatesInhibited := false, slipSincePass := false }
          s.forEach (passBeams x.pass) fun s b => s.beamWriteStart (p.beam b))) ∧
  (∀ (p : PickupId) (s : State), s.svUp p = true →
    exec (.writePassEnd p) s = .next (
        let x := s.sides[p]
        match x.current with
        | none => s
        | some r =>
          let first := (r.clusters.map fun c => c.q).headD 0
          if x.writeState != passState x.pass || decide (x.pass = 0) then s
          else if x.pass < 3 then
            let s := s.stopBeams p
            let s := s.updS p fun x => { x with pass := x.pass + 1, current := x.current.map fun r => { r with
              clusters := r.clusters.map fun c => if c.state == .unlit then { c with state := .lit } else c } }
            s.seekBefore p r.area r.layer first
          else if s.verifying p then s
          else
            let s := s.forEach (r.clusters.filter fun c => c.state == .lit) fun s c =>
              let k := ((List.range (2 * sectors)).find? fun n => !c.passed.contains n).getD 0 / 2
              s.verifyFails p r.layer c.q k .header
            s.endRun p)) ∧
  (∀ (g : BeamId) (monitorPeak fault : BitVec 16) (s : State),
    s.svUp g.pickup = true → (s.channels[g]).mode = .writing →
    (s.sides[g.pickup]).settings.monitorFrames ≤ (s.sides[g.pickup]).writtenFrames[g.inPickup] →
    exec (.powerMonitorRead g monitorPeak fault) s = .next (
        let p := g.pickup
        let target := s.powerTarget g
        let old := (s.sides[p]).powerCorrection[g.inPickup]
        let diff : Int := (target : Int) - (monitorPeak.toNat : Int) * 1000000
        let new := if target = 0 then old
          else clampInt (-200000000) 250000000 (old + rnd (diff * correctionUnit) (target * 2 ^ (s.sides[p]).settings.powerShift))
        let s := s.updS p fun x => { x with
          driverFault := fault
          powerCorrection := upd x.powerCorrection g.inPickup fun _ => new
          writtenFrames := upd x.writtenFrames g.inPickup fun _ => 0 }
        let s := if new ≠ old ∧ (new = -200000000 ∨ new = 250000000) then
            s.report (Isl.sv p) Ev.wrPowerLimit [(p.val : Int), (g.inPickup.val : Int)] else s
        if fault ≠ 0 then s.inhibitGates p 4 else s)) ∧
  (∀ (p : PickupId) (s : State), s.svUp p = true → (s.sides[p]).current.isSome = true →
    exec (.gateInhibit p) s = .next (
        match s.gateFailure p with
        | some n => s.inhibitGates p n
        | none => s)) ∧
  (∀ (p : PickupId) (s : State),
    s.svUp p = true → s.sides[p].writeState = .pass1 → s.sides[p].pass = 1 →
    exec (.notBlank p) s = .next (
        let x := s.sides[p]
        match x.current with
        | none => s
        | some r0 =>
          match s.notBlankAt p r0 with
          | none => s
          | some c =>
            let s := s.updS p fun x => { x with current := some (s.litRun p r0) }
            let s := s.updRunCluster p c.q fun c => { c with state := .notBlank }
            let s := (s.bump Obj.notBlankTrips p 0).report (Isl.sv p) Ev.wrNotBlank [(p.val : Int), (r0.layer : Int), (c.q : Int)]
            (s.clusterFails p r0 c 2).interruptGates p .notBlank)) ∧
  (∀ (p : PickupId) (s : State), s.memUp = true → s.pickupOn p = true →
    exec (.spareRun p) s = .next (s.spareRun p)) ∧
  (∀ (p : PickupId) (zone : Nat) (s : State),
    s.memUp = true → s.pickupOn p = true → s.sides[p].built = true → zone < zoneCount →
    ((decide ((s.zone p zone).committed = zoneBlocks) || ((s.zone p zone).sealRequested && !(s.sides[p].buffer.any fun b => b.lba / zoneBlocks == zone)))) = true →
    (s.zone p zone).digestState ≠ .sealed → s.sides[p].sealing zone = false → (s.zone p zone).state ≠ .readOnly →
    exec (.zoneSeal p zone) s = .next (
        let z := s.zone p zone
        let n := s.recorder.nextSeq
        let s := s.takeSeq 1
        let d := z.digest.getD (s.digestInit p zone)
        s.formPair p [.sealZone zone z.digestClusters z.fillerBlocks (z.firstSerial.getD 0) z.lastSerial s.tick n d] (s.finishers p zone))) ∧
  (∀ (p : PickupId) (s : State), s.memUp = true → s.pickupOn p = true →
    exec (.journalPairWrite p) s = .next (s.writePair p)) ∧
  (∀ (p : PickupId) (s : State), s.memUp = true → s.pickupOn p = true →
    exec (.journalPairCommit p) s = .next (
        match (s.sides[p]).pair with
        | none => s
        | some j =>
          if !(j.primaryDone && j.copyDone) then s
          else
            let s := s.report Isl.mem Ev.wrJournalWritten
              [(p.val : Int), journalKey j.primaryAt false, journalKey j.copyAt true, (j.records.length : Int)]
            let s := s.updS p fun x => { x with pair := none }
            let s := s.forEach j.records fun s r => s.recordCommitted p r.2
            s.forEach j.waiting fun s k => match s.cmd? k with
              | some c =>
                if c.isWrite then s
                else
                  let s := s.updCmd k fun c => { c with clustersLeft := c.clustersLeft - 1 }
                  if c.clustersLeft ≤ 1 then s.finishCmd k .success else s
              | none => s)) ∧
  (∀ (p : PickupId) (pair : Fin 2) (errors : List (List Nat)) (s : State),
    s.svUp p = true → s.pickups[p].engine = .following → s.pickups[p].seq = .none → s.sides[p].writeState = .idle →
    s.pickups[p].layer.isSome = true → errors.length = 2 →
    exec (.opc p pair errors) s = .next (
        let x := s.sides[p]
        let k := s.pickups[p]
        let layer := k.layer.getD 0
        let n := layer * 2 + pair.val
        let used := x.pcaUsed.getD n 0
        let s := s.noteOpc p n
        if pcaSegments ≤ used then
          if x.pcaExhaustedRecorded.contains n then s
          else (s.updS p fun x => { x with pcaExhaustedRecorded := x.pcaExhaustedRecorded ++ [n] }).report (Isl.sv p) Ev.wrPcaExhausted
            [(p.val : Int), (layer : Int), (pair.val : Int)]
        else
          let powers := s.opcPowers p pair errors
          let s := (s.takeSegment p n).reportOpc p pair powers
          let inst := p.val * 4 + layer
          s.placeInternal 2 (powers.map fun x => { key := Obj.peakPower.key inst x.1, value := x.2, carried := false }))) ∧
  (∀ (p : PickupId) (dcbBlank dcbReads : List Bool) (discId : BitVec 128) (marks : List Nat) (records : List (List Nat)) (spares : List (Nat × Nat × Bool × Nat × Nat × Nat)) (tails : List (Nat × Nat × List Bool)) (highSerial : Nat) (s : State),
    s.memUp = true → s.svUp p = true → (s.pickups[p]).mountResult = .mounted → s.sides[p].built = false →
    s.sides[p].building = false →
    exec (.mapBuild p dcbBlank dcbReads discId marks records spares tails highSerial) s = .next (
        let x := s.sides[p]
        let s := s.updS p fun x => { x with
          building := true, buildFrom := s.time, map := [], zones := [], changedZones := [], journalFullRecorded := false, sparesExhaustedRecorded := false
          markPrimary := marks.getD 0 0, markCopy := marks.getD 1 0, journalSeq := records.length, writeCount := highSerial + 1
          pendingRecords := [], pair := none, pairQueue := [], opcDone := [], reads := [] }
        let (s, builds) := s.controlAtMount p dcbBlank dcbReads discId
        if !builds then s.updS p fun x => { x with building := false }
        else
          let s := s.forEach records fun s r => s.applyRecord p r
          let s := s.forEach spares fun s x => s.applySpare p x
          let s := s.forEach tails fun s t => s.applyTail p t
          (s.zonesAtMount p).checkJournal p)) ∧
  (∀ (p : PickupId) (chains : List (Nat × List ChainCluster)) (s : State),
    s.memUp = true → (s.sides[p]).building = true →
    exec (.mapBuilt p chains) s = .next (
        let s := s.forEach chains fun s z =>
          if (s.zone p z.1).digestState == .rebuilding then s.forEach z.2 fun s c => s.rebuildChain p z.1 c else s
        let s := s.forEach (List.range zoneCount) fun s z =>
          if (s.zone p z).digestState == .rebuilding then
            s.updZone p z fun x => { x with digestState := if x.digestClusters = 0 then .empty else .running }
          else s
        let unusable := ((s.sides[p]).map.filter fun e => e.2.state == .unusable).length
        let elapsed := s.msSince (s.sides[p]).buildFrom
        let s := s.updS p fun x => { x with building := false, built := true, doorKept := false }
        (s.report Isl.mem Ev.wrMapBuilt [(p.val : Int), (p.side : Int), (elapsed : Int), (unusable : Int)]).namespaceNotice p))

/-- Spindle start and stop commands complete: SPINDLE_START (R267, R283), SPINDLE_STOP (R559, R271), SPINDLE_COAST (R559), SPINDLE_START_REVERSE (R275),
SENSING_END (R267), ALIGN_END (R268), HANDOVER (R269), START_ATTEMPT_FAIL (R269, R274), START_RETRY (R269),
CATCH_SPIN_LOCK (R270). -/
def Obligations.SpindleStartCommandsComplete : Prop :=
  (∀ (cl : Client) (i : SpindleId) (s : State),
    s.mtUp i = true → s.Takes cl Obj.spindleCommand i 0 1 → ((s.spindles[i]).mode == .fault && !s.faultClearable i) = false →
    exec (.spindleStart cl i 1) s = .next (s.wrote cl Obj.spindleCommand i 0 fun s => s.startSpindle i false)) ∧
  (∀ (cl : Client) (i : SpindleId) (s : State), s.mtUp i = true → s.Takes cl Obj.spindleCommand i 0 2 →
    exec (.spindleStop cl i 2) s = .next (s.wrote cl Obj.spindleCommand i 0 fun s => s.stopSpindle i)) ∧
  (∀ (cl : Client) (i : SpindleId) (s : State), s.mtUp i = true → s.Takes cl Obj.spindleCommand i 0 3 →
    exec (.spindleCoast cl i 3) s = .next (s.wrote cl Obj.spindleCommand i 0 fun s => s.coastSpindle i)) ∧
  (∀ (cl : Client) (i : SpindleId) (s : State),
    s.mtUp i = true → s.Takes cl Obj.spindleCommand i 0 4 →
    (!((i.pickups.all fun p => (s.pickups[p]).idle && (s.pickups[p]).mountResult != .mounting)) || ((s.spindles[i]).mode == .fault && !s.faultClearable i)) = false →
    exec (.spindleStartReverse cl i 4) s = .next (s.wrote cl Obj.spindleCommand i 0 fun s => s.startSpindle i true)) ∧
  (∀ (i : SpindleId) (s : State),
    s.mtUp i = true → s.spindles[i].mode = .sensing → s.spindles[i].gatesDriven = false → 1000 ≤ s.spindles[i].sensedCount →
    exec (.sensingEnd i) s = .next (
        let m := s.spindles[i]
        let found := speedOf (s.obN Obj.polePairs i) m.sensedTurn m.sensedCount
        let n := if m.reverse then -found else found
        let angle := rotorAngle m.sensedAngle found
        if s.belowFloor i || decide (n.natAbs < 30000) then
          ((s.updM i fun m => { m with
            mode := .aligning, gatesDriven := true, source := 1, measured := found, forcedAngle := 0, phaseAt := s.time }).bump
            Obj.startsFromRest i 0).spinReport i Ev.spinSensed [found, 0]
        else if s.rpm Obj.handoverSpeed i ≤ n then
          (((s.seed i angle found).updM i fun m => { m with gatesDriven := true, method := 1, attemptAt := s.time, lossAt := s.time }).bump
            Obj.catchSpins i 0).spinReport i Ev.spinSensed [found, 1]
        else
          (((s.seed i angle found).updM i fun m => { m with
            mode := .braking, afterBrake := .startFromRest, gatesDriven := true, locked := decide (n < 0), reference := found }).bump
            Obj.brakedStarts i 0).spinReport i Ev.spinSensed [found, 2])) ∧
  (∀ (i : SpindleId) (s : State),
    s.mtUp i = true → s.spindles[i].mode = .aligning → s.obN Obj.alignTime i * 1600 ≤ s.time - s.spindles[i].phaseAt →
    exec (.alignEnd i) s = .next (
        let m := s.spindles[i]
        s.updM i fun m => { m with mode := .ramping, source := 1, plausibleRun := 0, measured := 0, phaseAt := s.time })) ∧
  (∀ (i : SpindleId) (s : State),
    s.mtUp i = true → s.spindles[i].mode = .ramping → s.handoverPasses i = true →
    exec (.handover i) s = .next (
        let m := s.spindles[i]
        let delta := anglePhase (wrapAngle (angleBetween m.forcedAngle m.angle))
        let current := s.ob Obj.rampCurrent i
        (s.updM i fun m => { m with
          integralSpeed := rnd (s.torqueOf i current * sine delta) (2 ^ 30), fallFrom := rnd (current * cosine delta) (2 ^ 30)
          measured := m.observed }).enterRunning i)) ∧
  (∀ (i : SpindleId) (s : State),
    s.mtUp i = true → (s.spindles[i]).mode = .ramping → s.rpm Obj.rampLimitSpeed i ≤ (s.forcedSpeed i).natAbs →
    s.handoverPasses i = false →
    exec (.startAttemptFail i) s = .next (
        (s.updM i fun m => { m.gatesOff with
        mode := .braking, gatesDriven := true, locked := false, afterBrake := .retry, startAttempts := m.startAttempts + 1
        failedAt := s.time, source := 0 }).bump Obj.startFailures i 0)) ∧
  (∀ (i : SpindleId) (s : State),
    s.mtUp i = true →
    ((s.spindles[i].startWaits || (s.spindles[i].mode == .braking && s.spindles[i].afterBrake == .retry))) = true →
    msTicks 500 ≤ s.time - s.spindles[i].failedAt →
    exec (.startRetry i) s = .next (
        let m := s.spindles[i]
        if s.obN Obj.startAttempts i ≤ m.startAttempts then
          (s.spinReport i Ev.spinStartFail []).faultSpindle i .startFail
        else (s.beginSensing i m.reverse).updM i fun x => { x with startAttempts := m.startAttempts, startedAt := m.startedAt })) ∧
  (∀ (i : SpindleId) (s : State),
    s.mtUp i = true → s.spindles[i].mode = .sensing → s.spindles[i].gatesDriven = true → 32 ≤ s.spindles[i].plausibleRun →
    exec (.catchSpinLock i) s = .next (
        let m := s.spindles[i]
        (s.updM i fun m => { m with measured := m.observed }).enterRunning i))

/-- Spindle control, bus samples, faults, rest and rate matching complete: PWM_PERIOD (R254, R253), DTC_EVALUATION (R258, R259), SPEED_SAMPLE (R260, R266), AT_SPEED (R266, R265),
VBUS_SAMPLE (R272, R278), VBUS_LOW (R272), OBSERVER_LOST (R276), REACQUISITION_ATTEMPT_END (R277, R279),
GATE_FAULT (R283), AT_REST (R274, R271), RATE_MATCH_EVALUATION (R281, R280), RATE_FLOOR (R281),
FRICTION_TORQUE_APPLY (R448). -/
def Obligations.SpindleControlAndEventCommandsComplete : Prop :=
  (∀ (i : SpindleId) (currents : List Int) (voltages : List Nat) (fltHigh : Bool) (s : State),
    s.mtUp i = true →
    exec (.pwmPeriod i currents voltages fltHigh) s = .next (
        let mA := currents.map fun c => s.currentOf i c
        let s := s.updM i fun m => { m with currents := mA, fltHigh := fltHigh }
        match tripped (s.ob Obj.phaseCurrentTrip i) mA with
        | some (ph, cur) =>
          if (s.spindles[i]).fault.getLsbD 4 then s
          else ((s.bump Obj.overcurrentTrips i 0).spinReport i Ev.spinOvercurrent [ph, cur]).faultSpindle i .overcurrent
        | none =>
          let s := (s.followRotor i (voltages.map fun v => (s.voltageOf i v : Int))).driveMotor i
          let s := if (s.spindles[i]).gatesDriven && (s.spindles[i]).brakes then s.burn i else s
          s.forEach (List.range 32) fun s j => s.traceTap (Isl.mt i) (s.gridN / 32 * 32 + j) (s.spindles[i]).point)) ∧
  (∀ (i : SpindleId) (currents : List Int) (s : State), s.mtUp i = true → (s.spindles[i]).gatesDriven = true →
    exec (.dtcEvaluation i currents) s = .next (
        let (ia, ib) := clarkeOf (currents.map fun c => s.currentOf i c)
        let s := s.integrateFlux i ia ib
        if (s.spindles[i]).dtc && (s.spindles[i]).mode == .running then s.switchVector i ia ib else s)) ∧
  (∀ (i : SpindleId) (s : State),
    s.mtUp i = true →
    (((s.spindles[i]).mode == .running || (s.spindles[i]).mode == .braking || (s.spindles[i]).mode == .ramping || (s.spindles[i]).mode == .coasting || (s.spindles[i]).mode == .reacquiring)) = true →
    exec (.speedSample i) s = .next (
        let m := s.spindles[i]
        let src := s.sourcePickup i
        let milliRpm := s.speedMeasured i
        let count := src.elim 0 fun p => (s.pickups[p]).wobble
        let changed := decide (src ≠ m.wobbleSource)
        let s := if changed then s.spinReport i Ev.spinWobbleLock [sourceCode m.wobbleSource, sourceCode src] else s
        let goal := s.spindleReference i
        let ref := if m.mode == .running || m.mode == .braking then slewed m.reference goal (s.ob Obj.speedSlewLimit i) else m.reference
        let meas := if changed then (count : Int) else m.phaseMeas + (count - m.phaseMeas) % 73728
        let phRef := if changed then meas * 65536 else m.phaseRef + rnd (ref * 73728 * 200 * 65536) (60 * 10 ^ 9)
        let ph := clampInt (-7372 * 65536) (7372 * 65536) (phRef - meas * 65536)
        let e := ref - milliRpm + (if src.isSome then rnd (s.ob Obj.phaseLockGain i * ph) 65536 else 0)
        let integ := m.integralSpeed + rnd (s.ob Obj.speedKi i * e) 5000000
        let raw := rnd (s.ob Obj.speedKp i * e) 1000 + integ + s.inertiaTorque i (ref - m.reference) + s.ob Obj.frictionTorque i * milliRpm.sign
        let brake := s.brakeLimit i
        let drive := s.torqueLimit i
        let t := if 0 ≤ milliRpm then clampInt (-brake) drive raw else clampInt (-drive) brake raw
        let dtc := decide (s.obN Obj.controlMode i = 1) && m.mode == .running && decide (m.reference.natAbs ≤ ref.natAbs)
        let wraps := src.isSome && !changed && decide (meas / 73728 ≠ m.phaseMeas / 73728)
        let acc := m.revAcc + milliRpm.natAbs
        let tgt := s.spindleTarget i
        let near := decide (1000 * (milliRpm - ref).natAbs ≤ ref.natAbs) && decide (ref = goal)
        let s := s.updM i fun m => { m with
          measured := milliRpm, reference := ref, goal := tgt, wobbleSource := src, wobbleSince := if changed then s.time else m.wobbleSince
          source := if m.mode == .ramping then 1 else if m.mode == .running || m.mode == .braking then (if src.isSome then 3 else 2) else 0
          settledSince := if near then m.settledSince.or (some s.time) else none
          phaseMeas := meas, phaseRef := phRef, integralSpeed := if t = raw then integ else m.integralSpeed
          torque := if m.mode == .running || m.mode == .braking then t else m.torque, dtc := dtc
          errorPpm := if wraps && decide (m.accRef + ref ≠ 0) then
              rnd ((m.accN + milliRpm - m.accRef - ref) * 100000000 * (m.accRef + ref).sign) (m.accRef + ref).natAbs else m.errorPpm
          accN := if wraps || changed then 0 else m.accN + milliRpm, accRef := if wraps || changed then 0 else m.accRef + ref
          revAcc := acc % 300000000, foldbackRecorded := if ref.natAbs < m.reference.natAbs then m.foldbackRecorded else false }
        let s := s.bump Obj.revolutionsTotal i 0 (acc / 300000000)
        if dtc ≠ m.dtc then s.spinReport i Ev.spinModeChanged [if dtc then 1 else 0] else s)) ∧
  (∀ (i : SpindleId) (s : State),
    s.mtUp i = true → s.spindles[i].mode = .running →
    (s.spindles[i].settledSince.any fun t => decide (s.obN Obj.speedSettleTime i * 1600 ≤ s.time - t)) = true →
    s.spindles[i].reference = s.spindleReference i →
    exec (.atSpeed i) s = .next (
        if s.mounting i then
          s.forEach i.pickups fun s p =>
            let k := s.pickups[p]
            if k.mountResult == .mounting && k.seq == .none && k.idle then
              s.updP p fun k => { k with seq := .mount, phase := .idle, mountStart := s.time }
            else s
        else s)) ∧
  (∀ (i : SpindleId) (code : Nat) (s : State), s.mtUp i = true →
    exec (.vbusSample i code) s = .next (
        let mV := s.voltageOf i code
        let m := s.spindles[i]
        let above (r : Row) : Bool := decide (s.ob r i < (mV : Int))
        let below (r : Row) : Bool := decide ((mV : Int) < s.ob r i)
        let regen := above Obj.regenLimit
        let en := decide (s.obN Obj.chopperEnable i = 1)
        let chop := en && (above Obj.chopperOn || (m.chopper && !below Obj.chopperOff) || (m.mode == .reacquiring && regen))
        let low := below Obj.vbusLow
        let ends := !regen && decide (0 < m.peakVbus) && !m.foldbackRecorded
        let braking := m.mode == .braking || decide (m.torque < 0)
        let chopAcc := m.chopAcc + (if chop then 5 else 0)
        let s := (s.updM i fun m => { m with
          vbus := mV, chopper := chop, lossTrim := s.trim i mV, chopAcc := chopAcc % 1000, lowRun := if low then m.lowRun + 1 else 0
          peakVbus := if regen && braking then max m.peakVbus mV else if regen then m.peakVbus else 0
          foldbackSince := if regen && decide (m.peakVbus = 0) then s.time else m.foldbackSince
          foldbackRecorded := m.foldbackRecorded || ends
          fault := if low then m.fault else m.fault &&& ~~~SpindleFaultBit.vbusLow.mask, lowRecorded := m.lowRecorded && low }).bump
            Obj.chopperOnTime i 0 (chopAcc / 1000)
        let s := s.pulseGates i regen
        let s := if ends then (s.bump Obj.regenFoldbacks i 0).spinReport i Ev.spinRegenFoldback [(m.peakVbus : Int), (s.msSince m.foldbackSince : Nat)]
          else s
        if above Obj.vbusTrip && !m.fault.getLsbD 2 then ((s.bump Obj.vbusTrips i 0).spinReport i Ev.spinVbusTrip []).faultSpindle i .vbusTrip else s)) ∧
  (∀ (i : SpindleId) (s : State),
    s.mtUp i = true → 200 ≤ s.spindles[i].lowRun → s.spindles[i].lowRecorded = false →
    exec (.vbusLow i) s = .next (
        let m := s.spindles[i]
        (s.updM i fun m => { m with fault := m.fault ||| SpindleFaultBit.vbusLow.mask, lowRecorded := true }).spinReport i Ev.spinVbusLow [])) ∧
  (∀ (i : SpindleId) (s : State),
    s.mtUp i = true → ((s.spindles[i].mode == .running || s.spindles[i].mode == .braking)) = true →
    3 ≤ s.spindles[i].implausibleRun →
    exec (.observerLost i) s = .next (
        let m := s.spindles[i]
        let s := (s.updM i fun m => { m.gatesOff with
          mode := .reacquiring, reacquireAttempts := 0, torqueBeforeLoss := m.torque, plausibleRun := 0, implausibleRun := 0, locked := false
          lossAt := s.time, attemptAt := s.time, sensedCount := 0, sensedTurn := 0, lines := [], crossings := [], found := none
          source := 0 }).bump Obj.observerLosses i 0
        (s.holdBoth i).spinReport i Ev.spinObserverLost [m.measured, m.torque])) ∧
  (∀ (i : SpindleId) (s : State),
    s.mtUp i = true →
    ((((s.spindles[i].mode == .reacquiring && s.spindles[i].gatesDriven && decide (64 ≤ s.spindles[i].plausibleRun)) || ((s.spindles[i].mode == .reacquiring && (decide (msTicks 50 ≤ (s.time - s.spindles[i].attemptAt)) || ((s.spindles[i].found.any fun n => decide ((n.natAbs : Int) < s.rpm Obj.handoverSpeed i)) && !s.spindles[i].gatesDriven))) || (s.spindles[i].mode == .sensing && s.spindles[i].gatesDriven && decide (msTicks 20 ≤ (s.time - s.spindles[i].attemptAt) ∧ s.spindles[i].plausibleRun < 32))))) = true) →
    exec (.reacquisitionAttemptEnd i) s = .next (
        let m := s.spindles[i]
        let slow := m.found.any fun n => decide ((n.natAbs : Int) < s.rpm Obj.handoverSpeed i)
        let won := m.mode == .reacquiring && m.gatesDriven && decide (64 ≤ m.plausibleRun)
        let n := m.reacquireAttempts + 1
        if won then
          let s := (s.updM i fun m => { m with
            mode := if m.stopping then .braking else .running, source := 2, reference := m.observed, measured := m.observed, locked := true
            fallFrom := 0, settledSince := none, plausibleRun := 0, reacquireAttempts := 0 }).bump Obj.reacquisitions i 0
          let s := s.forEach i.pickups fun s p => s.updP p fun k => { k with rotorBack := true }
          let s := s.spinReport i Ev.spinReacquired [(n : Int), (s.msSince m.lossAt : Nat)]
          if m.starting then s.enterRunning i else s
        else if (m.mode == .reacquiring && slow) || decide (s.obN Obj.reacquireAttempts i ≤ n) then
          (s.updM i fun m => { m with reacquireAttempts := n }).giveUp i
        else s.updM i fun m => { m.gatesOff with
          mode := .reacquiring, reacquireAttempts := n, attemptAt := s.time, plausibleRun := 0, sensedCount := 0, sensedTurn := 0, lines := []
          crossings := [], found := none })) ∧
  (∀ (i : SpindleId) (s : State), s.mtUp i = true →
    exec (.gateFault i) s =
      .next ((((s.updM i fun m => { m with fltHigh := false }).bump Obj.gateDriverFaults i 0).spinReport i Ev.spinGateFault []).faultSpindle i .gateDriver)) ∧
  (∀ (i : SpindleId) (s : State),
    s.mtUp i = true → ((s.spindles[i].mode == .coasting || s.zeroBraking i)) = true → s.belowFloor i = true →
    exec (.atRest i) s = .next (
        let m := s.spindles[i]
        let rest : SpindleMode → Spindle → Spindle := fun mode m => { m.gatesOff with
          mode := mode, enabled := false, measured := 0, reference := 0, source := 0, torque := 0, chopper := false
          stopping := false, coastCommanded := false, afterBrake := .stop, dtc := false, locked := false }
        match m.afterBrake with
        | .stop => (s.updM i (rest .stopped)).spinReport i Ev.spinStopped [if m.coastCommanded || !m.stopping then 1 else 0]
        | .startFromRest => ((s.updM i (rest .stopped)).startOrWait i m.reverse).updM i fun x => { x with method := 2, startedAt := m.startedAt }
        | .retry => s.updM i fun m => { (rest .stopped m) with startWaits := true }
        | .faultObserver => (s.updM i (rest .stopped)).faultSpindle i .observerLost)) ∧
  (∀ (i : SpindleId) (s : State), s.mtUp i = true →
    exec (.rateMatchEvaluation i) s = .next (
        let en := s.obN Obj.rateMatchEnable i
        let writes (j : Fin 2) : Bool := en.testBit 0 && s.streamsWrites i (i.pickup j)
        let one (j : Fin 2) : Option (Int × Bool × Bool) :=
          let w := writes j
          let r := en.testBit 1 && s.streamsReads i (i.pickup j)
          if w || r then
            let (nm, atFloor) := s.matchedSpeed i (i.pickup j) w (s.hostRate i j w)
            some (nm, atFloor, w)
          else none
        let l := [one 0, one 1]
        let rates := (allFin 2).map fun j => if (l.getD j.val none).isSome then s.hostRate i j (writes j) else 0
        let best := l.foldl (fun a b => match a, b with
          | some x, some y => if x.1 < y.1 then some y else some x
          | none, b => b
          | a, none => a) none
        let s := s.updM i fun m => { m with
          hostRates := rates, evaluatedAt := s.time, matched := best.map fun b => b.1
          rateMatch := match best with | none => 0 | some (_, f, w) => if f then 3 else if w then 1 else 2
          floorSince := l.mapIdx fun j o => if o.any fun x => x.2.1 then ((m.floorSince.getD j none).or (some s.time)) else none
          floorRecorded := l.mapIdx fun j o => o.isSome && m.floorRecorded.getD j false }
        s.forEach i.pickups fun s p => s.updS p fun x => { x with
          hostWritten := 0, hostRead := 0, movedWrites := s.lastSecond x.movedWrites, movedReads := s.lastSecond x.movedReads })) ∧
  (∀ (p : PickupId) (s : State),
    s.mtUp p.spindle = true →
    ((s.spindles[p.spindle].floorSince.getD p.side none).any fun t => decide (sTicks 1 ≤ s.time - t)) = true →
    (s.spindles[p.spindle].floorRecorded.getD p.side false) = false →
    exec (.rateFloor p) s = .next (
        let i := p.spindle
        let m := s.spindles[i]
        (s.updM i fun m => { m with floorRecorded := (List.range 2).map fun j => m.floorRecorded.getD j false || j == p.side }).spinReport i
        Ev.spinRateFloor [(p.val : Int), m.hostRates.getD p.side 0])) ∧
  (∀ (i : SpindleId) (s : State),
    s.mtUp i = true → s.spindles[i].mode = .stopped → s.spindles[i].pendingFriction.isSome = true →
    exec (.frictionTorqueApply i) s = .next (
        let m := s.spindles[i]
        let old := s.ob Obj.frictionTorque i
        let new := m.pendingFriction.getD 0
        let s := (s.putKey (Obj.frictionTorque.key i 0) new).updM i fun m => { m with pendingFriction := none }
        let s := { s with cal := { s.cal with planDue := true } }
        s.report Isl.core Ev.calRun [11, (i.val : Int), old, new, (at_ s.cal.items {} (88 + i.val)).temperature]))

/-- Axis command words, profile periods, inputs, stalls and faults complete: PROFILE_PERIOD (R299, R290), AXIS_MOVE (R301), AXIS_HALT (R301), AXIS_STOP (R306, R308), AXIS_HOME (R311),
AXIS_ENABLE (R316), AXIS_DISABLE (R306, R308), CLEAR_FAULT (R308), STALL (R303, R304), STALL_RETRY (R309, R131),
HOLD_DELAY_EXPIRY (R302), HOME_INPUT (R311, R313), HOMING_END (R311), LIMIT_INPUT (R308, R310), ENCODER_ERROR (R303),
AXIS_DRIVER_FAULT (R308), AXIS_OVERCURRENT (R293, R308). -/
def Obligations.AxisCommandsComplete : Prop :=
  (∀ (a : AxisId) (encoderDelta : Int) (coils : List (Int × Int)) (vm : Nat) (fltHigh : Bool) (s : State),
    s.axisUp a = true → ((!a.isSled || decide (s.gridN % 64 = 0))) = true →
    exec (.profilePeriod a encoderDelta coils vm fltHigh) s = .next (
        let s := (s.updA a fun x => { x with fltHigh := fltHigh }).axisLimits a
        let before := (s.axes[a]).position
        let s := s.axisMotion a
        let (s, ea, eb) := s.coilPeriods a coils (supplyOf a vm) before
        let s := if a.isSled then s else s.updA a fun x => { x with trail := (x.position :: x.trail).take trailLength }
        (s.axisEncoder a encoderDelta before).axisLoadAngle a ea eb)) ∧
  (∀ (cl : Client) (a : AxisId) (s : State), s.axisUp a = true → s.Takes cl Obj.axisCommand a.inst 0 1 →
    exec (.axisMove cl a 1) s = .next (
        s.wrote cl Obj.axisCommand a.inst 0 fun s =>
        let r := s.moveResult a
        let s := s.axisAnswer a 1 r
        if r == .accepted then (s.moveTo a (ustep (s.ob Obj.axisMoveTarget a.inst))) else s)) ∧
  (∀ (cl : Client) (a : AxisId) (s : State), s.axisUp a = true → s.Takes cl Obj.axisCommand a.inst 0 2 →
    exec (.axisHalt cl a 2) s = .next (
        s.wrote cl Obj.axisCommand a.inst 0 fun s =>
        let r := (s.axes[a]).plainResult
        let s := s.axisAnswer a 2 r
        if r == .accepted then ((s.haltAxis a).updA a fun x => { x with pendingMove := none }) else s)) ∧
  (∀ (cl : Client) (a : AxisId) (s : State), s.axisUp a = true → s.Takes cl Obj.axisCommand a.inst 0 3 →
    exec (.axisStop cl a 3) s = .next (
        s.wrote cl Obj.axisCommand a.inst 0 fun s =>
        let r := if (s.axes[a]).mode == .disabled then .disabled else .accepted
        let s := s.axisAnswer a 3 r
        if r == .accepted then (s.stopAxis a .stop (if (s.axes[a]).mode == .fault then .fault else .standstill)) else s)) ∧
  (∀ (cl : Client) (a : AxisId) (s : State), s.axisUp a = true → s.Takes cl Obj.axisCommand a.inst 0 4 →
    exec (.axisHome cl a 4) s = .next (
        s.wrote cl Obj.axisCommand a.inst 0 fun s =>
        let r := s.homeResult a
        let s := s.axisAnswer a 4 r
        if r == .accepted then ((s.setOb Obj.chatterCount a.aux 0 0).updA a fun x => { x.begin x.position (s.ob Obj.runCurrent a.inst * 1000) with
        mode := .homing, forward := decide (s.obN Obj.homeDirection a.aux = 1), homeFound := false, homeCorrection := 0 }) else s)) ∧
  (∀ (cl : Client) (a : AxisId) (s : State), s.axisUp a = true → s.Takes cl Obj.axisCommand a.inst 0 5 →
    exec (.axisEnable cl a 5) s = .next (
        s.wrote cl Obj.axisCommand a.inst 0 fun s =>
          let r := if (s.axes[a]).mode == .fault then .fault else .accepted
          let s := s.axisAnswer a 5 r
          if r == .accepted then (if (s.axes[a]).mode == .disabled then
          s.updA a fun x => { x with
            mode := .standstill, positionValid := false, frozen := false, encoder := x.position, coil := s.ob Obj.holdCurrent a.inst * 1000 }
        else s) else s)) ∧
  (∀ (cl : Client) (a : AxisId) (s : State), s.axisUp a = true → s.Takes cl Obj.axisCommand a.inst 0 6 →
    exec (.axisDisable cl a 6) s = .next (
        s.wrote cl Obj.axisCommand a.inst 0 fun s =>
        let r := .accepted
        let s := s.axisAnswer a 6 r
        if r == .accepted then (s.disableAxis a .disable) else s)) ∧
  (∀ (cl : Client) (a : AxisId) (s : State), s.axisUp a = true → s.Takes cl Obj.axisCommand a.inst 0 7 →
    exec (.clearFault cl a 7) s = .next (
        s.wrote cl Obj.axisCommand a.inst 0 fun s =>
        let r := (s.axes[a]).clearResult a
        let s := s.axisAnswer a 7 r
        if r == .accepted then (s.updA a fun x => { x with fault := 0, mode := if x.mode == .fault then .standstill else x.mode }) else s)) ∧
  (∀ (a : AxisId) (s : State),
    s.axisUp a = true → s.obN Obj.stallCountLimit a.inst ≤ (s.axes[a]).stallRun →
    exec (.stall a) s = .next (
        let x := s.axes[a]
        let enc := s.encoderUsed a
        let s := (s.bump Obj.axisStalls a.inst 0).report (Isl.axis a) Ev.axStall
          [(a.val : Int), if enc then 0 else 1, if enc then usteps x.deviation else x.loadAngle.getD 0, usteps x.position]
        let times := s.time :: x.stallTimes.filter fun t => s.time - t < sTicks 1
        let s := s.updA a fun x => { x with stallTimes := times, stallRun := 0 }
        if s.obN Obj.stallRetries a.inst ≤ times.length then s.axisFault a .stall
        else s.stopAxis a .stall .standstill)) ∧
  (∀ (a : AxisId) (s : State),
    s.axisUp a = true → a.isSled = true → s.axes[a].mode = .standstill → s.axes[a].frozen = true →
    s.axes[a].positionValid = false →
    (s.axes[a].stallTimes.head?.any fun t => decide (msTicks (s.obN Obj.stallRetryDelay a.inst) ≤ s.time - t)) = true →
    exec (.stallRetry a) s = .next (
        let x := s.axes[a]
        s.updA a fun x => { x with retryDue := true, wordSource := .hold, wordVelocity := 0, wordFinal := false })) ∧
  (∀ (a : AxisId) (s : State),
    s.axisUp a = true → (s.axes[a]).mode = .standstill →
    msTicks (s.obN Obj.holdDelay a.inst) ≤ s.time - (s.axes[a]).moveEndedAt →
    exec (.holdDelayExpiry a) s = .next (s.updA a fun x => { x with coil := s.ob Obj.holdCurrent a.inst * 1000 })) ∧
  (∀ (a : AxisId) (high : Bool) (s : State), s.axisUp a = true → a.isSled = false →
    exec (.homeInput a high) s = .next (
        let x := s.axes[a]
        if x.mode == .homing && !x.homeFound then
          if s.inputActive a 0 high then
            let corr := ustep (s.ob Obj.homePosition a.aux) - s.positionAtEdge a
            (s.updA a fun x => { x with
              position := x.position + corr, encoder := x.encoder + corr, homeFound := true, homeAt := s.time, homeCorrection := corr }).haltAxis a
          else s
        else if x.homeFound && decide (s.time - x.homeAt ≤ msTicks (s.obN Obj.homeLockout a.aux)) then
          let s := s.bump Obj.chatterCount a.aux 0
          if s.ob Obj.chatterLimit a.aux < s.ob Obj.chatterCount a.aux && !((s.axes[a]).fault.getLsbD 5) then s.axisFault a .chatter else s
        else s)) ∧
  (∀ (a : AxisId) (s : State),
    s.axisUp a = true → s.axes[a].mode = .homing → s.axes[a].homeFound = true → s.axes[a].speed = 0 →
    msTicks (s.obN Obj.homeLockout a.aux) ≤ s.time - s.axes[a].homeAt →
    exec (.homingEnd a) s = .next (
        let x := s.axes[a]
        (s.updA a fun x => { x with mode := .standstill, positionValid := true, down := false, moveEndedAt := s.time }).report (Isl.axis a)
        Ev.axHomed [(a.val : Int), usteps x.homeCorrection, s.ob Obj.chatterCount a.aux])) ∧
  (∀ (a : AxisId) (positive high : Bool) (s : State), s.axisUp a = true → a.isSled = false →
    exec (.limitInput a positive high) s = .next (
        let active := s.inputActive a (if positive then 1 else 2) high
        (s.updA a fun x => if positive then { x with limitPos := active } else { x with limitNeg := active }).axisLimits a)) ∧
  (∀ (a : AxisId) (s : State), s.axisUp a = true → s.encoderUsed a = true →
    exec (.encoderError a) s = .next ((s.bump Obj.encoderErrorCount a.inst 0).axisFault a .encoderError)) ∧
  (∀ (a : AxisId) (s : State), s.axisUp a = true →
    exec (.axisDriverFault a) s = .next ((s.axisFault a .driverFault).updA a fun x => { x with coil := 0, fltHigh := false })) ∧
  (∀ (a : AxisId) (code : Int) (s : State),
    s.axisUp a = true → s.ob Obj.coilCurrentTrip a.inst < (rnd (code * s.ob Obj.axisSenseScale a.inst) 2048).natAbs →
    exec (.axisOvercurrent a code) s = .next ((s.axisFault a .overcurrent).updA a fun x => { x with coil := 0 }))

/-- Queue and completion commands complete: DOORBELL_WRITE (R357), COMMAND_FETCH (R336, R324), DISPATCH (R325, R336), TOLLGATE_STALL_RELEASE (R339, R336),
COMMIT_POINT (R340), COMPLETION_POST (R358, R337), DELETE_IO_SUBMISSION_QUEUE (R326, R337),
CREATE_IO_SUBMISSION_QUEUE (R323), DELETE_IO_COMPLETION_QUEUE (R326), CREATE_IO_COMPLETION_QUEUE (R326, R323). -/
def Obligations.QueueCommandsComplete : Prop :=
  (∀ (c : CtrlId) (queue : Nat) (completion : Bool) (value : Nat) (s : State),
    s.ctrlUp c = true →
    exec (.doorbellWrite c queue completion value) s = .next (
        let s := { s with host := { s.host with lastDoorbell := (2 * queue + (if completion then 1 else 0), value) } }
        if completion then s.updCq c queue fun q => if value < q.size then { q with head := value } else q
        else s.updSq c queue fun q => if value < q.size then { q with tail := value } else q)) ∧
  (∀ (c : CtrlId) (sq : Nat) (e : Sqe) (roundTripNs : Nat) (s : State),
    s.hostUp = true → s.host.ctrls[c].mode = .ready → s.host.ctrls[c].processingPaused = false →
    s.host.activation.isNone = true →
    exec (.commandFetch c sq e roundTripNs) s = .next (
        let x := s.host.ctrls[c]
        match x.sqs.find? fun q => q.id == sq with
        | none => s
        | some q =>
          let ref : CmdRef := { ctrl := c, sq := sq, cid := e.cid }
          let served := x.serveNext
          if served.map (·.1) != some sq || (s.cmd? ref).isSome then s
          else
            let admin := sq == 0
            let s := s.updCtrl c fun x => { x with arbiter := (served.map (·.2)).getD x.arbiter }
            let s := s.updSq c sq fun q => { q with head := (q.head + 1) % q.size }
            let s := s.maxOb Obj.fetchRoundTripMax c 0 roundTripNs
            let marked := x.abortMarks.contains ref
            let s := s.updCtrl c fun x => { x with abortMarks := x.abortMarks.filter fun y => y != ref }
            let st := if marked then some .abortRequested else s.fetchCheck admin e
            let new : Cmd := {
              ref := ref, sqe := e, cls := if x.weighted then q.prio else 2, fetchOrder := s.host.fetchCount, dispatchOrder := 0
              stage := if st.isSome then .done else .fetched, result := st, dw0 := 0, dw1 := 0, tollgate := none, lba := e.slba
              committed := false, dataIn := false, dataOut := [], covers := [], clustersLeft := 0, signpost := [] }
            let s := { s with host := { s.host with cmds := s.host.cmds ++ [new], fetchCount := s.host.fetchCount + 1 } }
            if admin || st.isSome then s
            else
              let s := if s.host.powerState = 2 then s.leavePs2 c else s
              if new.media then s.suspendEntry ref else s)) ∧
  (∀ (c : CtrlId) (sq : Nat) (latencyNs : Nat) (s : State),
    s.hostUp = true → s.memUp = true → (s.host.ctrls[c]).mode ≠ .disabled →
    exec (.dispatch c sq latencyNs) s = .next (
        match s.dispatchHead c sq with
        | none => s
        | some m =>
          match pickupOf m.sqe.nsid with
          | none => s
          | some p =>
            if s.exiting p then s
            else match s.dispatchCheck p m with
            | some st => (s.updCmd m.ref fun m => { m with stage := .done }).finishCmd m.ref st
            | none =>
              let lba := if m.io opZoneAppend then zoneOf m.sqe.slba * zoneBlocks + (s.zone p (zoneOf m.sqe.slba)).wp else m.sqe.slba
              let ranges := s.tollRanges p m lba
              let slots := s.freeTolls (m.cls == 0) ranges.length
              if m.isWrite && !s.fits p lba m.sqe.nlb then s.waitInDispatch m false
              else if slots.length < ranges.length then s.waitInDispatch m true
              else
                let order := s.host.dispatchCount
                let s := { s with host := { s.host with dispatchCount := order + 1, tollFullRun := false } }
                let s := s.updCmd m.ref fun m => { m with
                  lba := lba, dispatchOrder := order
                  dw0 := if m.io opZoneAppend then lba % 2 ^ 32 else 0, dw1 := if m.io opZoneAppend then lba / 2 ^ 32 else 0 }
                let s := s.takeTolls m order slots ranges
                let s := if m.isWrite then s.advanceZone p lba m.sqe.nlb else s
                let late : Option MissCause := if m.cls == 0 && !(slots.all fun i => decide (i < 64)) then some .tollgate else none
                let before := (s.boundCause c).or late
                let missed := m.stage == .waiting
                match s.cmd? m.ref with
                | none => s
                | some m =>
                  if s.stalled m then
                    let s := (s.bump Obj.tollgateStalls 0 0).updCmd m.ref fun m => { m with stage := .stalled }
                    if missed then s else s.boundMiss m 0 (before.or (some .tollgate))
                  else
                    let (s, why) := s.toRamp p m order
                    let s := s.tally 0 m.cls latencyNs
                    if missed then s else s.boundMiss m 0 (before.or why))) ∧
  (∀ (k : CmdRef) (latencyNs : Nat) (s : State), s.hostUp = true → s.memUp = true →
    exec (.tollgateStallRelease k latencyNs) s = .next (
        match s.cmd? k with
        | none => s
        | some m =>
          match pickupOf m.sqe.nsid with
          | none => s
          | some p =>
            let z := s.zone p (zoneOf m.lba)
            if m.stage != .stalled || s.stalled m then s
            else if m.result.isSome then s.updCmd k fun m => { m with stage := .done }
            else if m.isWrite && z.state == .readOnly then (s.updCmd k fun m => { m with stage := .done }).finishCmd k .zoneReadOnly
            else if m.isWrite && z.state == .full && (z.sealRequested || z.digestState == .sealed) then
              (s.updCmd k fun m => { m with stage := .done }).finishCmd k .zoneFull
            else ((s.toRamp p m m.dispatchOrder).1).tally 0 m.cls latencyNs)) ∧
  (∀ (k : CmdRef) (s : State), s.hostUp = true →
    exec (.commitPoint k) s = .next (
        match s.cmd? k, s.cqOf k with
        | some m, some q =>
          if m.committed || q.free = 0 then s
          else if m.result.isNone && s.flushDue m then (s.finishCmd k .success).commit k
          else if m.result.isSome || (m.io opRead && m.stage == .taken && m.dataOut != []) then s.commit k
          else s
        | _, _ => s)) ∧
  (∀ (k : CmdRef) (dataNs wholeNs : Nat) (s : State), s.hostUp = true → (s.host.ctrls[k.ctrl]).mode ≠ .resetting →
    exec (.completionPost k dataNs wholeNs) s = .next (
        match s.cmd? k, s.cqOf k with
        | some m, some q =>
          match m.result with
          | none => s
          | some st =>
            if !m.committed || !m.ended then s
            else
              let s := s.updCq k.ctrl q.id fun q => { q with tail := (q.tail + 1) % q.size, reserved := q.reserved - 1 }
              let s := s.updCtrl k.ctrl fun x => { x with
                posted := { ref := k, status := st, dw0 := m.dw0, dw1 := m.dw1 } :: x.posted, aers := x.aers.filter fun y => y != k }
              let s := (s.bump Obj.commandsCompleted k.ctrl 0).errorCompletion m st st.code
              let data := m.io opRead || m.isWrite
              let s := if data then s.tally 1 m.cls dataNs else s
              let s := if m.io opRead || m.io opVerify then s.tally 2 m.cls wholeNs else if m.isWrite then s.tally 3 m.cls wholeNs else s
              let s := if data then s.boundMiss m 1 (s.boundCause k.ctrl) else s
              let s := (s.releaseTolls k).leaveReads k false
              let s := { s with host := { s.host with cmds := s.host.cmds.filter fun x => x.ref != k } }
              ((s.interrupt k.ctrl q.id).settleDeletion k.ctrl k.sq).settleShutdowns
        | _, _ => s)) ∧
  (∀ (k : CmdRef) (c : Cmd) (s : State), s.Waits k c → k.sq = 0 → c.sqe.opcode = 0x00 →
    exec (.deleteIoSubmissionQueue k) s = .next (
        let s := s.taken k
        let id := c.sqe.cdw10 % 0x10000
        if id = 0 || (s.sq? k.ctrl id).isNone then s.finishCmd k .invalidQueueId
        else
          let mine := s.host.cmds.filter fun m => m.ref.ctrl == k.ctrl && m.ref.sq == id && !m.committed && m.result.isNone
          let s := s.forEach mine fun s m => (s.withdraw m).finishCmd m.ref .abortedSqDeletion
          (s.updSq k.ctrl id fun q => { q with deleting := some k }).settleDeletion k.ctrl id)) ∧
  (∀ (k : CmdRef) (c : Cmd) (s : State), s.Waits k c → k.sq = 0 → c.sqe.opcode = 0x01 →
    exec (.createIoSubmissionQueue k) s = .next (
        let s := s.taken k
        let x := s.host.ctrls[k.ctrl]
        let id := c.sqe.cdw10 % 0x10000
        let size := c.sqe.cdw10 / 0x10000 + 1
        let cq := c.sqe.cdw11 / 0x10000
        if id = 0 || x.sqAllocated < id || (s.sq? k.ctrl id).isSome then s.finishCmd k .invalidQueueId
        else if queueEntries < size || size < 2 then s.finishCmd k .invalidQueueSize
        else if cq = 0 || (s.cq? k.ctrl cq).isNone then s.finishCmd k .cqInvalid
        else (s.updCtrl k.ctrl fun x => { x with sqs := x.sqs ++
          [{ id := id, cq := cq, size := size, prio := c.sqe.cdw11 / 2 % 4, head := 0, tail := 0, deleting := none }] }).finishCmd k .success)) ∧
  (∀ (k : CmdRef) (c : Cmd) (s : State), s.Waits k c → k.sq = 0 → c.sqe.opcode = 0x04 →
    exec (.deleteIoCompletionQueue k) s = .next (
        let s := s.taken k
        let id := c.sqe.cdw10 % 0x10000
        if id = 0 || (s.cq? k.ctrl id).isNone then s.finishCmd k .invalidQueueId
        else if (s.host.ctrls[k.ctrl]).sqs.any fun q => q.cq == id then s.finishCmd k .invalidQueueDeletion
        else (s.updCtrl k.ctrl fun x => { x with cqs := x.cqs.filter fun q => q.id != id }).finishCmd k .success)) ∧
  (∀ (k : CmdRef) (c : Cmd) (s : State), s.Waits k c → k.sq = 0 → c.sqe.opcode = 0x05 →
    exec (.createIoCompletionQueue k) s = .next (
        let s := s.taken k
        let x := s.host.ctrls[k.ctrl]
        let id := c.sqe.cdw10 % 0x10000
        let size := c.sqe.cdw10 / 0x10000 + 1
        let vector := c.sqe.cdw11 / 0x10000
        if id = 0 || x.cqAllocated < id || (s.cq? k.ctrl id).isSome then s.finishCmd k .invalidQueueId
        else if queueEntries < size || size < 2 then s.finishCmd k .invalidQueueSize
        else if 2048 ≤ vector then s.finishCmd k .invalidVector
        else (s.updCtrl k.ctrl fun x => { x with cqs := x.cqs ++
          [{ id := id, size := size, vector := vector, head := 0, tail := 0, reserved := 0, interruptHeld := 0 }] }).finishCmd k .success))

/-- Admin commands complete: GET_LOG_PAGE (R353), IDENTIFY (R326, R322), ABORT (R341), SET_FEATURES (R354, R323),
SET_FEATURES_POWER_MANAGEMENT (R348, R347), SET_FEATURES_TIMESTAMP (R477, R354), GET_FEATURES (R354),
ASYNCHRONOUS_EVENT_REQUEST (R326), DEVICE_SELF_TEST_SHORT (R350), DEVICE_SELF_TEST_EXTENDED (R350),
DEVICE_SELF_TEST_ABORT (R352), SELF_TEST_STEP (R351, R352). -/
def Obligations.AdminCommandsComplete : Prop :=
  (∀ (k : CmdRef) (c : Cmd) (s : State), s.Waits k c → k.sq = 0 → c.sqe.opcode = 0x02 →
    exec (.getLogPage k) s = .next (
        let s := s.taken k
        let page := c.sqe.cdw10 % 256
        let s := s.giveData k (s.logContent k.ctrl page c.sqe.nsid)
        let s := match page with
          | 0x04 => s.updCtrl k.ctrl fun x => { x with changedNs := [] }
          | 0xBF => match pickupOf c.sqe.nsid with
            | some p => s.updS p fun x => { x with changedZones := [] }
            | none => s
          | _ => s
        s.finishCmd k .success)) ∧
  (∀ (k : CmdRef) (c : Cmd) (s : State), s.Waits k c → k.sq = 0 → c.sqe.opcode = 0x06 →
    exec (.identify k) s = .next (
        let s := s.taken k
        (s.giveData k (s.identifyContent k.ctrl (c.sqe.cdw10 % 256) c.sqe.nsid)).finishCmd k .success)) ∧
  (∀ (k : CmdRef) (targetWaits : Bool) (c : Cmd) (s : State), s.Waits k c → k.sq = 0 → c.sqe.opcode = 0x08 →
    exec (.abort k targetWaits) s = .next (
        let s := s.taken k
        let others := s.host.cmds.filter fun m => m.ref.ctrl == k.ctrl && m.ref.sq == 0 && m.op 0x08 && m.result.isNone && m.ref != k
        if abortLimit ≤ (others.filter fun m => decide (m.fetchOrder < c.fetchOrder)).length then s.finishCmd k .abortLimit
        else
          let t : CmdRef := { ctrl := k.ctrl, sq := c.sqe.cdw10 % 0x10000, cid := c.sqe.cdw10 / 0x10000 % 0x10000 }
          let unfetched := targetWaits && decide (t.sq ≠ 0) && match s.sq? t.ctrl t.sq with
            | some q => q.waits
            | none => false
          let (s, aborted) := match s.cmd? t with
            | some m =>
              if t.sq ≠ 0 && !m.committed then
                let s := s.withdraw m
                ((s.markAborted t).updCmd t fun m => { m with
                  result := some .abortRequested, stage := if m.dispatched then m.stage else .done }, true)
              else (s, false)
            | none =>
              if unfetched then (s.updCtrl k.ctrl fun x => { x with abortMarks := x.abortMarks ++ [t] }, true) else (s, false)
          let s := s.bump (if aborted then Obj.abortsSucceeded else Obj.abortsNotAborted) k.ctrl 0
          let s := s.report Isl.host Ev.hostAbort [(k.ctrl.val + 1 : Nat), (t.sq : Int), (t.cid : Int), if aborted then 0 else 1]
          (s.setDw0 k (if aborted then 0 else 1)).finishCmd k .success)) ∧
  (∀ (k : CmdRef) (c : Cmd) (s : State),
    s.Waits k c → k.sq = 0 → c.sqe.opcode = 0x09 → c.sqe.fid ≠ 0x02 → c.sqe.fid ≠ 0x0E → c.sqe.saves = false →
    exec (.setFeatures k) s = .next (
        let s := s.taken k
        let v := c.sqe.cdw11
        let e := c.sqe
        match e.fid with
        | 0x07 =>
          let got := min (v / 0x10000) 0x0FFE * 0x10000 + min (v % 0x10000) 0x0FFE
          ((s.updCtrl k.ctrl fun x => x.setFeature 0x07 0 got).setDw0 k got).finishCmd k .success
        | 0x05 =>
          let parts := if featurePart e = 0 then (List.range 8).map (· + 1) else [featurePart e]
          (s.forEach parts fun s n => s.updCtrl k.ctrl fun x => x.setFeature 0x05 n v).finishCmd k .success
        | f => (s.updCtrl k.ctrl fun x => x.setFeature f (featurePart e) v).finishCmd k .success)) ∧
  (∀ (k : CmdRef) (c : Cmd) (s : State),
    s.host.powerEntry = none → s.Waits k c → k.sq = 0 → c.sqe.opcode = 0x09 → c.sqe.fid = 0x02 → c.sqe.saves = false →
    exec (.setFeaturesPowerManagement k) s = .next (
        let s := s.taken k
        let n := c.sqe.cdw11 % 32
        if n = s.host.powerState then s.finishCmd k .success
        else
          let s := { s with host := { s.host with powerEntry := some { toState := n, cmd := some k, started := false, suspendedBy := none } } }
          let s := s.forEach (allFin 8) fun s p => s.formAll p (s.sides[p]).waitingZones
          s.endSelfTest 8 ((s.host.selfTest.map fun t => t.segment).getD 0))) ∧
  (∀ (k : CmdRef) (c : Cmd) (s : State),
    s.Waits k c → k.sq = 0 → c.sqe.opcode = 0x09 → c.sqe.fid = 0x0E → c.sqe.saves = false →
    exec (.setFeaturesTimestamp k) s = .next (
        let s := s.taken k
        let v : Nat := (c.sqe.bytes.take 6).foldr (fun b acc => b.toNat + 256 * acc) 0
        (s.setTimeOfDay v (Client.nvme k.ctrl).identity).finishCmd k .success)) ∧
  (∀ (k : CmdRef) (c : Cmd) (s : State), s.Waits k c → k.sq = 0 → c.sqe.opcode = 0x0A →
    exec (.getFeatures k) s = .next (
        let s := s.taken k
        let e := c.sqe
        let x := s.host.ctrls[k.ctrl]
        match e.cdw10 / 0x100 % 8 with
        | 0 =>
          if e.fid = 0x0E then
            (s.giveData k [s.timeOfDay.toNat, if s.verge.powerLost then 1 else 0]).finishCmd k .success
          else
            let v := if e.fid = 0x02 then s.host.powerState else Sparse.get (featureDefault e.fid) x.features (featureKey e.fid (featurePart e))
            (s.setDw0 k v).finishCmd k .success
        | 1 => (s.setDw0 k (featureDefault e.fid)).finishCmd k .success
        | _ => (s.setDw0 k (if e.fid = 0x05 then 6 else 4)).finishCmd k .success)) ∧
  (∀ (k : CmdRef) (s : State), s.coreUp = true →
    exec (.asynchronousEventRequest k) s = .next (
        match s.cmd? k with
        | none => s
        | some c =>
          if k.sq ≠ 0 || c.stage != .fetched || c.result.isSome || !c.op 0x0C then s
          else
            let s := s.updCmd k fun c => { c with stage := .taken }
            let x := s.host.ctrls[k.ctrl]
            if 4 ≤ x.aers.length then s.finishCmd k .aerLimit
            else match x.notices with
            | (kind, info) :: rest =>
              ((s.updCtrl k.ctrl fun x => { x with notices := rest }).setDw0 k (info * 2 ^ 8 + kind)).finishCmd k .success
            | [] => s.updCtrl k.ctrl fun x => { x with aers := x.aers ++ [k] })) ∧
  (∀ (k : CmdRef) (c : Cmd) (s : State),
    s.Waits k c → k.sq = 0 → c.sqe.opcode = 0x14 → c.sqe.cdw10 % 16 = 1 →
    exec (.deviceSelfTestShort k) s = .next (
        let s := s.taken k
        s.startSelfTest k c false)) ∧
  (∀ (k : CmdRef) (c : Cmd) (s : State),
    s.Waits k c → k.sq = 0 → c.sqe.opcode = 0x14 → c.sqe.cdw10 % 16 = 2 →
    exec (.deviceSelfTestExtended k) s = .next (
        let s := s.taken k
        s.startSelfTest k c true)) ∧
  (∀ (k : CmdRef) (c : Cmd) (s : State),
    s.Waits k c → k.sq = 0 → c.sqe.opcode = 0x14 → c.sqe.cdw10 % 16 = 0xF →
    exec (.deviceSelfTestAbort k) s = .next (
        let s := s.taken k
        (s.endSelfTest 1 ((s.host.selfTest.map fun t => t.segment).getD 0)).finishCmd k .success)) ∧
  (∀ (segmentEnds passes : Bool) (s : State), s.coreUp = true →
    exec (.selfTestStep segmentEnds passes) s = .next (
        match s.host.selfTest with
        | none => s
        | some t =>
          let media := decide (3 ≤ t.segment ∧ t.segment ≤ 7)
          if !segmentEnds || (media && !(s.testedPickups t).any s.undisturbed) then s
          else if !(passes && s.segmentHolds t) then s.endSelfTest 7 t.segment
          else if t.segment = (if t.extended then 8 else 5) then s.endSelfTest 0 0
          else { s with host := { s.host with selfTest := some { t with segment := t.segment + 1 } } }))

/-- Firmware commands complete: FIRMWARE_IMAGE_DOWNLOAD (R527, R326), FIRMWARE_COMMIT_REPLACE (R345), FIRMWARE_COMMIT_REPLACE_ACTIVATE (R345),
FIRMWARE_COMMIT_ACTIVATE_AT_RESET (R345), FIRMWARE_COMMIT_ACTIVATE_NOW (R346), FW_ACTIVATION_MEDIA_IDLE (R346),
FW_ACTIVATION_DONE (R346, R527). -/
def Obligations.FirmwareCommandsComplete : Prop :=
  (∀ (k : CmdRef) (c : Cmd) (s : State), s.Waits k c → k.sq = 0 → c.sqe.opcode = 0x11 →
    exec (.firmwareImageDownload k) s = .next (
        let s := s.taken k
        let piece := c.sqe.bytes.take ((c.sqe.cdw10 + 1) * 4)
        ({ s with host := { s.host with download := Sparse.insert (c.sqe.cdw11 * 4) piece s.host.download } }).finishCmd k .success)) ∧
  (∀ (k : CmdRef) (c : Cmd) (s : State),
    s.Waits k c → k.sq = 0 → c.sqe.opcode = 0x10 → c.sqe.commitAction = 0 → s.host.activation = none →
    exec (.firmwareCommitReplace k) s = .next (
        let s := s.taken k
        s.replaceSlot k c fun s _ => s.finishCmd k .success)) ∧
  (∀ (k : CmdRef) (c : Cmd) (s : State),
    s.Waits k c → k.sq = 0 → c.sqe.opcode = 0x10 → c.sqe.commitAction = 1 → s.host.activation = none →
    exec (.firmwareCommitReplaceActivate k) s = .next (
        let s := s.taken k
        s.replaceSlot k c fun s i => (s.writeBoot s.power.activeSlot (some i)).finishCmd k .success)) ∧
  (∀ (k : CmdRef) (c : Cmd) (s : State),
    s.Waits k c → k.sq = 0 → c.sqe.opcode = 0x10 → c.sqe.commitAction = 2 → s.host.activation = none →
    exec (.firmwareCommitActivateAtReset k) s = .next (
        let s := s.taken k
        s.withSlot k c fun s i => (s.writeBoot s.power.activeSlot (some i)).finishCmd k .success)) ∧
  (∀ (k : CmdRef) (c : Cmd) (s : State),
    s.Waits k c → k.sq = 0 → c.sqe.opcode = 0x10 → c.sqe.commitAction = 3 → s.host.activation = none →
    exec (.firmwareCommitActivateNow k) s = .next (
        let s := s.taken k
        s.withSlot k c fun s i => s.startActivation k i)) ∧
  (∀ (s : State), s.running = true →
    exec (.fwActivationMediaIdle) s = .next (
        match s.host.activation with
        | none => s
        | some a =>
          if a.loaded || !s.mediaIdle a then s
          else ({ s.coreStop with host := { s.host with activation := some { a with loaded := true } } }).bump Obj.resetCount 0 ResetKind.core.code)) ∧
  (∀ (s : State), s.running = true →
    exec (.fwActivationDone) s = .next (
        match s.host.activation with
        | none => s
        | some a =>
          if !a.loaded then s
          else
            let s := { s with power := { s.power with coreDown := false }, host := { s.host with activation := none } }
            let s := s.becomeActive a.slot
            let s := s.forEach (allFin 2) fun s c =>
              s.updCtrl c fun x => { x with processingPaused := false, mode := if x.mode = .paused then .ready else x.mode }
            (s.finishCmd a.cmd .success).report Isl.host Ev.hostFwActivationDone [(a.cmd.ctrl.val + 1 : Nat), (s.msSince a.startedAt : Nat)]))

/-- Object reads and writes, sessions and authorisation complete: GET_OBJECT (R384), SET_OBJECT (R384), SIGNPOST_READ (R369, R371), SIGNPOST_WRITE (R371, R366), READ_START (R377),
READ_SEGMENT (R377), WRITE_START (R378), WRITE_SEGMENT (R378), WRITE_END (R378), SESSION_CLOSE (R369, R378),
ENUMERATE (R375), OBJECT_WRITE (R366, R371), SESSION_EXPIRED (R376), AUTH_CHALLENGE_READ (R388),
AUTH_LOCKOUT_END (R388). -/
def Obligations.SignpostCommandsComplete : Prop :=
  (∀ (k : CmdRef) (c : Cmd) (s : State),
    s.Waits k c → k.sq = 0 → c.sqe.opcode = 0xC0 → s.signpost.queue.isEmpty = true →
    exec (.getObject k) s = .next (
        let s := s.taken k
        let r := objectRequest c.sqe false
        (s.execRequest (.nvme k.ctrl) r).objectReply k r)) ∧
  (∀ (k : CmdRef) (c : Cmd) (s : State),
    s.Waits k c → k.sq = 0 → c.sqe.opcode = 0xC1 → s.signpost.queue.isEmpty = true →
    exec (.setObject k) s = .next (
        let s := s.taken k
        let r := objectRequest c.sqe true
        (s.execRequest (.nvme k.ctrl) r).objectReply k r)) ∧
  (∀ (cl : Client) (r : Request) (s : State),
    s.coreUp = true → r.service = 1 → s.signpost.queue = [] → s.storedReply cl r = none →
    exec (.signpostRead cl r) s = .next (
        let u := s.clearSent.execRequest cl r
        if u.signpost.lastReply.isSome then u.stampReply cl r else u.updClient cl fun c => { c with serving := some r })) ∧
  (∀ (cl : Client) (r : Request) (s : State),
    s.coreUp = true → r.service = 2 → s.signpost.queue = [] → s.storedReply cl r = none →
    exec (.signpostWrite cl r) s = .next (
        let u := s.clearSent.execRequest cl r
        if u.signpost.lastReply.isSome then u.stampReply cl r else u.updClient cl fun c => { c with serving := some r })) ∧
  (∀ (cl : Client) (r : Request) (s : State),
    s.coreUp = true → r.service = 3 → s.signpost.queue = [] → s.storedReply cl r = none →
    exec (.readStart cl r) s = .next (
        let u := s.clearSent.execRequest cl r
        if u.signpost.lastReply.isSome then u.stampReply cl r else u.updClient cl fun c => { c with serving := some r })) ∧
  (∀ (cl : Client) (r : Request) (s : State),
    s.coreUp = true → r.service = 4 → s.signpost.queue = [] → s.storedReply cl r = none →
    exec (.readSegment cl r) s = .next (
        let u := s.clearSent.execRequest cl r
        if u.signpost.lastReply.isSome then u.stampReply cl r else u.updClient cl fun c => { c with serving := some r })) ∧
  (∀ (cl : Client) (r : Request) (s : State),
    s.coreUp = true → r.service = 5 → s.signpost.queue = [] → s.storedReply cl r = none →
    exec (.writeStart cl r) s = .next (
        let u := s.clearSent.execRequest cl r
        if u.signpost.lastReply.isSome then u.stampReply cl r else u.updClient cl fun c => { c with serving := some r })) ∧
  (∀ (cl : Client) (r : Request) (s : State),
    s.coreUp = true → r.service = 6 → s.signpost.queue = [] → s.storedReply cl r = none →
    exec (.writeSegment cl r) s = .next (
        let u := s.clearSent.execRequest cl r
        if u.signpost.lastReply.isSome then u.stampReply cl r else u.updClient cl fun c => { c with serving := some r })) ∧
  (∀ (cl : Client) (r : Request) (s : State),
    s.coreUp = true → r.service = 7 → s.signpost.queue = [] → s.storedReply cl r = none →
    exec (.writeEnd cl r) s = .next (
        let u := s.clearSent.execRequest cl r
        if u.signpost.lastReply.isSome then u.stampReply cl r else u.updClient cl fun c => { c with serving := some r })) ∧
  (∀ (cl : Client) (r : Request) (s : State),
    s.coreUp = true → r.service = 8 → s.signpost.queue = [] → s.storedReply cl r = none →
    exec (.sessionClose cl r) s = .next (
        let u := s.clearSent.execRequest cl r
        if u.signpost.lastReply.isSome then u.stampReply cl r else u.updClient cl fun c => { c with serving := some r })) ∧
  (∀ (cl : Client) (r : Request) (s : State),
    s.coreUp = true → r.service = 9 → s.signpost.queue = [] → s.storedReply cl r = none →
    exec (.enumerate cl r) s = .next (
        let u := s.clearSent.execRequest cl r
        if u.signpost.lastReply.isSome then u.stampReply cl r else u.updClient cl fun c => { c with serving := some r })) ∧
  (∀ (cl : Client) (index sub : Nat) (v : Int) (authorised : Option Bool) (row : Row) (i k : Nat) (s : State),
    s.coreUp = true →
    s.accessCheck cl { version := 1, service := 2, txid := 0, index := index, sub := sub, flags := 0, offset := 0, length := 0, session := 0, data := [], wellSigned := false } = none →
    s.lookup index sub = some (row, i, k) → s.command cl row i v authorised = none → row.type.holds v = true →
    exec (.objectWrite cl index sub v authorised) s = .next (s.writeObject cl row i k (leBytes row.type.size v) authorised)) ∧
  (∀ (n : Fin 8) (s : State), s.coreUp = true →
    exec (.sessionExpired n) s = .next (
        match s.signpost.sessions[n] with
        | none => s
        | some x => if s.sessionOver x then s.expireSession n x else s)) ∧
  (∀ (cl : Client) (s : State), s.coreUp = true →
    exec (.authChallengeRead cl) s = .next (
        let (s, _, b) := s.readObject cl Obj.authChallenge 0 0 false
        s.answer none b)) ∧
  (∀ (s : State),
    s.coreUp = true → s.signpost.locked = true → s.signpost.lockedAt + sTicks (s.obN Obj.authLockoutTime) ≤ s.time →
    exec (.authLockoutEnd) s = .next ({ s with signpost := { s.signpost with locked := false } }.setOb Obj.authFailCount 0 0 0))

/-- Zoned namespace commands complete: FLUSH (R342), WRITE (R330), READ (R334), VERIFY (R327), ZONE_APPEND (R330), REPORT_ZONES (R327, R330),
CLOSE_ZONE (R332, R340), FINISH_ZONE (R332), OPEN_ZONE (R332, R340), RESET_ZONE (R332), OFFLINE_ZONE (R332),
SET_ZONE_DESCRIPTOR_EXTENSION (R332), DATA_READ_COMPLETION (R338, R337). -/
def Obligations.NamespaceCommandsComplete : Prop :=
  (∀ (k : CmdRef) (s : State), s.hostUp = true → s.memUp = true →
    exec (.flush k) s = .next (
        match s.cmd? k with
        | none => s
        | some c =>
          if !(c.io opFlush) || c.stage != .fetched || c.result.isSome then s
          else
            let ps := if c.sqe.nsid = allNamespaces then (allFin 8).filter fun p => s.pickupOn p else (pickupOf c.sqe.nsid).toList
            let covers := (s.host.cmds.filter fun m =>
              m.isWrite && decide (m.fetchOrder < c.fetchOrder) && m.result.isNone && ps.any fun p => m.sqe.nsid == nsidOf p).map fun m => m.ref
            let s := s.updCmd k fun c => { c with stage := .taken, covers := covers }
            s.forEach ps fun s p => s.formCovered p covers)) ∧
  (∀ (k : CmdRef) (p : PickupId) (c : Cmd) (s : State), s.WaitsForMedia k p c → c.io opWrite = true →
    exec (.write k) s = .next (s.bufferWrite p c)) ∧
  (∀ (k : CmdRef) (p : PickupId) (c : Cmd) (s : State), s.WaitsForMedia k p c → c.io opRead = true →
    exec (.read k) s = .next (if (s.sides[p]).built then (s.noteStream p c).serveRead p c else s.finishCmd k .unrecoveredRead)) ∧
  (∀ (k : CmdRef) (p : PickupId) (c : Cmd) (s : State), s.WaitsForMedia k p c → c.io opVerify = true →
    exec (.verify k) s = .next (if (s.sides[p]).built then s.serveRead p c else s.finishCmd k .unrecoveredRead)) ∧
  (∀ (k : CmdRef) (p : PickupId) (c : Cmd) (s : State), s.WaitsForMedia k p c → c.io opZoneAppend = true →
    exec (.zoneAppend k) s = .next (s.bufferWrite p c)) ∧
  (∀ (k : CmdRef) (c : Cmd) (s : State), s.Waits k c → c.io opZoneReceive = true →
    exec (.reportZones k) s = .next (
        let s := s.taken k
        match pickupOf c.sqe.nsid with
        | none => s
        | some p =>
          let zs := (List.range zoneCount).filter fun z =>
            decide (zoneOf c.sqe.slba ≤ z) && (s.zone p z).state.reported (c.sqe.cdw13 / 0x100 % 0x100)
          let l := zs.flatMap fun z => [(s.zone p z).state.descriptor, z * zoneBlocks, z * zoneBlocks + (s.zone p z).wp]
          (s.giveData k (zs.length :: l)).finishCmd k .success)) ∧
  (∀ (k : CmdRef) (p : PickupId) (c : Cmd) (s : State), s.WaitsForMedia k p c → c.zoneSend 1 = true →
    exec (.closeZone k) s = .next (
        if !s.mayCommit k then s
        else
          let s := s.commit k
          (s.forEach (s.zonesOf k) fun s z => s.updZone p z fun x => { x with state := if x.state.open_ then .closed else x.state }).finishCmd k
            .success)) ∧
  (∀ (k : CmdRef) (p : PickupId) (c : Cmd) (s : State), s.WaitsForMedia k p c → c.zoneSend 2 = true →
    exec (.finishZone k) s = .next (
        let zs := (s.zonesOf k).filter fun z => (s.zone p z).state == .empty || (s.zone p z).state.active
        let s := s.forEach zs fun s z =>
          ((s.updZone p z fun x => { x with state := .full, sealRequested := true }).zoneNotice p z (k.ctrl.val + 1))
        let s := s.forEach zs fun s z => s.formAll p [z]
        let s := s.updCmd k fun c => { c with dataIn := true, clustersLeft := zs.length }
        if zs = [] then s.finishCmd k .success else s)) ∧
  (∀ (k : CmdRef) (p : PickupId) (c : Cmd) (s : State), s.WaitsForMedia k p c → c.zoneSend 3 = true →
    exec (.openZone k) s = .next (
        if !s.mayCommit k then s
        else
          let s := s.commit k
          (s.forEach (s.zonesOf k) fun s z => s.updZone p z fun x => { x with
            state := if x.state = .empty ∨ x.state = .closed then .explicitlyOpened else x.state }).finishCmd k .success)) ∧
  (∀ (k : CmdRef) (s : State), s.hostUp = true →
    exec (.resetZone k) s = .next (s.refuseAction k 4)) ∧
  (∀ (k : CmdRef) (s : State), s.hostUp = true →
    exec (.offlineZone k) s = .next (s.refuseAction k 5)) ∧
  (∀ (k : CmdRef) (s : State), s.hostUp = true →
    exec (.setZoneDescriptorExtension k) s = .next (
        match s.cmd? k with
        | none => s
        | some c =>
          if c.zoneSend 0x10 && c.result.isNone then (s.updCmd k fun c => { c with stage := .done }).finishCmd k .invalidField else s)) ∧
  (∀ (k : CmdRef) (good : Bool) (s : State), s.hostUp = true → s.memUp = true →
    exec (.dataReadCompletion k good) s = .next (
        match s.cmd? k with
        | none => s
        | some c =>
          match pickupOf c.sqe.nsid with
          | none => s
          | some p =>
            if !c.dataIn || c.result.isSome then s
            else if c.isWrite then
              if good then
                let s := s.updS p fun x => { x with
                  buffer := x.buffer.map fun b => if b.owner = k then { b with filling := false, since := s.time } else b
                  hostWritten := x.hostWritten + (c.sqe.nlb + 1) * bytesPerBlock }
                { s with host := { s.host with tolls := s.host.tolls.map fun t =>
                  if t.2.cmd = k then (t.1, { t.2 with mode := tollBuffered }) else t } }
              else (s.finishCmd k .transferError).withdrawWrite p c
            else if c.io opRead && !good then s.finishCmd k .transferError
            else s))

/-- Controller, power state and link commands complete: CONTROLLER_ENABLE (R322), CONTROLLER_RESET (R343), NORMAL_SHUTDOWN (R344), ABRUPT_SHUTDOWN (R344),
POWER_STATE_ENTRY (R348, R349), POWER_STATE_ENTRY_END (R348, R349), LINK_UP (R362), LINK_DOWN (R362),
LATENCY_RESET (R361). -/
def Obligations.ControllerAndLinkCommandsComplete : Prop :=
  (∀ (c : CtrlId) (weighted : Bool) (sqSize cqSize : Nat) (s : State),
    s.hostUp = true → s.coreUp = true → (s.host.ctrls[c]).mode = .disabled → (2 ≤ sqSize ∧ sqSize ≤ queueEntries) →
    (2 ≤ cqSize ∧ cqSize ≤ queueEntries) →
    exec (.controllerEnable c weighted sqSize cqSize) s = .next (
        (s.updCtrl c fun x => { x with
        mode := .ready, weighted := weighted, shst := 0, sqs := [⟨0, 0, sqSize, 2, 0, 0, none⟩], cqs := [⟨0, cqSize, 0, 0, 0, 0, 0⟩] }).report Isl.host
        Ev.hostControllerEnabled [(c.val + 1 : Nat)])) ∧
  (∀ (c : CtrlId) (kind : Fin 4) (s : State),
    s.hostUp = true → s.power.phase ≠ .ps3 → ((s.host.ctrls[c]).mode ≠ .disabled ∨ 1 ≤ kind.val) →
    exec (.controllerReset c kind) s = .next (s.resetController c kind)) ∧
  (∀ (c : CtrlId) (s : State), s.hostUp = true → (s.host.ctrls[c]).mode = .ready →
    exec (.normalShutdown c) s = .next (
        let s := s.updCtrl c fun x => { x with mode := .shuttingDown, shst := 1 }
        let s := s.forEach (allFin 8) fun s p => s.formAll p (s.sides[p]).waitingZones
        s.settleShutdown c)) ∧
  (∀ (c : CtrlId) (s : State), s.hostUp = true → (s.host.ctrls[c]).mode ≠ .disabled →
    exec (.abruptShutdown c) s =
      .next (((s.resetController c 0).updCtrl c fun x => { x with shst := 2 }).report Isl.host Ev.hostShutdown [(c.val + 1 : Nat), 1])) ∧
  (∀ (s : State), s.hostUp = true →
    exec (.powerStateEntry) s = .next (
        match s.host.powerEntry with
        | none => s
        | some e =>
          if e.started || s.writesLeft || s.laddersLeft || !s.suspenderGone e then s
          else
            let s := { s with host := { s.host with powerEntry := some { e with started := true, suspendedBy := none }, powerExit := false } }
            let s := s.voidItems
            if e.toState < 2 then s
            else
              let mounted := (allFin 4).filter fun (i : SpindleId) => i.pickups.any fun p => (s.sides[p]).built || (s.pickups[p]).mountResult == .mounted
              let s := { s with host := { s.host with remount := mounted } }
              let s := if e.toState = 2 && !s.verge.doorTripped then
                  s.forEach (allFin 8) fun s p => s.updS p fun x => { x with doorKept := x.built }
                else s
              s.stopMedia)) ∧
  (∀ (s : State), s.hostUp = true →
    exec (.powerStateEntryEnd) s = .next (
        match s.host.powerEntry with
        | none => s
        | some e =>
          if !e.started || (decide (2 ≤ e.toState) && !s.mediaDown) then s
          else
            let old := s.host.powerState
            let s := match e.cmd with
              | some k => s.finishCmd k .success
              | none => s
            let s := { s with host := { s.host with
              powerEntry := none, powerState := if e.toState = 3 then old else e.toState
              lastOperational := if e.toState < 2 then e.toState else s.host.lastOperational } }
            let s := s.report Isl.host Ev.hostPowerState
              [((e.cmd.map fun k => k.ctrl.val + 1).getD 0 : Nat), (old : Int), (e.toState : Int)]
            if e.toState = 3 then s.leaveForPs3
            else if e.toState = 2 then s.enterPs2
            else if old = 2 then s.mountAgain
            else s)) ∧
  (∀ (c : CtrlId) (rate width : Nat) (s : State), (s.running || s.power.phase == .failed) = true →
    exec (.linkUp c rate width) s = .next (
        let old := (s.host.ctrls[c]).link
        let s := s.updCtrl c fun x => { x with link := 2, linkRate := rate, linkWidth := width }
        if old = 2 then s else s.report Isl.host Ev.hostLinkUp [(c.val : Int), (rate : Int), (width : Int)])) ∧
  (∀ (c : CtrlId) (s : State), (s.host.ctrls[c]).link ≠ 0 →
    exec (.linkDown c) s =
      .next ((s.updCtrl c fun x => { x with link := 0, linkRate := 0, linkWidth := 0 }).report Isl.host Ev.hostLinkDown [(c.val : Int)])) ∧
  (∀ (cl : Client) (v : Int) (s : State), s.Takes cl Obj.latencyReset 0 0 v →
    exec (.latencyReset cl v) s = .next (s.wrote cl Obj.latencyReset 0 0 fun s => { s with host := { s.host with latency := [] } }))

/-- CAN and Ethernet commands complete: CAN_FRAME (R380, R379), ISO_TP_TIMEOUT (R380), CAN_BUS_OFF (R379), CAN_BUS_OFF_RECOVERY (R379),
UDP_DATAGRAM (R383, R370), ARP_REQUEST (R382), ICMP_ECHO (R382), NEIGHBOUR_SOLICITATION (R382),
REASSEMBLY_TIMEOUT (R382), COMM_SETTINGS_CHANGE (R381, R383). -/
def Obligations.CarrierCommandsComplete : Prop :=
  (∀ (port : Fin 2) (identifier : Nat) (classical : Bool) (payload : List Byte) (s : State),
    s.canUp port = true → (identifier : Int) = s.commOb Obj.canRequestId port →
    exec (.canFrame port identifier classical payload) s = .next (
        let s := s.clearSent
        if classical then s.bump Obj.canFramesIgnored port 0
        else match leField payload 0 1 / 16 with
        | 0 => s.singleFrame port payload
        | 1 => s.firstFrame port payload
        | 2 => s.consecutiveFrame port payload
        | 3 => s.updCan port fun x => x.flowControl (leField payload 0 1 % 16) (leField payload 1 1)
        | _ => s)) ∧
  (∀ (port : Fin 2) (s : State), s.canUp port = true →
    exec (.isoTpTimeout port) s = .next (
        s.clearSent.updCan port fun x =>
        { x with rx := if s.isoLate x.rxAt then none else x.rx, tx := if s.isoLate x.txAt then none else x.tx }.sendWaiting)) ∧
  (∀ (port : Fin 2) (s : State), s.canUp port = true →
    exec (.canBusOff port) s = .next (
        let s := s.updCan port fun x => { x with state := 3, rx := none, tx := none, toSend := [], sent := [] }
        (s.bump Obj.canBusOffCount port 0).report Isl.core Ev.signpostCanBusOff [((Client.can port).identity : Int), (port.val : Int)])) ∧
  (∀ (port : Fin 2) (s : State), s.running = true → (s.signpost.can[port]).state = 3 →
    exec (.canBusOffRecovery port) s = .next (s.updCan port fun x => { x with state := 1, txErrors := 0, rxErrors := 0 })) ∧
  (∀ (sourceAddress sourcePort destPort : Nat) (v6 checksumZero : Bool) (payload : List Byte) (s : State),
    s.ipUp v6 = true →
    exec (.udpDatagram sourceAddress sourcePort destPort v6 checksumZero payload) s = .next (
        let s := s.clearSent
        if (destPort : Int) != s.commOb Obj.udpPort || (v6 && checksumZero) || decide (payload.length < headerLength)
            || decide (messageMax < payload.length) then
          s.bump Obj.udpDropped 0 0
        else
          let (s, slot) := (s.bump Obj.udpRequests 0 0).udpSlot sourceAddress sourcePort
          s.arriveBytes (.udp slot) payload)) ∧
  (∀ (sourceMac targetAddress : Nat) (s : State),
    s.ipUp false = true → (targetAddress : Int) = s.commOb Obj.ipv4Address →
    exec (.arpRequest sourceMac targetAddress) s =
      .next (s.clearSent.updEth fun x => { x with sent := [.arpReply sourceMac targetAddress s.otp.mac] })) ∧
  (∀ (v6 : Bool) (source target : Nat) (payload : List Byte) (s : State),
    s.ipUp v6 = true → (v6 = true → s.ownV6 target = true) → (v6 = false → (target : Int) = s.commOb Obj.ipv4Address) →
    exec (.icmpEcho v6 source target payload) s =
      .next (s.clearSent.updEth fun x => { x with sent := [.echoReply v6 target source payload] })) ∧
  (∀ (source target : Nat) (s : State), s.ipUp true = true → s.ownV6 target = true →
    exec (.neighbourSolicitation source target) s =
      .next (s.clearSent.updEth fun x => { x with sent := [.advertisement source target s.otp.mac] })) ∧
  (∀ (_slot : Fin 4) (s : State), s.ethUp = true →
    exec (.reassemblyTimeout _slot) s = .next (s.bump Obj.udpDropped 0 0)) ∧
  (∀ (index : Nat) (s : State), s.running = true →
    exec (.commSettingsChange index) s = .next (
        let ready (e : CommPending) : Bool := e.key / 256 == index && s.replyOut e.client
        let l := s.signpost.commPending.filter ready
        let s := { s with signpost := { s.signpost with commPending := s.signpost.commPending.filter fun e => !ready e } }
        let s := s.forEach (allFin 2) fun s port =>
          if l.any (fun e => e.key == Obj.canEnable.key port 0) then s.updCan port fun x => x.settle (s.ob Obj.canEnable port == 1) else s
        s.forEach l fun s e => s.report Isl.core Ev.signpostCommChanged [(e.client.identity : Int), (index : Int)]))

/-- Staging and switchover commands complete: SWITCHOVER_APPLY (R391), SWITCHOVER_DISCARD (R391), SWITCHOVER_CHECK (R391), SWITCHOVER_APPLY_EDGE (R393, R394),
STAGING_IDLE_TIMEOUT (R389). -/
def Obligations.SwitchoverCommandsComplete : Prop :=
  (∀ (cl : Client) (s : State),
    s.coreUp = true → s.carrierMayWrite cl (Obj.switchoverRequest.key 0 0) = true → s.staging.mode ≠ .committed →
    s.staging.mode ≠ .checking → (s.staging.owner.any fun o => o != cl) = false →
    exec (.switchoverApply cl 1) s =
      .next (((s.areaTouched cl).recordWrite cl (Obj.switchoverRequest.key 0 0)).applyRequest cl true)) ∧
  (∀ (cl : Client) (s : State),
    s.coreUp = true → s.carrierMayWrite cl (Obj.switchoverRequest.key 0 0) = true → s.staging.mode ≠ .committed →
    s.staging.mode ≠ .checking → (s.staging.owner.any fun o => o != cl) = false →
    exec (.switchoverDiscard cl 2) s = .next (
        let s := (s.areaTouched cl).recordWrite cl (Obj.switchoverRequest.key 0 0)
        if s.staging.mode == .empty then s.answer none
        else ((s.emptyArea.switchOutcome .discarded none).report Isl.core Ev.switchoverDiscarded [s.ownerIdentity, 0]).placeWaiting.answer none)) ∧
  (∀ (cl : Client) (s : State),
    s.coreUp = true → s.carrierMayWrite cl (Obj.switchoverRequest.key 0 0) = true → s.staging.mode ≠ .committed →
    s.staging.mode ≠ .checking → (s.staging.owner.any fun o => o != cl) = false →
    exec (.switchoverCheck cl 3) s = .next (
        let s := (s.areaTouched cl).recordWrite cl (Obj.switchoverRequest.key 0 0)
        match s.switchCheck s.staging.entries with
        | some f => (s.switchRefused cl f).answer (some Abort.switchoverCheckFailed)
        | none => (s.switchOutcome .checkPassed none).answer none)) ∧
  (∀ (s : State),
    s.running = true → s.staging.mode = .committed → s.staging.edge ≤ s.gridN + 1 →
    exec (.switchoverApplyEdge) s = .next (
        let g := s.staging
        let es := g.entries.filter fun e => !g.resetIslands.contains (keyIsland e.key)
        let olds := es.map fun e => s.keyValue e.key
        let s := { s with staging := { g with entries := es } }.activateRest
        let s := s.forEach (es.zip olds) fun s x =>
          let s := s.putKey x.1.key x.1.value
          s.applyEffect x.1.key x.2 x.1.value
        let plan := g.owner == some (.internal 1)
        let s := if plan then s else s.forEach (allFin 8) fun s p =>
          let s := if es.any (bankEntry p .tracking) then s.resetPlanBase p 0 3 else s
          if es.any (bankEntry p .focus) then s.resetPlanBase p 1 4 else s
        let scope : Int := match localPickup g.entries with | some p => (p.val : Int) | none => 0xFF
        let s := s.setOb Obj.switchoverTick 0 0 g.edge
        let s := (s.setOb Obj.switchoverScope 0 0 scope).bump Obj.switchoverCount 0 0
        let owner := s.ownerIdentity
        let s := (s.switchOutcome .applied none).report Isl.core Ev.switchoverApplied ([owner, scope, (g.edge : Int), (g.staged.length : Nat)]
          ++ ((g.resetIslands.filter fun x => g.entries.any fun e => keyIsland e.key == x).eraseDups.map fun (x : IslandId) => (x.val : Int)))
        let s := s.emptyArea
        let s := s.forEach (allFin 4) fun s i => if (s.spindles[i]).startHeld then s.beginSensing i (s.spindles[i]).reverse else s
        let s := s.internalApplied g.owner es olds scope
        s.placeWaiting.replyApplied g.replyTo)) ∧
  (∀ (s : State),
    s.coreUp = true → s.staging.mode = .staging → s.staging.lastAt + sTicks (s.obN Obj.stagingIdleTimeout) ≤ s.time →
    exec (.stagingIdleTimeout) s =
      .next ((((s.emptyArea).switchOutcome .expired none).report Isl.core Ev.switchoverDiscarded [s.ownerIdentity, 1]).placeWaiting))

/-- Merge, word read, split, scrub, cache and on-ramp commands complete: MERGE_DRAIN (R416), MERGE_DRAIN_TIMEOUT (R416), CORRECTED_READ (R419, R408), UNCORRECTABLE_READ (R436, R427),
RAW_WRITE (R414), ENCODED_WRITE (R414), SPLIT_READ (R414), SCRUB_START (R422, R423), SCRUB_STOP (R423),
SCRUB_DONE (R423), CACHE_DISABLE (R427), CACHE_ENABLE (R427), CACHE_FILL (R429, R425), CLEAN_BY_ADDRESS (R428),
INVALIDATE_BY_ADDRESS (R428), CLEAN_AND_INVALIDATE_BY_ADDRESS (R428), CLEAN_BY_SET_AND_WAY (R428),
INVALIDATE_BY_SET_AND_WAY (R428), CLEAN_AND_INVALIDATE_BY_SET_AND_WAY (R428), ZERO_A_LINE (R428),
ON_RAMP_READ (R433, R430), ON_RAMP_IDLE_TIMEOUT (R434). -/
def Obligations.MemoryCommandsComplete : Prop :=
  (∀ (ddr : Bool) (span : Nat) (s : State), s.memUp = true →
    exec (.mergeDrain ddr span) s = .next (
        match s.mem.merge.find? fun e => e.ddr == ddr && e.span == span with
        | none => s
        | some e =>
          let oldest := decide (mergeDepth ≤ s.mem.merge.length) && s.mem.merge.head? == some e
          if decide (64 ≤ e.bytes.length) || oldest || s.mem.cacheDisabling then s.drain ddr span else s)) ∧
  (∀ (ddr : Bool) (span : Nat) (s : State), s.memUp = true →
    exec (.mergeDrainTimeout ddr span) s = .next (
        match s.mem.merge.find? fun e => e.ddr == ddr && e.span == span with
        | none => s
        | some e => if e.since + (s.obN Obj.mergeDrainTime + 624) / 625 ≤ s.time then s.drain ddr span else s)) ∧
  (∀ (memory place : Nat) (syndrome : BitVec 8) (scrub : Bool) (s : State),
    placeExists memory place = true → s.memUp = true → (classify syndrome).corrected = true →
    (memory = 0 → inWindow (place / 8) = false) →
    exec (.correctedRead memory place syndrome scrub) s = .next (
        let s := (s.bump Obj.correctedWords 0 0).report Isl.mem Ev.memCorrected [codedAddress memory place, (syndrome.toNat : Int)]
        let s := if scrub && memory == 0 then s.scrubHit (place / 8 * 8) syndrome else s
        match memory with
        | 0 => s.trackWord false (place / 8)
        | 8 => s.trackWord true (place / 8)
        | 3 => s.bump Obj.onRampCorrected (place / 256) 0
        | _ => s)) ∧
  (∀ (memory place : Nat) (syndrome : BitVec 8) (scrub : Bool) (holds : WordHolds) (s : State),
    placeExists memory place = true → s.memUp = true → (classify syndrome).lost = true →
    (memory = 0 → inWindow (place / 8) = false) →
    exec (.uncorrectableRead memory place syndrome scrub holds) s = .next (
        let s := ((s.bump Obj.uncorrectableWords 0 0).setOb Obj.lastUncorrectableAddress 0 0 (codedAddress memory place)).setOb Obj.lastUncorrectableSyndrome 0 0 syndrome.toNat
        let s := if scrub && memory == 0 then s.scrubHit (place / 8 * 8) syndrome else s
        match ownerOf memory place holds with
        | .cache =>
          (s.bump Obj.cacheLineRepairs 0 0).updMem fun m =>
            if memory = 1 then { m with cache := m.cache.filter fun e => e.2 != place / 64 }
            else { m with layby := m.layby.filter fun l => l != place / 64 }
        | o => (s.report Isl.mem Ev.memUncorrectable [codedAddress memory place, (syndrome.toNat : Int), o.code]).ownerActs memory place holds)) ∧
  (∀ (cl : Client) (s : State), s.Takes cl Obj.splitCommand 0 0 1 → s.splitBusy = false →
    exec (.rawWrite cl 1) s = .next (
        s.wrote cl Obj.splitCommand 0 0 fun s =>
        s.updMem fun m => m.store false s.splitWord
          { data := BitVec.ofNat 64 (s.obN Obj.splitData), check := BitVec.ofNat 8 (s.obN Obj.splitCheck) })) ∧
  (∀ (cl : Client) (s : State), s.Takes cl Obj.splitCommand 0 0 2 → s.splitBusy = false →
    exec (.encodedWrite cl 2) s = .next (
        s.wrote cl Obj.splitCommand 0 0 fun s =>
        s.updMem fun m => m.store false s.splitWord (encodeWord false s.splitWord (BitVec.ofNat 64 (s.obN Obj.splitData))))) ∧
  (∀ (cl : Client) (s : State), s.Takes cl Obj.splitCommand 0 0 3 → s.splitBusy = false →
    exec (.splitRead cl 3) s = .next (
        s.wrote cl Obj.splitCommand 0 0 fun s =>
        let c := s.mem.cell false s.splitWord
        let f := foldOf false s.splitWord
        (((s.setOb Obj.splitReadData 0 0 (c.corrected f).toNat).setOb Obj.splitReadCheck 0 0 c.check.toNat).setOb
          Obj.splitSyndrome 0 0 (c.syndrome f).toNat).setOb Obj.splitClass 0 0 (classify (c.syndrome f)).code)) ∧
  (∀ (cl : Client) (s : State),
    s.Takes cl Obj.scrubCommand 0 0 1 → (decide (0xFFFC00 < s.scrubEnd)) = false → s.mem.scrub.isSome = false →
    exec (.scrubStart cl 1) s = .next (
        s.wrote cl Obj.scrubCommand 0 0 fun s =>
        s.updMem fun m => { m with
          scrubPasses := m.scrubPasses + 1
          scrub := some { start := s.obN Obj.scrubStart, next := s.obN Obj.scrubStart, stop := s.scrubEnd, wordsRead := 0, corrected := 0
                          uncorrectable := 0, firstFail := none, stopping := false } })) ∧
  (∀ (cl : Client) (s : State), s.Takes cl Obj.scrubCommand 0 0 2 →
    exec (.scrubStop cl 2) s = .next (
        s.wrote cl Obj.scrubCommand 0 0 fun s =>
        s.updMem fun m => { m with scrub := m.scrub.map fun x => { x with stopping := true } })) ∧
  (∀ (wordsRead : Nat) (s : State), s.memUp = true →
    exec (.scrubDone wordsRead) s = .next (
        match s.mem.scrub with
        | none => s
        | some x => if x.stopping then s.endScrub x (min wordsRead ((x.stop - x.start) / 8)) 1 else s.endScrub x ((x.stop - x.start) / 8) 0)) ∧
  (∀ (cl : Client) (s : State), s.Takes cl Obj.cacheEnable 0 0 0 →
    exec (.cacheDisable cl 0) s = .next (
        s.wrote cl Obj.cacheEnable 0 0 fun s =>
        let s := s.setOb Obj.cacheEnable 0 0 0
        if s.mem.cacheOn then (s.updMem fun m => { m with cacheDisabling := true }).endDisable else s)) ∧
  (∀ (cl : Client) (s : State),
    s.Takes cl Obj.cacheEnable 0 0 1 → s.mem.cacheDisabling = false →
    exec (.cacheEnable cl 1) s = .next (
        s.wrote cl Obj.cacheEnable 0 0 fun s =>
        let s := s.setOb Obj.cacheEnable 0 0 1
        if s.mem.cacheOn then s else s.updMem fun m => { m with cacheOn := true, cache := [], layby := [] })) ∧
  (∀ (requester : Fin 4) (line : Nat) (s : State),
    s.memUp = true → s.mem.cacheOn = true → s.mem.cacheDisabling = false → ddrExists (64 * line) = true →
    exec (.cacheFill requester line) s = .next (
        if s.mem.holdsLine line then s.bump Obj.cacheHits 0 requester
        else
          let s := s.bump Obj.cacheMisses 0 requester
          let s := if s.mem.layby.contains line then s.bump Obj.layByHits 0 requester else s
          match s.wayFor requester line with
          | none => s
          | some way => (s.allocate requester line way).runWaiting line way)) ∧
  (∀ (cl : Client) (fillInFlight : Bool) (s : State),
    s.Takes cl Obj.maintenanceCommand 0 0 1 → s.mem.cacheDisabling = false → (fillInFlight && s.mem.cacheOn) = false →
    exec (.cleanByAddress cl 1 fillInFlight) s =
      .next (s.wrote cl Obj.maintenanceCommand 0 0 fun u => u.maintain 1 (u.obN Obj.maintenanceAddress))) ∧
  (∀ (cl : Client) (fillInFlight : Bool) (s : State),
    s.Takes cl Obj.maintenanceCommand 0 0 2 → s.mem.cacheDisabling = false → (fillInFlight && s.mem.cacheOn) = false →
    exec (.invalidateByAddress cl 2 fillInFlight) s =
      .next (s.wrote cl Obj.maintenanceCommand 0 0 fun u => u.maintain 2 (u.obN Obj.maintenanceAddress))) ∧
  (∀ (cl : Client) (fillInFlight : Bool) (s : State),
    s.Takes cl Obj.maintenanceCommand 0 0 3 → s.mem.cacheDisabling = false → (fillInFlight && s.mem.cacheOn) = false →
    exec (.cleanAndInvalidateByAddress cl 3 fillInFlight) s =
      .next (s.wrote cl Obj.maintenanceCommand 0 0 fun u => u.maintain 3 (u.obN Obj.maintenanceAddress))) ∧
  (∀ (cl : Client) (fillInFlight : Bool) (s : State),
    s.Takes cl Obj.maintenanceCommand 0 0 4 → s.mem.cacheDisabling = false → (fillInFlight && s.mem.cacheOn) = false →
    exec (.cleanBySetAndWay cl 4 fillInFlight) s =
      .next (s.wrote cl Obj.maintenanceCommand 0 0 fun u => u.maintain 4 (u.obN Obj.maintenanceAddress))) ∧
  (∀ (cl : Client) (fillInFlight : Bool) (s : State),
    s.Takes cl Obj.maintenanceCommand 0 0 5 → s.mem.cacheDisabling = false → (fillInFlight && s.mem.cacheOn) = false →
    exec (.invalidateBySetAndWay cl 5 fillInFlight) s =
      .next (s.wrote cl Obj.maintenanceCommand 0 0 fun u => u.maintain 5 (u.obN Obj.maintenanceAddress))) ∧
  (∀ (cl : Client) (fillInFlight : Bool) (s : State),
    s.Takes cl Obj.maintenanceCommand 0 0 6 → s.mem.cacheDisabling = false → (fillInFlight && s.mem.cacheOn) = false →
    exec (.cleanAndInvalidateBySetAndWay cl 6 fillInFlight) s =
      .next (s.wrote cl Obj.maintenanceCommand 0 0 fun u => u.maintain 6 (u.obN Obj.maintenanceAddress))) ∧
  (∀ (cl : Client) (fillInFlight : Bool) (s : State),
    s.Takes cl Obj.maintenanceCommand 0 0 7 → s.mem.cacheDisabling = false → (fillInFlight && s.mem.cacheOn) = false →
    exec (.zeroALine cl 7 fillInFlight) s = .next (
        s.wrote cl Obj.maintenanceCommand 0 0 fun u =>
        if inWriteBuffers (u.obN Obj.maintenanceAddress) then u.maintain 7 (u.obN Obj.maintenanceAddress) else u.bump Obj.zeroLineRefused 0 0)) ∧
  (∀ (k : RampId) (s : State), s.memUp = true →
    exec (.onRampRead k) s = .next (s.rampRead k)) ∧
  (∀ (k : RampId) (s : State),
    s.memUp = true → (s.ramps[k]).timer = true → (s.ramps[k]).timerFrom + usTicks (s.obN Obj.onRampIdleTimeout k) ≤ s.time →
    exec (.onRampIdleTimeout k) s =
      .next ((s.updRamp k fun r => { (if r.maySwap then r.swap else r) with attention := true, timerFrom := s.time }).bump Obj.idleTimeoutsFired k 0))

/-- Calibration, ledger and margin plan commands complete: DIE_TEMPERATURE_SAMPLE (R441, R530), CAL_REQUEST (R442), CAL_ITEM_START (R444), CAL_STEP (R445),
CAL_RUN_END (R446, R443), CAL_RETRY (R446), CAL_DEFERRED (R445), OPERATING_HOUR (R457, R442), LEDGER_POINT (R454),
MARGIN_PLAN (R459, R460), MARGIN_PLAN_REQUEST (R459), PLAN_SET_RELEASE (R460). -/
def Obligations.CalibrationAndPlanCommandsComplete : Prop :=
  (∀ (centi : Int) (s : State), s.running = true →
    exec (.dieTemperatureSample centi) s = .next (
        let t := clampInt (-32768) 32767 centi
        let weight := clampInt 0 (2 ^ 30) (Config.real Tag.calFilter [((s.time - s.cal.sampledAt : Nat) : Int)])
        let f := s.cal.filtered + rnd ((t * 2 ^ 20 - s.cal.filtered) * weight) (2 ^ 30)
        let s := { s with cal := { s.cal with filtered := f, sampledAt := s.time } }
        let s := s.setOb Obj.dieTemperature 0 0 t
        (s.setOb Obj.calTemperature 0 0 (clampInt (-32768) 32767 (rnd f (2 ^ 20)))).dueByTemperature)) ∧
  (∀ (cl : Client) (v : Int) (s : State),
    s.Takes cl Obj.calRequest 0 0 v →
    (allFin 92).any (fun ix => s.itemOn ix && decide ((ixItem ix).1 = (v % 256).toNat) && ((v / 256).toNat == 0xFF || decide ((ixItem ix).2 = (v / 256).toNat))) = true →
    exec (.calRequest cl v) s = .next (
        s.wrote cl Obj.calRequest 0 0 fun u => u.forEach ((allFin 92).filter fun ix =>
        s.itemOn ix && decide ((ixItem ix).1 = (v % 256).toNat) && ((v / 256).toNat == 0xFF || decide ((ixItem ix).2 = (v / 256).toNat))) State.makeDue)) ∧
  (∀ (item : Fin 12) (inst : Fin 8) (ix : Fin 92) (s : State),
    itemIx item inst = some ix → s.coreUp = true → s.itemOn ix = true → s.ob Obj.calEnable = 1 → s.host.activation = none →
    s.calBusy ix = false → ((s.cal.items[ix]).state = .due ∨ (s.cal.items[ix]).state = .neverRun) →
    (s.cal.items[ix]).retryWaits = false →
    exec (.calItemStart item inst) s = .next (
        let begin_ (s : State) (back : Option Target) : State := s.updItem ix fun x => { x with
          state := .running, results := [], voids := 0, steps := 0, startTemperature := s.ob Obj.calTemperature, returnTarget := back
          disturbance := s.disturbance item.val inst.val, dueSince := if x.state = .due then x.dueSince else s.time }
        if item.val = 11 then
          if h : inst.val < 4 then (if s.spindleFree ⟨inst.val, h⟩ then begin_ s none else s) else s
        else if !s.pickupFree inst || (item.val == 9 && !s.pcaLeft inst) then s
        else if needsWritten item.val then
          match s.writtenLane inst with
          | none => s
          | some lane =>
            let k := s.pickups[inst]
            if k.lane = some lane then begin_ s none
            else (begin_ s (some { layer := k.layer.getD 0, lane := k.lane.getD 0 })).startSeek inst
              { layer := k.layer.getD 0, lane := lane }
        else begin_ s none)) ∧
  (∀ (item : Fin 12) (inst : Fin 8) (ix : Fin 92) (s : State),
    itemIx item inst = some ix → s.coreUp = true → s.cal.items[ix].state = .running →
    (item.val == 11 || s.pickupFree inst) = true →
    ((s.cal.items[ix].deferredRecorded || (itemPickups item.val inst.val).all s.quiet)) = true →
    exec (.calStep item inst) s = .next (
        let x := s.cal.items[ix]
        s.updItem ix fun x => { x with steps := x.steps + 1 })) ∧
  (∀ (item : Fin 12) (inst : Fin 8) (raw : CalRaw) (ix : Fin 92) (results : List Int) (s : State),
    itemIx item inst = some ix → s.runResults inst raw = some results → s.coreUp = true → s.cal.items[ix].state = .running →
    0 < s.cal.items[ix].steps →
    exec (.calRunEnd item inst raw) s = .next (
        let x := s.cal.items[ix]
        let now := s.disturbance item.val inst.val
        let s := s.updItem ix fun x => { x with steps := 0, disturbance := now }
        let tol := s.ob Obj.calTolerance 0 (item.val - 1)
        if now ≠ x.disturbance then
          if 2 ≤ x.voids then (s.itemFails ix).seekBack ix inst else s.updItem ix fun x => { x with voids := x.voids + 1 }
        else if item.val = 9 && !s.pcaLeft inst then (s.updItem ix fun x => { x with state := .due, results := [], voids := 0 }).seekBack ix inst
        else
          let s := s.runLeaves inst raw
          match x.results with
          | [] => s.updItem ix fun x => { x with results := [results], voids := 0 }
          | [a] =>
            if agree item.val tol a results then (s.itemAgrees ix (meanOf a results)).seekBack ix inst
            else ((s.updItem ix fun x => { x with results := [a, results], voids := 0 }).bump Obj.calDisagreements 0 0).report Isl.core
              Ev.calDisagree ([(item.val : Int), (inst.val : Int)] ++ a ++ results)
          | a :: b :: _ =>
            if agree item.val tol a results then (s.itemAgrees ix (meanOf a results)).seekBack ix inst
            else if agree item.val tol b results then (s.itemAgrees ix (meanOf b results)).seekBack ix inst
            else (s.itemFails ix).seekBack ix inst)) ∧
  (∀ (item : Fin 12) (inst : Fin 8) (ix : Fin 92) (s : State),
    itemIx item inst = some ix → s.coreUp = true → (s.cal.items[ix]).failedAt + sTicks (s.obN Obj.calRetryDelay) ≤ s.time →
    exec (.calRetry item inst) s = .next (s.updItem ix fun x => { x with retryWaits := false })) ∧
  (∀ (item : Fin 12) (inst : Fin 8) (ix : Fin 92) (s : State),
    itemIx item inst = some ix → s.coreUp = true → s.itemOn ix = true →
    ((s.cal.items[ix].state == .due || s.cal.items[ix].state == .running)) = true → s.cal.items[ix].deferredRecorded = false →
    s.cal.items[ix].dueSince + sTicks (s.obN Obj.calMaxDefer) < s.time →
    exec (.calDeferred item inst) s = .next (
        let x := s.cal.items[ix]
        (s.updItem ix fun x => { x with deferredRecorded := true }).report Isl.core Ev.calDeferred [(item.val : Int), (inst.val : Int)])) ∧
  (∀ (s : State), s.running = true → s.host.powerState < 2 →
    exec (.operatingHour) s = .next (
        let s := s.setOb Obj.operatingHours 0 0 (min (2 ^ 32 - 1) (s.ob Obj.operatingHours + 1))
        let most := s.obN Obj.calMaxInterval
        s.forEach (allFin 92) fun s ix =>
          let x := s.cal.items[ix]
          if most ≠ 0 ∧ x.state = .valid ∧ x.agreedAtHours + most ≤ s.obN Obj.operatingHours then s.makeDue ix else s)) ∧
  (∀ (code instance_ : Nat) (currents : Nat × Nat) (s : State), s.coreUp = true → instance_ < s.ledgerInstances code →
    exec (.ledgerPoint code instance_ currents) s = .next (
        let hours := s.obN Obj.operatingHours
        let temp := s.ob Obj.calTemperature
        let interval := s.obN Obj.ledgerInterval
        match s.quantity code instance_ currents with
        | none => s
        | some v =>
          let record (s : State) (v : Option Int) : State :=
            ({ s with cal := { s.cal with planDue := true } }).report Isl.core Ev.agePoint [(code : Int), (instance_ : Int), v.getD (-(2 ^ 31))]
          match s.entryOf code instance_ with
          | none =>
            if 256 ≤ s.cal.ledger.length then s
            else
              let e : LedgerEntry := { code := code, inst := instance_, decimation := 0, reference := v, referenceTemp := temp, firstHours := hours
                                       points := [some v], dueAt := hours + interval }
              record { s with cal := { s.cal with ledger := s.cal.ledger ++ [e] } } (some v)
          | some e =>
            if hours < e.dueAt then s
            else
              let v := if ((temp - e.referenceTemp).natAbs : Int) ≤ s.ob Obj.ledgerTempWindow * 100 then some v else none
              record { s with cal := { s.cal with ledger := s.cal.ledger.map fun x =>
                if x.code = code ∧ x.inst = instance_ then x.addPoint v interval else x } } v)) ∧
  (∀ (s : State),
    s.coreUp = true → s.cal.planDue = true → s.host.powerState < 2 → s.host.activation.isNone = true → s.planRuns = false →
    exec (.marginPlan) s = .next (
        let s := { s with cal := { s.cal with planDue := false } }.estimate
        let mode := s.obN Obj.marginPlanMode
        let ps := (allFin 8).filter fun (p : PickupId) => (s.sides[p]).built
        let sets := ps.map fun p => (p, s.planPickup p)
        let global := s.planGlobal
        if mode = 0 then s
        else if mode = 1 then
          let all := (sets.flatMap fun x => x.2) ++ global
          ({ s with cal := { s.cal with proposal := (all.filter fun (e : Staged) => !e.carried).map fun (e : Staged) => (e.key, e.value) } }).report Isl.core
            Ev.planProposed []
        else
          let s := s.forEach ps State.planDueOpc
          (s.forEach sets fun s x => s.placePlan x.1 x.2).placeInternal 1 global)) ∧
  (∀ (cl : Client) (v : Int) (s : State), s.Takes cl Obj.marginPlanRequest 0 0 v →
    exec (.marginPlanRequest cl v) s =
      .next (s.wrote cl Obj.marginPlanRequest 0 0 fun s => { s with cal := { s.cal with planDue := true } })) ∧
  (∀ (p : PickupId) (s : State),
    s.coreUp = true → (s.pickups[p]).engine ≠ .acquiring → (s.pickups[p]).engine ≠ .defectHold →
    exec (.planSetRelease p) s = .next (
        match s.cal.heldSets.find? fun x => x.1 == p with
        | none => s
        | some (_, es) =>
          ({ s with cal := { s.cal with heldSets := s.cal.heldSets.filter fun x => x.1 != p } }).placeInternal 1 es))

/-- Event recorder commands complete: EVENT_REPORT (R473), REPORT_QUEUE_OVERFLOW (R471, R472), SUMMARY_CLOSE (R474), TICK_MARK (R478),
PAGE_PROGRAM (R479, R485), PAGE_PROGRAM_DONE (R483), FLUSH_REQUEST (R479), FLUSH_DONE (R486, R498),
RUNNING_AREA_CLEAR (R487, R498), EVENT_STORE_INIT (R488). -/
def Obligations.RecorderCommandsComplete : Prop :=
  (∀ (island : IslandId) (s : State), s.recUp = true →
    exec (.eventReport island) s = .next (
        match (s.recorder.queues[island]).reports with
        | [] => s
        | r :: rest => (s.updR fun x => { x with queues := upd x.queues island fun q => { q with reports := rest } }).judgeReport island r)) ∧
  (∀ (island : IslandId) (s : State),
    s.recUp = true → 0 < s.recorder.queues[island].overflow → s.recorder.queues[island].reports.length < reportQueueDepth →
    exec (.reportQueueOverflow island) s = .next (
        let q := s.recorder.queues[island]
        let s := s.ownRecord island q.reservedNumber Ev.recQueueOverflow false true [(q.overflow : Int)]
        let n := s.recorder.nextSeq
        (s.takeSeq 1).updR fun x => { x with queues := upd x.queues island fun q => { q with overflow := 0, reservedNumber := n } })) ∧
  (∀ (code : Nat) (s : State), s.recUp = true →
    exec (.summaryClose code) s = .next (s.closeSummary code)) ∧
  (∀ (s : State),
    s.recUp = true → s.recorder.tickMarkAt + sTicks (s.obN Obj.tickMarkInterval) ≤ s.time →
    exec (.tickMark) s =
      .next ((s.updR fun r => { r with tickMarkAt := s.time }).ownNext Ev.recTickMark [(s.tick : Int), s.timeOfDay])) ∧
  (∀ (s : State),
    s.recUp = true → s.recorder.page = [] → s.recorder.storeForeign = false →
    exec (.pageProgram) s = .next (
        match s.recorder.nextPage with
        | none => s
        | some (l, last) =>
          let r := s.recorder
          let left := if last then r.backlog.length - l.length else 0
          let held : List Record := if last then (match r.flush with
            | some f => [{ seq := f.number, code := Ev.recFlush, source := Isl.mem.val, continued := false, summary := false, frozen := false,
                           payload := [f.cause.code, (f.dropped + left : Nat)] }]
            | none => []) else []
          let cost := if r.backlog.any (fun e => e.toOrigin) then 2 else 1
          s.updR fun r => { r with
            page := l ++ held
            backlog := (if last then r.backlog.take l.length else r.backlog).mapIdx fun i e => { e with inPage := decide (i < l.length) || e.inPage }
            buffer := match held with
              | h :: _ => r.buffer.map fun x => if x.seq = h.seq then h else x
              | [] => r.buffer
            flush := r.flush.map fun f => { f with
              written := f.written || last, dropped := f.dropped + left, pagesLeft := f.pagesLeft.map fun n => n - cost } })) ∧
  (∀ (failed : Bool) (s : State), s.recUp = true →
    exec (.pageProgramDone failed) s = .next (
        let r := s.recorder
        let slot := r.usable 258 r.writeSlot
        if r.page = [] then s.eraseDone failed
        else if failed then
          (s.updR fun r => { r with
            page := [], badSectors := r.badSectors ++ [slot / 128], writeSlot := (slot / 128 + 1) * 128 % runningSlots
            runningArea := lastN (32768 - 128 * (r.badSectors.length + 1)) r.runningArea
            flush := r.flush.map fun f => { f with written := f.written && !r.page.any fun x => x.code == Ev.recFlush }
            backlog := r.backlog.map fun e => { e with inPage := false } }).ownNext Ev.recNorFault [(34 + slot / 128 : Nat)]
        else
          let s := s.updR fun r => { r with
            page := [], writeSlot := (slot + 8) % runningSlots
            runningArea := lastN (32768 - 128 * r.badSectors.length) (r.runningArea ++ r.page)
            origin := (r.origin ++ (r.page.filter fun x =>
              x.code == Ev.recFlush || r.backlog.any fun e => e.inPage && e.toOrigin && e.record.seq == x.seq)).take originSize
            backlog := r.backlog.filter fun e => !e.inPage }
          s.closeGap.checkOrigin)) ∧
  (∀ (cl : Client) (v : Int) (s : State), s.Takes cl Obj.flushRequest 0 0 v →
    exec (.flushRequest cl v) s = .next (s.wrote cl Obj.flushRequest 0 0 fun s => s.startFlush .request)) ∧
  (∀ (s : State), s.recUp = true → s.recorder.page = [] →
    exec (.flushDone) s = .next (
        match s.recorder.flush with
        | none => s
        | some f =>
          if !f.written then s
          else
            let s := (s.updR fun r => { r with
              flush := none, eraseSuspended := false
              norState := if r.norState = .flushing then .ready else r.norState }).maxOb Obj.flushTimeMax 0 0 ((s.time - f.startedAt) * 5 / 8)
            let s := match s.recorder.clearWaits with
              | some (v, client) => s.runClear v client
              | none => s
            match f.cause with
            | .powerState => s.enterPs3
            | .reset => s.systemReset (s.obN Obj.lastResetCause)
            | _ => s)) ∧
  (∀ (cl : Client) (v : Int) (authorised : Option Bool) (s : State),
    s.Takes cl Obj.runningAreaClear 0 0 v →
    (s.authorise cl (Obj.runningAreaClear.key 0 0) (leBytes Obj.runningAreaClear.type.size v) authorised).2 = none →
    s.recorder.storeForeign = false → (s.recorder.runningArea == []) = false →
    ((s.recorder.lowest : Int) ≤ v ∧ v ≤ (s.recorder.runningArea.map fun x => (x.seq : Int)).max?.getD 0) →
    s.recorder.clearing = none → s.recorder.clearWaits = none →
    exec (.runningAreaClear cl v authorised) s = .next (
        (s.authorise cl (Obj.runningAreaClear.key 0 0) (leBytes Obj.runningAreaClear.type.size v) authorised).1.wrote cl Obj.runningAreaClear 0 0 fun s =>
        let s := s.setOb Obj.runningAreaClear 0 0 v
        if s.recorder.flush.isSome then s.updR fun r => { r with clearWaits := some (v.toNat, cl.identity) } else s.runClear v.toNat cl.identity)) ∧
  (∀ (cl : Client) (v : Int) (authorised : Option Bool) (s : State),
    s.Takes cl Obj.eventStoreInit 0 0 v →
    (s.authorise cl (Obj.eventStoreInit.key 0 0) (leBytes Obj.eventStoreInit.type.size v) authorised).2 = none →
    (!s.recorder.storeForeign) = false →
    exec (.eventStoreInit cl v authorised) s = .next (
        (s.authorise cl (Obj.eventStoreInit.key 0 0) (leBytes Obj.eventStoreInit.type.size v) authorised).1.wrote cl Obj.eventStoreInit 0 0 fun s =>
        (s.setOb Obj.eventStoreInit 0 0 v |>.updR fun r => { r with
          storeForeign := false, origin := [], runningArea := [], writeSlot := 0, badSectors := [], norState := .ready
          originFullRecorded := false }).firstHeader))

/-- Milestone and trace commands complete: MILESTONE_REQUEST (R489), MILESTONE_BALL_EDGE (R489), MILESTONE (R490, R489), MILESTONE_LATCH (R490, R491),
MILESTONE_RELEASE (R492), TRACE_ARM (R497), TRACE_STOP (R497), TRACE_COMPLETE (R497). -/
def Obligations.MilestoneAndTraceCommandsComplete : Prop :=
  (∀ (cl : Client) (v : Int) (s : State), s.Takes cl Obj.milestoneRequest 0 0 v →
    exec (.milestoneRequest cl v) s = .next (s.wrote cl Obj.milestoneRequest 0 0 fun s => s.trigger 0 0)) ∧
  (∀ (s : State), s.svUp 0 = true →
    exec (.milestoneBallEdge) s = .next (
        if s.milestone.ballDriven && decide (s.milestone.t0N = s.gridN) then { s with milestone := { s.milestone with ballDriven := false } }
        else s.trigger 2 0)) ∧
  (∀ (cycle : Nat) (s : State), s.svUp 0 = true → s.milestone.pendingSources ≠ 0 →
    exec (.milestone cycle) s = .next (
        let m := s.milestone
        let taken := m.state == .idle
        let s := { s with milestone := { m with pendingSources := 0, pendingDetail := 0 } }
        let n := s.recorder.nextSeq
        let s := if taken then s.freeze.stopRings else s.bump Obj.milestonesMissed 0 0
        let s := if (s.memUp && s.recorder.running) then
            s.ownNext Ev.recMilestone [(m.pendingSources.toNat : Int), (m.pendingDetail : Int), bit taken] else s
        if taken then
          { s with milestone := { s.milestone with
              state := .capturing, seq := n, sources := m.pendingSources, detail := m.pendingDetail, t0N := s.gridN, t0Cycle := cycle % 625
              tick := s.tick, blocks := .replicate 48 {}, ballDriven := s.obN Obj.milestoneBallOut == 1 } }
        else s)) ∧
  (∀ (island : IslandId) (latencyNs : Nat) (s : State),
    s.milestone.state = .capturing → s.islandUp island = true → (s.milestone.blocks[island]).valid = false →
    exec (.milestoneLatch island latencyNs) s = .next (
        let measured := decide (44 ≤ island.val)
        let at_ := s.milestone.t0Cycle + latencyNs
        let b : CaptureBlock := {
          valid := true, measured := measured, uncertainty := if measured then s.milestone.uncertainty.getD (island.val - 44) 0 else 0
          latencyNs := latencyNs, latchN := s.milestone.t0N + at_ / 625, latchCycle := at_ % 625, words := s.latchWords island }
        let s := { s with freeCount := s.freeCount + 4 }
        let s := { s with milestone := { s.milestone with blocks := upd s.milestone.blocks island fun _ => b } }
        if (allFin 48).all fun i => !s.islandUp i || (s.milestone.blocks[i]).valid then
          { s with milestone := { s.milestone with state := .held } }
        else s)) ∧
  (∀ (cl : Client) (v : Int) (s : State), s.Takes cl Obj.milestoneRelease 0 0 v →
    exec (.milestoneRelease cl v) s = .next (
        s.wrote cl Obj.milestoneRelease 0 0 fun s =>
        if s.milestone.state == .held then { s with milestone := { s.milestone with state := .idle } } else s)) ∧
  (∀ (cl : Client) (ch : Fin 8) (s : State), s.Takes cl Obj.traceCommand ch 0 1 →
    exec (.traceArm cl ch 1) s = .next (
        s.wrote cl Obj.traceCommand ch 0 fun s =>
        { s with traces := upd s.traces ch fun _ => { state := .armed } })) ∧
  (∀ (cl : Client) (ch : Fin 8) (s : State), s.Takes cl Obj.traceCommand ch 0 2 →
    exec (.traceStop cl ch 2) s = .next (
        s.wrote cl Obj.traceCommand ch 0 fun s =>
        { s with traces := upd s.traces ch fun t => { t with state := if t.state = .armed then .stopped else t.state } })) ∧
  (∀ (ch : Fin 8) (s : State),
    s.traces[ch].state = .armed →
    ((((s.obN Obj.traceMode ch) == 1 && decide (traceDepth ≤ s.traces[ch].samples.length)) || ((s.obN Obj.traceMode ch) == 2 && s.traces[ch].postLeft == some 0))) = true →
    exec (.traceComplete ch) s = .next (
        let t := s.traces[ch]
        { s with traces := upd s.traces ch fun t => { t with state := .stopped } }))

/-- Start-up, reset, clock, supply, comparator and wake commands complete: STARTUP (R517, R518), VERGE_POWER_ON (R509, R508), SYSTEM_RESET (R520), WATCHDOG (R521), CORE_RESET (R521),
ISLAND_RESET_REQUEST (R522), QUIET_PLL_UNLOCK (R505), QUIET_PLL_RELOCK (R505), SYSTEM_PLL_UNLOCK (R505),
SUPPLY_FAIL (R512, R283), SHOCK_TRIP (R512), CARTRIDGE_DOOR_TRIP (R512), OVER_TEMPERATURE_TRIP (R512),
COMPARATOR_CLEAR (R511), WAKE (R513), VDDV_LOSS (R509), SUPPLY_REMOVED (R515, R519). -/
def Obligations.StartResetAndSupplyCommandsComplete : Prop :=
  (∀ (failure : Fin 5) (failingRows : List (Nat × Nat)) (roundTrips : List Nat) (s : State),
    s.verge.powered = true → ((s.power.phase == .held || s.power.phase == .unpowered)) = true →
    exec (.startup failure failingRows roundTrips) s = .next (
        let cause := s.obN Obj.lastResetCause
        let s := s.startGrid cause
        if failure = 1 then s.failStartup 1
        else
          let s := s.testArrays failingRows
          if failure = 2 ∨ failBanks failingRows ≠ 0 then (s.setOb Obj.selfTestResult 0 0 1).failStartup 2
          else
            let s := s.startReports cause failingRows
            if failure = 3 then s.failStartup 3 else s.bootImage roundTrips)) ∧
  (∀ (s : State), s.verge.powered = false →
    exec (.vergePowerOn) s = .next (
        let s := { s with objs := [] }.loseIslands 0
        { s with verge := { powered := true, since := s.time, powerLost := true, pwrEn := true } })) ∧
  (∀ (s : State), (s.running || s.power.phase == .failed) = true →
    exec (.systemReset) s = .next (s.startReset 3)) ∧
  (∀ (s : State), s.coreUp = true →
    exec (.watchdog) s = .next ((s.report Isl.core Ev.pwrWatchdog []).coreStop)) ∧
  (∀ (s : State),
    s.running = true → s.power.coreDown = true → (s.host.activation.any fun a => a.loaded) = false →
    exec (.coreReset) s = .next (
        let recent := (s.power.coreResets.filter fun t => decide (s.time ≤ t + sTicks 60)) ++ [s.time]
        if 3 ≤ recent.length then s.startReset 4
        else
          let s := s.coreStop.bump Obj.resetCount 0 ResetKind.core.code
          { s with power := { s.power with coreResets := recent, coreDown := false } })) ∧
  (∀ (cl : Client) (v : Int) (authorised : Option Bool) (s : State),
    s.Takes cl Obj.islandResetRequest 0 0 v →
    (s.authorise cl (Obj.islandResetRequest.key 0 0) (leBytes Obj.islandResetRequest.type.size v) authorised).2 = none →
    (!s.resettable v) = false →
    exec (.islandResetRequest cl v authorised) s = .next (
        (s.authorise cl (Obj.islandResetRequest.key 0 0) (leBytes Obj.islandResetRequest.type.size v) authorised).1.wrote cl Obj.islandResetRequest 0 0 fun s =>
        if h : v.toNat < 48 then s.islandReset ⟨v.toNat, h⟩ cl.identity else s)) ∧
  (∀ (s : State), s.running = true → s.power.quietLocked = true →
    exec (.quietPllUnlock) s = .next (
        let s := { s with power := { s.power with quietLocked := false }, host := { s.host with remount := [], powerExit := false } }
        ((s.bump Obj.quietUnlockCount 0 0).report (Isl.sv 0) Ev.clkQuietUnlock []).stopMedia)) ∧
  (∀ (s : State), s.running = true → s.power.quietLocked = false →
    exec (.quietPllRelock) s =
      .next (({ s with power := { s.power with quietLocked := true } }).report (Isl.sv 0) Ev.clkQuietRelock [])) ∧
  (∀ (s : State), s.running = true → s.power.systemLocked = true →
    exec (.systemPllUnlock) s =
      .next (({ s with power := { s.power with systemLocked := false } }).report Isl.host Ev.clkSystemUnlock [])) ∧
  (∀ (level heldUs : Nat) (s : State),
    s.verge.powered = true → (s.verge.comps[(0 : Fin 4)]).tripped = false → s.exceeds 0 level = true →
    s.obN Obj.compFilter 0 ≤ heldUs →
    exec (.supplyFail level heldUs) s = .next (s.trip 0 (fun s => s) State.powerFails)) ∧
  (∀ (level heldUs : Nat) (s : State),
    s.verge.powered = true → (s.verge.comps[(1 : Fin 4)]).tripped = false → s.exceeds 1 level = true →
    s.obN Obj.compFilter 1 ≤ heldUs →
    exec (.shockTrip level heldUs) s = .next (s.trip 1 (fun s => s) fun s => s)) ∧
  (∀ (level heldUs : Nat) (s : State),
    s.verge.powered = true → (s.verge.comps[(2 : Fin 4)]).tripped = false → s.exceeds 2 level = true →
    s.obN Obj.compFilter 2 ≤ heldUs →
    exec (.cartridgeDoorTrip level heldUs) s = .next (s.trip 2 (fun s => s) State.doorOpens)) ∧
  (∀ (heldUs : Nat) (s : State),
    s.verge.powered = true → (s.verge.comps[(3 : Fin 4)]).tripped = false → s.exceeds 3 0 = true →
    s.obN Obj.compFilter 3 ≤ heldUs →
    exec (.overTemperatureTrip heldUs) s =
      .next (s.trip 3 (fun s => s.report Isl.verge Ev.pwrThermalShutdown [s.ob Obj.dieTemperature]) State.overheats)) ∧
  (∀ (k : Fin 4) (level heldUs : Nat) (s : State),
    s.verge.powered = true → s.absent k level = true → s.obN Obj.compFilter k ≤ heldUs →
    exec (.comparatorClear k level heldUs) s =
      .next ({ s with verge := { s.verge with comps := upd s.verge.comps k fun c => { c with tripped := false } } })) ∧
  (∀ (cause : Fin 6) (s : State), s.power.phase = .ps3 → s.mayWake cause = true →
    exec (.wake cause) s = .next (
        let s := s.loseIslands (if cause.val = 5 then 6 else 2)
        { s with verge := { s.verge with pwrEn := true, wakeCause := cause.val + 1 } })) ∧
  (∀ (s : State), s.verge.powered = true →
    exec (.vddvLoss) s =
      .next ({ s with verge := { since := s.time }, objs := s.objs.filter fun e => !decide (0x1A10 ≤ e.1 / 256 ∧ e.1 / 256 < 0x1A14) })) ∧
  (∀ (s : State), s.power.phase ≠ .ps3 →
    exec (.supplyRemoved) s = .next (
        let s := s.loseIslands 1
        { s with power := { s.power with phase := .unpowered } }))

/-- Time, key, link, bus and service commands complete: TIME_OF_DAY_WRITE (R510), FIRMWARE_KEY_REVOKE (R528), LINK_L1_ENTRY (R321), ETH_LINK_CHANGE (R382),
CAN_BUS_ERROR (R379), LPDDR5_SELF_REFRESH_ENTRY (R514, R5), RING_OSC_MEASUREMENT (R530), DEBUG_PORT_ACCESS (R518),
INTERRUPT_COALESCING_TIME (R354). -/
def Obligations.ServiceCommandsComplete : Prop :=
  (∀ (cl : Client) (v : Int) (s : State), s.Takes cl Obj.timeOfDay 0 0 v →
    exec (.timeOfDayWrite cl v) s = .next (s.wrote cl Obj.timeOfDay 0 0 fun s => s.setTimeOfDay v cl.identity)) ∧
  (∀ (cl : Client) (v : Int) (authorised : Option Bool) (s : State),
    s.Takes cl Obj.firmwareKeyRevoke 0 0 v →
    (s.authorise cl (Obj.firmwareKeyRevoke.key 0 0) (leBytes Obj.firmwareKeyRevoke.type.size v) authorised).2 = none →
    ((s.slot? s.power.activeSlot).any fun m => m.keyIndex == v.toNat) = false →
    s.otp.keyRevoked ||| BitVec.ofNat 4 (2 ^ v.toNat) ≠ 15#4 →
    exec (.firmwareKeyRevoke cl v authorised) s = .next (
        (s.authorise cl (Obj.firmwareKeyRevoke.key 0 0) (leBytes Obj.firmwareKeyRevoke.type.size v) authorised).1.wrote cl Obj.firmwareKeyRevoke 0 0 fun u =>
        ({ u with otp := { u.otp with keyRevoked := s.otp.keyRevoked ||| BitVec.ofNat 4 (2 ^ v.toNat) } }).report Isl.core Ev.fwKeyRevoked [v.toNat])) ∧
  (∀ (c : CtrlId) (s : State), (s.host.ctrls[c]).link = 2 →
    exec (.linkL1Entry c) s = .next (s.updCtrl c fun x => { x with link := 3 })) ∧
  (∀ (speed : Fin 4) (s : State), s.running = true →
    exec (.ethLinkChange speed) s =
      .next ({ s with signpost := { s.signpost with eth := { s.signpost.eth with link := speed.val } } })) ∧
  (∀ (port : Fin 2) (transmit receive : Int) (s : State),
    s.running = true → (((s.signpost.can[port]).state == 1 || (s.signpost.can[port]).state == 2)) = true →
    exec (.canBusError port transmit receive) s = .next (
        { s with signpost := { s.signpost with can := upd s.signpost.can port fun x =>
        let tx := ((x.txErrors : Int) + transmit).toNat
        let rx := ((x.rxErrors : Int) + receive).toNat
        { x with txErrors := tx, rxErrors := rx, state := if 128 ≤ tx ∨ 128 ≤ rx then 2 else 1 } } })) ∧
  (∀ (s : State), s.memUp = true → s.host.powerState = 2 →
    exec (.lpddr5SelfRefreshEntry) s = .next (s.updMem fun m => { m with selfRefresh := true })) ∧
  (∀ (delays : List Nat) (s : State), s.running = true →
    exec (.ringOscMeasurement delays) s = .next (
        s.forEach (allFin 48) fun s i =>
        match delays[i.val]? with
        | some d => if s.islandUp i then s.setOb Obj.ringOscDelay 0 i (min 65535 d : Nat) else s
        | none => s)) ∧
  (∀ (kind : Fin 4) (arg : Nat) (data : List Byte) (s : State), (s.running || s.power.phase == .failed) = true →
    exec (.debugPortAccess kind arg data) s = .next (
        match kind with
        | 0 => { s with power := { s.power with debugRead := [s.obN Obj.startupFailCause, s.obN Obj.selfTestFailBanks] } }
        | 1 =>
          let data := data.take 4096
          if arg < 0x200 then s.programSlot 0 arg data
          else if arg < 0x400 then s.programSlot 1 (arg - 0x200) data
          else
            let s := if arg < 0x402 then s.programBoot data else s
            { s with power := { s.power with norBlocks := Sparse.insert arg data s.power.norBlocks } }
        | 2 => s.startReset 5
        | _ => if h : arg < 48 then (if s.running && s.resettable arg then s.islandReset ⟨arg, h⟩ 0 else s) else s)) ∧
  (∀ (c : CtrlId) (s : State), s.hostUp = true →
    exec (.interruptCoalescingTime c) s = .next (
        let n := ((s.host.ctrls[c]).cqs.filter fun q => decide (0 < q.interruptHeld)).length
        s.updCtrl c fun x => { x with interrupts := x.interrupts + n, cqs := x.cqs.map fun q => { q with interruptHeld := 0 } }))
end

