-- ==== Sys2Proof/Laws/Accepted.lean ====
section
/-! SUPPORT. What a command that is accepted leads to: a host write that CORE takes, a command that waits on the cores, a command that
waits for media work. -/

set_option Elab.async false

namespace Sys2Proof.Machine

/-- A write that CORE takes has its effect. -/
theorem State.hostWrite_taken {s : State} {cl : Client} {r : Row} {i k : Nat} {v : Int} (h : s.Takes cl r i k v)
    (effect : State → State) : s.hostWrite cl r i k v false false effect = s.wrote cl r i k effect := by
  simp [State.hostWrite, State.hostWriteOr, State.wrote, h.up, h.mayWrite, h.holds, h.admits]

/-- An authorised write that CORE takes has its effect. -/
theorem State.authWrite_taken {s : State} {cl : Client} {r : Row} {i k : Nat} {v : Int} {verdict : Option Bool} (h : s.Takes cl r i k v)
    (ha : (s.authorise cl (r.key i k) (leBytes r.type.size v) verdict).2 = none) (effect : State → State) :
    s.authWrite cl r i k v verdict false false effect
      = (s.authorise cl (r.key i k) (leBytes r.type.size v) verdict).1.wrote cl r i k effect := by
  rcases hh : s.authorise cl (r.key i k) (leBytes r.type.size v) verdict with ⟨u, a⟩
  rw [hh] at ha
  subst ha
  simp [State.authWrite, State.wrote, h.up, h.mayWrite, h.holds, h.admits, hh]

/-- A command that waits is taken and carried out. -/
theorem State.onCores_taken {s : State} {k : CmdRef} {c : Cmd} (h : s.Waits k c) {mine : Cmd → Bool} (hm : mine c = true)
    (f : State → Cmd → State) : s.onCores k mine f = .next (f (s.taken k) c) := by
  simp [State.onCores, State.when, State.taken, h.up, h.found, h.fetched, h.unanswered, h.commits, hm]

/-- The same for an admin command. -/
theorem State.admin_taken {s : State} {k : CmdRef} {c : Cmd} (h : s.Waits k c) (hq : k.sq = 0) {mine : Cmd → Bool} (hm : mine c = true)
    (f : State → Cmd → State) : s.admin k mine f = .next (f (s.taken k) c) :=
  State.onCores_taken h (by simp [hq, hm]) f

/-- The same for a Set Features that does not ask for saving. -/
theorem State.setFeatures_taken {s : State} {k : CmdRef} {c : Cmd} (h : s.Waits k c) (hq : k.sq = 0) (ho : c.sqe.opcode = 0x09)
    {mine : Nat → Bool} (hm : mine c.sqe.fid = true) (hs : c.sqe.saves = false) (f : State → Cmd → State) :
    s.setFeatures k mine f = .next (f (s.taken k) c) := by
  rw [State.setFeatures, State.admin_taken h hq (by simp [Cmd.op, ho, hm])]
  simp [hs]

/-- The same for a Firmware Commit. -/
theorem State.firmwareCommit_taken {s : State} {k : CmdRef} {c : Cmd} (h : s.Waits k c) (hq : k.sq = 0) (ho : c.sqe.opcode = 0x10)
    {action : Nat} (hc : c.sqe.commitAction = action) (hn : s.host.activation = none) (f : State → Cmd → State) :
    s.firmwareCommit k action f = .next (f (s.taken k) c) := by
  rw [State.firmwareCommit, if_neg (by simp [hn]), State.admin_taken h hq (by simp [Cmd.op, ho, hc])]

/-- A dispatched command that waits for media work begins it. -/
theorem State.onMedia_waits {s : State} {k : CmdRef} {p : PickupId} {c : Cmd} (h : s.WaitsForMedia k p c) {mine : Cmd → Bool}
    (hm : mine c = true) (f : State → PickupId → Cmd → State) : s.onMedia k mine f = .next (f s p c) := by
  simp [State.onMedia, State.when, h.up, h.found, h.pickup, h.taken, h.unanswered, h.unserved, hm]

end Sys2Proof.Machine
end

