-- ==== Sys2Proof/Laws/Sparse.lean ====
section
/-! SUPPORT. Laws of the sparse tables: every operation keeps the rising form, a key that is written reads back, every other key reads as
before. -/

set_option Elab.async false

namespace Sys2Proof.Machine

variable {α : Type}

/-! ### The rising form -/

/-- A bound may be weakened. -/
theorem Sparse.rising_weaken {b c : Nat} (h : c ≤ b) {l : List (Nat × α)} (hl : Sparse.rising (some b) l = true) :
    Sparse.rising (some c) l = true := by
  cases l with
  | nil => rfl
  | cons e l => simp only [Sparse.rising, Bool.and_eq_true, decide_eq_true_eq] at hl ⊢; exact ⟨by omega, hl.2⟩

/-- A bound may be dropped. -/
theorem Sparse.rising_none {b : Option Nat} {l : List (Nat × α)} (h : Sparse.rising b l = true) : Sparse.rising none l = true := by
  cases b with
  | none => exact h
  | some b => cases l with
    | nil => rfl
    | cons e l => simp only [Sparse.rising, Bool.and_eq_true] at h ⊢; exact h.2

/-- Keys of a rising table lie above its bound. -/
theorem Sparse.lt_of_rising {b : Nat} {l : List (Nat × α)} (h : Sparse.rising (some b) l = true) : ∀ e ∈ l, b < e.1 := by
  induction l generalizing b with
  | nil => simp
  | cons e l ih =>
    simp only [Sparse.rising, Bool.and_eq_true, decide_eq_true_eq] at h
    intro f hf
    rcases List.mem_cons.1 hf with rfl | hf
    · exact h.1
    · exact lt_trans h.1 (ih h.2 f hf)

/-- Erasing keeps the rising form and its bound. -/
theorem Sparse.rising_erase {b : Option Nat} {k : Nat} {l : List (Nat × α)} (h : Sparse.rising b l = true) :
    Sparse.rising b (Sparse.erase k l) = true := by
  induction l generalizing b with
  | nil => exact h
  | cons e l ih =>
    obtain ⟨j, a⟩ := e
    have ht : Sparse.rising (some j) l = true := by
      cases b with
      | none => exact h
      | some b => simp only [Sparse.rising, Bool.and_eq_true] at h; exact h.2
    unfold Sparse.erase
    split
    · cases b with
      | none => exact Sparse.rising_none ht
      | some b =>
        simp only [Sparse.rising, Bool.and_eq_true, decide_eq_true_eq] at h
        exact Sparse.rising_weaken h.1.le ht
    · split
      · exact h
      · cases b with
        | none => exact ih ht
        | some b =>
          simp only [Sparse.rising, Bool.and_eq_true, decide_eq_true_eq] at h ⊢
          exact ⟨h.1, ih ht⟩

/-- Inserting a key above the bound keeps the rising form. -/
theorem Sparse.rising_insert {b : Option Nat} {k : Nat} {a : α} {l : List (Nat × α)} (hb : ∀ c, b = some c → c < k)
    (h : Sparse.rising b l = true) : Sparse.rising b (Sparse.insert k a l) = true := by
  induction l generalizing b with
  | nil => cases b <;> simp_all [Sparse.insert, Sparse.rising]
  | cons e l ih =>
    obtain ⟨j, x⟩ := e
    have ht : Sparse.rising (some j) l = true := by
      cases b with
      | none => exact h
      | some b => simp only [Sparse.rising, Bool.and_eq_true] at h; exact h.2
    unfold Sparse.insert
    split
    · subst_vars
      cases b with
      | none => exact ht
      | some b => simp only [Sparse.rising, Bool.and_eq_true, decide_eq_true_eq]; exact ⟨hb b rfl, ht⟩
    · split
      · rename_i hk
        cases b with
        | none => simp only [Sparse.rising, Bool.and_eq_true, decide_eq_true_eq]; exact ⟨hk, ht⟩
        | some b => simp only [Sparse.rising, Bool.and_eq_true, decide_eq_true_eq]; exact ⟨hb b rfl, hk, ht⟩
      · have hj : j < k := by omega
        have := ih (b := some j) (fun c hc => by cases hc; exact hj) ht
        cases b with
        | none => exact this
        | some b =>
          simp only [Sparse.rising, Bool.and_eq_true, decide_eq_true_eq] at h ⊢
          exact ⟨h.1, this⟩

/-- Keeping some of the entries keeps the rising form. -/
theorem Sparse.rising_filter {b : Option Nat} {p : Nat × α → Bool} {l : List (Nat × α)} (h : Sparse.rising b l = true) :
    Sparse.rising b (l.filter p) = true := by
  induction l generalizing b with
  | nil => exact h
  | cons e l ih =>
    obtain ⟨j, x⟩ := e
    have ht : Sparse.rising (some j) l = true := by
      cases b with
      | none => exact h
      | some b => simp only [Sparse.rising, Bool.and_eq_true] at h; exact h.2
    rw [List.filter_cons]
    split
    · cases b with
      | none => exact ih ht
      | some b =>
        simp only [Sparse.rising, Bool.and_eq_true, decide_eq_true_eq] at h ⊢
        exact ⟨h.1, ih ht⟩
    · cases b with
      | none => exact Sparse.rising_none (ih ht)
      | some b =>
        simp only [Sparse.rising, Bool.and_eq_true, decide_eq_true_eq] at h
        exact Sparse.rising_weaken h.1.le (ih ht)

/-- Entries of a table after an insertion. -/
theorem Sparse.mem_insert {k : Nat} {a : α} {l : List (Nat × α)} {e : Nat × α} (h : e ∈ Sparse.insert k a l) : e = (k, a) ∨ e ∈ l := by
  induction l with
  | nil => simpa [Sparse.insert] using h
  | cons f l ih =>
    obtain ⟨j, x⟩ := f
    unfold Sparse.insert at h
    split at h
    · rcases List.mem_cons.1 h with h | h
      · exact .inl h
      · exact .inr (List.mem_cons_of_mem _ h)
    · split at h
      · rcases List.mem_cons.1 h with h | h
        · exact .inl h
        · exact .inr h
      · rcases List.mem_cons.1 h with h | h
        · exact .inr (h ▸ List.mem_cons_self)
        · exact (ih h).imp_right (List.mem_cons_of_mem _)

/-- Entries of a table after an erasure. -/
theorem Sparse.mem_erase {k : Nat} {l : List (Nat × α)} {e : Nat × α} (h : e ∈ Sparse.erase k l) : e ∈ l := by
  induction l with
  | nil => exact h
  | cons f l ih =>
    obtain ⟨j, x⟩ := f
    unfold Sparse.erase at h
    split at h
    · exact List.mem_cons_of_mem _ h
    · split at h
      · exact h
      · rcases List.mem_cons.1 h with h | h
        · exact h ▸ List.mem_cons_self
        · exact List.mem_cons_of_mem _ (ih h)

/-- A write keeps the rising form. -/
theorem Sparse.rising_put [DecidableEq α] {d : α} {k : Nat} {a : α} {l : List (Nat × α)} (h : Sparse.rising none l = true) :
    Sparse.rising none (Sparse.put d l k a) = true := by
  unfold Sparse.put
  split
  · exact Sparse.rising_erase h
  · exact Sparse.rising_insert (fun _ hc => by cases hc) h

/-- A write lists nothing new but its key, and never the default there. -/
theorem Sparse.mem_put [DecidableEq α] {d : α} {k : Nat} {a : α} {l : List (Nat × α)} {e : Nat × α} (h : e ∈ Sparse.put d l k a) :
    (e = (k, a) ∧ a ≠ d) ∨ e ∈ l := by
  unfold Sparse.put at h
  split at h
  · exact .inr (Sparse.mem_erase h)
  · rename_i hd
    exact (Sparse.mem_insert h).imp_left fun h => ⟨h, hd⟩

/-- A write keeps the canonical form. -/
theorem Sparse.wf_put [DecidableEq α] {d : α} {k : Nat} {a : α} {l : List (Nat × α)} (h : Sparse.wf d l = true) :
    Sparse.wf d (Sparse.put d l k a) = true := by
  simp only [Sparse.wf, Bool.and_eq_true, List.all_eq_true, decide_eq_true_eq] at h ⊢
  refine ⟨Sparse.rising_put h.1, fun e he => ?_⟩
  rcases Sparse.mem_put he with ⟨rfl, hd⟩ | he
  · exact hd
  · exact h.2 e he

/-! ### Reading back -/

/-- A key at or below the bound is not listed. -/
theorem Sparse.find_of_rising {b k : Nat} (hk : k ≤ b) {l : List (Nat × α)} (h : Sparse.rising (some b) l = true) :
    Sparse.find k l = none := by
  cases l with
  | nil => rfl
  | cons e l =>
    simp only [Sparse.rising, Bool.and_eq_true, decide_eq_true_eq] at h
    simp only [Sparse.find]
    rw [if_neg (by omega), if_pos (by omega)]

/-- What a key is listed with after an insertion. -/
theorem Sparse.find_insert {k j : Nat} {a : α} {l : List (Nat × α)} (h : Sparse.rising none l = true) :
    Sparse.find j (Sparse.insert k a l) = if j = k then some a else Sparse.find j l := by
  induction l with
  | nil => simp only [Sparse.insert, Sparse.find]; split_ifs <;> first | rfl | omega
  | cons e l ih =>
    obtain ⟨i, x⟩ := e
    have ht : Sparse.rising none l = true := Sparse.rising_none (b := some i) h
    simp only [Sparse.insert]
    split_ifs <;> simp only [Sparse.find, ih ht] <;> split_ifs <;> first | rfl | omega

/-- What a key is listed with after an erasure. -/
theorem Sparse.find_erase {k j : Nat} {l : List (Nat × α)} (h : Sparse.rising none l = true) :
    Sparse.find j (Sparse.erase k l) = if j = k then none else Sparse.find j l := by
  induction l with
  | nil => simp [Sparse.erase, Sparse.find]
  | cons e l ih =>
    obtain ⟨i, x⟩ := e
    have hi : Sparse.rising (some i) l = true := h
    simp only [Sparse.erase]
    split_ifs with h1 h2 h3 h4
    · exact Sparse.find_of_rising (by omega) hi
    · simp only [Sparse.find]
      split_ifs with h5 h6
      · omega
      · exact Sparse.find_of_rising (by omega) hi
      · rfl
    · simp only [Sparse.find]; rw [if_neg (by omega), if_pos (by omega)]
    · rfl
    · simp only [Sparse.find, ih (Sparse.rising_none hi)]; split_ifs <;> first | rfl | omega
    · simp only [Sparse.find, ih (Sparse.rising_none hi)]; split_ifs <;> rfl

/-- A written key reads back; every other key reads as before. -/
theorem Sparse.get_put [DecidableEq α] {d e : α} {k j : Nat} {a : α} {l : List (Nat × α)} (h : Sparse.rising none l = true) :
    Sparse.get e (Sparse.put d l k a) j = if j = k then (if a = d then e else a) else Sparse.get e l j := by
  unfold Sparse.get Sparse.put
  by_cases hd : a = d
  · rw [if_pos hd, Sparse.find_erase h]; split_ifs <;> rfl
  · rw [if_neg hd, Sparse.find_insert h]; split_ifs <;> rfl

/-- A written key reads back. -/
theorem Sparse.get_put_self [DecidableEq α] {d : α} {k : Nat} {a : α} {l : List (Nat × α)} (h : Sparse.rising none l = true) :
    Sparse.get d (Sparse.put d l k a) k = a := by
  rw [Sparse.get_put h, if_pos rfl]; split_ifs with hd
  · exact hd.symm
  · rfl

/-- Every other key reads as before. -/
theorem Sparse.get_put_other [DecidableEq α] {d e : α} {k j : Nat} {a : α} {l : List (Nat × α)} (h : Sparse.rising none l = true) (hj : j ≠ k) :
    Sparse.get e (Sparse.put d l k a) j = Sparse.get e l j := by
  rw [Sparse.get_put h, if_neg hj]

end Sys2Proof.Machine
end

