-- ==== Sys2Proof/Laws/Effect.lean ====
section
/-! SUPPORT. What an operation may do to the state, said as one relation: the parts it may change, and the forms that it keeps. One lemma per
operation states it (Sys2Proof.Laws.Effects and after); the lemmas here put the steps of an operation together. -/

set_option Elab.async false

namespace Sys2Proof.Machine

/-- The queue stands, the fuse array does what R525 to R528 allow, and every form that holds still holds. -/
structure Good (s t : State) : Prop where
  pending : t.pending = s.pending
  otp : s.otp.After t.otp
  objects : s.ObjectsOk → t.ObjectsOk
  mem : s.mem.wf → t.mem.wf
  bounded : s.recorder.Bounded → t.recorder.Bounded
  leased : s.recorder.Leased → t.recorder.Leased
  ramps : s.RampsOk → t.RampsOk

/-- An operation changes at most the named parts and keeps every form. -/
structure Eff (l : List Part) (s t : State) : Prop where
  frame : Frame l s t
  good : Good s t

theorem Otp.After.refl (o : Otp) : o.After o := ⟨rfl, rfl, rfl, fun _ h => h, le_rfl⟩

theorem Otp.After.trans {o p q : Otp} (h : o.After p) (k : p.After q) : o.After q :=
  ⟨k.variant.trans h.variant, k.dieIdentity.trans h.dieIdentity, k.mac.trans h.mac, fun i hi => k.revoked i (h.revoked i hi),
    h.rollback.trans k.rollback⟩

theorem Good.refl (s : State) : Good s s := ⟨rfl, .refl _, id, id, id, id, id⟩

theorem Good.trans {s t u : State} (h : Good s t) (k : Good t u) : Good s u :=
  ⟨k.pending.trans h.pending, h.otp.trans k.otp, k.objects ∘ h.objects, k.mem ∘ h.mem, k.bounded ∘ h.bounded, k.leased ∘ h.leased,
    k.ramps ∘ h.ramps⟩

theorem Frame.refl (l : List Part) (s : State) : Frame l s s := fun q _ => by cases q <;> rfl

theorem Frame.trans {l : List Part} {s t u : State} (h : Frame l s t) (k : Frame l t u) : Frame l s u :=
  fun q hq => by
    have a := h q hq
    have b := k q hq
    cases q <;> exact Eq.trans b a

/-- Fewer parts. -/
theorem Frame.mono {a b : List Part} {s t : State} (hs : a ⊆ b) (h : Frame a s t) : Frame b s t := fun q hq => h q fun hm => hq (hs hm)

/-- Whether every part of a list stands in another. -/
def partsIn (a b : List Part) : Bool := a.all fun q => b.contains q

theorem subset_of_partsIn {a b : List Part} (h : partsIn a b = true) : a ⊆ b := by
  intro q hq
  have := List.all_eq_true.1 h q hq
  exact List.contains_iff_mem.1 this

theorem Eff.refl (l : List Part) (s : State) : Eff l s s := ⟨.refl _ _, .refl _⟩

/-- One operation after others. -/
theorem Eff.after {a b : List Part} {s0 s t : State} (h : Eff a s t) (h0 : Eff b s0 s) (hs : partsIn a b = true := by decide) : Eff b s0 t :=
  ⟨h0.frame.trans (h.frame.mono (subset_of_partsIn hs)), h0.good.trans h.good⟩

theorem partsIn_trans {a b c : List Part} (h : partsIn a b = true) (k : partsIn b c = true) : partsIn a c = true :=
  List.all_eq_true.2 fun q hq => List.contains_iff_mem.2 (subset_of_partsIn k (subset_of_partsIn h hq))

theorem Eff.mono {a b : List Part} {s t : State} (h : Eff a s t) (hs : partsIn a b = true := by decide) : Eff b s t := h.after (.refl _ _) hs

theorem Eff.ite {l : List Part} {s0 a b : State} {c : Prop} [Decidable c] (ha : Eff l s0 a) (hb : Eff l s0 b) : Eff l s0 (if c then a else b) := by
  split <;> assumption

theorem Eff.dite {l : List Part} {s0 : State} {c : Prop} [Decidable c] {a : c → State} {b : ¬c → State} (ha : ∀ h, Eff l s0 (a h))
    (hb : ∀ h, Eff l s0 (b h)) : Eff l s0 (dite c a b) := by
  split
  · exact ha _
  · exact hb _

/-- An operation is looked at from the state before it, from which nothing has changed yet. -/
theorem Eff.start {l : List Part} {s t : State} (h : Eff l s s → Eff l s t) : Eff l s t := h (.refl _ _)

/-- A state that is named: what it may have changed since the first, and what is made of it. -/
theorem Eff.named {l : List Part} {s0 s x : State} {P : Prop} (_ : Eff l s0 s) (h : Eff l s0 x) (k : Eff l s0 x → P) : P := k h

/-- A change repeated over a list. -/
theorem Eff.forEach {l : List Part} {s0 s : State} {α : Type} {xs : List α} {f : State → α → State} (h : Eff l s0 s)
    (hf : ∀ s a, Eff l s0 s → Eff l s0 (f s a)) : Eff l s0 (s.forEach xs f) := by
  unfold State.forEach
  induction xs generalizing s with
  | nil => exact h
  | cons a xs ih => exact ih (hf s a h)

/-- A record update that leaves the queue, the tables, the memories, the recorder, the on-ramps and the fuses alone. -/
theorem Eff.put {l : List Part} {s0 s : State} {x0 : Nat} {x1 : Nat} {x5 : Vector Pickup 8} {x6 : Vector Channel 32} {x7 : Decoding}
    {x8 : Vector Side 8} {x9 : Vector Spindle 4} {x10 : Vector Axis 12} {x11 : HostSide} {x13 : Signpost} {x14 : Staging} {x16 : Calibration}
    {x18 : Milestone} {x19 : Vector Trace 8} {x20 : Nat} {x21 : Bool} {x22 : Verge} {x23 : Power}
    (h : Eff l s0 s)
    (h0 : x0 = s.time ∨ Part.time ∈ l := by first | exact .inr (by decide) | exact .inl rfl)
    (h1 : x1 = s.freeCount ∨ Part.freeCount ∈ l := by first | exact .inr (by decide) | exact .inl rfl)
    (h5 : x5 = s.pickups ∨ Part.pickups ∈ l := by first | exact .inr (by decide) | exact .inl rfl)
    (h6 : x6 = s.channels ∨ Part.channels ∈ l := by first | exact .inr (by decide) | exact .inl rfl)
    (h7 : x7 = s.decoding ∨ Part.decoding ∈ l := by first | exact .inr (by decide) | exact .inl rfl)
    (h8 : x8 = s.sides ∨ Part.sides ∈ l := by first | exact .inr (by decide) | exact .inl rfl)
    (h9 : x9 = s.spindles ∨ Part.spindles ∈ l := by first | exact .inr (by decide) | exact .inl rfl)
    (h10 : x10 = s.axes ∨ Part.axes ∈ l := by first | exact .inr (by decide) | exact .inl rfl)
    (h11 : x11 = s.host ∨ Part.host ∈ l := by first | exact .inr (by decide) | exact .inl rfl)
    (h13 : x13 = s.signpost ∨ Part.signpost ∈ l := by first | exact .inr (by decide) | exact .inl rfl)
    (h14 : x14 = s.staging ∨ Part.staging ∈ l := by first | exact .inr (by decide) | exact .inl rfl)
    (h16 : x16 = s.cal ∨ Part.cal ∈ l := by first | exact .inr (by decide) | exact .inl rfl)
    (h18 : x18 = s.milestone ∨ Part.milestone ∈ l := by first | exact .inr (by decide) | exact .inl rfl)
    (h19 : x19 = s.traces ∨ Part.traces ∈ l := by first | exact .inr (by decide) | exact .inl rfl)
    (h20 : x20 = s.xspAin ∨ Part.xspAin ∈ l := by first | exact .inr (by decide) | exact .inl rfl)
    (h21 : x21 = s.xspDir ∨ Part.xspDir ∈ l := by first | exact .inr (by decide) | exact .inl rfl)
    (h22 : x22 = s.verge ∨ Part.verge ∈ l := by first | exact .inr (by decide) | exact .inl rfl)
    (h23 : x23 = s.power ∨ Part.power ∈ l := by first | exact .inr (by decide) | exact .inl rfl) :
    Eff l s0 ⟨x0, x1, s.pending, s.objs, s.doms, x5, x6, x7, x8, x9, x10, x11, s.ramps, x13, x14, s.mem, x16, s.recorder, x18, x19, x20, x21,
      x22, x23, s.otp⟩ := by
  refine ⟨h.frame.trans fun q hq => ?_, h.good.trans ⟨rfl, .refl _, id, id, id, id, id⟩⟩
  cases q <;> first | rfl | exact Or.resolve_right (by assumption) hq

end Sys2Proof.Machine
end

