-- ==== Sys2Proof/Laws/State.lean ====
section
/-! SUPPORT. The record updates of the state, one lemma for each field after each update, so that no proof unfolds an update; and what the
object store and the vectors of the state read as after a write. -/

set_option Elab.async false

namespace Sys2Proof.Machine

/-- An entry of a vector after a change of one entry. -/
theorem getElem_upd {α : Type} {n : Nat} (v : Vector α n) (i : Fin n) (f : α → α) (j : Fin n) :
    (upd v i f)[j] = if i = j then f v[j] else v[j] := by
  unfold upd
  rw [Fin.getElem_fin, Fin.getElem_fin, Vector.getElem_set]
  by_cases h : i = j
  · subst h; simp
  · rw [if_neg (by simpa [Fin.ext_iff] using h), if_neg h]; rfl

/-- The changed entry. -/
@[simp] theorem getElem_upd_self {α : Type} {n : Nat} (v : Vector α n) (i : Fin n) (f : α → α) : (upd v i f)[i] = f v[i] := by
  rw [getElem_upd, if_pos rfl]

/-- The entries beside it. -/
theorem getElem_upd_other {α : Type} {n : Nat} (v : Vector α n) {i j : Fin n} (f : α → α) (h : i ≠ j) : (upd v i f)[j] = v[j] := by
  rw [getElem_upd, if_neg h]

/-! Pickup p. -/

@[simp] theorem State.updP_time (s : State) (p : PickupId) (f : Pickup → Pickup) : (s.updP p f).time = s.time := rfl
@[simp] theorem State.updP_freeCount (s : State) (p : PickupId) (f : Pickup → Pickup) : (s.updP p f).freeCount = s.freeCount := rfl
@[simp] theorem State.updP_pending (s : State) (p : PickupId) (f : Pickup → Pickup) : (s.updP p f).pending = s.pending := rfl
@[simp] theorem State.updP_objs (s : State) (p : PickupId) (f : Pickup → Pickup) : (s.updP p f).objs = s.objs := rfl
@[simp] theorem State.updP_doms (s : State) (p : PickupId) (f : Pickup → Pickup) : (s.updP p f).doms = s.doms := rfl
@[simp] theorem State.updP_pickups (s : State) (p : PickupId) (f : Pickup → Pickup) : (s.updP p f).pickups = upd s.pickups p f := rfl
@[simp] theorem State.updP_channels (s : State) (p : PickupId) (f : Pickup → Pickup) : (s.updP p f).channels = s.channels := rfl
@[simp] theorem State.updP_decoding (s : State) (p : PickupId) (f : Pickup → Pickup) : (s.updP p f).decoding = s.decoding := rfl
@[simp] theorem State.updP_sides (s : State) (p : PickupId) (f : Pickup → Pickup) : (s.updP p f).sides = s.sides := rfl
@[simp] theorem State.updP_spindles (s : State) (p : PickupId) (f : Pickup → Pickup) : (s.updP p f).spindles = s.spindles := rfl
@[simp] theorem State.updP_axes (s : State) (p : PickupId) (f : Pickup → Pickup) : (s.updP p f).axes = s.axes := rfl
@[simp] theorem State.updP_host (s : State) (p : PickupId) (f : Pickup → Pickup) : (s.updP p f).host = s.host := rfl
@[simp] theorem State.updP_ramps (s : State) (p : PickupId) (f : Pickup → Pickup) : (s.updP p f).ramps = s.ramps := rfl
@[simp] theorem State.updP_signpost (s : State) (p : PickupId) (f : Pickup → Pickup) : (s.updP p f).signpost = s.signpost := rfl
@[simp] theorem State.updP_staging (s : State) (p : PickupId) (f : Pickup → Pickup) : (s.updP p f).staging = s.staging := rfl
@[simp] theorem State.updP_mem (s : State) (p : PickupId) (f : Pickup → Pickup) : (s.updP p f).mem = s.mem := rfl
@[simp] theorem State.updP_cal (s : State) (p : PickupId) (f : Pickup → Pickup) : (s.updP p f).cal = s.cal := rfl
@[simp] theorem State.updP_recorder (s : State) (p : PickupId) (f : Pickup → Pickup) : (s.updP p f).recorder = s.recorder := rfl
@[simp] theorem State.updP_milestone (s : State) (p : PickupId) (f : Pickup → Pickup) : (s.updP p f).milestone = s.milestone := rfl
@[simp] theorem State.updP_traces (s : State) (p : PickupId) (f : Pickup → Pickup) : (s.updP p f).traces = s.traces := rfl
@[simp] theorem State.updP_xspAin (s : State) (p : PickupId) (f : Pickup → Pickup) : (s.updP p f).xspAin = s.xspAin := rfl
@[simp] theorem State.updP_xspDir (s : State) (p : PickupId) (f : Pickup → Pickup) : (s.updP p f).xspDir = s.xspDir := rfl
@[simp] theorem State.updP_verge (s : State) (p : PickupId) (f : Pickup → Pickup) : (s.updP p f).verge = s.verge := rfl
@[simp] theorem State.updP_power (s : State) (p : PickupId) (f : Pickup → Pickup) : (s.updP p f).power = s.power := rfl
@[simp] theorem State.updP_otp (s : State) (p : PickupId) (f : Pickup → Pickup) : (s.updP p f).otp = s.otp := rfl

/-! The channel of beam g. -/

@[simp] theorem State.updC_time (s : State) (g : BeamId) (f : Channel → Channel) : (s.updC g f).time = s.time := rfl
@[simp] theorem State.updC_freeCount (s : State) (g : BeamId) (f : Channel → Channel) : (s.updC g f).freeCount = s.freeCount := rfl
@[simp] theorem State.updC_pending (s : State) (g : BeamId) (f : Channel → Channel) : (s.updC g f).pending = s.pending := rfl
@[simp] theorem State.updC_objs (s : State) (g : BeamId) (f : Channel → Channel) : (s.updC g f).objs = s.objs := rfl
@[simp] theorem State.updC_doms (s : State) (g : BeamId) (f : Channel → Channel) : (s.updC g f).doms = s.doms := rfl
@[simp] theorem State.updC_pickups (s : State) (g : BeamId) (f : Channel → Channel) : (s.updC g f).pickups = s.pickups := rfl
@[simp] theorem State.updC_channels (s : State) (g : BeamId) (f : Channel → Channel) : (s.updC g f).channels = upd s.channels g f := rfl
@[simp] theorem State.updC_decoding (s : State) (g : BeamId) (f : Channel → Channel) : (s.updC g f).decoding = s.decoding := rfl
@[simp] theorem State.updC_sides (s : State) (g : BeamId) (f : Channel → Channel) : (s.updC g f).sides = s.sides := rfl
@[simp] theorem State.updC_spindles (s : State) (g : BeamId) (f : Channel → Channel) : (s.updC g f).spindles = s.spindles := rfl
@[simp] theorem State.updC_axes (s : State) (g : BeamId) (f : Channel → Channel) : (s.updC g f).axes = s.axes := rfl
@[simp] theorem State.updC_host (s : State) (g : BeamId) (f : Channel → Channel) : (s.updC g f).host = s.host := rfl
@[simp] theorem State.updC_ramps (s : State) (g : BeamId) (f : Channel → Channel) : (s.updC g f).ramps = s.ramps := rfl
@[simp] theorem State.updC_signpost (s : State) (g : BeamId) (f : Channel → Channel) : (s.updC g f).signpost = s.signpost := rfl
@[simp] theorem State.updC_staging (s : State) (g : BeamId) (f : Channel → Channel) : (s.updC g f).staging = s.staging := rfl
@[simp] theorem State.updC_mem (s : State) (g : BeamId) (f : Channel → Channel) : (s.updC g f).mem = s.mem := rfl
@[simp] theorem State.updC_cal (s : State) (g : BeamId) (f : Channel → Channel) : (s.updC g f).cal = s.cal := rfl
@[simp] theorem State.updC_recorder (s : State) (g : BeamId) (f : Channel → Channel) : (s.updC g f).recorder = s.recorder := rfl
@[simp] theorem State.updC_milestone (s : State) (g : BeamId) (f : Channel → Channel) : (s.updC g f).milestone = s.milestone := rfl
@[simp] theorem State.updC_traces (s : State) (g : BeamId) (f : Channel → Channel) : (s.updC g f).traces = s.traces := rfl
@[simp] theorem State.updC_xspAin (s : State) (g : BeamId) (f : Channel → Channel) : (s.updC g f).xspAin = s.xspAin := rfl
@[simp] theorem State.updC_xspDir (s : State) (g : BeamId) (f : Channel → Channel) : (s.updC g f).xspDir = s.xspDir := rfl
@[simp] theorem State.updC_verge (s : State) (g : BeamId) (f : Channel → Channel) : (s.updC g f).verge = s.verge := rfl
@[simp] theorem State.updC_power (s : State) (g : BeamId) (f : Channel → Channel) : (s.updC g f).power = s.power := rfl
@[simp] theorem State.updC_otp (s : State) (g : BeamId) (f : Channel → Channel) : (s.updC g f).otp = s.otp := rfl

/-! The side of pickup p. -/

@[simp] theorem State.updS_time (s : State) (p : PickupId) (f : Side → Side) : (s.updS p f).time = s.time := rfl
@[simp] theorem State.updS_freeCount (s : State) (p : PickupId) (f : Side → Side) : (s.updS p f).freeCount = s.freeCount := rfl
@[simp] theorem State.updS_pending (s : State) (p : PickupId) (f : Side → Side) : (s.updS p f).pending = s.pending := rfl
@[simp] theorem State.updS_objs (s : State) (p : PickupId) (f : Side → Side) : (s.updS p f).objs = s.objs := rfl
@[simp] theorem State.updS_doms (s : State) (p : PickupId) (f : Side → Side) : (s.updS p f).doms = s.doms := rfl
@[simp] theorem State.updS_pickups (s : State) (p : PickupId) (f : Side → Side) : (s.updS p f).pickups = s.pickups := rfl
@[simp] theorem State.updS_channels (s : State) (p : PickupId) (f : Side → Side) : (s.updS p f).channels = s.channels := rfl
@[simp] theorem State.updS_decoding (s : State) (p : PickupId) (f : Side → Side) : (s.updS p f).decoding = s.decoding := rfl
@[simp] theorem State.updS_sides (s : State) (p : PickupId) (f : Side → Side) : (s.updS p f).sides = upd s.sides p f := rfl
@[simp] theorem State.updS_spindles (s : State) (p : PickupId) (f : Side → Side) : (s.updS p f).spindles = s.spindles := rfl
@[simp] theorem State.updS_axes (s : State) (p : PickupId) (f : Side → Side) : (s.updS p f).axes = s.axes := rfl
@[simp] theorem State.updS_host (s : State) (p : PickupId) (f : Side → Side) : (s.updS p f).host = s.host := rfl
@[simp] theorem State.updS_ramps (s : State) (p : PickupId) (f : Side → Side) : (s.updS p f).ramps = s.ramps := rfl
@[simp] theorem State.updS_signpost (s : State) (p : PickupId) (f : Side → Side) : (s.updS p f).signpost = s.signpost := rfl
@[simp] theorem State.updS_staging (s : State) (p : PickupId) (f : Side → Side) : (s.updS p f).staging = s.staging := rfl
@[simp] theorem State.updS_mem (s : State) (p : PickupId) (f : Side → Side) : (s.updS p f).mem = s.mem := rfl
@[simp] theorem State.updS_cal (s : State) (p : PickupId) (f : Side → Side) : (s.updS p f).cal = s.cal := rfl
@[simp] theorem State.updS_recorder (s : State) (p : PickupId) (f : Side → Side) : (s.updS p f).recorder = s.recorder := rfl
@[simp] theorem State.updS_milestone (s : State) (p : PickupId) (f : Side → Side) : (s.updS p f).milestone = s.milestone := rfl
@[simp] theorem State.updS_traces (s : State) (p : PickupId) (f : Side → Side) : (s.updS p f).traces = s.traces := rfl
@[simp] theorem State.updS_xspAin (s : State) (p : PickupId) (f : Side → Side) : (s.updS p f).xspAin = s.xspAin := rfl
@[simp] theorem State.updS_xspDir (s : State) (p : PickupId) (f : Side → Side) : (s.updS p f).xspDir = s.xspDir := rfl
@[simp] theorem State.updS_verge (s : State) (p : PickupId) (f : Side → Side) : (s.updS p f).verge = s.verge := rfl
@[simp] theorem State.updS_power (s : State) (p : PickupId) (f : Side → Side) : (s.updS p f).power = s.power := rfl
@[simp] theorem State.updS_otp (s : State) (p : PickupId) (f : Side → Side) : (s.updS p f).otp = s.otp := rfl

/-! Spindle i. -/

@[simp] theorem State.updM_time (s : State) (i : SpindleId) (f : Spindle → Spindle) : (s.updM i f).time = s.time := rfl
@[simp] theorem State.updM_freeCount (s : State) (i : SpindleId) (f : Spindle → Spindle) : (s.updM i f).freeCount = s.freeCount := rfl
@[simp] theorem State.updM_pending (s : State) (i : SpindleId) (f : Spindle → Spindle) : (s.updM i f).pending = s.pending := rfl
@[simp] theorem State.updM_objs (s : State) (i : SpindleId) (f : Spindle → Spindle) : (s.updM i f).objs = s.objs := rfl
@[simp] theorem State.updM_doms (s : State) (i : SpindleId) (f : Spindle → Spindle) : (s.updM i f).doms = s.doms := rfl
@[simp] theorem State.updM_pickups (s : State) (i : SpindleId) (f : Spindle → Spindle) : (s.updM i f).pickups = s.pickups := rfl
@[simp] theorem State.updM_channels (s : State) (i : SpindleId) (f : Spindle → Spindle) : (s.updM i f).channels = s.channels := rfl
@[simp] theorem State.updM_decoding (s : State) (i : SpindleId) (f : Spindle → Spindle) : (s.updM i f).decoding = s.decoding := rfl
@[simp] theorem State.updM_sides (s : State) (i : SpindleId) (f : Spindle → Spindle) : (s.updM i f).sides = s.sides := rfl
@[simp] theorem State.updM_spindles (s : State) (i : SpindleId) (f : Spindle → Spindle) : (s.updM i f).spindles = upd s.spindles i f := rfl
@[simp] theorem State.updM_axes (s : State) (i : SpindleId) (f : Spindle → Spindle) : (s.updM i f).axes = s.axes := rfl
@[simp] theorem State.updM_host (s : State) (i : SpindleId) (f : Spindle → Spindle) : (s.updM i f).host = s.host := rfl
@[simp] theorem State.updM_ramps (s : State) (i : SpindleId) (f : Spindle → Spindle) : (s.updM i f).ramps = s.ramps := rfl
@[simp] theorem State.updM_signpost (s : State) (i : SpindleId) (f : Spindle → Spindle) : (s.updM i f).signpost = s.signpost := rfl
@[simp] theorem State.updM_staging (s : State) (i : SpindleId) (f : Spindle → Spindle) : (s.updM i f).staging = s.staging := rfl
@[simp] theorem State.updM_mem (s : State) (i : SpindleId) (f : Spindle → Spindle) : (s.updM i f).mem = s.mem := rfl
@[simp] theorem State.updM_cal (s : State) (i : SpindleId) (f : Spindle → Spindle) : (s.updM i f).cal = s.cal := rfl
@[simp] theorem State.updM_recorder (s : State) (i : SpindleId) (f : Spindle → Spindle) : (s.updM i f).recorder = s.recorder := rfl
@[simp] theorem State.updM_milestone (s : State) (i : SpindleId) (f : Spindle → Spindle) : (s.updM i f).milestone = s.milestone := rfl
@[simp] theorem State.updM_traces (s : State) (i : SpindleId) (f : Spindle → Spindle) : (s.updM i f).traces = s.traces := rfl
@[simp] theorem State.updM_xspAin (s : State) (i : SpindleId) (f : Spindle → Spindle) : (s.updM i f).xspAin = s.xspAin := rfl
@[simp] theorem State.updM_xspDir (s : State) (i : SpindleId) (f : Spindle → Spindle) : (s.updM i f).xspDir = s.xspDir := rfl
@[simp] theorem State.updM_verge (s : State) (i : SpindleId) (f : Spindle → Spindle) : (s.updM i f).verge = s.verge := rfl
@[simp] theorem State.updM_power (s : State) (i : SpindleId) (f : Spindle → Spindle) : (s.updM i f).power = s.power := rfl
@[simp] theorem State.updM_otp (s : State) (i : SpindleId) (f : Spindle → Spindle) : (s.updM i f).otp = s.otp := rfl

/-! Axis a. -/

@[simp] theorem State.updA_time (s : State) (a : AxisId) (f : Axis → Axis) : (s.updA a f).time = s.time := rfl
@[simp] theorem State.updA_freeCount (s : State) (a : AxisId) (f : Axis → Axis) : (s.updA a f).freeCount = s.freeCount := rfl
@[simp] theorem State.updA_pending (s : State) (a : AxisId) (f : Axis → Axis) : (s.updA a f).pending = s.pending := rfl
@[simp] theorem State.updA_objs (s : State) (a : AxisId) (f : Axis → Axis) : (s.updA a f).objs = s.objs := rfl
@[simp] theorem State.updA_doms (s : State) (a : AxisId) (f : Axis → Axis) : (s.updA a f).doms = s.doms := rfl
@[simp] theorem State.updA_pickups (s : State) (a : AxisId) (f : Axis → Axis) : (s.updA a f).pickups = s.pickups := rfl
@[simp] theorem State.updA_channels (s : State) (a : AxisId) (f : Axis → Axis) : (s.updA a f).channels = s.channels := rfl
@[simp] theorem State.updA_decoding (s : State) (a : AxisId) (f : Axis → Axis) : (s.updA a f).decoding = s.decoding := rfl
@[simp] theorem State.updA_sides (s : State) (a : AxisId) (f : Axis → Axis) : (s.updA a f).sides = s.sides := rfl
@[simp] theorem State.updA_spindles (s : State) (a : AxisId) (f : Axis → Axis) : (s.updA a f).spindles = s.spindles := rfl
@[simp] theorem State.updA_axes (s : State) (a : AxisId) (f : Axis → Axis) : (s.updA a f).axes = upd s.axes a f := rfl
@[simp] theorem State.updA_host (s : State) (a : AxisId) (f : Axis → Axis) : (s.updA a f).host = s.host := rfl
@[simp] theorem State.updA_ramps (s : State) (a : AxisId) (f : Axis → Axis) : (s.updA a f).ramps = s.ramps := rfl
@[simp] theorem State.updA_signpost (s : State) (a : AxisId) (f : Axis → Axis) : (s.updA a f).signpost = s.signpost := rfl
@[simp] theorem State.updA_staging (s : State) (a : AxisId) (f : Axis → Axis) : (s.updA a f).staging = s.staging := rfl
@[simp] theorem State.updA_mem (s : State) (a : AxisId) (f : Axis → Axis) : (s.updA a f).mem = s.mem := rfl
@[simp] theorem State.updA_cal (s : State) (a : AxisId) (f : Axis → Axis) : (s.updA a f).cal = s.cal := rfl
@[simp] theorem State.updA_recorder (s : State) (a : AxisId) (f : Axis → Axis) : (s.updA a f).recorder = s.recorder := rfl
@[simp] theorem State.updA_milestone (s : State) (a : AxisId) (f : Axis → Axis) : (s.updA a f).milestone = s.milestone := rfl
@[simp] theorem State.updA_traces (s : State) (a : AxisId) (f : Axis → Axis) : (s.updA a f).traces = s.traces := rfl
@[simp] theorem State.updA_xspAin (s : State) (a : AxisId) (f : Axis → Axis) : (s.updA a f).xspAin = s.xspAin := rfl
@[simp] theorem State.updA_xspDir (s : State) (a : AxisId) (f : Axis → Axis) : (s.updA a f).xspDir = s.xspDir := rfl
@[simp] theorem State.updA_verge (s : State) (a : AxisId) (f : Axis → Axis) : (s.updA a f).verge = s.verge := rfl
@[simp] theorem State.updA_power (s : State) (a : AxisId) (f : Axis → Axis) : (s.updA a f).power = s.power := rfl
@[simp] theorem State.updA_otp (s : State) (a : AxisId) (f : Axis → Axis) : (s.updA a f).otp = s.otp := rfl

/-! Controller c. -/

@[simp] theorem State.updCtrl_time (s : State) (c : CtrlId) (f : Controller → Controller) : (s.updCtrl c f).time = s.time := rfl
@[simp] theorem State.updCtrl_freeCount (s : State) (c : CtrlId) (f : Controller → Controller) : (s.updCtrl c f).freeCount = s.freeCount := rfl
@[simp] theorem State.updCtrl_pending (s : State) (c : CtrlId) (f : Controller → Controller) : (s.updCtrl c f).pending = s.pending := rfl
@[simp] theorem State.updCtrl_objs (s : State) (c : CtrlId) (f : Controller → Controller) : (s.updCtrl c f).objs = s.objs := rfl
@[simp] theorem State.updCtrl_doms (s : State) (c : CtrlId) (f : Controller → Controller) : (s.updCtrl c f).doms = s.doms := rfl
@[simp] theorem State.updCtrl_pickups (s : State) (c : CtrlId) (f : Controller → Controller) : (s.updCtrl c f).pickups = s.pickups := rfl
@[simp] theorem State.updCtrl_channels (s : State) (c : CtrlId) (f : Controller → Controller) : (s.updCtrl c f).channels = s.channels := rfl
@[simp] theorem State.updCtrl_decoding (s : State) (c : CtrlId) (f : Controller → Controller) : (s.updCtrl c f).decoding = s.decoding := rfl
@[simp] theorem State.updCtrl_sides (s : State) (c : CtrlId) (f : Controller → Controller) : (s.updCtrl c f).sides = s.sides := rfl
@[simp] theorem State.updCtrl_spindles (s : State) (c : CtrlId) (f : Controller → Controller) : (s.updCtrl c f).spindles = s.spindles := rfl
@[simp] theorem State.updCtrl_axes (s : State) (c : CtrlId) (f : Controller → Controller) : (s.updCtrl c f).axes = s.axes := rfl
@[simp] theorem State.updCtrl_host (s : State) (c : CtrlId) (f : Controller → Controller) :
    (s.updCtrl c f).host = { s.host with ctrls := upd s.host.ctrls c f } := rfl
@[simp] theorem State.updCtrl_ramps (s : State) (c : CtrlId) (f : Controller → Controller) : (s.updCtrl c f).ramps = s.ramps := rfl
@[simp] theorem State.updCtrl_signpost (s : State) (c : CtrlId) (f : Controller → Controller) : (s.updCtrl c f).signpost = s.signpost := rfl
@[simp] theorem State.updCtrl_staging (s : State) (c : CtrlId) (f : Controller → Controller) : (s.updCtrl c f).staging = s.staging := rfl
@[simp] theorem State.updCtrl_mem (s : State) (c : CtrlId) (f : Controller → Controller) : (s.updCtrl c f).mem = s.mem := rfl
@[simp] theorem State.updCtrl_cal (s : State) (c : CtrlId) (f : Controller → Controller) : (s.updCtrl c f).cal = s.cal := rfl
@[simp] theorem State.updCtrl_recorder (s : State) (c : CtrlId) (f : Controller → Controller) : (s.updCtrl c f).recorder = s.recorder := rfl
@[simp] theorem State.updCtrl_milestone (s : State) (c : CtrlId) (f : Controller → Controller) : (s.updCtrl c f).milestone = s.milestone := rfl
@[simp] theorem State.updCtrl_traces (s : State) (c : CtrlId) (f : Controller → Controller) : (s.updCtrl c f).traces = s.traces := rfl
@[simp] theorem State.updCtrl_xspAin (s : State) (c : CtrlId) (f : Controller → Controller) : (s.updCtrl c f).xspAin = s.xspAin := rfl
@[simp] theorem State.updCtrl_xspDir (s : State) (c : CtrlId) (f : Controller → Controller) : (s.updCtrl c f).xspDir = s.xspDir := rfl
@[simp] theorem State.updCtrl_verge (s : State) (c : CtrlId) (f : Controller → Controller) : (s.updCtrl c f).verge = s.verge := rfl
@[simp] theorem State.updCtrl_power (s : State) (c : CtrlId) (f : Controller → Controller) : (s.updCtrl c f).power = s.power := rfl
@[simp] theorem State.updCtrl_otp (s : State) (c : CtrlId) (f : Controller → Controller) : (s.updCtrl c f).otp = s.otp := rfl

/-! The NVMe command k. -/

@[simp] theorem State.updCmd_time (s : State) (k : CmdRef) (f : Cmd → Cmd) : (s.updCmd k f).time = s.time := rfl
@[simp] theorem State.updCmd_freeCount (s : State) (k : CmdRef) (f : Cmd → Cmd) : (s.updCmd k f).freeCount = s.freeCount := rfl
@[simp] theorem State.updCmd_pending (s : State) (k : CmdRef) (f : Cmd → Cmd) : (s.updCmd k f).pending = s.pending := rfl
@[simp] theorem State.updCmd_objs (s : State) (k : CmdRef) (f : Cmd → Cmd) : (s.updCmd k f).objs = s.objs := rfl
@[simp] theorem State.updCmd_doms (s : State) (k : CmdRef) (f : Cmd → Cmd) : (s.updCmd k f).doms = s.doms := rfl
@[simp] theorem State.updCmd_pickups (s : State) (k : CmdRef) (f : Cmd → Cmd) : (s.updCmd k f).pickups = s.pickups := rfl
@[simp] theorem State.updCmd_channels (s : State) (k : CmdRef) (f : Cmd → Cmd) : (s.updCmd k f).channels = s.channels := rfl
@[simp] theorem State.updCmd_decoding (s : State) (k : CmdRef) (f : Cmd → Cmd) : (s.updCmd k f).decoding = s.decoding := rfl
@[simp] theorem State.updCmd_sides (s : State) (k : CmdRef) (f : Cmd → Cmd) : (s.updCmd k f).sides = s.sides := rfl
@[simp] theorem State.updCmd_spindles (s : State) (k : CmdRef) (f : Cmd → Cmd) : (s.updCmd k f).spindles = s.spindles := rfl
@[simp] theorem State.updCmd_axes (s : State) (k : CmdRef) (f : Cmd → Cmd) : (s.updCmd k f).axes = s.axes := rfl
@[simp] theorem State.updCmd_host (s : State) (k : CmdRef) (f : Cmd → Cmd) :
    (s.updCmd k f).host = { s.host with cmds := s.host.cmds.map fun c => if c.ref = k then f c else c } := rfl
@[simp] theorem State.updCmd_ramps (s : State) (k : CmdRef) (f : Cmd → Cmd) : (s.updCmd k f).ramps = s.ramps := rfl
@[simp] theorem State.updCmd_signpost (s : State) (k : CmdRef) (f : Cmd → Cmd) : (s.updCmd k f).signpost = s.signpost := rfl
@[simp] theorem State.updCmd_staging (s : State) (k : CmdRef) (f : Cmd → Cmd) : (s.updCmd k f).staging = s.staging := rfl
@[simp] theorem State.updCmd_mem (s : State) (k : CmdRef) (f : Cmd → Cmd) : (s.updCmd k f).mem = s.mem := rfl
@[simp] theorem State.updCmd_cal (s : State) (k : CmdRef) (f : Cmd → Cmd) : (s.updCmd k f).cal = s.cal := rfl
@[simp] theorem State.updCmd_recorder (s : State) (k : CmdRef) (f : Cmd → Cmd) : (s.updCmd k f).recorder = s.recorder := rfl
@[simp] theorem State.updCmd_milestone (s : State) (k : CmdRef) (f : Cmd → Cmd) : (s.updCmd k f).milestone = s.milestone := rfl
@[simp] theorem State.updCmd_traces (s : State) (k : CmdRef) (f : Cmd → Cmd) : (s.updCmd k f).traces = s.traces := rfl
@[simp] theorem State.updCmd_xspAin (s : State) (k : CmdRef) (f : Cmd → Cmd) : (s.updCmd k f).xspAin = s.xspAin := rfl
@[simp] theorem State.updCmd_xspDir (s : State) (k : CmdRef) (f : Cmd → Cmd) : (s.updCmd k f).xspDir = s.xspDir := rfl
@[simp] theorem State.updCmd_verge (s : State) (k : CmdRef) (f : Cmd → Cmd) : (s.updCmd k f).verge = s.verge := rfl
@[simp] theorem State.updCmd_power (s : State) (k : CmdRef) (f : Cmd → Cmd) : (s.updCmd k f).power = s.power := rfl
@[simp] theorem State.updCmd_otp (s : State) (k : CmdRef) (f : Cmd → Cmd) : (s.updCmd k f).otp = s.otp := rfl

/-! On-ramp k. -/

@[simp] theorem State.updRamp_time (s : State) (k : RampId) (f : Ramp → Ramp) : (s.updRamp k f).time = s.time := rfl
@[simp] theorem State.updRamp_freeCount (s : State) (k : RampId) (f : Ramp → Ramp) : (s.updRamp k f).freeCount = s.freeCount := rfl
@[simp] theorem State.updRamp_pending (s : State) (k : RampId) (f : Ramp → Ramp) : (s.updRamp k f).pending = s.pending := rfl
@[simp] theorem State.updRamp_objs (s : State) (k : RampId) (f : Ramp → Ramp) : (s.updRamp k f).objs = s.objs := rfl
@[simp] theorem State.updRamp_doms (s : State) (k : RampId) (f : Ramp → Ramp) : (s.updRamp k f).doms = s.doms := rfl
@[simp] theorem State.updRamp_pickups (s : State) (k : RampId) (f : Ramp → Ramp) : (s.updRamp k f).pickups = s.pickups := rfl
@[simp] theorem State.updRamp_channels (s : State) (k : RampId) (f : Ramp → Ramp) : (s.updRamp k f).channels = s.channels := rfl
@[simp] theorem State.updRamp_decoding (s : State) (k : RampId) (f : Ramp → Ramp) : (s.updRamp k f).decoding = s.decoding := rfl
@[simp] theorem State.updRamp_sides (s : State) (k : RampId) (f : Ramp → Ramp) : (s.updRamp k f).sides = s.sides := rfl
@[simp] theorem State.updRamp_spindles (s : State) (k : RampId) (f : Ramp → Ramp) : (s.updRamp k f).spindles = s.spindles := rfl
@[simp] theorem State.updRamp_axes (s : State) (k : RampId) (f : Ramp → Ramp) : (s.updRamp k f).axes = s.axes := rfl
@[simp] theorem State.updRamp_host (s : State) (k : RampId) (f : Ramp → Ramp) : (s.updRamp k f).host = s.host := rfl
@[simp] theorem State.updRamp_ramps (s : State) (k : RampId) (f : Ramp → Ramp) : (s.updRamp k f).ramps = upd s.ramps k fun r => (f r).timed r s.time := rfl
@[simp] theorem State.updRamp_signpost (s : State) (k : RampId) (f : Ramp → Ramp) : (s.updRamp k f).signpost = s.signpost := rfl
@[simp] theorem State.updRamp_staging (s : State) (k : RampId) (f : Ramp → Ramp) : (s.updRamp k f).staging = s.staging := rfl
@[simp] theorem State.updRamp_mem (s : State) (k : RampId) (f : Ramp → Ramp) : (s.updRamp k f).mem = s.mem := rfl
@[simp] theorem State.updRamp_cal (s : State) (k : RampId) (f : Ramp → Ramp) : (s.updRamp k f).cal = s.cal := rfl
@[simp] theorem State.updRamp_recorder (s : State) (k : RampId) (f : Ramp → Ramp) : (s.updRamp k f).recorder = s.recorder := rfl
@[simp] theorem State.updRamp_milestone (s : State) (k : RampId) (f : Ramp → Ramp) : (s.updRamp k f).milestone = s.milestone := rfl
@[simp] theorem State.updRamp_traces (s : State) (k : RampId) (f : Ramp → Ramp) : (s.updRamp k f).traces = s.traces := rfl
@[simp] theorem State.updRamp_xspAin (s : State) (k : RampId) (f : Ramp → Ramp) : (s.updRamp k f).xspAin = s.xspAin := rfl
@[simp] theorem State.updRamp_xspDir (s : State) (k : RampId) (f : Ramp → Ramp) : (s.updRamp k f).xspDir = s.xspDir := rfl
@[simp] theorem State.updRamp_verge (s : State) (k : RampId) (f : Ramp → Ramp) : (s.updRamp k f).verge = s.verge := rfl
@[simp] theorem State.updRamp_power (s : State) (k : RampId) (f : Ramp → Ramp) : (s.updRamp k f).power = s.power := rfl
@[simp] theorem State.updRamp_otp (s : State) (k : RampId) (f : Ramp → Ramp) : (s.updRamp k f).otp = s.otp := rfl

/-! The recorder. -/

@[simp] theorem State.updR_time (s : State) (f : Recorder → Recorder) : (s.updR f).time = s.time := rfl
@[simp] theorem State.updR_freeCount (s : State) (f : Recorder → Recorder) : (s.updR f).freeCount = s.freeCount := rfl
@[simp] theorem State.updR_pending (s : State) (f : Recorder → Recorder) : (s.updR f).pending = s.pending := rfl
@[simp] theorem State.updR_objs (s : State) (f : Recorder → Recorder) : (s.updR f).objs = s.objs := rfl
@[simp] theorem State.updR_doms (s : State) (f : Recorder → Recorder) : (s.updR f).doms = s.doms := rfl
@[simp] theorem State.updR_pickups (s : State) (f : Recorder → Recorder) : (s.updR f).pickups = s.pickups := rfl
@[simp] theorem State.updR_channels (s : State) (f : Recorder → Recorder) : (s.updR f).channels = s.channels := rfl
@[simp] theorem State.updR_decoding (s : State) (f : Recorder → Recorder) : (s.updR f).decoding = s.decoding := rfl
@[simp] theorem State.updR_sides (s : State) (f : Recorder → Recorder) : (s.updR f).sides = s.sides := rfl
@[simp] theorem State.updR_spindles (s : State) (f : Recorder → Recorder) : (s.updR f).spindles = s.spindles := rfl
@[simp] theorem State.updR_axes (s : State) (f : Recorder → Recorder) : (s.updR f).axes = s.axes := rfl
@[simp] theorem State.updR_host (s : State) (f : Recorder → Recorder) : (s.updR f).host = s.host := rfl
@[simp] theorem State.updR_ramps (s : State) (f : Recorder → Recorder) : (s.updR f).ramps = s.ramps := rfl
@[simp] theorem State.updR_signpost (s : State) (f : Recorder → Recorder) : (s.updR f).signpost = s.signpost := rfl
@[simp] theorem State.updR_staging (s : State) (f : Recorder → Recorder) : (s.updR f).staging = s.staging := rfl
@[simp] theorem State.updR_mem (s : State) (f : Recorder → Recorder) : (s.updR f).mem = s.mem := rfl
@[simp] theorem State.updR_cal (s : State) (f : Recorder → Recorder) : (s.updR f).cal = s.cal := rfl
@[simp] theorem State.updR_recorder (s : State) (f : Recorder → Recorder) : (s.updR f).recorder = f s.recorder := rfl
@[simp] theorem State.updR_milestone (s : State) (f : Recorder → Recorder) : (s.updR f).milestone = s.milestone := rfl
@[simp] theorem State.updR_traces (s : State) (f : Recorder → Recorder) : (s.updR f).traces = s.traces := rfl
@[simp] theorem State.updR_xspAin (s : State) (f : Recorder → Recorder) : (s.updR f).xspAin = s.xspAin := rfl
@[simp] theorem State.updR_xspDir (s : State) (f : Recorder → Recorder) : (s.updR f).xspDir = s.xspDir := rfl
@[simp] theorem State.updR_verge (s : State) (f : Recorder → Recorder) : (s.updR f).verge = s.verge := rfl
@[simp] theorem State.updR_power (s : State) (f : Recorder → Recorder) : (s.updR f).power = s.power := rfl
@[simp] theorem State.updR_otp (s : State) (f : Recorder → Recorder) : (s.updR f).otp = s.otp := rfl

/-! The memories. -/

@[simp] theorem State.updMem_time (s : State) (f : Mem → Mem) : (s.updMem f).time = s.time := rfl
@[simp] theorem State.updMem_freeCount (s : State) (f : Mem → Mem) : (s.updMem f).freeCount = s.freeCount := rfl
@[simp] theorem State.updMem_pending (s : State) (f : Mem → Mem) : (s.updMem f).pending = s.pending := rfl
@[simp] theorem State.updMem_objs (s : State) (f : Mem → Mem) : (s.updMem f).objs = s.objs := rfl
@[simp] theorem State.updMem_doms (s : State) (f : Mem → Mem) : (s.updMem f).doms = s.doms := rfl
@[simp] theorem State.updMem_pickups (s : State) (f : Mem → Mem) : (s.updMem f).pickups = s.pickups := rfl
@[simp] theorem State.updMem_channels (s : State) (f : Mem → Mem) : (s.updMem f).channels = s.channels := rfl
@[simp] theorem State.updMem_decoding (s : State) (f : Mem → Mem) : (s.updMem f).decoding = s.decoding := rfl
@[simp] theorem State.updMem_sides (s : State) (f : Mem → Mem) : (s.updMem f).sides = s.sides := rfl
@[simp] theorem State.updMem_spindles (s : State) (f : Mem → Mem) : (s.updMem f).spindles = s.spindles := rfl
@[simp] theorem State.updMem_axes (s : State) (f : Mem → Mem) : (s.updMem f).axes = s.axes := rfl
@[simp] theorem State.updMem_host (s : State) (f : Mem → Mem) : (s.updMem f).host = s.host := rfl
@[simp] theorem State.updMem_ramps (s : State) (f : Mem → Mem) : (s.updMem f).ramps = s.ramps := rfl
@[simp] theorem State.updMem_signpost (s : State) (f : Mem → Mem) : (s.updMem f).signpost = s.signpost := rfl
@[simp] theorem State.updMem_staging (s : State) (f : Mem → Mem) : (s.updMem f).staging = s.staging := rfl
@[simp] theorem State.updMem_mem (s : State) (f : Mem → Mem) : (s.updMem f).mem = f s.mem := rfl
@[simp] theorem State.updMem_cal (s : State) (f : Mem → Mem) : (s.updMem f).cal = s.cal := rfl
@[simp] theorem State.updMem_recorder (s : State) (f : Mem → Mem) : (s.updMem f).recorder = s.recorder := rfl
@[simp] theorem State.updMem_milestone (s : State) (f : Mem → Mem) : (s.updMem f).milestone = s.milestone := rfl
@[simp] theorem State.updMem_traces (s : State) (f : Mem → Mem) : (s.updMem f).traces = s.traces := rfl
@[simp] theorem State.updMem_xspAin (s : State) (f : Mem → Mem) : (s.updMem f).xspAin = s.xspAin := rfl
@[simp] theorem State.updMem_xspDir (s : State) (f : Mem → Mem) : (s.updMem f).xspDir = s.xspDir := rfl
@[simp] theorem State.updMem_verge (s : State) (f : Mem → Mem) : (s.updMem f).verge = s.verge := rfl
@[simp] theorem State.updMem_power (s : State) (f : Mem → Mem) : (s.updMem f).power = s.power := rfl
@[simp] theorem State.updMem_otp (s : State) (f : Mem → Mem) : (s.updMem f).otp = s.otp := rfl

/-! Calibration item i. -/

@[simp] theorem State.updItem_time (s : State) (i : Fin 92) (f : CalItem → CalItem) : (s.updItem i f).time = s.time := rfl
@[simp] theorem State.updItem_freeCount (s : State) (i : Fin 92) (f : CalItem → CalItem) : (s.updItem i f).freeCount = s.freeCount := rfl
@[simp] theorem State.updItem_pending (s : State) (i : Fin 92) (f : CalItem → CalItem) : (s.updItem i f).pending = s.pending := rfl
@[simp] theorem State.updItem_objs (s : State) (i : Fin 92) (f : CalItem → CalItem) : (s.updItem i f).objs = s.objs := rfl
@[simp] theorem State.updItem_doms (s : State) (i : Fin 92) (f : CalItem → CalItem) : (s.updItem i f).doms = s.doms := rfl
@[simp] theorem State.updItem_pickups (s : State) (i : Fin 92) (f : CalItem → CalItem) : (s.updItem i f).pickups = s.pickups := rfl
@[simp] theorem State.updItem_channels (s : State) (i : Fin 92) (f : CalItem → CalItem) : (s.updItem i f).channels = s.channels := rfl
@[simp] theorem State.updItem_decoding (s : State) (i : Fin 92) (f : CalItem → CalItem) : (s.updItem i f).decoding = s.decoding := rfl
@[simp] theorem State.updItem_sides (s : State) (i : Fin 92) (f : CalItem → CalItem) : (s.updItem i f).sides = s.sides := rfl
@[simp] theorem State.updItem_spindles (s : State) (i : Fin 92) (f : CalItem → CalItem) : (s.updItem i f).spindles = s.spindles := rfl
@[simp] theorem State.updItem_axes (s : State) (i : Fin 92) (f : CalItem → CalItem) : (s.updItem i f).axes = s.axes := rfl
@[simp] theorem State.updItem_host (s : State) (i : Fin 92) (f : CalItem → CalItem) : (s.updItem i f).host = s.host := rfl
@[simp] theorem State.updItem_ramps (s : State) (i : Fin 92) (f : CalItem → CalItem) : (s.updItem i f).ramps = s.ramps := rfl
@[simp] theorem State.updItem_signpost (s : State) (i : Fin 92) (f : CalItem → CalItem) : (s.updItem i f).signpost = s.signpost := rfl
@[simp] theorem State.updItem_staging (s : State) (i : Fin 92) (f : CalItem → CalItem) : (s.updItem i f).staging = s.staging := rfl
@[simp] theorem State.updItem_mem (s : State) (i : Fin 92) (f : CalItem → CalItem) : (s.updItem i f).mem = s.mem := rfl
@[simp] theorem State.updItem_cal (s : State) (i : Fin 92) (f : CalItem → CalItem) :
    (s.updItem i f).cal = { s.cal with items := upd s.cal.items i f } := rfl
@[simp] theorem State.updItem_recorder (s : State) (i : Fin 92) (f : CalItem → CalItem) : (s.updItem i f).recorder = s.recorder := rfl
@[simp] theorem State.updItem_milestone (s : State) (i : Fin 92) (f : CalItem → CalItem) : (s.updItem i f).milestone = s.milestone := rfl
@[simp] theorem State.updItem_traces (s : State) (i : Fin 92) (f : CalItem → CalItem) : (s.updItem i f).traces = s.traces := rfl
@[simp] theorem State.updItem_xspAin (s : State) (i : Fin 92) (f : CalItem → CalItem) : (s.updItem i f).xspAin = s.xspAin := rfl
@[simp] theorem State.updItem_xspDir (s : State) (i : Fin 92) (f : CalItem → CalItem) : (s.updItem i f).xspDir = s.xspDir := rfl
@[simp] theorem State.updItem_verge (s : State) (i : Fin 92) (f : CalItem → CalItem) : (s.updItem i f).verge = s.verge := rfl
@[simp] theorem State.updItem_power (s : State) (i : Fin 92) (f : CalItem → CalItem) : (s.updItem i f).power = s.power := rfl
@[simp] theorem State.updItem_otp (s : State) (i : Fin 92) (f : CalItem → CalItem) : (s.updItem i f).otp = s.otp := rfl

/-! What the server keeps for client c. -/

@[simp] theorem State.updClient_time (s : State) (c : Client) (f : ClientState → ClientState) : (s.updClient c f).time = s.time := rfl
@[simp] theorem State.updClient_freeCount (s : State) (c : Client) (f : ClientState → ClientState) : (s.updClient c f).freeCount = s.freeCount := rfl
@[simp] theorem State.updClient_pending (s : State) (c : Client) (f : ClientState → ClientState) : (s.updClient c f).pending = s.pending := rfl
@[simp] theorem State.updClient_objs (s : State) (c : Client) (f : ClientState → ClientState) : (s.updClient c f).objs = s.objs := rfl
@[simp] theorem State.updClient_doms (s : State) (c : Client) (f : ClientState → ClientState) : (s.updClient c f).doms = s.doms := rfl
@[simp] theorem State.updClient_pickups (s : State) (c : Client) (f : ClientState → ClientState) : (s.updClient c f).pickups = s.pickups := rfl
@[simp] theorem State.updClient_channels (s : State) (c : Client) (f : ClientState → ClientState) : (s.updClient c f).channels = s.channels := rfl
@[simp] theorem State.updClient_decoding (s : State) (c : Client) (f : ClientState → ClientState) : (s.updClient c f).decoding = s.decoding := rfl
@[simp] theorem State.updClient_sides (s : State) (c : Client) (f : ClientState → ClientState) : (s.updClient c f).sides = s.sides := rfl
@[simp] theorem State.updClient_spindles (s : State) (c : Client) (f : ClientState → ClientState) : (s.updClient c f).spindles = s.spindles := rfl
@[simp] theorem State.updClient_axes (s : State) (c : Client) (f : ClientState → ClientState) : (s.updClient c f).axes = s.axes := rfl
@[simp] theorem State.updClient_host (s : State) (c : Client) (f : ClientState → ClientState) : (s.updClient c f).host = s.host := rfl
@[simp] theorem State.updClient_ramps (s : State) (c : Client) (f : ClientState → ClientState) : (s.updClient c f).ramps = s.ramps := rfl
@[simp] theorem State.updClient_signpost (s : State) (c : Client) (f : ClientState → ClientState) :
    (s.updClient c f).signpost = { s.signpost with clients := (s.signpost.clients.filter fun x => x.client != c) ++ [f (s.client c)] } := rfl
@[simp] theorem State.updClient_staging (s : State) (c : Client) (f : ClientState → ClientState) : (s.updClient c f).staging = s.staging := rfl
@[simp] theorem State.updClient_mem (s : State) (c : Client) (f : ClientState → ClientState) : (s.updClient c f).mem = s.mem := rfl
@[simp] theorem State.updClient_cal (s : State) (c : Client) (f : ClientState → ClientState) : (s.updClient c f).cal = s.cal := rfl
@[simp] theorem State.updClient_recorder (s : State) (c : Client) (f : ClientState → ClientState) : (s.updClient c f).recorder = s.recorder := rfl
@[simp] theorem State.updClient_milestone (s : State) (c : Client) (f : ClientState → ClientState) : (s.updClient c f).milestone = s.milestone := rfl
@[simp] theorem State.updClient_traces (s : State) (c : Client) (f : ClientState → ClientState) : (s.updClient c f).traces = s.traces := rfl
@[simp] theorem State.updClient_xspAin (s : State) (c : Client) (f : ClientState → ClientState) : (s.updClient c f).xspAin = s.xspAin := rfl
@[simp] theorem State.updClient_xspDir (s : State) (c : Client) (f : ClientState → ClientState) : (s.updClient c f).xspDir = s.xspDir := rfl
@[simp] theorem State.updClient_verge (s : State) (c : Client) (f : ClientState → ClientState) : (s.updClient c f).verge = s.verge := rfl
@[simp] theorem State.updClient_power (s : State) (c : Client) (f : ClientState → ClientState) : (s.updClient c f).power = s.power := rfl
@[simp] theorem State.updClient_otp (s : State) (c : Client) (f : ClientState → ClientState) : (s.updClient c f).otp = s.otp := rfl

/-! CAN port i. -/

@[simp] theorem State.updCan_time (s : State) (i : Fin 2) (f : CanPort → CanPort) : (s.updCan i f).time = s.time := rfl
@[simp] theorem State.updCan_freeCount (s : State) (i : Fin 2) (f : CanPort → CanPort) : (s.updCan i f).freeCount = s.freeCount := rfl
@[simp] theorem State.updCan_pending (s : State) (i : Fin 2) (f : CanPort → CanPort) : (s.updCan i f).pending = s.pending := rfl
@[simp] theorem State.updCan_objs (s : State) (i : Fin 2) (f : CanPort → CanPort) : (s.updCan i f).objs = s.objs := rfl
@[simp] theorem State.updCan_doms (s : State) (i : Fin 2) (f : CanPort → CanPort) : (s.updCan i f).doms = s.doms := rfl
@[simp] theorem State.updCan_pickups (s : State) (i : Fin 2) (f : CanPort → CanPort) : (s.updCan i f).pickups = s.pickups := rfl
@[simp] theorem State.updCan_channels (s : State) (i : Fin 2) (f : CanPort → CanPort) : (s.updCan i f).channels = s.channels := rfl
@[simp] theorem State.updCan_decoding (s : State) (i : Fin 2) (f : CanPort → CanPort) : (s.updCan i f).decoding = s.decoding := rfl
@[simp] theorem State.updCan_sides (s : State) (i : Fin 2) (f : CanPort → CanPort) : (s.updCan i f).sides = s.sides := rfl
@[simp] theorem State.updCan_spindles (s : State) (i : Fin 2) (f : CanPort → CanPort) : (s.updCan i f).spindles = s.spindles := rfl
@[simp] theorem State.updCan_axes (s : State) (i : Fin 2) (f : CanPort → CanPort) : (s.updCan i f).axes = s.axes := rfl
@[simp] theorem State.updCan_host (s : State) (i : Fin 2) (f : CanPort → CanPort) : (s.updCan i f).host = s.host := rfl
@[simp] theorem State.updCan_ramps (s : State) (i : Fin 2) (f : CanPort → CanPort) : (s.updCan i f).ramps = s.ramps := rfl
@[simp] theorem State.updCan_signpost (s : State) (i : Fin 2) (f : CanPort → CanPort) :
    (s.updCan i f).signpost = { s.signpost with can := upd s.signpost.can i fun x => (f x).timed x s.time } := rfl
@[simp] theorem State.updCan_staging (s : State) (i : Fin 2) (f : CanPort → CanPort) : (s.updCan i f).staging = s.staging := rfl
@[simp] theorem State.updCan_mem (s : State) (i : Fin 2) (f : CanPort → CanPort) : (s.updCan i f).mem = s.mem := rfl
@[simp] theorem State.updCan_cal (s : State) (i : Fin 2) (f : CanPort → CanPort) : (s.updCan i f).cal = s.cal := rfl
@[simp] theorem State.updCan_recorder (s : State) (i : Fin 2) (f : CanPort → CanPort) : (s.updCan i f).recorder = s.recorder := rfl
@[simp] theorem State.updCan_milestone (s : State) (i : Fin 2) (f : CanPort → CanPort) : (s.updCan i f).milestone = s.milestone := rfl
@[simp] theorem State.updCan_traces (s : State) (i : Fin 2) (f : CanPort → CanPort) : (s.updCan i f).traces = s.traces := rfl
@[simp] theorem State.updCan_xspAin (s : State) (i : Fin 2) (f : CanPort → CanPort) : (s.updCan i f).xspAin = s.xspAin := rfl
@[simp] theorem State.updCan_xspDir (s : State) (i : Fin 2) (f : CanPort → CanPort) : (s.updCan i f).xspDir = s.xspDir := rfl
@[simp] theorem State.updCan_verge (s : State) (i : Fin 2) (f : CanPort → CanPort) : (s.updCan i f).verge = s.verge := rfl
@[simp] theorem State.updCan_power (s : State) (i : Fin 2) (f : CanPort → CanPort) : (s.updCan i f).power = s.power := rfl
@[simp] theorem State.updCan_otp (s : State) (i : Fin 2) (f : CanPort → CanPort) : (s.updCan i f).otp = s.otp := rfl

/-! The Ethernet carrier. -/

@[simp] theorem State.updEth_time (s : State) (f : Eth → Eth) : (s.updEth f).time = s.time := rfl
@[simp] theorem State.updEth_freeCount (s : State) (f : Eth → Eth) : (s.updEth f).freeCount = s.freeCount := rfl
@[simp] theorem State.updEth_pending (s : State) (f : Eth → Eth) : (s.updEth f).pending = s.pending := rfl
@[simp] theorem State.updEth_objs (s : State) (f : Eth → Eth) : (s.updEth f).objs = s.objs := rfl
@[simp] theorem State.updEth_doms (s : State) (f : Eth → Eth) : (s.updEth f).doms = s.doms := rfl
@[simp] theorem State.updEth_pickups (s : State) (f : Eth → Eth) : (s.updEth f).pickups = s.pickups := rfl
@[simp] theorem State.updEth_channels (s : State) (f : Eth → Eth) : (s.updEth f).channels = s.channels := rfl
@[simp] theorem State.updEth_decoding (s : State) (f : Eth → Eth) : (s.updEth f).decoding = s.decoding := rfl
@[simp] theorem State.updEth_sides (s : State) (f : Eth → Eth) : (s.updEth f).sides = s.sides := rfl
@[simp] theorem State.updEth_spindles (s : State) (f : Eth → Eth) : (s.updEth f).spindles = s.spindles := rfl
@[simp] theorem State.updEth_axes (s : State) (f : Eth → Eth) : (s.updEth f).axes = s.axes := rfl
@[simp] theorem State.updEth_host (s : State) (f : Eth → Eth) : (s.updEth f).host = s.host := rfl
@[simp] theorem State.updEth_ramps (s : State) (f : Eth → Eth) : (s.updEth f).ramps = s.ramps := rfl
@[simp] theorem State.updEth_signpost (s : State) (f : Eth → Eth) : (s.updEth f).signpost = { s.signpost with eth := f s.signpost.eth } := rfl
@[simp] theorem State.updEth_staging (s : State) (f : Eth → Eth) : (s.updEth f).staging = s.staging := rfl
@[simp] theorem State.updEth_mem (s : State) (f : Eth → Eth) : (s.updEth f).mem = s.mem := rfl
@[simp] theorem State.updEth_cal (s : State) (f : Eth → Eth) : (s.updEth f).cal = s.cal := rfl
@[simp] theorem State.updEth_recorder (s : State) (f : Eth → Eth) : (s.updEth f).recorder = s.recorder := rfl
@[simp] theorem State.updEth_milestone (s : State) (f : Eth → Eth) : (s.updEth f).milestone = s.milestone := rfl
@[simp] theorem State.updEth_traces (s : State) (f : Eth → Eth) : (s.updEth f).traces = s.traces := rfl
@[simp] theorem State.updEth_xspAin (s : State) (f : Eth → Eth) : (s.updEth f).xspAin = s.xspAin := rfl
@[simp] theorem State.updEth_xspDir (s : State) (f : Eth → Eth) : (s.updEth f).xspDir = s.xspDir := rfl
@[simp] theorem State.updEth_verge (s : State) (f : Eth → Eth) : (s.updEth f).verge = s.verge := rfl
@[simp] theorem State.updEth_power (s : State) (f : Eth → Eth) : (s.updEth f).power = s.power := rfl
@[simp] theorem State.updEth_otp (s : State) (f : Eth → Eth) : (s.updEth f).otp = s.otp := rfl

/-! An object of the store. -/

@[simp] theorem State.setOb_time (s : State) (r : Row) (i k : Nat) (v : Int) : (s.setOb r i k v).time = s.time := rfl
@[simp] theorem State.setOb_freeCount (s : State) (r : Row) (i k : Nat) (v : Int) : (s.setOb r i k v).freeCount = s.freeCount := rfl
@[simp] theorem State.setOb_pending (s : State) (r : Row) (i k : Nat) (v : Int) : (s.setOb r i k v).pending = s.pending := rfl
@[simp] theorem State.setOb_objs (s : State) (r : Row) (i k : Nat) (v : Int) :
    (s.setOb r i k v).objs = Sparse.put (r.default i k) s.objs (r.key i k) v := rfl
@[simp] theorem State.setOb_doms (s : State) (r : Row) (i k : Nat) (v : Int) : (s.setOb r i k v).doms = s.doms := rfl
@[simp] theorem State.setOb_pickups (s : State) (r : Row) (i k : Nat) (v : Int) : (s.setOb r i k v).pickups = s.pickups := rfl
@[simp] theorem State.setOb_channels (s : State) (r : Row) (i k : Nat) (v : Int) : (s.setOb r i k v).channels = s.channels := rfl
@[simp] theorem State.setOb_decoding (s : State) (r : Row) (i k : Nat) (v : Int) : (s.setOb r i k v).decoding = s.decoding := rfl
@[simp] theorem State.setOb_sides (s : State) (r : Row) (i k : Nat) (v : Int) : (s.setOb r i k v).sides = s.sides := rfl
@[simp] theorem State.setOb_spindles (s : State) (r : Row) (i k : Nat) (v : Int) : (s.setOb r i k v).spindles = s.spindles := rfl
@[simp] theorem State.setOb_axes (s : State) (r : Row) (i k : Nat) (v : Int) : (s.setOb r i k v).axes = s.axes := rfl
@[simp] theorem State.setOb_host (s : State) (r : Row) (i k : Nat) (v : Int) : (s.setOb r i k v).host = s.host := rfl
@[simp] theorem State.setOb_ramps (s : State) (r : Row) (i k : Nat) (v : Int) : (s.setOb r i k v).ramps = s.ramps := rfl
@[simp] theorem State.setOb_signpost (s : State) (r : Row) (i k : Nat) (v : Int) : (s.setOb r i k v).signpost = s.signpost := rfl
@[simp] theorem State.setOb_staging (s : State) (r : Row) (i k : Nat) (v : Int) : (s.setOb r i k v).staging = s.staging := rfl
@[simp] theorem State.setOb_mem (s : State) (r : Row) (i k : Nat) (v : Int) : (s.setOb r i k v).mem = s.mem := rfl
@[simp] theorem State.setOb_cal (s : State) (r : Row) (i k : Nat) (v : Int) : (s.setOb r i k v).cal = s.cal := rfl
@[simp] theorem State.setOb_recorder (s : State) (r : Row) (i k : Nat) (v : Int) : (s.setOb r i k v).recorder = s.recorder := rfl
@[simp] theorem State.setOb_milestone (s : State) (r : Row) (i k : Nat) (v : Int) : (s.setOb r i k v).milestone = s.milestone := rfl
@[simp] theorem State.setOb_traces (s : State) (r : Row) (i k : Nat) (v : Int) : (s.setOb r i k v).traces = s.traces := rfl
@[simp] theorem State.setOb_xspAin (s : State) (r : Row) (i k : Nat) (v : Int) : (s.setOb r i k v).xspAin = s.xspAin := rfl
@[simp] theorem State.setOb_xspDir (s : State) (r : Row) (i k : Nat) (v : Int) : (s.setOb r i k v).xspDir = s.xspDir := rfl
@[simp] theorem State.setOb_verge (s : State) (r : Row) (i k : Nat) (v : Int) : (s.setOb r i k v).verge = s.verge := rfl
@[simp] theorem State.setOb_power (s : State) (r : Row) (i k : Nat) (v : Int) : (s.setOb r i k v).power = s.power := rfl
@[simp] theorem State.setOb_otp (s : State) (r : Row) (i k : Nat) (v : Int) : (s.setOb r i k v).otp = s.otp := rfl

/-! A STR or DOM object. -/

@[simp] theorem State.setDom_time (s : State) (r : Row) (i k : Nat) (b : List Byte) : (s.setDom r i k b).time = s.time := rfl
@[simp] theorem State.setDom_freeCount (s : State) (r : Row) (i k : Nat) (b : List Byte) : (s.setDom r i k b).freeCount = s.freeCount := rfl
@[simp] theorem State.setDom_pending (s : State) (r : Row) (i k : Nat) (b : List Byte) : (s.setDom r i k b).pending = s.pending := rfl
@[simp] theorem State.setDom_objs (s : State) (r : Row) (i k : Nat) (b : List Byte) : (s.setDom r i k b).objs = s.objs := rfl
@[simp] theorem State.setDom_doms (s : State) (r : Row) (i k : Nat) (b : List Byte) :
    (s.setDom r i k b).doms = Sparse.put (List.replicate r.type.size 0) s.doms (r.key i k) b := rfl
@[simp] theorem State.setDom_pickups (s : State) (r : Row) (i k : Nat) (b : List Byte) : (s.setDom r i k b).pickups = s.pickups := rfl
@[simp] theorem State.setDom_channels (s : State) (r : Row) (i k : Nat) (b : List Byte) : (s.setDom r i k b).channels = s.channels := rfl
@[simp] theorem State.setDom_decoding (s : State) (r : Row) (i k : Nat) (b : List Byte) : (s.setDom r i k b).decoding = s.decoding := rfl
@[simp] theorem State.setDom_sides (s : State) (r : Row) (i k : Nat) (b : List Byte) : (s.setDom r i k b).sides = s.sides := rfl
@[simp] theorem State.setDom_spindles (s : State) (r : Row) (i k : Nat) (b : List Byte) : (s.setDom r i k b).spindles = s.spindles := rfl
@[simp] theorem State.setDom_axes (s : State) (r : Row) (i k : Nat) (b : List Byte) : (s.setDom r i k b).axes = s.axes := rfl
@[simp] theorem State.setDom_host (s : State) (r : Row) (i k : Nat) (b : List Byte) : (s.setDom r i k b).host = s.host := rfl
@[simp] theorem State.setDom_ramps (s : State) (r : Row) (i k : Nat) (b : List Byte) : (s.setDom r i k b).ramps = s.ramps := rfl
@[simp] theorem State.setDom_signpost (s : State) (r : Row) (i k : Nat) (b : List Byte) : (s.setDom r i k b).signpost = s.signpost := rfl
@[simp] theorem State.setDom_staging (s : State) (r : Row) (i k : Nat) (b : List Byte) : (s.setDom r i k b).staging = s.staging := rfl
@[simp] theorem State.setDom_mem (s : State) (r : Row) (i k : Nat) (b : List Byte) : (s.setDom r i k b).mem = s.mem := rfl
@[simp] theorem State.setDom_cal (s : State) (r : Row) (i k : Nat) (b : List Byte) : (s.setDom r i k b).cal = s.cal := rfl
@[simp] theorem State.setDom_recorder (s : State) (r : Row) (i k : Nat) (b : List Byte) : (s.setDom r i k b).recorder = s.recorder := rfl
@[simp] theorem State.setDom_milestone (s : State) (r : Row) (i k : Nat) (b : List Byte) : (s.setDom r i k b).milestone = s.milestone := rfl
@[simp] theorem State.setDom_traces (s : State) (r : Row) (i k : Nat) (b : List Byte) : (s.setDom r i k b).traces = s.traces := rfl
@[simp] theorem State.setDom_xspAin (s : State) (r : Row) (i k : Nat) (b : List Byte) : (s.setDom r i k b).xspAin = s.xspAin := rfl
@[simp] theorem State.setDom_xspDir (s : State) (r : Row) (i k : Nat) (b : List Byte) : (s.setDom r i k b).xspDir = s.xspDir := rfl
@[simp] theorem State.setDom_verge (s : State) (r : Row) (i k : Nat) (b : List Byte) : (s.setDom r i k b).verge = s.verge := rfl
@[simp] theorem State.setDom_power (s : State) (r : Row) (i k : Nat) (b : List Byte) : (s.setDom r i k b).power = s.power := rfl
@[simp] theorem State.setDom_otp (s : State) (r : Row) (i k : Nat) (b : List Byte) : (s.setDom r i k b).otp = s.otp := rfl

/-! The next free value. -/

@[simp] theorem State.freeNext_time (s : State) : (s.freeNext).time = s.time := rfl
@[simp] theorem State.freeNext_freeCount (s : State) : (s.freeNext).freeCount = s.freeCount + 1 := rfl
@[simp] theorem State.freeNext_pending (s : State) : (s.freeNext).pending = s.pending := rfl
@[simp] theorem State.freeNext_objs (s : State) : (s.freeNext).objs = s.objs := rfl
@[simp] theorem State.freeNext_doms (s : State) : (s.freeNext).doms = s.doms := rfl
@[simp] theorem State.freeNext_pickups (s : State) : (s.freeNext).pickups = s.pickups := rfl
@[simp] theorem State.freeNext_channels (s : State) : (s.freeNext).channels = s.channels := rfl
@[simp] theorem State.freeNext_decoding (s : State) : (s.freeNext).decoding = s.decoding := rfl
@[simp] theorem State.freeNext_sides (s : State) : (s.freeNext).sides = s.sides := rfl
@[simp] theorem State.freeNext_spindles (s : State) : (s.freeNext).spindles = s.spindles := rfl
@[simp] theorem State.freeNext_axes (s : State) : (s.freeNext).axes = s.axes := rfl
@[simp] theorem State.freeNext_host (s : State) : (s.freeNext).host = s.host := rfl
@[simp] theorem State.freeNext_ramps (s : State) : (s.freeNext).ramps = s.ramps := rfl
@[simp] theorem State.freeNext_signpost (s : State) : (s.freeNext).signpost = s.signpost := rfl
@[simp] theorem State.freeNext_staging (s : State) : (s.freeNext).staging = s.staging := rfl
@[simp] theorem State.freeNext_mem (s : State) : (s.freeNext).mem = s.mem := rfl
@[simp] theorem State.freeNext_cal (s : State) : (s.freeNext).cal = s.cal := rfl
@[simp] theorem State.freeNext_recorder (s : State) : (s.freeNext).recorder = s.recorder := rfl
@[simp] theorem State.freeNext_milestone (s : State) : (s.freeNext).milestone = s.milestone := rfl
@[simp] theorem State.freeNext_traces (s : State) : (s.freeNext).traces = s.traces := rfl
@[simp] theorem State.freeNext_xspAin (s : State) : (s.freeNext).xspAin = s.xspAin := rfl
@[simp] theorem State.freeNext_xspDir (s : State) : (s.freeNext).xspDir = s.xspDir := rfl
@[simp] theorem State.freeNext_verge (s : State) : (s.freeNext).verge = s.verge := rfl
@[simp] theorem State.freeNext_power (s : State) : (s.freeNext).power = s.power := rfl
@[simp] theorem State.freeNext_otp (s : State) : (s.freeNext).otp = s.otp := rfl

/-! The object store after a write. -/

/-- The element that was written. -/
theorem State.ob_setOb_self (s : State) (r : Row) (i k : Nat) (v : Int) (h : Sparse.rising none s.objs = true) : (s.setOb r i k v).ob r i k = v :=
  Sparse.get_put_self h

/-- An element of another key. -/
theorem State.ob_setOb_other (s : State) (r q : Row) (i k j l : Nat) (v : Int) (h : Sparse.rising none s.objs = true)
    (hk : q.key j l ≠ r.key i k) : (s.setOb r i k v).ob q j l = s.ob q j l := Sparse.get_put_other h hk

/-- What another update leaves of the store. -/
theorem State.ob_of_objs {s t : State} (h : t.objs = s.objs) (r : Row) (i k : Nat) : t.ob r i k = s.ob r i k := by
  unfold State.ob; rw [h]

end Sys2Proof.Machine
end

