-- ==== Sys2Proof/Laws/Basics.lean ====
section
/-! SUPPORT. What the record updates of the model may change, how the forms of Sys2Proof/Safety.lean pass through them, and what a command's
outcome may do. -/

set_option Elab.async false

namespace Sys2Proof.Machine

/-- A rounded quotient is at least the floor of the quotient. -/
theorem le_rnd (num : Int) (den : Nat) : num / (den : Int) ≤ rnd num den := by
  unfold rnd
  split
  · exact le_rfl
  · split <;> omega

theorem State.setOb_eff (s : State) (r : Row) (i k : Nat) (v : Int) : Eff [.objs] s (s.setOb r i k v) :=
  ⟨fun q hq => by cases q <;> first | exact absurd (by decide) hq | rfl,
   ⟨rfl, .refl _, fun h => ⟨Sparse.rising_put h.1, h.2⟩, id, id, id, id⟩⟩

theorem State.setDom_eff (s : State) (r : Row) (i k : Nat) (b : List Byte) : Eff [.doms] s (s.setDom r i k b) :=
  ⟨fun q hq => by cases q <;> first | exact absurd (by decide) hq | rfl,
   ⟨rfl, .refl _, fun h => ⟨h.1, Sparse.rising_put h.2⟩, id, id, id, id⟩⟩

/-- A change of one report queue that keeps its bound. -/
theorem queues_upd {v : Vector ReportQueue 48} {i : IslandId} {f : ReportQueue → ReportQueue}
    (h : (v[i]).reports.length ≤ reportQueueDepth → (f v[i]).reports.length ≤ reportQueueDepth)
    (hv : ∀ i : IslandId, (v[i]).reports.length ≤ reportQueueDepth) (j : IslandId) : ((upd v i f)[j]).reports.length ≤ reportQueueDepth := by
  rw [getElem_upd]
  split
  · rename_i e; subst e; exact h (hv _)
  · exact hv j

/-- A change of the recorder that keeps the queues' and the buffer's bound and the lease. -/
theorem State.updR_eff (s : State) (f : Recorder → Recorder)
    (hq : (∀ i : IslandId, (s.recorder.queues[i]).reports.length ≤ reportQueueDepth) →
      ∀ i : IslandId, ((f s.recorder).queues[i]).reports.length ≤ reportQueueDepth := by
        try dsimp only
        first | exact fun h => h | exact queues_upd fun h => h | exact queues_upd fun _ => Nat.zero_le _)
    (hb : s.recorder.buffer.length ≤ bufferSize → (f s.recorder).buffer.length ≤ bufferSize := by
        try dsimp only
        first | exact fun h => h | (intro h; rwa [List.length_map]))
    (hl : s.recorder.nextSeq ≤ s.recorder.leaseEnd → (f s.recorder).nextSeq ≤ (f s.recorder).leaseEnd := by
      try dsimp only
      first | exact fun h => h | exact fun _ => Nat.le_refl _ | (intro h; omega)) : Eff [.recorder] s (s.updR f) :=
  ⟨fun q hq => by cases q <;> first | exact absurd (by decide) hq | rfl, ⟨rfl, .refl _, id, id, fun h => ⟨hq h.1, hb h.2⟩, hl, id⟩⟩

/-- A stored word keeps the canonical form. -/
theorem Mem.wf_store {m : Mem} (ddr : Bool) (word : Nat) (c : Cell) (h : m.wf) : (m.store ddr word c).wf := by
  unfold Mem.store
  split
  · refine ⟨h.1, Sparse.rising_put h.2.1, fun e he => ?_⟩
    rcases Sparse.mem_put he with ⟨rfl, hd⟩ | he
    · exact hd
    · exact h.2.2 e he
  · exact ⟨Sparse.wf_put h.1, h.2⟩

/-- The form is about the stored words alone. -/
theorem Mem.wf_of_stored {m : Mem} {b : List (Nat × Nat)} {r : List (Nat × Nat × Nat)} (h : m.wf) :
    ({ m with badSpares := b, retired := r } : Mem).wf := h

/-- A copied row keeps the canonical form. -/
theorem Mem.wf_copyRow {m : Mem} (bank row : Nat) (h : m.wf) : (m.copyRow bank row).wf := by
  unfold Mem.copyRow
  generalize List.range 128 = l
  induction l generalizing m with
  | nil => exact h
  | cons i l ih =>
    rw [List.foldl_cons]
    refine ih ?_
    dsimp only
    split
    · exact h
    · split
      · exact Mem.wf_store _ _ _ h
      · split
        · exact Mem.wf_store _ _ _ h
        · exact h

theorem State.updMem_eff (s : State) (f : Mem → Mem) (h : s.mem.wf → (f s.mem).wf := by
        try dsimp only
        first | exact fun h => h | exact Mem.wf_store _ _ _ | exact Mem.wf_copyRow _ _) : Eff [.mem] s (s.updMem f) :=
  ⟨fun q hq => by cases q <;> first | exact absurd (by decide) hq | rfl, ⟨rfl, .refl _, id, h, id, id, id⟩⟩

/-- The idle timer bears on no bank. -/
theorem Ramp.ok_timed {r : Ramp} (old : Ramp) (now : Nat) (h : r.Ok) : (r.timed old now).Ok := by
  unfold Ramp.timed
  split <;> exact h

theorem State.updRamp_eff (s : State) (k : RampId) (f : Ramp → Ramp) (h : (s.ramps[k]).Ok → (f s.ramps[k]).Ok) :
    Eff [.ramps] s (s.updRamp k f) :=
  ⟨fun q hq => by cases q <;> first | exact absurd (by decide) hq | rfl,
   ⟨rfl, .refl _, id, id, id, id, fun hr j => by
      unfold State.updRamp
      rw [getElem_upd]
      split
      · rename_i e; subst e; exact Ramp.ok_timed _ _ (h (hr k))
      · exact hr j⟩⟩

/-! ### On-ramp banks (R430) -/

/-- The banks hold no more than fits. -/
def Ramp.Fits (r : Ramp) : Prop := r.filling.length ≤ r.used ∧ r.used ≤ rampDepth ∧ r.draining.length ≤ rampDepth

theorem Ramp.Ok.fits {r : Ramp} (h : r.Ok) : r.Fits := ⟨h.1, h.2.1, h.2.2.1⟩

/-- What items that enter leave of an on-ramp. -/
theorem Ramp.foldl_enter (l : List RampItem) (r : Ramp) :
    (l.foldl Ramp.enter r).filling.length = r.filling.length + l.length ∧ (l.foldl Ramp.enter r).used = r.used + l.length ∧
      (l.foldl Ramp.enter r).draining = r.draining := by
  induction l generalizing r with
  | nil => exact ⟨rfl, rfl, rfl⟩
  | cons x l ih =>
    obtain ⟨h1, h2, h3⟩ := ih (r.enter x)
    rw [List.foldl_cons]
    refine ⟨?_, ?_, h3⟩
    · rw [h1, Ramp.enter, List.length_append]; simp only [List.length_cons, List.length_nil]; omega
    · rw [h2, Ramp.enter, List.length_cons]; dsimp only; omega

/-- A swap leaves the banks in order. -/
theorem Ramp.ok_swap {r : Ramp} (h : r.Fits) (hm : r.maySwap = true) : r.swap.Ok := by
  obtain ⟨hf, hu, -⟩ := h
  have hne : r.filling ≠ [] := by
    intro e; rw [Ramp.maySwap, e] at hm; simp at hm
  unfold Ramp.swap
  dsimp only
  obtain ⟨h1, h2, h3⟩ := Ramp.foldl_enter (r.waiting.take (min rampDepth r.waiting.length))
    { r with draining := r.filling, filling := [], attention := true, fillBank := !r.fillBank, used := 0, timer := true
             waiting := r.waiting.drop (min rampDepth r.waiting.length) }
  refine ⟨?_, ?_, ?_, ?_⟩
  · rw [h1, h2]; exact Nat.le_refl _
  · rw [h2, List.length_take]; dsimp only; omega
  · rw [h3]; exact hf.trans hu
  · rintro ⟨hs, -⟩
    rw [Ramp.maySwap, h3, Bool.and_eq_true, beq_iff_eq] at hs
    exact hne hs.1

/-- An empty filling bank that takes the items that wait holds no more than fits. -/
theorem Ramp.fits_refill {r : Ramp} (h : r.Fits) : r.refill.Fits := by
  unfold Ramp.refill
  split
  · rename_i he
    dsimp only
    obtain ⟨h1, h2, h3⟩ := Ramp.foldl_enter (r.waiting.take (min rampDepth r.waiting.length))
      { r with used := 0, waiting := r.waiting.drop (min rampDepth r.waiting.length) }
    refine ⟨?_, ?_, ?_⟩
    · rw [h1, h2, beq_iff_eq.mp he]; exact Nat.le_refl _
    · rw [h2, List.length_take]; dsimp only; omega
    · rw [h3]; exact h.2.2
  · exact h

/-- A bank that settles is in order. -/
theorem Ramp.ok_settle {r : Ramp} (n u : Bool) (h : r.Fits) : (r.settle n u).Ok := by
  unfold Ramp.settle
  have h := Ramp.fits_refill h
  dsimp only
  split
  · rename_i hc
    rw [Bool.and_eq_true] at hc
    exact Ramp.ok_swap h hc.1
  · rename_i hc
    refine ⟨h.1, h.2.1, h.2.2, fun hs => hc ?_⟩
    rw [hs.1, decide_eq_true hs.2]; rfl

theorem Ramp.fits_enter {r : Ramp} (x : RampItem) (h : r.Fits) (hu : r.used < rampDepth) : (r.enter x).Fits :=
  ⟨by rw [Ramp.enter, List.length_append]; exact Nat.add_le_add_right h.1 1, hu, h.2.2⟩

/-- Items that leave make the banks no fuller. -/
theorem Ramp.fits_of_le {r q : Ramp} (h : r.Fits) (hf : q.filling.length ≤ r.filling.length) (hu : q.used = r.used)
    (hd : q.draining.length ≤ r.draining.length) : q.Fits :=
  ⟨hf.trans (hu ▸ h.1), hu ▸ h.2.1, hd.trans h.2.2⟩

theorem Ramp.fits_remove {r : Ramp} {x : RampItem} (h : r.Fits) : (r.remove x).Fits :=
  Ramp.fits_of_le h (List.length_filter_le _ _) rfl (List.length_filter_le _ _)

/-- A change of every on-ramp. -/
theorem State.mapRamps_eff (s : State) (f : Ramp → Ramp) (h : ∀ r : Ramp, r.Ok → (f r).Ok) : Eff [.ramps] s { s with ramps := s.ramps.map f } :=
  ⟨fun q hq => by cases q <;> first | exact absurd (by decide) hq | rfl,
   ⟨rfl, .refl _, id, id, id, id, fun hr j => by
      show ((s.ramps.map f)[j]).Ok
      rw [Fin.getElem_fin, Vector.getElem_map]
      exact h _ (hr j)⟩⟩

/-- A change of an on-ramp, after changes that started in a state with banks in order. -/
theorem State.updRamp_after {b : List Part} {s0 s : State} {k : RampId} {f : Ramp → Ramp} (h0 : Eff b s0 s)
    (h : (s0.ramps[k]).Ok → (s.ramps[k]).Ok → (f s.ramps[k]).Ok) (hs : partsIn [.ramps] b = true := by decide) : Eff b s0 (s.updRamp k f) := by
  by_cases hr : s0.RampsOk
  · exact (State.updRamp_eff s k f (h (hr k))).after h0 hs
  · have hg := h0.good
    refine ⟨h0.frame.trans fun q hq => ?_, hg.pending, hg.otp, hg.objects, hg.mem, hg.bounded, hg.leased, fun h => absurd h hr⟩
    cases q <;> first | exact absurd (subset_of_partsIn hs (by decide)) hq | rfl

theorem State.bump_eff (s : State) (r : Row) (i k : Nat) (n : Nat) : Eff [.objs] s (s.bump r i k n) := s.setOb_eff ..

theorem State.push_eff (s : State) (src : IslandId) (r : Report) : Eff [.objs, .recorder] s (s.push src r) := by
  delta State.push
  extract_lets q
  split
  · rename_i h
    refine Eff.mono (State.updR_eff _ _ (queues_upd fun _ => ?_))
    rw [List.length_append]; exact h
  · refine Eff.after (State.bump_eff ..) ?_
    exact Eff.mono (State.updR_eff ..)

theorem State.writeHeader_eff (s : State) (f : StoreHeader → StoreHeader) : Eff [.recorder] s (s.writeHeader f) := by
  unfold State.writeHeader
  split
  · exact .refl _ _
  · exact State.updR_eff ..

/-- The lease end covers the numbers that are taken, whatever was covered before. -/
theorem State.takeSeq_eff (s : State) (n : Nat) (hn : n ≤ 65536 := by decide) : Eff [.recorder, .verge] s (s.takeSeq n) := by
  unfold State.takeSeq State.renewLease
  split
  · rename_i h
    replace h : s.recorder.leaseEnd ≤ s.recorder.nextSeq + n + 16384 := h
    refine (State.writeHeader_eff _ _).after ?_
    have hb : Eff [.recorder] s (s.updR fun r => { r with nextSeq := r.nextSeq + n, leaseEnd := s.recorder.leaseEnd + 65536 }) :=
      State.updR_eff _ _ (hl := fun hl => by simp only; omega)
    exact Eff.put hb.mono
  · rename_i h
    replace h : ¬ s.recorder.leaseEnd ≤ s.recorder.nextSeq + n + 16384 := h
    exact Eff.mono (State.updR_eff _ _ (hl := fun hl => by simp only; omega))

theorem lastN_length {α : Type} (n : Nat) (l : List α) : (lastN n l).length ≤ n := by
  unfold lastN; rw [List.length_drop]; omega

theorem State.buffered_eff (s : State) (r : Record) : Eff [.recorder] s (s.buffered r) :=
  State.updR_eff s _ (hb := fun _ => by dsimp only; apply lastN_length)

/-- The state after reset has every form. -/
theorem State.reset_doms : State.reset.doms = [] := rfl
theorem State.reset_mem : State.reset.mem = {} := rfl
theorem State.reset_ramps : State.reset.ramps = .replicate 64 {} := rfl

theorem Mem.wf_empty : ({} : Mem).wf := ⟨rfl, rfl, fun _ h => absurd h List.not_mem_nil⟩

theorem Ramp.ok_empty : ({} : Ramp).Ok := by simp [Ramp.Ok, Ramp.maySwap]

/-- A recorder whose queues and buffer are empty. -/
theorem Recorder.bounded_empty {r : Recorder} (hq : r.queues = .replicate 48 {}) (hb : r.buffer = []) : r.Bounded := by
  refine ⟨fun i => ?_, by rw [hb]; exact Nat.zero_le _⟩
  have : r.queues[i] = {} := by rw [hq]; simp
  rw [this]; exact Nat.zero_le _

theorem State.loseIslands_eff (s : State) (cause : Nat) : Eff [.objs, .doms, .pickups, .channels, .decoding, .sides, .spindles, .axes, .host, .ramps, .signpost, .staging, .mem, .cal, .recorder, .milestone, .traces, .xspAin, .xspDir, .power] s (s.loseIslands cause) := by
  delta State.loseIslands
  extract_lets r p z t
  refine Eff.after (State.setOb_eff t _ _ _ _) ?_
  have hd : z.doms = [] := State.reset_doms
  have hm : z.mem = {} := State.reset_mem
  have hr : z.ramps = .replicate 64 {} := State.reset_ramps
  clear_value r p z
  subst t
  refine ⟨fun q hq => by cases q <;> first | exact absurd (by decide) hq | rfl,
    ⟨rfl, .refl _, fun h => ⟨Sparse.rising_filter h.1, by rw [hd]; rfl⟩, fun _ => by rw [hm]; exact Mem.wf_empty,
      fun _ => Recorder.bounded_empty (by rfl) (by rfl), fun _ => Nat.le_refl 0, fun _ k => ?_⟩⟩
  have : z.ramps[k] = {} := by rw [hr]; simp
  show (z.ramps[k]).Ok
  rw [this]; exact Ramp.ok_empty

/-! ### Outcomes -/

/-- What a command's outcome may do. -/
def OutEff (l : List Part) (s : State) (o : Out) : Prop := ∀ t, o = .next t → Eff l s t

/-- A command is looked at from the state before it. -/
theorem OutEff.start {l : List Part} {s : State} {o : Out} (h : Eff l s s → OutEff l s o) : OutEff l s o := h (.refl _ _)

theorem OutEff.next {l : List Part} {s t : State} (h : Eff l s t) : OutEff l s (.next t) := fun u hu => by cases hu; exact h
theorem OutEff.fault {l : List Part} {s : State} (f : Fault) : OutEff l s (.fault f) := fun _ hu => by cases hu
theorem OutEff.after {a b : List Part} {s0 s : State} {o : Out} (h : OutEff a s o) (h0 : Eff b s0 s) (hs : partsIn a b = true := by decide) :
    OutEff b s0 o := fun t ht => (h t ht).after h0 hs
theorem OutEff.ite {l : List Part} {s0 : State} {a b : Out} {c : Prop} [Decidable c] (ha : OutEff l s0 a) (hb : OutEff l s0 b) :
    OutEff l s0 (if c then a else b) := by split <;> assumption
theorem OutEff.dite {l : List Part} {s0 : State} {c : Prop} [Decidable c] {a : c → Out} {b : ¬c → Out} (ha : ∀ h, OutEff l s0 (a h))
    (hb : ∀ h, OutEff l s0 (b h)) : OutEff l s0 (dite c a b) := by
  split
  · exact ha _
  · exact hb _

theorem State.when_effs {l : List Part} {s0 s : State} {c : Bool} {f : State → State} (h : Eff l s0 s)
    (hf : ∀ u, Eff l s0 u → Eff l s0 (f u)) : OutEff l s0 (s.when c f) :=
  .next (.ite (hf _ h) h)

theorem State.after_eff {l : List Part} {s0 s : State} {o : Out} (h : Eff l s0 s) (ho : OutEff l s0 o) : Eff l s0 (s.after o) := by
  unfold State.after
  split
  · exact ho _ rfl
  · exact h

end Sys2Proof.Machine
end

