-- ==== Sys2Proof/Laws/Ops.lean ====
section
/-! SUPPORT. What each operation of Sys2Proof/Machine/Ops.lean may change: `x_eff` names the parts of the state that x may change and says that
x keeps every form of Sys2Proof/Safety.lean; `x_effs` says so of an operation with operations as arguments, under the same of each argument. -/

set_option Elab.async false

namespace Sys2Proof.Machine

theorem State.updS_eff (s : State) (p : PickupId) (f : Side → Side) : Eff [.sides] s (State.updS s p f) := by
  delta State.updS
  refine Eff.start fun h0 => ?_
  refine Eff.put ?_
  assumption

theorem State.updCtrl_eff (s : State) (c : CtrlId) (f : Controller → Controller) : Eff [.host] s (State.updCtrl s c f) := by
  delta State.updCtrl
  refine Eff.start fun h0 => ?_
  refine Eff.put ?_
  assumption

theorem State.report_eff (s : State) (src : IslandId) (code : Nat) (payload : List Int) :
    Eff [.objs, .recorder] s (State.report s src code payload) := by
  delta State.report
  refine Eff.start fun h0 => ?_
  refine Eff.after (State.push_eff _ _ _) ?_
  assumption

theorem State.updChannels_eff (s : State) (p : PickupId) (f : Channel → Channel) : Eff [.channels] s (State.updChannels s p f) := by
  delta State.updChannels
  refine Eff.start fun h0 => ?_
  refine Eff.put ?_
  assumption

theorem State.updA_eff (s : State) (a : AxisId) (f : Axis → Axis) : Eff [.axes] s (State.updA s a f) := by
  delta State.updA
  refine Eff.start fun h0 => ?_
  refine Eff.put ?_
  assumption

theorem State.updP_eff (s : State) (p : PickupId) (f : Pickup → Pickup) : Eff [.pickups] s (State.updP s p f) := by
  delta State.updP
  refine Eff.start fun h0 => ?_
  refine Eff.put ?_
  assumption

theorem State.trigger_eff (s : State) (bit : Nat) (detail : Nat) : Eff [.milestone] s (State.trigger s bit detail) := by
  delta State.trigger
  refine Eff.start fun h0 => ?_
  refine Eff.ite ?_ ?_
  · refine Eff.put ?_
    assumption
  · assumption

theorem State.setKey_eff (s : State) (key : Nat) (v : Int) : Eff [.objs] s (State.setKey s key v) := by
  delta State.setKey
  refine Eff.start fun h0 => ?_
  split
  · refine Eff.after (State.setOb_eff _ _ _ _ _) ?_
    assumption
  · assumption

theorem State.freeNext_eff (s : State) : Eff [.freeCount] s (State.freeNext s) := by
  delta State.freeNext
  refine Eff.start fun h0 => ?_
  refine Eff.put ?_
  assumption

theorem State.maxOb_eff (s : State) (r : Row) (i : Nat) (k : Nat) (v : Int) : Eff [.objs] s (State.maxOb s r i k v) := by
  delta State.maxOb
  refine Eff.start fun h0 => ?_
  refine Eff.ite ?_ ?_
  · refine Eff.after (State.setOb_eff _ _ _ _ _) ?_
    assumption
  · assumption

theorem State.updC_eff (s : State) (g : BeamId) (f : Channel → Channel) : Eff [.channels] s (State.updC s g f) := by
  delta State.updC
  refine Eff.start fun h0 => ?_
  refine Eff.put ?_
  assumption

theorem State.updM_eff (s : State) (i : SpindleId) (f : Spindle → Spindle) : Eff [.spindles] s (State.updM s i f) := by
  delta State.updM
  refine Eff.start fun h0 => ?_
  refine Eff.put ?_
  assumption

end Sys2Proof.Machine
end

