-- ==== Sys2Proof/Laws/Access.lean ====
section
/-! SUPPORT. What each operation of Sys2Proof/Machine/Access.lean may change: `x_eff` names the parts of the state that x may change and says that
x keeps every form of Sys2Proof/Safety.lean; `x_effs` says so of an operation with operations as arguments, under the same of each argument. -/

set_option Elab.async false

namespace Sys2Proof.Machine

theorem State.answer_eff (s : State) (abort : Option Nat) (data : optParam (List Byte) []) (session : optParam Nat 0) :
    Eff [.freeCount, .objs, .signpost] s (State.answer s abort data session) := by
  delta State.answer
  refine Eff.start fun h0 => ?_
  extract_lets -merge -underBinder +onlyGivenNames y0 y1
  refine h0.named (x := y1) ?_ fun _ => ?_
  · subst y1
    subst y0
    refine Eff.put ?_
    assumption
  clear_value y0 y1
  extract_lets -merge -underBinder +onlyGivenNames y2
  refine h0.named (x := y2) ?_ fun _ => ?_
  · subst y2
    refine Eff.after (State.maxOb_eff _ _ _ _ _) ?_
    refine Eff.after (State.bump_eff _ _ _ _ _) ?_
    assumption
  clear_value y2
  extract_lets -merge -underBinder +onlyGivenNames y3
  refine h0.named (x := y3) ?_ fun _ => ?_
  · subst y3
    refine Eff.after (State.freeNext_eff _) ?_
    assumption
  clear_value y3
  split
  · assumption
  · refine Eff.after (State.setOb_eff _ _ _ _ _) ?_
    refine Eff.after (State.bump_eff _ _ _ _ _) ?_
    assumption

theorem State.recordWrite_eff (s : State) (cl : Client) (key : Nat) : Eff [.objs, .recorder] s (State.recordWrite s cl key) := by
  delta State.recordWrite
  refine Eff.start fun h0 => ?_
  refine Eff.after (State.report_eff _ _ _ _) ?_
  assumption

theorem State.hostWriteOr_effs {l : List Part} {s0 : State} {s : State} {cl : Client} {r : Row} {i : Nat} {k : Nat} {v : Int} {bad : Bool} {busy : Bool} {onBusy : State → State} {effect : State → State} (h : Eff l s0 s) (h_onBusy : ∀ u, Eff l s0 u → Eff l s0 (onBusy u)) (h_effect : ∀ u, Eff l s0 u → Eff l s0 (effect u)) (hs : partsIn [.freeCount, .objs, .signpost, .recorder] l = true := by decide) :
    Eff l s0 (State.hostWriteOr s cl r i k v bad busy onBusy effect) := by
  delta State.hostWriteOr
  refine Eff.ite ?_ ?_
  · assumption
  · refine Eff.ite ?_ ?_
    · refine Eff.after (State.answer_eff _ _ _ _) ?_ (partsIn_trans (by decide) hs)
      assumption
    · refine Eff.ite ?_ ?_
      · refine Eff.after (State.answer_eff _ _ _ _) ?_ (partsIn_trans (by decide) hs)
        assumption
      · refine Eff.ite ?_ ?_
        · refine h_onBusy _ ?_
          refine Eff.after (State.answer_eff _ _ _ _) ?_ (partsIn_trans (by decide) hs)
          assumption
        · refine Eff.after (State.answer_eff _ _ _ _) ?_ (partsIn_trans (by decide) hs)
          refine h_effect _ ?_
          refine Eff.after (State.recordWrite_eff _ _ _) ?_ (partsIn_trans (by decide) hs)
          assumption

theorem State.hostWrite_effs {l : List Part} {s0 : State} {s : State} {cl : Client} {r : Row} {i : Nat} {k : Nat} {v : Int} {bad : Bool} {busy : Bool} {effect : State → State} (h : Eff l s0 s) (h_effect : ∀ u, Eff l s0 u → Eff l s0 (effect u)) (hs : partsIn [.freeCount, .objs, .signpost, .recorder] l = true := by decide) :
    Eff l s0 (State.hostWrite s cl r i k v bad busy effect) := by
  delta State.hostWrite
  refine State.hostWriteOr_effs ?_ (fun _ _ => ?_) (fun _ _ => ?_) (partsIn_trans (by decide) hs)
  · assumption
  · assumption
  · refine h_effect _ ?_
    assumption

end Sys2Proof.Machine
end

