-- ==== Sys2Proof/Laws/HostOps.lean ====
section
/-! SUPPORT. What each operation of Sys2Proof/Machine/HostOps.lean may change: `x_eff` names the parts of the state that x may change and says that
x keeps every form of Sys2Proof/Safety.lean; `x_effs` says so of an operation with operations as arguments, under the same of each argument. -/

set_option Elab.async false

namespace Sys2Proof.Machine

theorem State.noteEnded_eff (s : State) (ends : Cmd → Bool) : Eff [.host] s (State.noteEnded s ends) := by
  delta State.noteEnded
  refine Eff.start fun h0 => ?_
  extract_lets -merge -underBinder +onlyGivenNames y0
  try clear_value y0
  refine Eff.put ?_
  assumption

theorem State.updCmd_eff (s : State) (k : CmdRef) (f : Cmd → Cmd) : Eff [.host] s (State.updCmd s k f) := by
  delta State.updCmd
  refine Eff.start fun h0 => ?_
  refine Eff.put ?_
  assumption

theorem State.finishCmd_eff (s : State) (k : CmdRef) (st : Status) : Eff [.host] s (State.finishCmd s k st) := by
  delta State.finishCmd
  refine Eff.start fun h0 => ?_
  refine Eff.after (State.updCmd_eff _ _ _) ?_
  refine Eff.after (State.noteEnded_eff _ _) ?_
  assumption

theorem State.updZone_eff (s : State) (p : PickupId) (z : Nat) (f : Zone → Zone) : Eff [.sides] s (State.updZone s p z f) := by
  delta State.updZone
  refine Eff.start fun h0 => ?_
  refine Eff.after (State.updS_eff _ _ _) ?_
  assumption

theorem State.asyncEvent_eff (s : State) (c : CtrlId) (kind : Nat) (info : Nat) : Eff [.host] s (State.asyncEvent s c kind info) := by
  delta State.asyncEvent
  refine Eff.start fun h0 => ?_
  split
  · refine Eff.after (State.updCtrl_eff _ _ _) ?_
    assumption
  · refine Eff.after (State.finishCmd_eff _ _ _) ?_
    refine Eff.after (State.updCmd_eff _ _ _) ?_
    refine Eff.after (State.updCtrl_eff _ _ _) ?_
    assumption

theorem State.zoneNotice_eff (s : State) (p : PickupId) (z : Nat) (ctrl : Nat) :
    Eff [.objs, .sides, .host, .recorder] s (State.zoneNotice s p z ctrl) := by
  delta State.zoneNotice
  refine Eff.start fun h0 => ?_
  extract_lets -merge -underBinder +onlyGivenNames y0
  refine h0.named (x := y0) ?_ fun _ => ?_
  · subst y0
    refine Eff.after (State.updS_eff _ _ _) ?_
    assumption
  clear_value y0
  extract_lets -merge -underBinder +onlyGivenNames y1
  refine h0.named (x := y1) ?_ fun _ => ?_
  · subst y1
    refine Eff.forEach ?_ fun _ _ _ => ?_
    · assumption
    · refine Eff.ite ?_ ?_
      · refine Eff.after (State.asyncEvent_eff _ _ _ _) ?_
        assumption
      · assumption
  clear_value y1
  refine Eff.after (State.report_eff _ _ _ _) ?_
  assumption

theorem State.zoneReadOnly_eff (s : State) (p : PickupId) (z : Nat) : Eff [.objs, .sides, .host, .recorder] s (State.zoneReadOnly s p z) := by
  delta State.zoneReadOnly
  refine Eff.start fun h0 => ?_
  refine Eff.ite ?_ ?_
  · assumption
  · refine Eff.after (State.zoneNotice_eff _ _ _ _) ?_
    refine Eff.after (State.updZone_eff _ _ _ _) ?_
    assumption

theorem State.setEntry_eff (s : State) (p : PickupId) (layer : Nat) (q : Nat) (e : MapEntry) : Eff [.sides] s (State.setEntry s p layer q e) := by
  delta State.setEntry
  refine Eff.start fun h0 => ?_
  refine Eff.ite ?_ ?_
  · assumption
  · refine Eff.after (State.updS_eff _ _ _) ?_
    assumption

theorem State.commit_eff (s : State) (k : CmdRef) : Eff [.host] s (State.commit s k) := by
  delta State.commit
  refine Eff.start fun h0 => ?_
  split
  · refine Eff.ite ?_ ?_
    · assumption
    · refine Eff.after (State.updCtrl_eff _ _ _) ?_
      refine Eff.after (State.updCmd_eff _ _ _) ?_
      assumption
  · assumption

theorem State.dropLine_eff (s : State) (line : Nat) : Eff [.mem] s (State.dropLine s line) := by
  delta State.dropLine
  refine Eff.start fun h0 => ?_
  refine Eff.after (State.updMem_eff _ _) ?_
  assumption

theorem State.namespaceNotice_eff (s : State) (p : PickupId) : Eff [.host] s (State.namespaceNotice s p) := by
  delta State.namespaceNotice
  refine Eff.start fun h0 => ?_
  refine Eff.forEach ?_ fun _ _ _ => ?_
  · assumption
  · refine Eff.ite ?_ ?_
    · refine Eff.after (State.asyncEvent_eff _ _ _ _) ?_
      refine Eff.after (State.updCtrl_eff _ _ _) ?_
      assumption
    · assumption

end Sys2Proof.Machine
end

