-- ==== Sys2Proof/Laws/RunOps.lean ====
section
/-! SUPPORT. What each operation of Sys2Proof/Machine/RunOps.lean may change: `x_eff` names the parts of the state that x may change and says that
x keeps every form of Sys2Proof/Safety.lean; `x_effs` says so of an operation with operations as arguments, under the same of each argument. -/

set_option Elab.async false

namespace Sys2Proof.Machine

theorem State.giveUpCluster_eff (s : State) (p : PickupId) (zone : Nat) (cluster : Nat) (cmds : List CmdRef) :
    Eff [.objs, .sides, .host, .recorder] s (State.giveUpCluster s p zone cluster cmds) := by
  delta State.giveUpCluster
  refine Eff.start fun h0 => ?_
  extract_lets -merge -underBinder +onlyGivenNames y0
  refine h0.named (x := y0) ?_ fun _ => ?_
  · subst y0
    refine Eff.forEach ?_ fun _ _ _ => ?_
    · assumption
    · refine Eff.after (State.finishCmd_eff _ _ _) ?_
      assumption
  clear_value y0
  extract_lets -merge -underBinder +onlyGivenNames y1
  refine h0.named (x := y1) ?_ fun _ => ?_
  · subst y1
    refine Eff.after (State.updS_eff _ _ _) ?_
    assumption
  clear_value y1
  refine Eff.after (State.zoneReadOnly_eff _ _ _) ?_
  assumption

theorem State.pendRecord_eff (s : State) (p : PickupId) (r : JournalRecord) : Eff [.sides] s (State.pendRecord s p r) := by
  delta State.pendRecord
  refine Eff.start fun h0 => ?_
  refine Eff.after (State.updS_eff _ _ _) ?_
  assumption

theorem State.markUnusable_eff (s : State) (p : PickupId) (layer : Nat) (q : Nat) (reason : Nat) :
    Eff [.sides] s (State.markUnusable s p layer q reason) := by
  delta State.markUnusable
  refine Eff.start fun h0 => ?_
  extract_lets -merge -underBinder +onlyGivenNames y0
  try clear_value y0
  refine Eff.after (State.pendRecord_eff _ _ _) ?_
  refine Eff.after (State.setEntry_eff _ _ _ _ _) ?_
  assumption

theorem State.recordSparesExhausted_eff (s : State) (p : PickupId) : Eff [.objs, .sides, .recorder] s (State.recordSparesExhausted s p) := by
  delta State.recordSparesExhausted
  refine Eff.start fun h0 => ?_
  refine Eff.ite ?_ ?_
  · assumption
  · refine Eff.after (State.report_eff _ _ _ _) ?_
    refine Eff.after (State.updS_eff _ _ _) ?_
    assumption

theorem State.needSpare_eff (s : State) (p : PickupId) (r : Replacement) : Eff [.objs, .sides, .host, .recorder] s (State.needSpare s p r) := by
  delta State.needSpare
  refine Eff.start fun h0 => ?_
  split
  · refine Eff.after (State.updS_eff _ _ _) ?_
    assumption
  · refine Eff.after (State.giveUpCluster_eff _ _ _ _ _) ?_
    refine Eff.after (State.recordSparesExhausted_eff _ _) ?_
    assumption

theorem State.systemCut_eff (s : State) (p : PickupId) (r : Run) (c : RunCluster) (reason : Nat) :
    Eff [.objs, .recorder] s (State.systemCut s p r c reason) := by
  delta State.systemCut
  refine Eff.start fun h0 => ?_
  refine Eff.ite ?_ ?_
  · assumption
  · refine Eff.after (State.report_eff _ _ _ _) ?_
    assumption

theorem State.clusterFails_eff (s : State) (p : PickupId) (r : Run) (c : RunCluster) (reason : Nat) :
    Eff [.objs, .sides, .host, .recorder] s (State.clusterFails s p r c reason) := by
  delta State.clusterFails
  refine Eff.start fun h0 => ?_
  split
  · refine Eff.after (State.needSpare_eff _ _ _) ?_
    refine Eff.after (State.markUnusable_eff _ _ _ _ _) ?_
    assumption
  · extract_lets -merge -underBinder +onlyGivenNames y0
    refine h0.named (x := y0) ?_ fun _ => ?_
    · subst y0
      refine Eff.after (State.markUnusable_eff _ _ _ _ _) ?_
      assumption
    clear_value y0
    extract_lets -merge -underBinder +onlyGivenNames y1
    refine h0.named (x := y1) ?_ fun _ => ?_
    · subst y1
      refine Eff.after (State.updS_eff _ _ _) ?_
      assumption
    clear_value y1
    split
    · assumption
    · refine Eff.ite ?_ ?_
      · refine Eff.after (State.giveUpCluster_eff _ _ _ _ _) ?_
        assumption
      · refine Eff.ite ?_ ?_
        · refine Eff.after (State.giveUpCluster_eff _ _ _ _ _) ?_
          refine Eff.after (State.recordSparesExhausted_eff _ _) ?_
          assumption
        · assumption
  · refine Eff.after (State.updS_eff _ _ _) ?_
    refine Eff.after (State.systemCut_eff _ _ _ _ _) ?_
    assumption
  · refine Eff.after (State.updS_eff _ _ _) ?_
    refine Eff.after (State.systemCut_eff _ _ _ _ _) ?_
    assumption
  · refine Eff.after (State.report_eff _ _ _ _) ?_
    refine Eff.after (State.systemCut_eff _ _ _ _ _) ?_
    assumption

theorem State.recordInterrupted_eff (s : State) (p : PickupId) (r : Run) (i : Interrupt) (unusable : RunCluster → Bool) :
    Eff [.objs, .recorder] s (State.recordInterrupted s p r i unusable) := by
  delta State.recordInterrupted
  refine Eff.start fun h0 => ?_
  refine Eff.after (State.report_eff _ _ _ _) ?_
  assumption

theorem State.stopBeams_eff (s : State) (p : PickupId) : Eff [.channels] s (State.stopBeams s p) := by
  delta State.stopBeams
  refine Eff.start fun h0 => ?_
  refine Eff.after (State.updChannels_eff _ _ _) ?_
  assumption

theorem State.abandonRun_eff (s : State) (p : PickupId) (i : Interrupt) :
    Eff [.objs, .channels, .sides, .host, .recorder] s (State.abandonRun s p i) := by
  delta State.abandonRun
  refine Eff.start fun h0 => ?_
  extract_lets -merge -underBinder +onlyGivenNames y0
  refine h0.named (x := y0) ?_ fun _ => ?_
  · subst y0
    refine Eff.after (State.stopBeams_eff _ _) ?_
    assumption
  clear_value y0
  split
  · assumption
  · extract_lets -merge -underBinder +onlyGivenNames y1 y2
    try clear_value y1 y2
    extract_lets -merge -underBinder +onlyGivenNames y3
    refine h0.named (x := y3) ?_ fun _ => ?_
    · subst y3
      refine Eff.forEach ?_ fun _ _ _ => ?_
      · assumption
      · refine Eff.ite ?_ ?_
        · refine Eff.after (State.markUnusable_eff _ _ _ _ _) ?_
          assumption
        · refine Eff.after (State.clusterFails_eff _ _ _ _ _) ?_
          assumption
    clear_value y3
    extract_lets -merge -underBinder +onlyGivenNames y4
    refine h0.named (x := y4) ?_ fun _ => ?_
    · subst y4
      refine Eff.after (State.updS_eff _ _ _) ?_
      assumption
    clear_value y4
    refine Eff.after (State.recordInterrupted_eff _ _ _ _ _) ?_
    assumption

theorem State.journalFull_eff (s : State) (p : PickupId) : Eff [.objs, .sides, .host, .recorder] s (State.journalFull s p) := by
  delta State.journalFull
  refine Eff.start fun h0 => ?_
  extract_lets -merge -underBinder +onlyGivenNames y0
  try clear_value y0
  extract_lets -merge -underBinder +onlyGivenNames y1
  refine h0.named (x := y1) ?_ fun _ => ?_
  · subst y1
    refine Eff.ite ?_ ?_
    · assumption
    · refine Eff.after (State.report_eff _ _ _ _) ?_
      refine Eff.after (State.updS_eff _ _ _) ?_
      assumption
  clear_value y1
  refine Eff.forEach ?_ fun _ _ _ => ?_
  · assumption
  · refine Eff.ite ?_ ?_
    · refine Eff.after (State.zoneReadOnly_eff _ _ _) ?_
      assumption
    · assumption

theorem State.dropOpening_eff (s : State) (p : PickupId) (z : Nat) : Eff [.sides, .host] s (State.dropOpening s p z) := by
  delta State.dropOpening
  refine Eff.start fun h0 => ?_
  extract_lets -merge -underBinder +onlyGivenNames y0
  refine h0.named (x := y0) ?_ fun _ => ?_
  · subst y0
    refine Eff.forEach ?_ fun _ _ _ => ?_
    · assumption
    · refine Eff.after (State.finishCmd_eff _ _ _) ?_
      assumption
  clear_value y0
  extract_lets -merge -underBinder +onlyGivenNames y1
  refine h0.named (x := y1) ?_ fun _ => ?_
  · subst y1
    refine Eff.after (State.updS_eff _ _ _) ?_
    assumption
  clear_value y1
  refine Eff.after (State.updZone_eff _ _ _ _) ?_
  assumption

theorem State.dropPair_eff (s : State) (p : PickupId) (j : JournalPair) : Eff [.objs, .sides, .host, .recorder] s (State.dropPair s p j) := by
  delta State.dropPair
  refine Eff.start fun h0 => ?_
  extract_lets -merge -underBinder +onlyGivenNames y0
  refine h0.named (x := y0) ?_ fun _ => ?_
  · subst y0
    refine Eff.forEach ?_ fun _ _ _ => ?_
    · assumption
    · refine Eff.after (State.finishCmd_eff _ _ _) ?_
      assumption
  clear_value y0
  extract_lets -merge -underBinder +onlyGivenNames y1
  refine h0.named (x := y1) ?_ fun _ => ?_
  · subst y1
    refine Eff.forEach ?_ fun _ _ _ => ?_
    · assumption
    · split
      · refine Eff.after (State.dropOpening_eff _ _ _) ?_
        assumption
      · assumption
  clear_value y1
  extract_lets -merge -underBinder +onlyGivenNames y2
  refine h0.named (x := y2) ?_ fun _ => ?_
  · subst y2
    refine Eff.forEach ?_ fun _ _ _ => ?_
    · assumption
    · split
      · refine Eff.after (State.zoneReadOnly_eff _ _ _) ?_
        assumption
      · assumption
  clear_value y2
  refine Eff.after (State.updS_eff _ _ _) ?_
  assumption

theorem State.parkRuns_eff (s : State) (p : PickupId) : Eff [.objs, .channels, .sides, .host, .recorder] s (State.parkRuns s p) := by
  delta State.parkRuns
  refine Eff.start fun h0 => ?_
  extract_lets -merge -underBinder +onlyGivenNames y0 y1 y2 y3 y4
  try clear_value y0 y1 y2 y3 y4
  extract_lets -merge -underBinder +onlyGivenNames y5
  refine h0.named (x := y5) ?_ fun _ => ?_
  · subst y5
    refine Eff.after (State.abandonRun_eff _ _ _) ?_
    assumption
  clear_value y5
  extract_lets -merge -underBinder +onlyGivenNames y6
  refine h0.named (x := y6) ?_ fun _ => ?_
  · subst y6
    refine Eff.forEach ?_ fun _ _ _ => ?_
    · assumption
    · refine Eff.after (State.finishCmd_eff _ _ _) ?_
      assumption
  clear_value y6
  extract_lets -merge -underBinder +onlyGivenNames y7
  refine h0.named (x := y7) ?_ fun _ => ?_
  · subst y7
    refine Eff.after (State.updS_eff _ _ _) ?_
    assumption
  clear_value y7
  extract_lets -merge -underBinder +onlyGivenNames y8
  refine h0.named (x := y8) ?_ fun _ => ?_
  · subst y8
    refine Eff.forEach ?_ fun _ _ _ => ?_
    · assumption
    · refine Eff.after (State.dropPair_eff _ _ _) ?_
      assumption
  clear_value y8
  extract_lets -merge -underBinder +onlyGivenNames y9
  refine h0.named (x := y9) ?_ fun _ => ?_
  · subst y9
    refine Eff.forEach ?_ fun _ _ _ => ?_
    · assumption
    · refine Eff.after (State.updZone_eff _ _ _ _) ?_
      assumption
  clear_value y9
  refine Eff.forEach ?_ fun _ _ _ => ?_
  · assumption
  · refine Eff.after (State.finishCmd_eff _ _ _) ?_
    assumption

theorem State.withdrawFrom_eff (s : State) (p : PickupId) (z : Nat) (first : Nat) : Eff [.sides, .host] s (State.withdrawFrom s p z first) := by
  delta State.withdrawFrom
  refine Eff.start fun h0 => ?_
  extract_lets -merge -underBinder +onlyGivenNames y0 y1
  try clear_value y0 y1
  extract_lets -merge -underBinder +onlyGivenNames y2
  refine h0.named (x := y2) ?_ fun _ => ?_
  · subst y2
    refine Eff.after (State.updS_eff _ _ _) ?_
    assumption
  clear_value y2
  extract_lets -merge -underBinder +onlyGivenNames y3
  refine h0.named (x := y3) ?_ fun _ => ?_
  · subst y3
    refine Eff.ite ?_ ?_
    · refine Eff.after (State.updZone_eff _ _ _ _) ?_
      assumption
    · assumption
  clear_value y3
  refine Eff.forEach ?_ fun _ _ _ => ?_
  · assumption
  · refine Eff.after (State.finishCmd_eff _ _ _) ?_
    assumption

theorem State.bufferLost_eff (s : State) (p : PickupId) (z : Nat) (c : Nat) : Eff [.sides, .host] s (State.bufferLost s p z c) := by
  delta State.bufferLost
  refine Eff.start fun h0 => ?_
  extract_lets -merge -underBinder +onlyGivenNames y0 y1 y2
  try clear_value y0 y1 y2
  extract_lets -merge -underBinder +onlyGivenNames y3
  refine h0.named (x := y3) ?_ fun _ => ?_
  · subst y3
    split
    · assumption
    · extract_lets -merge -underBinder +onlyGivenNames y4
      try clear_value y4
      refine Eff.ite ?_ ?_
      · extract_lets -merge -underBinder +onlyGivenNames y5
        try clear_value y5
        extract_lets -merge -underBinder +onlyGivenNames y6
        refine h0.named (x := y6) ?_ fun _ => ?_
        · subst y6
          refine Eff.forEach ?_ fun _ _ _ => ?_
          · assumption
          · refine Eff.after (State.markUnusable_eff _ _ _ _ _) ?_
            assumption
        clear_value y6
        extract_lets -merge -underBinder +onlyGivenNames y7
        try clear_value y7
        refine Eff.after (State.updS_eff _ _ _) ?_
        assumption
      · assumption
  clear_value y3
  extract_lets -merge -underBinder +onlyGivenNames y8
  try clear_value y8
  extract_lets -merge -underBinder +onlyGivenNames y9
  refine h0.named (x := y9) ?_ fun _ => ?_
  · subst y9
    refine Eff.after (State.updS_eff _ _ _) ?_
    assumption
  clear_value y9
  extract_lets -merge -underBinder +onlyGivenNames y10
  refine h0.named (x := y10) ?_ fun _ => ?_
  · subst y10
    refine Eff.forEach ?_ fun _ _ _ => ?_
    · assumption
    · refine Eff.after (State.finishCmd_eff _ _ _) ?_
      assumption
  clear_value y10
  extract_lets -merge -underBinder +onlyGivenNames y11
  try clear_value y11
  refine Eff.after (State.withdrawFrom_eff _ _ _ _) ?_
  assumption

theorem State.completeOwners_eff (s : State) (p : PickupId) (owners : List CmdRef) (poisoned : Bool) :
    Eff [.host] s (State.completeOwners s p owners poisoned) := by
  delta State.completeOwners
  refine Eff.start fun h0 => ?_
  refine Eff.forEach ?_ fun _ _ _ => ?_
  · assumption
  · refine Eff.ite ?_ ?_
    · refine Eff.after (State.finishCmd_eff _ _ _) ?_
      assumption
    · refine Eff.ite ?_ ?_
      · assumption
      · refine Eff.after (State.finishCmd_eff _ _ _) ?_
        assumption

theorem State.formPair_eff (s : State) (p : PickupId) (rs : List JournalRecord) (waiting : List CmdRef) :
    Eff [.sides] s (State.formPair s p rs waiting) := by
  delta State.formPair
  refine Eff.start fun h0 => ?_
  extract_lets -merge -underBinder +onlyGivenNames y0
  refine h0.named (x := y0) ?_ fun _ => ?_
  · subst y0
    refine Eff.forEach ?_ fun _ _ _ => ?_
    · assumption
    · refine Eff.after (State.pendRecord_eff _ _ _) ?_
      assumption
  clear_value y0
  refine Eff.after (State.updS_eff _ _ _) ?_
  assumption

theorem State.digestStep_eff (s : State) (p : PickupId) (z : Nat) : Eff [.objs, .sides, .recorder] s (State.digestStep s p z) := by
  delta State.digestStep
  refine Eff.start fun h0 => ?_
  extract_lets -merge -underBinder +onlyGivenNames y0
  try clear_value y0
  split
  · assumption
  · extract_lets -merge -underBinder +onlyGivenNames y1
    try clear_value y1
    extract_lets -merge -underBinder +onlyGivenNames y2
    refine h0.named (x := y2) ?_ fun _ => ?_
    · subst y2
      refine Eff.after (State.updZone_eff _ _ _ _) ?_
      assumption
    clear_value y2
    refine Eff.ite ?_ ?_
    · extract_lets -merge -underBinder +onlyGivenNames y3
      refine h0.named (x := y3) ?_ fun _ => ?_
      · subst y3
        refine Eff.after (State.report_eff _ _ _ _) ?_
        assumption
      clear_value y3
      extract_lets -merge -underBinder +onlyGivenNames y4
      try clear_value y4
      refine Eff.ite ?_ ?_
      · refine Eff.after (State.pendRecord_eff _ _ _) ?_
        assumption
      · refine Eff.after (State.formPair_eff _ _ _ _) ?_
        assumption
    · assumption

theorem State.digestAdvance_eff (s : State) (p : PickupId) (z : Nat) : Eff [.objs, .sides, .recorder] s (State.digestAdvance s p z) := by
  delta State.digestAdvance
  refine Eff.start fun h0 => ?_
  refine Eff.forEach ?_ fun _ _ _ => ?_
  · assumption
  · refine Eff.after (State.digestStep_eff _ _ _) ?_
    assumption

theorem State.commitData_eff (s : State) (p : PickupId) (r : Run) (c : RunCluster) :
    Eff [.objs, .sides, .host, .mem, .recorder] s (State.commitData s p r c) := by
  delta State.commitData
  refine Eff.start fun h0 => ?_
  extract_lets -merge -underBinder +onlyGivenNames y0 y1
  try clear_value y0 y1
  extract_lets -merge -underBinder +onlyGivenNames y2
  refine h0.named (x := y2) ?_ fun _ => ?_
  · subst y2
    split
    · extract_lets -merge -underBinder +onlyGivenNames y3
      try clear_value y3
      extract_lets -merge -underBinder +onlyGivenNames y4
      refine h0.named (x := y4) ?_ fun _ => ?_
      · subst y4
        refine Eff.after (State.setEntry_eff _ _ _ _ _) ?_
        assumption
      clear_value y4
      extract_lets -merge -underBinder +onlyGivenNames y5
      refine h0.named (x := y5) ?_ fun _ => ?_
      · subst y5
        refine Eff.after (State.setEntry_eff _ _ _ _ _) ?_
        assumption
      clear_value y5
      extract_lets -merge -underBinder +onlyGivenNames y6
      refine h0.named (x := y6) ?_ fun _ => ?_
      · subst y6
        refine Eff.after (State.dropLine_eff _ _) ?_
        refine Eff.after (State.dropLine_eff _ _) ?_
        assumption
      clear_value y6
      extract_lets -merge -underBinder +onlyGivenNames y7
      refine h0.named (x := y7) ?_ fun _ => ?_
      · subst y7
        refine Eff.after (State.pendRecord_eff _ _ _) ?_
        assumption
      clear_value y7
      extract_lets -merge -underBinder +onlyGivenNames y8
      refine h0.named (x := y8) ?_ fun _ => ?_
      · subst y8
        refine Eff.after (State.updS_eff _ _ _) ?_
        assumption
      clear_value y8
      refine Eff.after (State.report_eff _ _ _ _) ?_
      refine Eff.after (State.bump_eff _ _ _ _ _) ?_
      assumption
    · refine Eff.after (State.setEntry_eff _ _ _ _ _) ?_
      assumption
  clear_value y2
  extract_lets -merge -underBinder +onlyGivenNames y9
  refine h0.named (x := y9) ?_ fun _ => ?_
  · subst y9
    refine Eff.after (State.bump_eff _ _ _ _ _) ?_
    assumption
  clear_value y9
  extract_lets -merge -underBinder +onlyGivenNames y10
  try clear_value y10
  extract_lets -merge -underBinder +onlyGivenNames y11
  refine h0.named (x := y11) ?_ fun _ => ?_
  · subst y11
    refine Eff.after (State.updS_eff _ _ _) ?_
    assumption
  clear_value y11
  extract_lets -merge -underBinder +onlyGivenNames y12
  refine h0.named (x := y12) ?_ fun _ => ?_
  · subst y12
    refine Eff.after (State.updZone_eff _ _ _ _) ?_
    assumption
  clear_value y12
  extract_lets -merge -underBinder +onlyGivenNames y13
  try clear_value y13
  extract_lets -merge -underBinder +onlyGivenNames y14
  refine h0.named (x := y14) ?_ fun _ => ?_
  · subst y14
    refine Eff.after (State.updZone_eff _ _ _ _) ?_
    assumption
  clear_value y14
  extract_lets -merge -underBinder +onlyGivenNames y15
  refine h0.named (x := y15) ?_ fun _ => ?_
  · subst y15
    refine Eff.after (State.updZone_eff _ _ _ _) ?_
    assumption
  clear_value y15
  extract_lets -merge -underBinder +onlyGivenNames y16
  try clear_value y16
  refine Eff.after (State.completeOwners_eff _ _ _ _) ?_
  refine Eff.after (State.digestAdvance_eff _ _ _) ?_
  assumption

theorem State.clusterCommits_eff (s : State) (p : PickupId) (r : Run) (c : RunCluster) :
    Eff [.objs, .sides, .host, .mem, .recorder] s (State.clusterCommits s p r c) := by
  delta State.clusterCommits
  refine Eff.start fun h0 => ?_
  split
  · refine Eff.after (State.commitData_eff _ _ _ _) ?_
    assumption
  · refine Eff.after (State.commitData_eff _ _ _ _) ?_
    assumption
  · refine Eff.after (State.updS_eff _ _ _) ?_
    assumption
  · refine Eff.after (State.updS_eff _ _ _) ?_
    assumption
  · refine Eff.after (State.updS_eff _ _ _) ?_
    assumption

theorem State.interruptGates_eff (s : State) (p : PickupId) (i : Interrupt) :
    Eff [.objs, .channels, .sides, .host, .recorder] s (State.interruptGates s p i) := by
  delta State.interruptGates
  refine Eff.start fun h0 => ?_
  extract_lets -merge -underBinder +onlyGivenNames y0
  refine h0.named (x := y0) ?_ fun _ => ?_
  · subst y0
    refine Eff.after (State.stopBeams_eff _ _) ?_
    assumption
  clear_value y0
  extract_lets -merge -underBinder +onlyGivenNames y1
  try clear_value y1
  split
  · assumption
  · refine Eff.ite ?_ ?_
    · extract_lets -merge -underBinder +onlyGivenNames y2 y3 y4 y5
      try clear_value y2 y3 y4 y5
      extract_lets -merge -underBinder +onlyGivenNames y6
      refine h0.named (x := y6) ?_ fun _ => ?_
      · subst y6
        refine Eff.after (State.updS_eff _ _ _) ?_
        assumption
      clear_value y6
      extract_lets -merge -underBinder +onlyGivenNames y7
      refine h0.named (x := y7) ?_ fun _ => ?_
      · subst y7
        refine Eff.forEach ?_ fun _ _ _ => ?_
        · assumption
        · refine Eff.after (State.clusterFails_eff _ _ _ _ _) ?_
          assumption
      clear_value y7
      refine Eff.after (State.recordInterrupted_eff _ _ _ _ _) ?_
      assumption
    · refine Eff.ite ?_ ?_
      · refine Eff.after (State.recordInterrupted_eff _ _ _ _ _) ?_
        refine Eff.after (State.updS_eff _ _ _) ?_
        assumption
      · assumption

end Sys2Proof.Machine
end

