-- ==== Sys2Proof/Laws/FrameOps.lean ====
section
/-! SUPPORT. What each operation of Sys2Proof/Machine/FrameOps.lean may change: `x_eff` names the parts of the state that x may change and says that
x keeps every form of Sys2Proof/Safety.lean; `x_effs` says so of an operation with operations as arguments, under the same of each argument. -/

set_option Elab.async false

namespace Sys2Proof.Machine

theorem State.loadSets_eff (s : State) (g : BeamId) : Eff [.channels] s (State.loadSets s g) := by
  delta State.loadSets
  refine Eff.start fun h0 => ?_
  extract_lets -merge -underBinder +onlyGivenNames y0
  try clear_value y0
  refine Eff.after (State.updC_eff _ _ _) ?_
  assumption

theorem State.endDetour_eff (s : State) (p : PickupId) : Eff [.pickups, .spindles] s (State.endDetour s p) := by
  delta State.endDetour
  refine Eff.start fun h0 => ?_
  extract_lets -merge -underBinder +onlyGivenNames y0
  try clear_value y0
  extract_lets -merge -underBinder +onlyGivenNames y1
  refine h0.named (x := y1) ?_ fun _ => ?_
  · subst y1
    refine Eff.after (State.updP_eff _ _ _) ?_
    assumption
  clear_value y1
  refine Eff.ite ?_ ?_
  · refine Eff.after (State.updM_eff _ _ _) ?_
    assumption
  · assumption

theorem State.updRead_eff (s : State) (p : PickupId) (layer : Nat) (q : Nat) (f : ClusterRead → ClusterRead) :
    Eff [.sides] s (State.updRead s p layer q f) := by
  delta State.updRead
  refine Eff.start fun h0 => ?_
  refine Eff.after (State.updS_eff _ _ _) ?_
  assumption

theorem State.updSector_eff (s : State) (p : PickupId) (layer : Nat) (q : Nat) (k : Nat) (f : SectorRead → SectorRead) :
    Eff [.sides] s (State.updSector s p layer q k f) := by
  delta State.updSector
  refine Eff.start fun h0 => ?_
  refine Eff.after (State.updRead_eff _ _ _ _ _) ?_
  assumption

theorem State.updRunCluster_eff (s : State) (p : PickupId) (q : Nat) (f : RunCluster → RunCluster) :
    Eff [.sides] s (State.updRunCluster s p q f) := by
  delta State.updRunCluster
  refine Eff.start fun h0 => ?_
  refine Eff.after (State.updS_eff _ _ _) ?_
  assumption

theorem State.verifyFails_eff (s : State) (p : PickupId) (layer : Nat) (q : Nat) (k : Nat) (why : Criterion) :
    Eff [.objs, .sides, .host, .recorder] s (State.verifyFails s p layer q k why) := by
  delta State.verifyFails
  refine Eff.start fun h0 => ?_
  split
  · assumption
  · refine Eff.ite ?_ ?_
    · extract_lets -merge -underBinder +onlyGivenNames y0
      refine h0.named (x := y0) ?_ fun _ => ?_
      · subst y0
        refine Eff.after (State.updRunCluster_eff _ _ _ _) ?_
        assumption
      clear_value y0
      extract_lets -merge -underBinder +onlyGivenNames y1
      refine h0.named (x := y1) ?_ fun _ => ?_
      · subst y1
        refine Eff.after (State.report_eff _ _ _ _) ?_
        refine Eff.after (State.bump_eff _ _ _ _ _) ?_
        assumption
      clear_value y1
      refine Eff.after (State.clusterFails_eff _ _ _ _ _) ?_
      assumption
    · assumption

theorem State.handFrame_eff (s : State) (p : PickupId) (f : FrameSlot) (serial : Option Nat) :
    Eff [.objs, .sides, .host, .recorder] s (State.handFrame s p f serial) := by
  delta State.handFrame
  refine Eff.start fun h0 => ?_
  refine Eff.ite ?_ ?_
  · refine Eff.ite ?_ ?_
    · assumption
    · refine Eff.ite ?_ ?_
      · assumption
      · refine Eff.after (State.verifyFails_eff _ _ _ _ _ _) ?_
        assumption
  · refine Eff.ite ?_ ?_
    · assumption
    · extract_lets -merge -underBinder +onlyGivenNames y0
      refine h0.named (x := y0) ?_ fun _ => ?_
      · subst y0
        refine Eff.after (State.updSector_eff _ _ _ _ _ _) ?_
        assumption
      clear_value y0
      split
      · extract_lets -merge -underBinder +onlyGivenNames y1
        try clear_value y1
        refine Eff.ite ?_ ?_
        · refine Eff.after (State.setEntry_eff _ _ _ _ _) ?_
          assumption
        · assumption
      · assumption

theorem State.truncateFrame_eff (s : State) (g : BeamId) : Eff [.objs, .channels, .sides, .host, .recorder] s (State.truncateFrame s g) := by
  delta State.truncateFrame
  refine Eff.start fun h0 => ?_
  extract_lets -merge -underBinder +onlyGivenNames y0
  try clear_value y0
  split
  · assumption
  · split
    · refine Eff.after (State.updC_eff _ _ _) ?_
      assumption
    · refine Eff.ite ?_ ?_
      · refine Eff.after (State.updC_eff _ _ _) ?_
        assumption
      · extract_lets -merge -underBinder +onlyGivenNames y1
        try clear_value y1
        extract_lets -merge -underBinder +onlyGivenNames y2
        refine h0.named (x := y2) ?_ fun _ => ?_
        · subst y2
          refine Eff.after (State.updC_eff _ _ _) ?_
          assumption
        clear_value y2
        refine Eff.after (State.handFrame_eff _ _ _ _) ?_
        refine Eff.after (State.report_eff _ _ _ _) ?_
        assumption

theorem State.idleChannels_eff (s : State) (p : PickupId) : Eff [.objs, .channels, .sides, .host, .recorder] s (State.idleChannels s p) := by
  delta State.idleChannels
  refine Eff.start fun h0 => ?_
  extract_lets -merge -underBinder +onlyGivenNames y0
  refine h0.named (x := y0) ?_ fun _ => ?_
  · subst y0
    refine Eff.forEach ?_ fun _ _ _ => ?_
    · assumption
    · refine Eff.after (State.truncateFrame_eff _ _) ?_
      assumption
  clear_value y0
  refine Eff.after (State.updChannels_eff _ _ _) ?_
  assumption

theorem State.beamWriteStart_eff (s : State) (g : BeamId) : Eff [.objs, .channels, .sides, .host, .recorder] s (State.beamWriteStart s g) := by
  delta State.beamWriteStart
  refine Eff.start fun h0 => ?_
  refine Eff.after (State.updC_eff _ _ _) ?_
  refine Eff.after (State.truncateFrame_eff _ _) ?_
  assumption

theorem State.beamWriteStop_eff (s : State) (g : BeamId) : Eff [.channels] s (State.beamWriteStop s g) := by
  delta State.beamWriteStop
  refine Eff.start fun h0 => ?_
  refine Eff.after (State.updC_eff _ _ _) ?_
  assumption

theorem State.rungFails_eff (s : State) (p : PickupId) : Eff [.pickups, .sides, .spindles] s (State.rungFails s p) := by
  delta State.rungFails
  refine Eff.start fun h0 => ?_
  refine Eff.after (State.updS_eff _ _ _) ?_
  refine Eff.after (State.endDetour_eff _ _) ?_
  assumption

theorem State.verifyCodeword_eff (s : State) (p : PickupId) (f : FrameSlot) (h : Fin 2) (r : DecodeResult) :
    Eff [.objs, .sides, .host, .mem, .recorder] s (State.verifyCodeword s p f h r) := by
  delta State.verifyCodeword
  refine Eff.start fun h0 => ?_
  extract_lets -merge -underBinder +onlyGivenNames y0
  refine h0.named (x := y0) ?_ fun _ => ?_
  · subst y0
    refine Eff.after (State.updS_eff _ _ _) ?_
    assumption
  clear_value y0
  split
  · assumption
  · refine Eff.ite ?_ ?_
    · assumption
    · refine Eff.ite ?_ ?_
      · refine Eff.after (State.verifyFails_eff _ _ _ _ _ _) ?_
        assumption
      · refine Eff.ite ?_ ?_
        · refine Eff.after (State.verifyFails_eff _ _ _ _ _ _) ?_
          assumption
        · refine Eff.ite ?_ ?_
          · refine Eff.after (State.verifyFails_eff _ _ _ _ _ _) ?_
            assumption
          · extract_lets -merge -underBinder +onlyGivenNames y1 y2 y3
            try clear_value y1 y2 y3
            extract_lets -merge -underBinder +onlyGivenNames y4
            refine h0.named (x := y4) ?_ fun _ => ?_
            · subst y4
              refine Eff.after (State.updRunCluster_eff _ _ _ _) ?_
              assumption
            clear_value y4
            refine Eff.ite ?_ ?_
            · refine Eff.after (State.clusterCommits_eff _ _ _ _) ?_
              assumption
            · assumption

end Sys2Proof.Machine
end

