-- ==== Sys2Proof/Laws/AxisOps.lean ====
section
/-! SUPPORT. What each operation of Sys2Proof/Machine/AxisOps.lean may change: `x_eff` names the parts of the state that x may change and says that
x keeps every form of Sys2Proof/Safety.lean; `x_effs` says so of an operation with operations as arguments, under the same of each argument. -/

set_option Elab.async false

namespace Sys2Proof.Machine

theorem State.haltAxis_eff (s : State) (a : AxisId) : Eff [.axes] s (State.haltAxis s a) := by
  delta State.haltAxis
  refine Eff.start fun h0 => ?_
  refine Eff.after (State.updA_eff _ _ _) ?_
  assumption

theorem State.losePosition_eff (s : State) (a : AxisId) (c : LossCause) : Eff [.objs, .axes, .recorder] s (State.losePosition s a c) := by
  delta State.losePosition
  refine Eff.start fun h0 => ?_
  extract_lets -merge -underBinder +onlyGivenNames y0
  try clear_value y0
  refine Eff.after (State.report_eff _ _ _ _) ?_
  refine Eff.after (State.bump_eff _ _ _ _ _) ?_
  refine Eff.after (State.updA_eff _ _ _) ?_
  assumption

theorem State.stopAxis_eff (s : State) (a : AxisId) (c : LossCause) (m : AxisMode) : Eff [.objs, .axes, .recorder] s (State.stopAxis s a c m) := by
  delta State.stopAxis
  refine Eff.start fun h0 => ?_
  refine Eff.after (State.losePosition_eff _ _ _) ?_
  refine Eff.after (State.updA_eff _ _ _) ?_
  assumption

theorem State.faultAxis_eff (s : State) (a : AxisId) (b : AxisFaultBit) : Eff [.objs, .axes, .recorder] s (State.faultAxis s a b) := by
  delta State.faultAxis
  refine Eff.start fun h0 => ?_
  extract_lets -merge -underBinder +onlyGivenNames y0
  refine h0.named (x := y0) ?_ fun _ => ?_
  · subst y0
    refine Eff.after (State.updA_eff _ _ _) ?_
    assumption
  clear_value y0
  refine Eff.after (State.report_eff _ _ _ _) ?_
  refine Eff.after (State.stopAxis_eff _ _ _ _) ?_
  assumption

theorem State.startMove_eff (s : State) (a : AxisId) (target : Int) : Eff [.axes] s (State.startMove s a target) := by
  delta State.startMove
  refine Eff.start fun h0 => ?_
  refine Eff.after (State.updA_eff _ _ _) ?_
  assumption

theorem State.disableAxis_eff (s : State) (a : AxisId) (c : LossCause) : Eff [.objs, .axes, .recorder] s (State.disableAxis s a c) := by
  delta State.disableAxis
  refine Eff.start fun h0 => ?_
  refine Eff.after (State.updA_eff _ _ _) ?_
  refine Eff.after (State.stopAxis_eff _ _ _ _) ?_
  assumption

theorem State.moveRelative_eff (s : State) (a : AxisId) (d : Int) : Eff [.axes] s (State.moveRelative s a d) := by
  delta State.moveRelative
  refine Eff.start fun h0 => ?_
  extract_lets -merge -underBinder +onlyGivenNames y0
  try clear_value y0
  refine Eff.ite ?_ ?_
  · assumption
  · refine Eff.after (State.startMove_eff _ _ _) ?_
    assumption

end Sys2Proof.Machine
end

