-- ==== Sys2Proof/Laws/LoopOps.lean ====
section
/-! SUPPORT. What each operation of Sys2Proof/Machine/LoopOps.lean may change: `x_eff` names the parts of the state that x may change and says that
x keeps every form of Sys2Proof/Safety.lean; `x_effs` says so of an operation with operations as arguments, under the same of each argument. -/

set_option Elab.async false

namespace Sys2Proof.Machine

theorem State.updLoop_eff (s : State) (p : PickupId) (l : ServoLoop) (f : LoopState → LoopState) : Eff [.pickups] s (State.updLoop s p l f) := by
  delta State.updLoop
  refine Eff.start fun h0 => ?_
  refine Eff.after (State.updP_eff _ _ _) ?_
  assumption

theorem State.unholdLoop_eff (s : State) (p : PickupId) (l : ServoLoop) : Eff [.pickups] s (State.unholdLoop s p l) := by
  delta State.unholdLoop
  refine Eff.start fun h0 => ?_
  extract_lets -merge -underBinder +onlyGivenNames y0
  try clear_value y0
  refine Eff.ite ?_ ?_
  · extract_lets -merge -underBinder +onlyGivenNames y1
    try clear_value y1
    split
    · extract_lets -merge -underBinder +onlyGivenNames y2
      try clear_value y2
      refine Eff.after (State.updLoop_eff _ _ _ _) ?_
      assumption
  · assumption

theorem State.openLoop_eff (s : State) (p : PickupId) (l : ServoLoop) (u : Int) : Eff [.pickups] s (State.openLoop s p l u) := by
  delta State.openLoop
  refine Eff.start fun h0 => ?_
  refine Eff.after (State.updLoop_eff _ _ _ _) ?_
  assumption

theorem State.openHere_eff (s : State) (p : PickupId) (l : ServoLoop) : Eff [.pickups] s (State.openHere s p l) := by
  delta State.openHere
  refine Eff.start fun h0 => ?_
  refine Eff.after (State.openLoop_eff _ _ _ _) ?_
  assumption

theorem State.startSweep_eff (s : State) (p : PickupId) (start : Int) (stop : Int) : Eff [.pickups] s (State.startSweep s p start stop) := by
  delta State.startSweep
  refine Eff.start fun h0 => ?_
  refine Eff.after (State.updP_eff _ _ _) ?_
  refine Eff.after (State.openLoop_eff _ _ _ _) ?_
  assumption

theorem State.recoverSweep_eff (s : State) (p : PickupId) : Eff [.pickups] s (State.recoverSweep s p) := by
  delta State.recoverSweep
  refine Eff.start fun h0 => ?_
  extract_lets -merge -underBinder +onlyGivenNames y0 y1
  try clear_value y0 y1
  refine Eff.after (State.startSweep_eff _ _ _ _) ?_
  assumption

theorem State.searchSweep_eff (s : State) (p : PickupId) : Eff [.pickups] s (State.searchSweep s p) := by
  delta State.searchSweep
  refine Eff.start fun h0 => ?_
  refine Eff.after (State.startSweep_eff _ _ _ _) ?_
  assumption

theorem State.closeLoop_eff (s : State) (p : PickupId) (l : ServoLoop) : Eff [.pickups] s (State.closeLoop s p l) := by
  delta State.closeLoop
  refine Eff.start fun h0 => ?_
  extract_lets -merge -underBinder +onlyGivenNames y0 y1 y2 y3
  try clear_value y0 y1 y2 y3
  refine Eff.after (State.updLoop_eff _ _ _ _) ?_
  assumption

end Sys2Proof.Machine
end

