-- ==== Sys2Proof/Laws/AcqOps.lean ====
section
/-! SUPPORT. What each operation of Sys2Proof/Machine/AcqOps.lean may change: `x_eff` names the parts of the state that x may change and says that
x keeps every form of Sys2Proof/Safety.lean; `x_effs` says so of an operation with operations as arguments, under the same of each argument. -/

set_option Elab.async false

namespace Sys2Proof.Machine

theorem State.haltSled_eff (s : State) (p : PickupId) : Eff [.axes] s (State.haltSled s p) := by
  delta State.haltSled
  refine Eff.start fun h0 => ?_
  refine Eff.ite ?_ ?_
  · refine Eff.after (State.haltAxis_eff _ _) ?_
    assumption
  · assumption

theorem State.abortSequence_eff (s : State) (p : PickupId) : Eff [.pickups, .axes] s (State.abortSequence s p) := by
  delta State.abortSequence
  refine Eff.start fun h0 => ?_
  extract_lets -merge -underBinder +onlyGivenNames y0
  try clear_value y0
  refine Eff.ite ?_ ?_
  · assumption
  · extract_lets -merge -underBinder +onlyGivenNames y1
    try clear_value y1
    refine Eff.after (State.updP_eff _ _ _) ?_
    refine Eff.after (State.haltSled_eff _ _) ?_
    assumption

theorem State.endHold_eff (s : State) (p : PickupId) : Eff [.objs, .pickups, .recorder] s (State.endHold s p) := by
  delta State.endHold
  refine Eff.start fun h0 => ?_
  extract_lets -merge -underBinder +onlyGivenNames y0
  try clear_value y0
  refine Eff.ite ?_ ?_
  · refine Eff.after (State.updP_eff _ _ _) ?_
    refine Eff.after (State.report_eff _ _ _ _) ?_
    assumption
  · assumption

theorem State.park_eff (s : State) (p : PickupId) (r : ParkReason) :
    Eff [.objs, .pickups, .channels, .sides, .spindles, .axes, .host, .recorder] s (State.park s p r) := by
  delta State.park
  refine Eff.start fun h0 => ?_
  extract_lets -merge -underBinder +onlyGivenNames y0
  try clear_value y0
  refine Eff.ite ?_ ?_
  · assumption
  · extract_lets -merge -underBinder +onlyGivenNames y1
    refine h0.named (x := y1) ?_ fun _ => ?_
    · subst y1
      refine Eff.after (State.endDetour_eff _ _) ?_
      refine Eff.after (State.haltSled_eff _ _) ?_
      refine Eff.after (State.endHold_eff _ _) ?_
      assumption
    clear_value y1
    extract_lets -merge -underBinder +onlyGivenNames y2
    refine h0.named (x := y2) ?_ fun _ => ?_
    · subst y2
      refine Eff.after (State.parkRuns_eff _ _) ?_
      assumption
    clear_value y2
    extract_lets -merge -underBinder +onlyGivenNames y3
    refine h0.named (x := y3) ?_ fun _ => ?_
    · subst y3
      refine Eff.ite ?_ ?_
      · refine Eff.after (State.report_eff _ _ _ _) ?_
        assumption
      · assumption
    clear_value y3
    extract_lets -merge -underBinder +onlyGivenNames y4
    refine h0.named (x := y4) ?_ fun _ => ?_
    · subst y4
      refine Eff.after (State.updP_eff _ _ _) ?_
      assumption
    clear_value y4
    extract_lets -merge -underBinder +onlyGivenNames y5
    refine h0.named (x := y5) ?_ fun _ => ?_
    · subst y5
      refine Eff.after (State.openLoop_eff _ _ _ _) ?_
      assumption
    clear_value y5
    extract_lets -merge -underBinder +onlyGivenNames y6
    refine h0.named (x := y6) ?_ fun _ => ?_
    · subst y6
      refine Eff.after (State.openLoop_eff _ _ _ _) ?_
      assumption
    clear_value y6
    extract_lets -merge -underBinder +onlyGivenNames y7
    refine h0.named (x := y7) ?_ fun _ => ?_
    · subst y7
      refine Eff.after (State.openLoop_eff _ _ _ _) ?_
      assumption
    clear_value y7
    extract_lets -merge -underBinder +onlyGivenNames y8
    refine h0.named (x := y8) ?_ fun _ => ?_
    · subst y8
      refine Eff.after (State.openLoop_eff _ _ _ _) ?_
      assumption
    clear_value y8
    refine Eff.after (State.idleChannels_eff _ _) ?_
    refine Eff.after (State.openLoop_eff _ _ _ _) ?_
    assumption

theorem State.recoveryAttempt_eff (s : State) (p : PickupId) (r : Nat) :
    Eff [.objs, .pickups, .channels, .sides, .host, .recorder] s (State.recoveryAttempt s p r) := by
  delta State.recoveryAttempt
  refine Eff.start fun h0 => ?_
  extract_lets -merge -underBinder +onlyGivenNames y0
  refine h0.named (x := y0) ?_ fun _ => ?_
  · subst y0
    refine Eff.after (State.updP_eff _ _ _) ?_
    assumption
  clear_value y0
  extract_lets -merge -underBinder +onlyGivenNames y1
  refine h0.named (x := y1) ?_ fun _ => ?_
  · subst y1
    refine Eff.after (State.idleChannels_eff _ _) ?_
    refine Eff.after (State.openHere_eff _ _ _) ?_
    assumption
  clear_value y1
  split
  · refine Eff.after (State.unholdLoop_eff _ _ _) ?_
    assumption
  · refine Eff.after (State.recoverSweep_eff _ _) ?_
    assumption
  · refine Eff.after (State.searchSweep_eff _ _) ?_
    assumption

theorem State.attemptFails_eff (s : State) (p : PickupId) :
    Eff [.objs, .pickups, .channels, .sides, .spindles, .axes, .host, .recorder] s (State.attemptFails s p) := by
  delta State.attemptFails
  refine Eff.start fun h0 => ?_
  refine Eff.ite ?_ ?_
  · refine Eff.after (State.park_eff _ _ _) ?_
    assumption
  · refine Eff.after (State.recoveryAttempt_eff _ _ _) ?_
    refine Eff.after (State.haltSled_eff _ _) ?_
    assumption

theorem State.follow_eff (s : State) (p : PickupId) : Eff [.pickups, .channels] s (State.follow s p) := by
  delta State.follow
  refine Eff.start fun h0 => ?_
  refine Eff.after (State.updChannels_eff _ _ _) ?_
  refine Eff.after (State.updP_eff _ _ _) ?_
  assumption

theorem State.startRecovery_eff (s : State) (p : PickupId) (rung : Option Nat) :
    Eff [.objs, .pickups, .channels, .sides, .spindles, .axes, .host, .recorder] s (State.startRecovery s p rung) := by
  delta State.startRecovery
  refine Eff.start fun h0 => ?_
  extract_lets -merge -underBinder +onlyGivenNames y0
  try clear_value y0
  refine Eff.ite ?_ ?_
  · assumption
  · refine Eff.ite ?_ ?_
    · refine Eff.after (State.attemptFails_eff _ _) ?_
      assumption
    · extract_lets -merge -underBinder +onlyGivenNames y1
      refine h0.named (x := y1) ?_ fun _ => ?_
      · subst y1
        refine Eff.after (State.bump_eff _ _ _ _ _) ?_
        assumption
      clear_value y1
      extract_lets -merge -underBinder +onlyGivenNames y2
      refine h0.named (x := y2) ?_ fun _ => ?_
      · subst y2
        refine Eff.after (State.updP_eff _ _ _) ?_
        assumption
      clear_value y2
      refine Eff.after (State.recoveryAttempt_eff _ _ _) ?_
      refine Eff.after (State.haltSled_eff _ _) ?_
      assumption

theorem State.seekFails_eff (s : State) (p : PickupId) :
    Eff [.objs, .pickups, .channels, .sides, .spindles, .axes, .host, .recorder] s (State.seekFails s p) := by
  delta State.seekFails
  refine Eff.start fun h0 => ?_
  extract_lets -merge -underBinder +onlyGivenNames y0 y1 y2
  try clear_value y0 y1 y2
  extract_lets -merge -underBinder +onlyGivenNames y3
  refine h0.named (x := y3) ?_ fun _ => ?_
  · subst y3
    refine Eff.after (State.report_eff _ _ _ _) ?_
    assumption
  clear_value y3
  extract_lets -merge -underBinder +onlyGivenNames y4
  refine h0.named (x := y4) ?_ fun _ => ?_
  · subst y4
    refine Eff.after (State.updP_eff _ _ _) ?_
    assumption
  clear_value y4
  refine Eff.after (State.startRecovery_eff _ _ _) ?_
  refine Eff.after (State.rungFails_eff _ _) ?_
  refine Eff.after (State.haltSled_eff _ _) ?_
  assumption

theorem State.seekPass_eff (s : State) (p : PickupId) (lt : Nat) :
    Eff [.objs, .pickups, .channels, .sides, .spindles, .axes, .host, .recorder] s (State.seekPass s p lt) := by
  delta State.seekPass
  refine Eff.start fun h0 => ?_
  extract_lets -merge -underBinder +onlyGivenNames y0 y1 y2
  try clear_value y0 y1 y2
  refine Eff.ite ?_ ?_
  · refine Eff.ite ?_ ?_
    · refine Eff.after (State.seekFails_eff _ _) ?_
      assumption
    · extract_lets -merge -underBinder +onlyGivenNames y3
      refine h0.named (x := y3) ?_ fun _ => ?_
      · subst y3
        refine Eff.after (State.updP_eff _ _ _) ?_
        refine Eff.after (State.openHere_eff _ _ _) ?_
        assumption
      clear_value y3
      refine Eff.ite ?_ ?_
      · refine Eff.after (State.closeLoop_eff _ _ _) ?_
        assumption
      · assumption
  · refine Eff.ite ?_ ?_
    · refine Eff.after (State.seekFails_eff _ _) ?_
      assumption
    · extract_lets -merge -underBinder +onlyGivenNames y4
      refine h0.named (x := y4) ?_ fun _ => ?_
      · subst y4
        refine Eff.after (State.updP_eff _ _ _) ?_
        refine Eff.after (State.openLoop_eff _ _ _ _) ?_
        refine Eff.after (State.openLoop_eff _ _ _ _) ?_
        assumption
      clear_value y4
      refine Eff.after (State.moveRelative_eff _ _ _) ?_
      assumption

theorem State.towardTarget_eff (s : State) (p : PickupId) (t : Target) :
    Eff [.objs, .pickups, .channels, .sides, .spindles, .axes, .host, .recorder] s (State.towardTarget s p t) := by
  delta State.towardTarget
  refine Eff.start fun h0 => ?_
  extract_lets -merge -underBinder +onlyGivenNames y0
  try clear_value y0
  refine Eff.ite ?_ ?_
  · refine Eff.after (State.updP_eff _ _ _) ?_
    assumption
  · refine Eff.ite ?_ ?_
    · extract_lets -merge -underBinder +onlyGivenNames y1 y2
      try clear_value y1 y2
      refine Eff.after (State.seekPass_eff _ _ _) ?_
      assumption
    · refine Eff.ite ?_ ?_
      · refine Eff.after (State.updP_eff _ _ _) ?_
        assumption
      · refine Eff.after (State.follow_eff _ _) ?_
        assumption

theorem State.startSeek_eff (s : State) (p : PickupId) (t : Target) :
    Eff [.objs, .pickups, .channels, .sides, .spindles, .axes, .host, .recorder] s (State.startSeek s p t) := by
  delta State.startSeek
  refine Eff.start fun h0 => ?_
  extract_lets -merge -underBinder +onlyGivenNames y0
  refine h0.named (x := y0) ?_ fun _ => ?_
  · subst y0
    refine Eff.after (State.updP_eff _ _ _) ?_
    assumption
  clear_value y0
  refine Eff.after (State.towardTarget_eff _ _ _) ?_
  refine Eff.after (State.idleChannels_eff _ _) ?_
  assumption

theorem State.enterHold_eff (s : State) (p : PickupId) (causes : BitVec 16) (skipT : Nat) (skipF : Nat) :
    Eff [.objs, .pickups, .channels, .axes, .recorder, .milestone] s (State.enterHold s p causes skipT skipF) := by
  delta State.enterHold
  refine Eff.start fun h0 => ?_
  extract_lets -merge -underBinder +onlyGivenNames y0
  try clear_value y0
  refine Eff.ite ?_ ?_
  · assumption
  · refine Eff.ite ?_ ?_
    · extract_lets -merge -underBinder +onlyGivenNames y1
      refine h0.named (x := y1) ?_ fun _ => ?_
      · subst y1
        refine Eff.ite ?_ ?_
        · refine Eff.after (State.abortSequence_eff _ _) ?_
          assumption
        · assumption
      clear_value y1
      refine Eff.after (State.updP_eff _ _ _) ?_
      assumption
    · extract_lets -merge -underBinder +onlyGivenNames y2
      refine h0.named (x := y2) ?_ fun _ => ?_
      · subst y2
        refine Eff.ite ?_ ?_
        · refine Eff.after (State.abortSequence_eff _ _) ?_
          assumption
        · assumption
      clear_value y2
      extract_lets -merge -underBinder +onlyGivenNames y3
      refine h0.named (x := y3) ?_ fun _ => ?_
      · subst y3
        refine Eff.after (State.updP_eff _ _ _) ?_
        assumption
      clear_value y3
      extract_lets -merge -underBinder +onlyGivenNames y4
      refine h0.named (x := y4) ?_ fun _ => ?_
      · subst y4
        refine Eff.after (State.updChannels_eff _ _ _) ?_
        assumption
      clear_value y4
      extract_lets -merge -underBinder +onlyGivenNames y5
      refine h0.named (x := y5) ?_ fun _ => ?_
      · subst y5
        refine Eff.after (State.report_eff _ _ _ _) ?_
        assumption
      clear_value y5
      refine Eff.ite ?_ ?_
      · refine Eff.after (State.trigger_eff _ _ _) ?_
        assumption
      · assumption

theorem State.unmount_eff (s : State) (p : PickupId) : Eff [.pickups, .sides, .host] s (State.unmount s p) := by
  delta State.unmount
  refine Eff.start fun h0 => ?_
  extract_lets -merge -underBinder +onlyGivenNames y0
  try clear_value y0
  extract_lets -merge -underBinder +onlyGivenNames y1
  refine h0.named (x := y1) ?_ fun _ => ?_
  · subst y1
    refine Eff.after (State.updP_eff _ _ _) ?_
    assumption
  clear_value y1
  extract_lets -merge -underBinder +onlyGivenNames y2
  refine h0.named (x := y2) ?_ fun _ => ?_
  · subst y2
    refine Eff.forEach ?_ fun _ _ _ => ?_
    · assumption
    · refine Eff.after (State.finishCmd_eff _ _ _) ?_
      refine Eff.after (State.updCmd_eff _ _ _) ?_
      assumption
  clear_value y2
  extract_lets -merge -underBinder +onlyGivenNames y3
  refine h0.named (x := y3) ?_ fun _ => ?_
  · subst y3
    refine Eff.after (State.updS_eff _ _ _) ?_
    assumption
  clear_value y3
  refine Eff.ite ?_ ?_
  · assumption
  · extract_lets -merge -underBinder +onlyGivenNames y4
    refine h0.named (x := y4) ?_ fun _ => ?_
    · subst y4
      refine Eff.after (State.updS_eff _ _ _) ?_
      assumption
    clear_value y4
    refine Eff.ite ?_ ?_
    · refine Eff.after (State.namespaceNotice_eff _ _) ?_
      assumption
    · assumption

theorem State.parked_eff (s : State) (p : PickupId) : Eff [.objs, .pickups, .channels, .sides, .host, .recorder] s (State.parked s p) := by
  delta State.parked
  refine Eff.start fun h0 => ?_
  extract_lets -merge -underBinder +onlyGivenNames y0
  try clear_value y0
  extract_lets -merge -underBinder +onlyGivenNames y1
  refine h0.named (x := y1) ?_ fun _ => ?_
  · subst y1
    refine Eff.after (State.updP_eff _ _ _) ?_
    assumption
  clear_value y1
  extract_lets -merge -underBinder +onlyGivenNames y2
  refine h0.named (x := y2) ?_ fun _ => ?_
  · subst y2
    refine Eff.after (State.updChannels_eff _ _ _) ?_
    assumption
  clear_value y2
  refine Eff.after (State.unmount_eff _ _) ?_
  refine Eff.after (State.report_eff _ _ _ _) ?_
  assumption

theorem State.setSled_eff (s : State) (p : PickupId) (pos : Int) : Eff [.axes] s (State.setSled s p pos) := by
  delta State.setSled
  refine Eff.start fun h0 => ?_
  refine Eff.after (State.updA_eff _ _ _) ?_
  assumption

theorem State.rebaseSled_eff (s : State) (p : PickupId) (lane : Nat) : Eff [.objs, .axes, .recorder] s (State.rebaseSled s p lane) := by
  delta State.rebaseSled
  refine Eff.start fun h0 => ?_
  extract_lets -merge -underBinder +onlyGivenNames y0 y1
  try clear_value y0 y1
  refine Eff.after (State.report_eff _ _ _ _) ?_
  refine Eff.after (State.setSled_eff _ _ _) ?_
  assumption

theorem State.runQueued_eff (s : State) (p : PickupId) :
    Eff [.objs, .pickups, .channels, .sides, .spindles, .axes, .host, .recorder] s (State.runQueued s p) := by
  delta State.runQueued
  refine Eff.start fun h0 => ?_
  extract_lets -merge -underBinder +onlyGivenNames y0
  try clear_value y0
  split
  · refine Eff.ite ?_ ?_
    · refine Eff.after (State.startSeek_eff _ _ _) ?_
      refine Eff.after (State.updP_eff _ _ _) ?_
      assumption
    · assumption
  · assumption

theorem State.switchSets_eff (s : State) (p : PickupId) (layer : Nat) : Eff [.channels] s (State.switchSets s p layer) := by
  delta State.switchSets
  refine Eff.start fun h0 => ?_
  refine Eff.after (State.updChannels_eff _ _ _) ?_
  assumption

theorem State.recheckSled_eff (s : State) (p : PickupId) (lane : Nat) : Eff [.objs, .axes, .recorder] s (State.recheckSled s p lane) := by
  delta State.recheckSled
  refine Eff.start fun h0 => ?_
  extract_lets -merge -underBinder +onlyGivenNames y0
  try clear_value y0
  refine Eff.ite ?_ ?_
  · extract_lets -merge -underBinder +onlyGivenNames y1 y2
    try clear_value y1 y2
    extract_lets -merge -underBinder +onlyGivenNames y3
    refine h0.named (x := y3) ?_ fun _ => ?_
    · subst y3
      refine Eff.ite ?_ ?_
      · refine Eff.after (State.report_eff _ _ _ _) ?_
        assumption
      · assumption
    clear_value y3
    refine Eff.after (State.setSled_eff _ _ _) ?_
    assumption
  · assumption

end Sys2Proof.Machine
end

