-- ==== Sys2Proof/Laws/DecodeOps.lean ====
section
/-! SUPPORT. What each operation of Sys2Proof/Machine/DecodeOps.lean may change: `x_eff` names the parts of the state that x may change and says that
x keeps every form of Sys2Proof/Safety.lean; `x_effs` says so of an operation with operations as arguments, under the same of each argument. -/

set_option Elab.async false

namespace Sys2Proof.Machine

theorem State.orphanJobs_eff (s : State) (p : PickupId) (layer : Nat) (q : Nat) : Eff [.decoding] s (State.orphanJobs s p layer q) := by
  delta State.orphanJobs
  refine Eff.start fun h0 => ?_
  extract_lets -merge -underBinder +onlyGivenNames y0
  try clear_value y0
  refine Eff.put ?_
  assumption

theorem State.seekBefore_eff (s : State) (p : PickupId) (a : RunArea) (layer : Nat) (q : Nat) :
    Eff [.objs, .pickups, .channels, .sides, .spindles, .axes, .host, .recorder] s (State.seekBefore s p a layer q) := by
  delta State.seekBefore
  refine Eff.start fun h0 => ?_
  extract_lets -merge -underBinder +onlyGivenNames y0 y1
  try clear_value y0 y1
  refine Eff.ite ?_ ?_
  · refine Eff.after (State.startSeek_eff _ _ _) ?_
    assumption
  · refine Eff.ite ?_ ?_
    · assumption
    · refine Eff.after (State.updP_eff _ _ _) ?_
      assumption

theorem State.readNext_eff (s : State) (p : PickupId) :
    Eff [.objs, .pickups, .channels, .sides, .spindles, .axes, .host, .recorder] s (State.readNext s p) := by
  delta State.readNext
  refine Eff.start fun h0 => ?_
  extract_lets -merge -underBinder +onlyGivenNames y0 y1
  try clear_value y0 y1
  split
  · assumption
  · extract_lets -merge -underBinder +onlyGivenNames y2
    try clear_value y2
    refine Eff.ite ?_ ?_
    · assumption
    · refine Eff.ite ?_ ?_
      · assumption
      · refine Eff.after (State.seekBefore_eff _ _ _ _ _) ?_
        assumption

theorem State.clusterEnd_eff (s : State) (p : PickupId) (r : ClusterRead) (recovered : Bool) :
    Eff [.objs, .pickups, .channels, .decoding, .sides, .spindles, .axes, .host, .recorder] s (State.clusterEnd s p r recovered) := by
  delta State.clusterEnd
  refine Eff.start fun h0 => ?_
  extract_lets -merge -underBinder +onlyGivenNames y0
  try clear_value y0
  extract_lets -merge -underBinder +onlyGivenNames y1
  refine h0.named (x := y1) ?_ fun _ => ?_
  · subst y1
    refine Eff.after (State.updS_eff _ _ _) ?_
    refine Eff.after (State.orphanJobs_eff _ _ _ _) ?_
    assumption
  clear_value y1
  extract_lets -merge -underBinder +onlyGivenNames y2
  refine h0.named (x := y2) ?_ fun _ => ?_
  · subst y2
    refine Eff.forEach ?_ fun _ _ _ => ?_
    · assumption
    · extract_lets -merge -underBinder +onlyGivenNames y3
      try clear_value y3
      extract_lets -merge -underBinder +onlyGivenNames y4
      refine h0.named (x := y4) ?_ fun _ => ?_
      · subst y4
        refine Eff.after (State.updCmd_eff _ _ _) ?_
        assumption
      clear_value y4
      extract_lets -merge -underBinder +onlyGivenNames y5
      refine h0.named (x := y5) ?_ fun _ => ?_
      · subst y5
        refine Eff.ite ?_ ?_
        · refine Eff.after (State.finishCmd_eff _ _ _) ?_
          assumption
        · assumption
      clear_value y5
      split
      · refine Eff.ite ?_ ?_
        · refine Eff.after (State.finishCmd_eff _ _ _) ?_
          assumption
        · assumption
      · assumption
  clear_value y2
  refine Eff.after (State.readNext_eff _ _) ?_
  assumption

theorem State.discardRead_eff (s : State) (p : PickupId) (layer : Nat) (q : Nat) :
    Eff [.objs, .pickups, .channels, .decoding, .sides, .spindles, .axes, .host, .recorder] s (State.discardRead s p layer q) := by
  delta State.discardRead
  refine Eff.start fun h0 => ?_
  extract_lets -merge -underBinder +onlyGivenNames y0
  refine h0.named (x := y0) ?_ fun _ => ?_
  · subst y0
    refine Eff.ite ?_ ?_
    · refine Eff.after (State.endDetour_eff _ _) ?_
      assumption
    · assumption
  clear_value y0
  refine Eff.after (State.readNext_eff _ _) ?_
  refine Eff.after (State.updS_eff _ _ _) ?_
  refine Eff.after (State.orphanJobs_eff _ _ _ _) ?_
  assumption

theorem State.decReport_eff (s : State) (p : PickupId) (r : ClusterRead) (code : Nat) (rest : List Int) :
    Eff [.objs, .recorder] s (State.decReport s p r code rest) := by
  delta State.decReport
  refine Eff.start fun h0 => ?_
  refine Eff.after (State.report_eff _ _ _ _) ?_
  assumption

theorem State.noteRead_eff (s : State) (p : PickupId) (r : ClusterRead) (detoured : Bool) : Eff [.sides] s (State.noteRead s p r detoured) := by
  delta State.noteRead
  refine Eff.start fun h0 => ?_
  extract_lets -merge -underBinder +onlyGivenNames y0
  try clear_value y0
  refine Eff.after (State.setEntry_eff _ _ _ _ _) ?_
  assumption

theorem State.ladderEnd_eff (s : State) (p : PickupId) (layer : Nat) (q : Nat) (decisive : Nat) :
    Eff [.objs, .pickups, .channels, .decoding, .sides, .spindles, .axes, .host, .recorder] s (State.ladderEnd s p layer q decisive) := by
  delta State.ladderEnd
  refine Eff.start fun h0 => ?_
  split
  · assumption
  · extract_lets -merge -underBinder +onlyGivenNames y0
    refine h0.named (x := y0) ?_ fun _ => ?_
    · subst y0
      refine Eff.after (State.endDetour_eff _ _) ?_
      assumption
    clear_value y0
    extract_lets -merge -underBinder +onlyGivenNames y1
    refine h0.named (x := y1) ?_ fun _ => ?_
    · subst y1
      refine Eff.after (State.noteRead_eff _ _ _ _) ?_
      assumption
    clear_value y1
    refine Eff.ite ?_ ?_
    · refine Eff.after (State.clusterEnd_eff _ _ _ _) ?_
      refine Eff.after (State.decReport_eff _ _ _ _ _) ?_
      assumption
    · extract_lets -merge -underBinder +onlyGivenNames y2
      refine h0.named (x := y2) ?_ fun _ => ?_
      · subst y2
        refine Eff.after (State.bump_eff _ _ _ _ _) ?_
        assumption
      clear_value y2
      extract_lets -merge -underBinder +onlyGivenNames y3
      refine h0.named (x := y3) ?_ fun _ => ?_
      · subst y3
        refine Eff.after (State.decReport_eff _ _ _ _ _) ?_
        assumption
      clear_value y3
      refine Eff.after (State.clusterEnd_eff _ _ _ _) ?_
      assumption

theorem State.prepareRung_eff (s : State) (p : PickupId) (layer : Nat) (q : Nat) (x : Nat) :
    Eff [.objs, .pickups, .channels, .decoding, .sides, .spindles, .axes, .host, .recorder] s (State.prepareRung s p layer q x) := by
  induction x generalizing s with
  | zero => exact .refl _ _
  | succ n ih =>
    rw [State.prepareRung]
    split
    · exact .refl _ _
    · split
      · exact .refl _ _
      · refine .ite (State.discardRead_eff _ _ _ _).mono (.ite (State.ladderEnd_eff _ _ _ _ _).mono ?_)
        dsimp only
        split
        · exact .refl _ _
        · refine .ite ((State.ladderEnd_eff _ _ _ _ _).after ?_) ((ih _).after ((State.updRead_eff _ _ _ _ _).after ?_))
          · exact (State.decReport_eff _ _ _ _ _).after (State.bump_eff _ _ _ _ _).mono
          · exact (State.decReport_eff _ _ _ _ _).after (State.bump_eff _ _ _ _ _).mono

theorem State.startLadder_eff (s : State) (p : PickupId) (r : ClusterRead) :
    Eff [.objs, .pickups, .channels, .decoding, .sides, .spindles, .axes, .host, .recorder] s (State.startLadder s p r) := by
  delta State.startLadder
  refine Eff.start fun h0 => ?_
  extract_lets -merge -underBinder +onlyGivenNames y0
  try clear_value y0
  extract_lets -merge -underBinder +onlyGivenNames y1
  refine h0.named (x := y1) ?_ fun _ => ?_
  · subst y1
    refine Eff.after (State.bump_eff _ _ _ _ _) ?_
    assumption
  clear_value y1
  extract_lets -merge -underBinder +onlyGivenNames y2
  refine h0.named (x := y2) ?_ fun _ => ?_
  · subst y2
    refine Eff.after (State.decReport_eff _ _ _ _ _) ?_
    assumption
  clear_value y2
  extract_lets -merge -underBinder +onlyGivenNames y3
  refine h0.named (x := y3) ?_ fun _ => ?_
  · subst y3
    refine Eff.after (State.updRead_eff _ _ _ _ _) ?_
    assumption
  clear_value y3
  refine Eff.after (State.prepareRung_eff _ _ _ _ _) ?_
  assumption

theorem State.decodeEnd_eff (s : State) (p : PickupId) (layer : Nat) (q : Nat) :
    Eff [.objs, .pickups, .channels, .decoding, .sides, .spindles, .axes, .host, .recorder] s (State.decodeEnd s p layer q) := by
  delta State.decodeEnd
  refine Eff.start fun h0 => ?_
  split
  · assumption
  · extract_lets -merge -underBinder +onlyGivenNames y0
    try clear_value y0
    extract_lets -merge -underBinder +onlyGivenNames y1
    refine h0.named (x := y1) ?_ fun _ => ?_
    · subst y1
      refine Eff.after (State.decReport_eff _ _ _ _ _) ?_
      assumption
    clear_value y1
    extract_lets -merge -underBinder +onlyGivenNames y2
    refine h0.named (x := y2) ?_ fun _ => ?_
    · subst y2
      refine Eff.after (State.updRead_eff _ _ _ _ _) ?_
      assumption
    clear_value y2
    refine Eff.ite ?_ ?_
    · assumption
    · refine Eff.ite ?_ ?_
      · extract_lets -merge -underBinder +onlyGivenNames y3
        refine h0.named (x := y3) ?_ fun _ => ?_
        · subst y3
          refine Eff.after (State.bump_eff _ _ _ _ _) ?_
          assumption
        clear_value y3
        refine Eff.after (State.clusterEnd_eff _ _ _ _) ?_
        refine Eff.after (State.noteRead_eff _ _ _ _) ?_
        assumption
      · refine Eff.after (State.startLadder_eff _ _ _) ?_
        assumption

theorem State.deliverTo_eff (s : State) (k : CmdRef) (r : ClusterRead) (x : SectorRead) : Eff [.host] s (State.deliverTo s k r x) := by
  delta State.deliverTo
  refine Eff.start fun h0 => ?_
  split
  · extract_lets -merge -underBinder +onlyGivenNames y0
    try clear_value y0
    refine Eff.after (State.updCmd_eff _ _ _) ?_
    assumption
  · assumption

theorem State.storeLlrs_eff (s : State) (p : PickupId) (layer : Nat) (q : Nat) : Eff [.objs, .sides, .recorder] s (State.storeLlrs s p layer q) := by
  delta State.storeLlrs
  refine Eff.start fun h0 => ?_
  split
  · assumption
  · refine Eff.ite ?_ ?_
    · assumption
    · refine Eff.ite ?_ ?_
      · refine Eff.after (State.updRead_eff _ _ _ _ _) ?_
        assumption
      · refine Eff.ite ?_ ?_
        · assumption
        · refine Eff.after (State.report_eff _ _ _ _) ?_
          refine Eff.after (State.updS_eff _ _ _) ?_
          assumption

theorem State.keepLlrs_eff (s : State) (p : PickupId) (layer : Nat) (q : Nat) (k : Nat) (h : Fin 2) (l : List Int) :
    Eff [.objs, .sides, .recorder] s (State.keepLlrs s p layer q k h l) := by
  delta State.keepLlrs
  refine Eff.start fun h0 => ?_
  refine Eff.after (State.storeLlrs_eff _ _ _ _) ?_
  refine Eff.after (State.updSector_eff _ _ _ _ _ _) ?_
  assumption

theorem State.settle_eff (s : State) (p : PickupId) (layer : Nat) (q : Nat) :
    Eff [.objs, .pickups, .channels, .decoding, .sides, .spindles, .axes, .host, .recorder] s (State.settle s p layer q) := by
  delta State.settle
  refine Eff.start fun h0 => ?_
  split
  · assumption
  · extract_lets -merge -underBinder +onlyGivenNames y0
    try clear_value y0
    extract_lets -merge -underBinder +onlyGivenNames y1
    refine h0.named (x := y1) ?_ fun _ => ?_
    · subst y1
      refine Eff.forEach ?_ fun _ _ _ => ?_
      · assumption
      · refine Eff.forEach ?_ fun _ _ _ => ?_
        · assumption
        · refine Eff.after (State.deliverTo_eff _ _ _ _) ?_
          assumption
    clear_value y1
    extract_lets -merge -underBinder +onlyGivenNames y2
    refine h0.named (x := y2) ?_ fun _ => ?_
    · subst y2
      refine Eff.after (State.updRead_eff _ _ _ _ _) ?_
      assumption
    clear_value y2
    refine Eff.ite ?_ ?_
    · refine Eff.after (State.clusterEnd_eff _ _ _ _) ?_
      assumption
    · assumption

theorem State.queueJob_eff (s : State) (j : Job) : Eff [.objs, .decoding] s (State.queueJob s j) := by
  delta State.queueJob
  refine Eff.start fun h0 => ?_
  extract_lets -merge -underBinder +onlyGivenNames y0 y1
  refine h0.named (x := y1) ?_ fun _ => ?_
  · subst y1
    subst y0
    refine Eff.put ?_
    assumption
  clear_value y0 y1
  refine Eff.after (State.maxOb_eff _ _ _ _ _) ?_
  assumption

theorem State.offerCodeword_eff (s : State) (g : BeamId) (i : Fin 3) (f : FrameSlot) (h : Fin 2) (second : Bool) :
    Eff [.objs, .decoding, .sides, .recorder] s (State.offerCodeword s g i f h second) := by
  delta State.offerCodeword
  refine Eff.start fun h0 => ?_
  extract_lets -merge -underBinder +onlyGivenNames y0 y1
  try clear_value y0 y1
  refine Eff.ite ?_ ?_
  · assumption
  · refine Eff.ite ?_ ?_
    · refine Eff.after (State.queueJob_eff _ _) ?_
      assumption
    · refine Eff.ite ?_ ?_
      · assumption
      · split
        · assumption
        · split
          · assumption
          · extract_lets -merge -underBinder +onlyGivenNames y2
            try clear_value y2
            refine Eff.ite ?_ ?_
            · assumption
            · refine Eff.ite ?_ ?_
              · refine Eff.after (State.updRead_eff _ _ _ _ _) ?_
                refine Eff.after (State.queueJob_eff _ _) ?_
                assumption
              · refine Eff.ite ?_ ?_
                · assumption
                · refine Eff.ite ?_ ?_
                  · refine Eff.after (State.keepLlrs_eff _ _ _ _ _ _ _) ?_
                    refine Eff.after (State.bump_eff _ _ _ _ _) ?_
                    refine Eff.after (State.updSector_eff _ _ _ _ _ _) ?_
                    assumption
                  · refine Eff.after (State.queueJob_eff _ _) ?_
                    assumption

theorem State.queueRedecodes_eff (s : State) (p : PickupId) (r : ClusterRead) (cls : PoolClass) (limit : Nat) (offset : Nat) (l : List (Nat × Fin 2 × List Int)) :
    Eff [.objs, .decoding, .sides] s (State.queueRedecodes s p r cls limit offset l) := by
  delta State.queueRedecodes
  refine Eff.start fun h0 => ?_
  refine Eff.after (State.updRead_eff _ _ _ _ _) ?_
  refine Eff.forEach ?_ fun _ _ _ => ?_
  · assumption
  · refine Eff.after (State.queueJob_eff _ _) ?_
    assumption

theorem State.readmit_eff (s : State) (p : PickupId) (layer : Nat) (q : Nat) : Eff [.objs, .sides, .recorder] s (State.readmit s p layer q) := by
  delta State.readmit
  refine Eff.start fun h0 => ?_
  split
  · assumption
  · extract_lets -merge -underBinder +onlyGivenNames y0 y1
    try clear_value y0 y1
    extract_lets -merge -underBinder +onlyGivenNames y2
    refine h0.named (x := y2) ?_ fun _ => ?_
    · subst y2
      refine Eff.forEach ?_ fun _ _ _ => ?_
      · assumption
      · refine Eff.after (State.decReport_eff _ _ _ _ _) ?_
        refine Eff.after (State.bump_eff _ _ _ _ _) ?_
        assumption
    clear_value y2
    refine Eff.after (State.updRead_eff _ _ _ _ _) ?_
    assumption

theorem State.roundEnd_eff (s : State) (p : PickupId) (layer : Nat) (q : Nat) :
    Eff [.objs, .pickups, .channels, .decoding, .sides, .spindles, .axes, .host, .recorder] s (State.roundEnd s p layer q) := by
  delta State.roundEnd
  refine Eff.start fun h0 => ?_
  extract_lets -merge -underBinder +onlyGivenNames y0
  refine h0.named (x := y0) ?_ fun _ => ?_
  · subst y0
    refine Eff.after (State.settle_eff _ _ _ _) ?_
    assumption
  clear_value y0
  split
  · assumption
  · refine Eff.ite ?_ ?_
    · refine Eff.after (State.decodeEnd_eff _ _ _ _) ?_
      assumption
    · extract_lets -merge -underBinder +onlyGivenNames y1
      refine h0.named (x := y1) ?_ fun _ => ?_
      · subst y1
        refine Eff.after (State.settle_eff _ _ _ _) ?_
        refine Eff.after (State.readmit_eff _ _ _ _) ?_
        assumption
      clear_value y1
      extract_lets -merge -underBinder +onlyGivenNames y2
      try clear_value y2
      refine Eff.ite ?_ ?_
      · refine Eff.after (State.decodeEnd_eff _ _ _ _) ?_
        assumption
      · refine Eff.after (State.updRead_eff _ _ _ _ _) ?_
        assumption

theorem State.wantCluster_eff (s : State) (p : PickupId) (zone : Nat) (cluster : Nat) (k : CmdRef) :
    Eff [.objs, .pickups, .channels, .sides, .spindles, .axes, .host, .recorder] s (State.wantCluster s p zone cluster k) := by
  delta State.wantCluster
  refine Eff.start fun h0 => ?_
  split
  · split
    · extract_lets -merge -underBinder +onlyGivenNames y0
      refine h0.named (x := y0) ?_ fun _ => ?_
      · subst y0
        refine Eff.forEach ?_ fun _ _ _ => ?_
        · assumption
        · refine Eff.after (State.deliverTo_eff _ _ _ _) ?_
          assumption
      clear_value y0
      refine Eff.after (State.updRead_eff _ _ _ _ _) ?_
      assumption
    · extract_lets -merge -underBinder +onlyGivenNames y1 y2
      try clear_value y1 y2
      extract_lets -merge -underBinder +onlyGivenNames y3
      refine h0.named (x := y3) ?_ fun _ => ?_
      · subst y3
        refine Eff.after (State.updS_eff _ _ _) ?_
        assumption
      clear_value y3
      refine Eff.ite ?_ ?_
      · refine Eff.after (State.readNext_eff _ _) ?_
        assumption
      · assumption

end Sys2Proof.Machine
end

