-- ==== Sys2Proof/Laws/StagingOps.lean ====
section
/-! SUPPORT. What each operation of Sys2Proof/Machine/StagingOps.lean may change: `x_eff` names the parts of the state that x may change and says that
x keeps every form of Sys2Proof/Safety.lean; `x_effs` says so of an operation with operations as arguments, under the same of each argument. -/

set_option Elab.async false

namespace Sys2Proof.Machine

theorem State.emptyArea_eff (s : State) : Eff [.staging] s (State.emptyArea s) := by
  delta State.emptyArea
  refine Eff.start fun h0 => ?_
  refine Eff.put ?_
  assumption

theorem State.switchOutcome_eff (s : State) (r : SwitchResult) (fail : Option (Nat × Nat)) : Eff [.objs] s (State.switchOutcome s r fail) := by
  delta State.switchOutcome
  refine Eff.start fun h0 => ?_
  extract_lets -merge -underBinder +onlyGivenNames y0
  refine h0.named (x := y0) ?_ fun _ => ?_
  · subst y0
    refine Eff.after (State.setOb_eff _ _ _ _ _) ?_
    assumption
  clear_value y0
  extract_lets -merge -underBinder +onlyGivenNames y1
  refine h0.named (x := y1) ?_ fun _ => ?_
  · subst y1
    refine Eff.after (State.setOb_eff _ _ _ _ _) ?_
    assumption
  clear_value y1
  refine Eff.after (State.setOb_eff _ _ _ _ _) ?_
  assumption

theorem State.noteChange_eff (s : State) (key : Nat) : Eff [.objs, .recorder] s (State.noteChange s key) := by
  delta State.noteChange
  refine Eff.start fun h0 => ?_
  split
  · refine Eff.after (State.report_eff _ _ _ _) ?_
    refine Eff.after (State.bump_eff _ _ _ _ _) ?_
    assumption
  · assumption

theorem State.putKey_eff (s : State) (key : Nat) (v : Int) : Eff [.objs, .recorder] s (State.putKey s key v) := by
  delta State.putKey
  refine Eff.start fun h0 => ?_
  extract_lets -merge -underBinder +onlyGivenNames y0
  try clear_value y0
  extract_lets -merge -underBinder +onlyGivenNames y1
  refine h0.named (x := y1) ?_ fun _ => ?_
  · subst y1
    refine Eff.after (State.setKey_eff _ _ _) ?_
    assumption
  clear_value y1
  refine Eff.ite ?_ ?_
  · assumption
  · refine Eff.after (State.noteChange_eff _ _) ?_
    assumption

theorem State.commitSet_eff (s : State) : Eff [.staging] s (State.commitSet s) := by
  delta State.commitSet
  refine Eff.start fun h0 => ?_
  extract_lets -merge -underBinder +onlyGivenNames y0
  try clear_value y0
  refine Eff.put ?_
  assumption

theorem State.resulting_eff (s : State) (es : List Staged) : Eff [.objs] s (State.resulting s es) := by
  delta State.resulting
  refine Eff.start fun h0 => ?_
  refine Eff.forEach ?_ fun _ _ _ => ?_
  · assumption
  · refine Eff.after (State.setKey_eff _ _ _) ?_
    assumption

theorem State.switchRefused_eff (s : State) (cl : Client) (fail : Nat × Nat) : Eff [.objs, .recorder] s (State.switchRefused s cl fail) := by
  delta State.switchRefused
  refine Eff.start fun h0 => ?_
  refine Eff.after (State.report_eff _ _ _ _) ?_
  refine Eff.after (State.switchOutcome_eff _ _ _) ?_
  assumption

theorem State.applyRequest_eff (s : State) (cl : Client) (reply : Bool) :
    Eff [.freeCount, .objs, .signpost, .staging, .recorder] s (State.applyRequest s cl reply) := by
  delta State.applyRequest
  refine Eff.start fun h0 => ?_
  split
  · extract_lets -merge -underBinder +onlyGivenNames y0
    refine h0.named (x := y0) ?_ fun _ => ?_
    · subst y0
      refine Eff.after (State.switchRefused_eff _ _ _) ?_
      assumption
    clear_value y0
    refine Eff.ite ?_ ?_
    · refine Eff.after (State.answer_eff _ _ _ _) ?_
      assumption
    · assumption
  · extract_lets -merge -underBinder +onlyGivenNames y1
    refine h0.named (x := y1) ?_ fun _ => ?_
    · subst y1
      refine Eff.after (State.commitSet_eff _) ?_
      assumption
    clear_value y1
    refine Eff.put ?_
    assumption

theorem State.areaTouched_eff (s : State) (cl : Client) : Eff [.staging] s (State.areaTouched s cl) := by
  delta State.areaTouched
  refine Eff.start fun h0 => ?_
  refine Eff.ite ?_ ?_
  · refine Eff.put ?_
    assumption
  · assumption

theorem State.placeNow_eff (s : State) (k : Fin 3) (es : List Staged) : Eff [.objs, .staging, .cal, .recorder] s (State.placeNow s k es) := by
  delta State.placeNow
  refine Eff.start fun h0 => ?_
  extract_lets -merge -underBinder +onlyGivenNames y0 y1
  refine h0.named (x := y1) ?_ fun _ => ?_
  · subst y1
    subst y0
    refine Eff.put ?_
    assumption
  clear_value y0 y1
  split
  · extract_lets -merge -underBinder +onlyGivenNames y2
    refine h0.named (x := y2) ?_ fun _ => ?_
    · subst y2
      refine Eff.after (State.emptyArea_eff _) ?_
      refine Eff.after (State.switchRefused_eff _ _ _) ?_
      assumption
    clear_value y2
    extract_lets -merge -underBinder +onlyGivenNames y3 y4
    refine h0.named (x := y4) ?_ fun _ => ?_
    · subst y4
      subst y3
      refine Eff.put ?_
      assumption
    clear_value y3 y4
    refine Eff.ite ?_ ?_
    · refine Eff.after (State.report_eff _ _ _ _) ?_
      refine Eff.after (State.bump_eff _ _ _ _ _) ?_
      assumption
    · assumption
  · refine Eff.after (State.commitSet_eff _) ?_
    assumption

theorem State.placeWaiting_eff (s : State) : Eff [.objs, .staging, .cal, .recorder] s (State.placeWaiting s) := by
  delta State.placeWaiting
  refine Eff.start fun h0 => ?_
  refine Eff.forEach ?_ fun _ _ _ => ?_
  · assumption
  · split
    · assumption
    · refine Eff.ite ?_ ?_
      · refine Eff.after (State.placeNow_eff _ _ _) ?_
        refine Eff.put ?_
        assumption
      · assumption

theorem State.placeInternal_eff (s : State) (k : Fin 3) (es : List Staged) :
    Eff [.objs, .staging, .cal, .recorder] s (State.placeInternal s k es) := by
  delta State.placeInternal
  refine Eff.start fun h0 => ?_
  refine Eff.ite ?_ ?_
  · assumption
  · refine Eff.ite ?_ ?_
    · refine Eff.after (State.placeNow_eff _ _ _) ?_
      assumption
    · refine Eff.put ?_
      assumption

end Sys2Proof.Machine
end

