-- ==== Sys2Proof/Laws/SpindleOps.lean ====
section
/-! SUPPORT. What each operation of Sys2Proof/Machine/SpindleOps.lean may change: `x_eff` names the parts of the state that x may change and says that
x keeps every form of Sys2Proof/Safety.lean; `x_effs` says so of an operation with operations as arguments, under the same of each argument. -/

set_option Elab.async false

namespace Sys2Proof.Machine

theorem State.beginSensing_eff (s : State) (i : SpindleId) (reverse : Bool) : Eff [.spindles] s (State.beginSensing s i reverse) := by
  delta State.beginSensing
  refine Eff.start fun h0 => ?_
  refine Eff.after (State.updM_eff _ _ _) ?_
  assumption

theorem State.parkBoth_eff (s : State) (i : SpindleId) (r : ParkReason) :
    Eff [.objs, .pickups, .channels, .sides, .spindles, .axes, .host, .recorder] s (State.parkBoth s i r) := by
  delta State.parkBoth
  refine Eff.start fun h0 => ?_
  refine Eff.forEach ?_ fun _ _ _ => ?_
  · assumption
  · extract_lets -merge -underBinder +onlyGivenNames y0
    try clear_value y0
    refine Eff.ite ?_ ?_
    · refine Eff.after (State.updP_eff _ _ _) ?_
      assumption
    · refine Eff.after (State.park_eff _ _ _) ?_
      assumption

theorem State.coastSpindle_eff (s : State) (i : SpindleId) :
    Eff [.objs, .pickups, .channels, .sides, .spindles, .axes, .host, .recorder] s (State.coastSpindle s i) := by
  delta State.coastSpindle
  refine Eff.start fun h0 => ?_
  extract_lets -merge -underBinder +onlyGivenNames y0
  refine h0.named (x := y0) ?_ fun _ => ?_
  · subst y0
    refine Eff.after (State.parkBoth_eff _ _ _) ?_
    assumption
  clear_value y0
  refine Eff.after (State.updM_eff _ _ _) ?_
  assumption

theorem State.startOrWait_eff (s : State) (i : SpindleId) (reverse : Bool) : Eff [.spindles] s (State.startOrWait s i reverse) := by
  delta State.startOrWait
  refine Eff.start fun h0 => ?_
  refine Eff.ite ?_ ?_
  · refine Eff.after (State.updM_eff _ _ _) ?_
    assumption
  · refine Eff.after (State.beginSensing_eff _ _ _) ?_
    assumption

theorem State.startSpindle_eff (s : State) (i : SpindleId) (reverse : Bool) : Eff [.spindles] s (State.startSpindle s i reverse) := by
  delta State.startSpindle
  refine Eff.start fun h0 => ?_
  split
  · refine Eff.after (State.startOrWait_eff _ _ _) ?_
    assumption
  · refine Eff.after (State.startOrWait_eff _ _ _) ?_
    assumption
  · refine Eff.ite ?_ ?_
    · refine Eff.after (State.startOrWait_eff _ _ _) ?_
      assumption
    · assumption
  · refine Eff.after (State.updM_eff _ _ _) ?_
    assumption
  · refine Eff.after (State.updM_eff _ _ _) ?_
    assumption

theorem State.stopSpindle_eff (s : State) (i : SpindleId) :
    Eff [.objs, .pickups, .channels, .sides, .spindles, .axes, .host, .recorder] s (State.stopSpindle s i) := by
  delta State.stopSpindle
  refine Eff.start fun h0 => ?_
  extract_lets -merge -underBinder +onlyGivenNames y0
  refine h0.named (x := y0) ?_ fun _ => ?_
  · subst y0
    refine Eff.after (State.parkBoth_eff _ _ _) ?_
    assumption
  clear_value y0
  refine Eff.after (State.updM_eff _ _ _) ?_
  assumption

theorem State.resetSpindle_eff (s : State) (i : SpindleId) : Eff [.spindles] s (State.resetSpindle s i) := by
  delta State.resetSpindle
  refine Eff.start fun h0 => ?_
  refine Eff.after (State.updM_eff _ _ _) ?_
  assumption

theorem State.spinReport_eff (s : State) (i : SpindleId) (code : Nat) (rest : List Int) :
    Eff [.objs, .recorder] s (State.spinReport s i code rest) := by
  delta State.spinReport
  refine Eff.start fun h0 => ?_
  refine Eff.after (State.report_eff _ _ _ _) ?_
  assumption

theorem State.faultSpindle_eff (s : State) (i : SpindleId) (b : SpindleFaultBit) :
    Eff [.objs, .pickups, .channels, .sides, .spindles, .axes, .host, .recorder] s (State.faultSpindle s i b) := by
  delta State.faultSpindle
  refine Eff.start fun h0 => ?_
  extract_lets -merge -underBinder +onlyGivenNames y0
  refine h0.named (x := y0) ?_ fun _ => ?_
  · subst y0
    refine Eff.after (State.updM_eff _ _ _) ?_
    assumption
  clear_value y0
  refine Eff.after (State.parkBoth_eff _ _ _) ?_
  assumption

theorem State.holdBoth_eff (s : State) (i : SpindleId) : Eff [.objs, .pickups, .channels, .axes, .recorder, .milestone] s (State.holdBoth s i) := by
  delta State.holdBoth
  refine Eff.start fun h0 => ?_
  refine Eff.forEach ?_ fun _ _ _ => ?_
  · assumption
  · refine Eff.after (State.enterHold_eff _ _ _ _ _) ?_
    assumption

end Sys2Proof.Machine
end

