-- ==== Sys2Proof/Laws/Acquisition.lean ====
section
/-! SUPPORT. What each operation of Sys2Proof/Machine/Acquisition.lean may change: `x_eff` names the parts of the state that x may change and says that
x keeps every form of Sys2Proof/Safety.lean; `x_effs` says so of an operation with operations as arguments, under the same of each argument. -/

set_option Elab.async false

namespace Sys2Proof.Machine

theorem State.arrayLeavesHold_eff (s : State) (p : PickupId) : Eff [.pickups] s (State.arrayLeavesHold s p) := by
  delta State.arrayLeavesHold
  refine Eff.start fun h0 => ?_
  refine Eff.ite ?_ ?_
  · refine Eff.after (State.updP_eff _ _ _) ?_
    refine Eff.after (State.unholdLoop_eff _ _ _) ?_
    refine Eff.after (State.unholdLoop_eff _ _ _) ?_
    refine Eff.after (State.unholdLoop_eff _ _ _) ?_
    assumption
  · assumption

theorem State.mountAlone_eff (s : State) (i : SpindleId) (p : PickupId) : Eff [.pickups, .spindles] s (State.mountAlone s i p) := by
  delta State.mountAlone
  refine Eff.start fun h0 => ?_
  refine Eff.after (State.updP_eff _ _ _) ?_
  refine Eff.after (State.updM_eff _ _ _) ?_
  assumption

theorem State.mountBoth_eff (s : State) (i : SpindleId) : Eff [.pickups, .spindles, .verge] s (State.mountBoth s i) := by
  delta State.mountBoth
  refine Eff.start fun h0 => ?_
  extract_lets -merge -underBinder +onlyGivenNames y0
  refine h0.named (x := y0) ?_ fun _ => ?_
  · subst y0
    refine Eff.forEach ?_ fun _ _ _ => ?_
    · assumption
    · refine Eff.after (State.updP_eff _ _ _) ?_
      assumption
  clear_value y0
  extract_lets -merge -underBinder +onlyGivenNames y1 y2
  refine h0.named (x := y2) ?_ fun _ => ?_
  · subst y2
    subst y1
    refine Eff.put ?_
    assumption
  clear_value y1 y2
  refine Eff.after (State.updM_eff _ _ _) ?_
  refine Eff.after (State.startSpindle_eff _ _ _) ?_
  assumption

theorem State.mountIgnored_eff (s : State) (i : SpindleId) : Eff [.objs, .recorder] s (State.mountIgnored s i) := by
  delta State.mountIgnored
  refine Eff.start fun h0 => ?_
  refine Eff.after (State.report_eff _ _ _ _) ?_
  assumption

theorem State.mountSpindle_eff (s : State) (i : SpindleId) : Eff [.objs, .pickups, .spindles, .recorder, .verge] s (State.mountSpindle s i) := by
  delta State.mountSpindle
  refine Eff.start fun h0 => ?_
  extract_lets -merge -underBinder +onlyGivenNames y0 y1 y2 y3
  try clear_value y0 y1 y2 y3
  refine Eff.ite ?_ ?_
  · refine Eff.after (State.mountIgnored_eff _ _) ?_
    assumption
  · refine Eff.ite ?_ ?_
    · refine Eff.ite ?_ ?_
      · refine Eff.after (State.mountIgnored_eff _ _) ?_
        assumption
      · refine Eff.after (State.mountBoth_eff _ _) ?_
        assumption
    · refine Eff.ite ?_ ?_
      · refine Eff.after (State.mountAlone_eff _ _ _) ?_
        assumption
      · refine Eff.ite ?_ ?_
        · refine Eff.after (State.mountAlone_eff _ _ _) ?_
          assumption
        · refine Eff.after (State.mountIgnored_eff _ _) ?_
          assumption

theorem execMountRequest_eff (cl : Client) (v : Int) (s : State) :
    OutEff [.freeCount, .objs, .pickups, .spindles, .signpost, .recorder, .verge] s (execMountRequest cl v s) := by
  delta execMountRequest
  refine OutEff.start fun h0 => ?_
  refine State.when_effs ?_ (fun _ _ => ?_)
  · assumption
  · refine State.hostWrite_effs ?_ (fun _ _ => ?_)
    · assumption
    · refine Eff.forEach ?_ fun _ _ _ => ?_
      · assumption
      · refine Eff.ite ?_ ?_
        · refine Eff.after (State.mountSpindle_eff _ _) ?_
          assumption
        · assumption

theorem execParkRequest_eff (cl : Client) (p : PickupId) (v : Int) (s : State) :
    OutEff [.freeCount, .objs, .pickups, .channels, .sides, .spindles, .axes, .host, .signpost, .recorder] s (execParkRequest cl p v s) := by
  delta execParkRequest
  refine OutEff.start fun h0 => ?_
  refine State.when_effs ?_ (fun _ _ => ?_)
  · assumption
  · refine State.hostWrite_effs ?_ (fun _ _ => ?_)
    · assumption
    · refine Eff.after (State.park_eff _ _ _) ?_
      assumption

theorem execSeekRequest_eff (cl : Client) (p : PickupId) (v : Int) (s : State) :
    OutEff [.freeCount, .objs, .pickups, .channels, .sides, .spindles, .axes, .host, .signpost, .recorder] s (execSeekRequest cl p v s) := by
  delta execSeekRequest
  refine OutEff.start fun h0 => ?_
  extract_lets -merge -underBinder +onlyGivenNames y0 y1 y2
  try clear_value y0 y1 y2
  refine State.when_effs ?_ (fun _ _ => ?_)
  · assumption
  · refine State.hostWriteOr_effs ?_ (fun _ _ => ?_) (fun _ _ => ?_)
    · assumption
    · refine Eff.after (State.report_eff _ _ _ _) ?_
      assumption
    · refine Eff.ite ?_ ?_
      · refine Eff.after (State.startSeek_eff _ _ _) ?_
        assumption
      · refine Eff.after (State.updP_eff _ _ _) ?_
        assumption

theorem State.nextMap_eff (s : State) (p : PickupId) :
    Eff [.objs, .pickups, .channels, .sides, .spindles, .axes, .host, .cal, .recorder] s (State.nextMap s p) := by
  delta State.nextMap
  refine Eff.start fun h0 => ?_
  extract_lets -merge -underBinder +onlyGivenNames y0
  try clear_value y0
  split
  · refine Eff.after (State.updP_eff _ _ _) ?_
    assumption
  · extract_lets -merge -underBinder +onlyGivenNames y1
    refine h0.named (x := y1) ?_ fun _ => ?_
    · subst y1
      refine Eff.after (State.updP_eff _ _ _) ?_
      assumption
    clear_value y1
    extract_lets -merge -underBinder +onlyGivenNames y2
    refine h0.named (x := y2) ?_ fun _ => ?_
    · subst y2
      refine Eff.after (State.follow_eff _ _) ?_
      refine Eff.after (State.report_eff _ _ _ _) ?_
      assumption
    clear_value y2
    extract_lets -merge -underBinder +onlyGivenNames y3 y4
    refine h0.named (x := y4) ?_ fun _ => ?_
    · subst y4
      subst y3
      refine Eff.put ?_
      assumption
    clear_value y3 y4
    refine Eff.ite ?_ ?_
    · refine Eff.after (State.readNext_eff _ _) ?_
      refine Eff.after (State.updS_eff _ _ _) ?_
      assumption
    · assumption

theorem State.sequenceLaw_eff (s : State) (p : PickupId) :
    Eff [.objs, .pickups, .channels, .sides, .spindles, .axes, .host, .cal, .recorder] s (State.sequenceLaw s p) := by
  delta State.sequenceLaw
  refine Eff.start fun h0 => ?_
  extract_lets -merge -underBinder +onlyGivenNames y0
  try clear_value y0
  split
  · refine Eff.ite ?_ ?_
    · refine Eff.after (State.nextMap_eff _ _) ?_
      assumption
    · refine Eff.after (State.updP_eff _ _ _) ?_
      refine Eff.after (State.closeLoop_eff _ _ _) ?_
      refine Eff.after (State.closeLoop_eff _ _ _) ?_
      assumption
  · split
    · refine Eff.after (State.runQueued_eff _ _) ?_
      refine Eff.after (State.towardTarget_eff _ _ _) ?_
      assumption
    · refine Eff.after (State.runQueued_eff _ _) ?_
      refine Eff.after (State.follow_eff _ _) ?_
      assumption
  · split
    · refine Eff.after (State.towardTarget_eff _ _ _) ?_
      assumption
    · assumption
  · assumption

theorem State.setsOfLayer_eff (s : State) (p : PickupId) (layer : Nat) : Eff [.channels] s (State.setsOfLayer s p layer) := by
  delta State.setsOfLayer
  refine Eff.start fun h0 => ?_
  refine Eff.ite ?_ ?_
  · assumption
  · refine Eff.after (State.switchSets_eff _ _ _) ?_
    assumption

theorem State.firstLaw_eff (s : State) (p : PickupId) (w : BitVec 32) :
    Eff [.objs, .pickups, .channels, .sides, .spindles, .axes, .host, .cal, .recorder] s (State.firstLaw s p w) := by
  delta State.firstLaw
  refine Eff.start fun h0 => ?_
  extract_lets -merge -underBinder +onlyGivenNames y0
  try clear_value y0
  extract_lets -merge -underBinder +onlyGivenNames y1
  refine h0.named (x := y1) ?_ fun _ => ?_
  · subst y1
    refine Eff.after (State.rebaseSled_eff _ _ _) ?_
    refine Eff.after (State.updP_eff _ _ _) ?_
    assumption
  clear_value y1
  extract_lets -merge -underBinder +onlyGivenNames y2
  refine h0.named (x := y2) ?_ fun _ => ?_
  · subst y2
    refine Eff.ite ?_ ?_
    · refine Eff.after (State.closeLoop_eff _ _ _) ?_
      assumption
    · assumption
  clear_value y2
  refine Eff.ite ?_ ?_
  · assumption
  · extract_lets -merge -underBinder +onlyGivenNames y3
    refine h0.named (x := y3) ?_ fun _ => ?_
    · subst y3
      refine Eff.after (State.setsOfLayer_eff _ _ _) ?_
      refine Eff.after (State.arrayLeavesHold_eff _ _) ?_
      assumption
    clear_value y3
    extract_lets -merge -underBinder +onlyGivenNames y4
    refine h0.named (x := y4) ?_ fun _ => ?_
    · subst y4
      refine Eff.ite ?_ ?_
      · refine Eff.after (State.updP_eff _ _ _) ?_
        assumption
      · assumption
    clear_value y4
    extract_lets -merge -underBinder +onlyGivenNames y5
    refine h0.named (x := y5) ?_ fun _ => ?_
    · subst y5
      refine Eff.ite ?_ ?_
      · refine Eff.after (State.updP_eff _ _ _) ?_
        assumption
      · assumption
    clear_value y5
    refine Eff.after (State.sequenceLaw_eff _ _) ?_
    assumption

theorem State.followLaw_eff (s : State) (p : PickupId) (w : BitVec 32) :
    Eff [.objs, .pickups, .channels, .sides, .spindles, .axes, .host, .recorder] s (State.followLaw s p w) := by
  delta State.followLaw
  refine Eff.start fun h0 => ?_
  extract_lets -merge -underBinder +onlyGivenNames y0
  try clear_value y0
  extract_lets -merge -underBinder +onlyGivenNames y1
  refine h0.named (x := y1) ?_ fun _ => ?_
  · subst y1
    refine Eff.after (State.updP_eff _ _ _) ?_
    assumption
  clear_value y1
  refine Eff.ite ?_ ?_
  · refine Eff.after (State.startRecovery_eff _ _ _) ?_
    refine Eff.after (State.updP_eff _ _ _) ?_
    assumption
  · extract_lets -merge -underBinder +onlyGivenNames y2
    refine h0.named (x := y2) ?_ fun _ => ?_
    · subst y2
      refine Eff.ite ?_ ?_
      · refine Eff.after (State.updChannels_eff _ _ _) ?_
        refine Eff.after (State.report_eff _ _ _ _) ?_
        refine Eff.after (State.updS_eff _ _ _) ?_
        refine Eff.after (State.updP_eff _ _ _) ?_
        assumption
      · assumption
    clear_value y2
    refine Eff.ite ?_ ?_
    · refine Eff.after (State.recheckSled_eff _ _ _) ?_
      assumption
    · assumption

theorem State.lawDiscarded_eff (s : State) (p : PickupId) : Eff [.objs, .pickups, .axes, .recorder] s (State.lawDiscarded s p) := by
  delta State.lawDiscarded
  refine Eff.start fun h0 => ?_
  extract_lets -merge -underBinder +onlyGivenNames y0
  try clear_value y0
  extract_lets -merge -underBinder +onlyGivenNames y1
  refine h0.named (x := y1) ?_ fun _ => ?_
  · subst y1
    refine Eff.after (State.bump_eff _ _ _ _ _) ?_
    refine Eff.after (State.updP_eff _ _ _) ?_
    assumption
  clear_value y1
  refine Eff.ite ?_ ?_
  · refine Eff.after (State.recheckSled_eff _ _ _) ?_
    assumption
  · assumption

theorem State.remountIdle_eff (s : State) : Eff [.pickups, .spindles, .host, .verge] s (State.remountIdle s) := by
  delta State.remountIdle
  refine Eff.start fun h0 => ?_
  refine Eff.forEach ?_ fun _ _ _ => ?_
  · assumption
  · refine Eff.ite ?_ ?_
    · refine Eff.after (State.mountBoth_eff _ _) ?_
      refine Eff.put ?_
      assumption
    · assumption

theorem State.searchMove_eff (s : State) (p : PickupId) (n : Int) : Eff [.pickups, .axes] s (State.searchMove s p n) := by
  delta State.searchMove
  refine Eff.start fun h0 => ?_
  refine Eff.after (State.moveRelative_eff _ _ _) ?_
  refine Eff.after (State.updP_eff _ _ _) ?_
  assumption

theorem State.startCapture_eff (s : State) (p : PickupId) : Eff [.pickups] s (State.startCapture s p) := by
  delta State.startCapture
  refine Eff.start fun h0 => ?_
  refine Eff.after (State.updP_eff _ _ _) ?_
  refine Eff.after (State.openHere_eff _ _ _) ?_
  assumption

theorem State.wrongSide_eff (s : State) (p : PickupId) (seen : Nat) :
    Eff [.objs, .pickups, .channels, .sides, .spindles, .axes, .host, .recorder] s (State.wrongSide s p seen) := by
  delta State.wrongSide
  refine Eff.start fun h0 => ?_
  extract_lets -merge -underBinder +onlyGivenNames y0
  refine h0.named (x := y0) ?_ fun _ => ?_
  · subst y0
    refine Eff.after (State.report_eff _ _ _ _) ?_
    assumption
  clear_value y0
  refine Eff.forEach ?_ fun _ _ _ => ?_
  · assumption
  · refine Eff.after (State.updP_eff _ _ _) ?_
    refine Eff.after (State.park_eff _ _ _) ?_
    assumption

theorem execArrayLock_eff (p : PickupId) (s : State) :
    OutEff [.objs, .pickups, .channels, .sides, .spindles, .axes, .host, .cal, .recorder] s (execArrayLock p s) := by
  delta execArrayLock
  refine OutEff.start fun h0 => ?_
  refine State.when_effs ?_ (fun _ _ => ?_)
  · assumption
  · refine Eff.after (State.nextMap_eff _ _) ?_
    refine Eff.after (State.updP_eff _ _ _) ?_
    assumption

theorem execArraySlow_eff (p : PickupId) (s : State) :
    OutEff [.objs, .pickups, .channels, .sides, .spindles, .axes, .host, .cal, .recorder] s (execArraySlow p s) := by
  delta execArraySlow
  refine OutEff.start fun h0 => ?_
  refine State.when_effs ?_ (fun _ _ => ?_)
  · assumption
  · refine Eff.after (State.nextMap_eff _ _) ?_
    refine Eff.after (State.report_eff _ _ _ _) ?_
    refine Eff.after (State.updP_eff _ _ _) ?_
    assumption

theorem execCaptureSettle_eff (p : PickupId) (s : State) : OutEff [.pickups] s (execCaptureSettle p s) := by
  delta execCaptureSettle
  refine OutEff.start fun h0 => ?_
  extract_lets -merge -underBinder +onlyGivenNames y0 y1
  try clear_value y0 y1
  refine State.when_effs ?_ (fun _ _ => ?_)
  · assumption
  · refine Eff.after (State.updP_eff _ _ _) ?_
    assumption

theorem execCaptureTimeout_eff (p : PickupId) (s : State) :
    OutEff [.objs, .pickups, .channels, .sides, .spindles, .axes, .host, .recorder] s (execCaptureTimeout p s) := by
  delta execCaptureTimeout
  refine OutEff.start fun h0 => ?_
  extract_lets -merge -underBinder +onlyGivenNames y0
  try clear_value y0
  refine State.when_effs ?_ (fun _ _ => ?_)
  · assumption
  · refine Eff.ite ?_ ?_
    · refine Eff.after (State.startCapture_eff _ _) ?_
      assumption
    · extract_lets -merge -underBinder +onlyGivenNames y1
      try clear_value y1
      extract_lets -merge -underBinder +onlyGivenNames y2
      refine h0.named (x := y2) ?_ fun _ => ?_
      · subst y2
        refine Eff.after (State.startCapture_eff _ _) ?_
        assumption
      clear_value y2
      refine Eff.ite ?_ ?_
      · refine Eff.after (State.searchMove_eff _ _ _) ?_
        refine Eff.after (State.updP_eff _ _ _) ?_
        assumption
      · refine Eff.ite ?_ ?_
        · refine Eff.after (State.searchMove_eff _ _ _) ?_
          refine Eff.after (State.updP_eff _ _ _) ?_
          assumption
        · refine Eff.after (State.park_eff _ _ _) ?_
          refine Eff.after (State.report_eff _ _ _ _) ?_
          assumption

theorem execFocusClose_eff (p : PickupId) (s : State) : OutEff [.pickups] s (execFocusClose p s) := by
  delta execFocusClose
  refine OutEff.start fun h0 => ?_
  extract_lets -merge -underBinder +onlyGivenNames y0
  try clear_value y0
  refine State.when_effs ?_ (fun _ _ => ?_)
  · assumption
  · refine Eff.after (State.updP_eff _ _ _) ?_
    refine Eff.after (State.closeLoop_eff _ _ _) ?_
    assumption

theorem execFocusSettle_eff (p : PickupId) (s : State) : OutEff [.pickups] s (execFocusSettle p s) := by
  delta execFocusSettle
  refine OutEff.start fun h0 => ?_
  extract_lets -merge -underBinder +onlyGivenNames y0
  try clear_value y0
  refine State.when_effs ?_ (fun _ _ => ?_)
  · assumption
  · refine Eff.ite ?_ ?_
    · refine Eff.after (State.updP_eff _ _ _) ?_
      refine Eff.after (State.startCapture_eff _ _) ?_
      assumption
    · refine Eff.after (State.updP_eff _ _ _) ?_
      refine Eff.after (State.startCapture_eff _ _) ?_
      assumption

theorem execFocusSweepEnd_eff (p : PickupId) (s : State) :
    OutEff [.objs, .pickups, .channels, .sides, .spindles, .axes, .host, .recorder] s (execFocusSweepEnd p s) := by
  delta execFocusSweepEnd
  refine OutEff.start fun h0 => ?_
  extract_lets -merge -underBinder +onlyGivenNames y0
  try clear_value y0
  refine State.when_effs ?_ (fun _ _ => ?_)
  · assumption
  · extract_lets -merge -underBinder +onlyGivenNames y1
    refine h0.named (x := y1) ?_ fun _ => ?_
    · subst y1
      refine Eff.after (State.updP_eff _ _ _) ?_
      assumption
    clear_value y1
    extract_lets -merge -underBinder +onlyGivenNames y2
    refine h0.named (x := y2) ?_ fun _ => ?_
    · subst y2
      split
      · refine Eff.after (State.startSweep_eff _ _ _ _) ?_
        assumption
      · refine Eff.after (State.searchSweep_eff _ _) ?_
        assumption
    clear_value y2
    refine Eff.ite ?_ ?_
    · refine Eff.after (State.park_eff _ _ _) ?_
      refine Eff.after (State.report_eff _ _ _ _) ?_
      assumption
    · assumption

theorem execGuidePassage_eff (p : PickupId) (s : State) : OutEff [.pickups] s (execGuidePassage p s) := by
  delta execGuidePassage
  refine OutEff.start fun h0 => ?_
  extract_lets -merge -underBinder +onlyGivenNames y0
  try clear_value y0
  refine State.when_effs ?_ (fun _ _ => ?_)
  · assumption
  · extract_lets -merge -underBinder +onlyGivenNames y1
    try clear_value y1
    extract_lets -merge -underBinder +onlyGivenNames y2
    refine h0.named (x := y2) ?_ fun _ => ?_
    · subst y2
      refine Eff.after (State.updP_eff _ _ _) ?_
      assumption
    clear_value y2
    refine Eff.ite ?_ ?_
    · split
      · refine Eff.ite ?_ ?_
        · refine Eff.after (State.closeLoop_eff _ _ _) ?_
          assumption
        · assumption
      · assumption
    · refine Eff.ite ?_ ?_
      · extract_lets -merge -underBinder +onlyGivenNames y3
        try clear_value y3
        extract_lets -merge -underBinder +onlyGivenNames y4
        refine h0.named (x := y4) ?_ fun _ => ?_
        · subst y4
          refine Eff.after (State.updP_eff _ _ _) ?_
          assumption
        clear_value y4
        refine Eff.ite ?_ ?_
        · refine Eff.after (State.closeLoop_eff _ _ _) ?_
          assumption
        · assumption
      · assumption

theorem execJumpBrake_eff (p : PickupId) (s : State) : OutEff [.pickups] s (execJumpBrake p s) := by
  delta execJumpBrake
  refine OutEff.start fun h0 => ?_
  extract_lets -merge -underBinder +onlyGivenNames y0
  try clear_value y0
  refine State.when_effs ?_ (fun _ _ => ?_)
  · assumption
  · extract_lets -merge -underBinder +onlyGivenNames y1
    try clear_value y1
    refine Eff.after (State.updLoop_eff _ _ _ _) ?_
    refine Eff.after (State.updP_eff _ _ _) ?_
    assumption

theorem execJumpFocusClose_eff (p : PickupId) (s : State) : OutEff [.pickups] s (execJumpFocusClose p s) := by
  delta execJumpFocusClose
  refine OutEff.start fun h0 => ?_
  extract_lets -merge -underBinder +onlyGivenNames y0
  try clear_value y0
  refine State.when_effs ?_ (fun _ _ => ?_)
  · assumption
  · refine Eff.after (State.closeLoop_eff _ _ _) ?_
    refine Eff.after (State.updP_eff _ _ _) ?_
    assumption

theorem execJumpKickEnd_eff (p : PickupId) (s : State) : OutEff [.pickups] s (execJumpKickEnd p s) := by
  delta execJumpKickEnd
  refine OutEff.start fun h0 => ?_
  extract_lets -merge -underBinder +onlyGivenNames y0
  try clear_value y0
  refine State.when_effs ?_ (fun _ _ => ?_)
  · assumption
  · refine Eff.after (State.updLoop_eff _ _ _ _) ?_
    refine Eff.after (State.updP_eff _ _ _) ?_
    assumption

theorem execLawLost_eff (p : PickupId) (s : State) :
    OutEff [.objs, .pickups, .channels, .sides, .spindles, .axes, .host, .recorder] s (execLawLost p s) := by
  delta execLawLost
  refine OutEff.start fun h0 => ?_
  extract_lets -merge -underBinder +onlyGivenNames y0
  try clear_value y0
  refine State.when_effs ?_ (fun _ _ => ?_)
  · assumption
  · refine Eff.after (State.startRecovery_eff _ _ _) ?_
    refine Eff.after (State.report_eff _ _ _ _) ?_
    assumption

theorem execLawReceived_eff (p : PickupId) (w : BitVec 32) (s : State) :
    OutEff [.objs, .pickups, .channels, .sides, .spindles, .axes, .host, .cal, .recorder] s (execLawReceived p w s) := by
  delta execLawReceived
  refine OutEff.start fun h0 => ?_
  extract_lets -merge -underBinder +onlyGivenNames y0
  try clear_value y0
  refine State.when_effs ?_ (fun _ _ => ?_)
  · assumption
  · refine Eff.ite ?_ ?_
    · refine Eff.after (State.lawDiscarded_eff _ _) ?_
      assumption
    · extract_lets -merge -underBinder +onlyGivenNames y1
      refine h0.named (x := y1) ?_ fun _ => ?_
      · subst y1
        refine Eff.after (State.bump_eff _ _ _ _ _) ?_
        assumption
      clear_value y1
      refine Eff.ite ?_ ?_
      · refine Eff.ite ?_ ?_
        · refine Eff.ite ?_ ?_
          · refine Eff.after (State.wrongSide_eff _ _ _) ?_
            assumption
          · refine Eff.after (State.startRecovery_eff _ _ _) ?_
            assumption
        · refine Eff.after (State.firstLaw_eff _ _ _) ?_
          assumption
      · refine Eff.ite ?_ ?_
        · refine Eff.after (State.followLaw_eff _ _ _) ?_
          assumption
        · refine Eff.after (State.updP_eff _ _ _) ?_
          assumption

theorem execLayerJumpFail_eff (p : PickupId) (s : State) :
    OutEff [.objs, .pickups, .channels, .sides, .spindles, .axes, .host, .recorder] s (execLayerJumpFail p s) := by
  delta execLayerJumpFail
  refine OutEff.start fun h0 => ?_
  extract_lets -merge -underBinder +onlyGivenNames y0
  try clear_value y0
  refine State.when_effs ?_ (fun _ _ => ?_)
  · assumption
  · refine Eff.ite ?_ ?_
    · refine Eff.after (State.startRecovery_eff _ _ _) ?_
      refine Eff.after (State.report_eff _ _ _ _) ?_
      assumption
    · refine Eff.after (State.recoverSweep_eff _ _) ?_
      refine Eff.after (State.updP_eff _ _ _) ?_
      assumption

theorem execLayerJumpStart_eff (p : PickupId) (s : State) :
    OutEff [.objs, .pickups, .channels, .sides, .host, .recorder] s (execLayerJumpStart p s) := by
  delta execLayerJumpStart
  refine OutEff.start fun h0 => ?_
  extract_lets -merge -underBinder +onlyGivenNames y0
  try clear_value y0
  refine State.when_effs ?_ (fun _ _ => ?_)
  · assumption
  · extract_lets -merge -underBinder +onlyGivenNames y1 y2
    try clear_value y1 y2
    extract_lets -merge -underBinder +onlyGivenNames y3
    refine h0.named (x := y3) ?_ fun _ => ?_
    · subst y3
      refine Eff.after (State.updP_eff _ _ _) ?_
      assumption
    clear_value y3
    refine Eff.after (State.idleChannels_eff _ _) ?_
    refine Eff.after (State.updLoop_eff _ _ _ _) ?_
    assumption

theorem execLongSeekSledStop_eff (p : PickupId) (s : State) : OutEff [.pickups] s (execLongSeekSledStop p s) := by
  delta execLongSeekSledStop
  refine OutEff.start fun h0 => ?_
  extract_lets -merge -underBinder +onlyGivenNames y0
  try clear_value y0
  refine State.when_effs ?_ (fun _ _ => ?_)
  · assumption
  · refine Eff.after (State.updP_eff _ _ _) ?_
    refine Eff.after (State.startCapture_eff _ _) ?_
    assumption

theorem execMapAdaptRevolution_eff (p : PickupId) (s : State) : OutEff [.pickups] s (execMapAdaptRevolution p s) := by
  delta execMapAdaptRevolution
  refine OutEff.start fun h0 => ?_
  extract_lets -merge -underBinder +onlyGivenNames y0 y1
  try clear_value y0 y1
  refine State.when_effs ?_ (fun _ _ => ?_)
  · assumption
  · extract_lets -merge -underBinder +onlyGivenNames y2 y3
    try clear_value y2 y3
    refine Eff.after (State.updP_eff _ _ _) ?_
    assumption

theorem execMapLearnRevolution_eff (p : PickupId) (s : State) :
    OutEff [.objs, .pickups, .channels, .sides, .spindles, .axes, .host, .cal, .recorder] s (execMapLearnRevolution p s) := by
  delta execMapLearnRevolution
  refine OutEff.start fun h0 => ?_
  extract_lets -merge -underBinder +onlyGivenNames y0
  try clear_value y0
  refine State.when_effs ?_ (fun _ _ => ?_)
  · assumption
  · extract_lets -merge -underBinder +onlyGivenNames y1 y2 y3 y4 y5 y6 y7 y8 y9 y10
    try clear_value y1 y2 y3 y4 y5 y6 y7 y8 y9 y10
    extract_lets -merge -underBinder +onlyGivenNames y11
    refine h0.named (x := y11) ?_ fun _ => ?_
    · subst y11
      refine Eff.after (State.updP_eff _ _ _) ?_
      assumption
    clear_value y11
    refine Eff.ite ?_ ?_
    · extract_lets -merge -underBinder +onlyGivenNames y12
      refine h0.named (x := y12) ?_ fun _ => ?_
      · subst y12
        refine Eff.ite ?_ ?_
        · refine Eff.after (State.report_eff _ _ _ _) ?_
          assumption
        · refine Eff.after (State.report_eff _ _ _ _) ?_
          assumption
      clear_value y12
      refine Eff.after (State.nextMap_eff _ _) ?_
      assumption
    · assumption

theorem execMountSequenceStart_eff (p : PickupId) (deviceId : BitVec 16) (fault : BitVec 16) (s : State) :
    OutEff [.objs, .pickups, .channels, .sides, .spindles, .axes, .host, .recorder] s (execMountSequenceStart p deviceId fault s) := by
  delta execMountSequenceStart
  refine OutEff.start fun h0 => ?_
  extract_lets -merge -underBinder +onlyGivenNames y0
  try clear_value y0
  refine State.when_effs ?_ (fun _ _ => ?_)
  · assumption
  · extract_lets -merge -underBinder +onlyGivenNames y1
    refine h0.named (x := y1) ?_ fun _ => ?_
    · subst y1
      refine Eff.after (State.updS_eff _ _ _) ?_
      assumption
    clear_value y1
    extract_lets -merge -underBinder +onlyGivenNames y2
    refine h0.named (x := y2) ?_ fun _ => ?_
    · subst y2
      refine Eff.ite ?_ ?_
      · refine Eff.after (State.updA_eff _ _ _) ?_
        assumption
      · assumption
    clear_value y2
    extract_lets -merge -underBinder +onlyGivenNames y3
    refine h0.named (x := y3) ?_ fun _ => ?_
    · subst y3
      refine Eff.after (State.updP_eff _ _ _) ?_
      assumption
    clear_value y3
    extract_lets -merge -underBinder +onlyGivenNames y4
    refine h0.named (x := y4) ?_ fun _ => ?_
    · subst y4
      refine Eff.forEach ?_ fun _ _ _ => ?_
      · assumption
      · refine Eff.after (State.updC_eff _ _ _) ?_
        refine Eff.after (State.loadSets_eff _ _) ?_
        assumption
    clear_value y4
    extract_lets -merge -underBinder +onlyGivenNames y5
    refine h0.named (x := y5) ?_ fun _ => ?_
    · subst y5
      refine Eff.forEach ?_ fun _ _ _ => ?_
      · assumption
      · refine Eff.after (State.openLoop_eff _ _ _ _) ?_
        assumption
    clear_value y5
    extract_lets -merge -underBinder +onlyGivenNames y6
    refine h0.named (x := y6) ?_ fun _ => ?_
    · subst y6
      refine Eff.after (State.searchSweep_eff _ _) ?_
      assumption
    clear_value y6
    refine Eff.ite ?_ ?_
    · refine Eff.after (State.park_eff _ _ _) ?_
      refine Eff.after (State.report_eff _ _ _ _) ?_
      assumption
    · assumption

theorem execParkComplete_eff (p : PickupId) (s : State) :
    OutEff [.objs, .pickups, .channels, .sides, .spindles, .host, .recorder, .verge] s (execParkComplete p s) := by
  delta execParkComplete
  refine OutEff.start fun h0 => ?_
  refine State.when_effs ?_ (fun _ _ => ?_)
  · assumption
  · refine Eff.after (State.remountIdle_eff _) ?_
    refine Eff.after (State.parked_eff _ _) ?_
    assumption

theorem execRecoveryAttemptEnd_eff (p : PickupId) (s : State) :
    OutEff [.objs, .pickups, .channels, .sides, .spindles, .axes, .host, .cal, .recorder] s (execRecoveryAttemptEnd p s) := by
  delta execRecoveryAttemptEnd
  refine OutEff.start fun h0 => ?_
  extract_lets -merge -underBinder +onlyGivenNames y0
  try clear_value y0
  refine State.when_effs ?_ (fun _ _ => ?_)
  · assumption
  · refine Eff.ite ?_ ?_
    · extract_lets -merge -underBinder +onlyGivenNames y1
      refine h0.named (x := y1) ?_ fun _ => ?_
      · subst y1
        refine Eff.after (State.report_eff _ _ _ _) ?_
        assumption
      clear_value y1
      extract_lets -merge -underBinder +onlyGivenNames y2
      refine h0.named (x := y2) ?_ fun _ => ?_
      · subst y2
        refine Eff.forEach ?_ fun _ _ _ => ?_
        · assumption
        · refine Eff.after (State.unholdLoop_eff _ _ _) ?_
          assumption
      clear_value y2
      refine Eff.ite ?_ ?_
      · refine Eff.after (State.nextMap_eff _ _) ?_
        refine Eff.after (State.updP_eff _ _ _) ?_
        assumption
      · refine Eff.after (State.readNext_eff _ _) ?_
        refine Eff.after (State.runQueued_eff _ _) ?_
        refine Eff.after (State.follow_eff _ _) ?_
        assumption
    · refine Eff.after (State.attemptFails_eff _ _) ?_
      assumption

theorem execSeekFail_eff (p : PickupId) (s : State) :
    OutEff [.objs, .pickups, .channels, .sides, .spindles, .axes, .host, .recorder] s (execSeekFail p s) := by
  delta execSeekFail
  refine OutEff.start fun h0 => ?_
  extract_lets -merge -underBinder +onlyGivenNames y0 y1
  try clear_value y0 y1
  refine State.when_effs ?_ (fun _ _ => ?_)
  · assumption
  · refine Eff.after (State.seekFails_eff _ _) ?_
    assumption

theorem execSledSearchMoveEnd_eff (p : PickupId) (s : State) : OutEff [.pickups, .axes] s (execSledSearchMoveEnd p s) := by
  delta execSledSearchMoveEnd
  refine OutEff.start fun h0 => ?_
  extract_lets -merge -underBinder +onlyGivenNames y0
  try clear_value y0
  refine State.when_effs ?_ (fun _ _ => ?_)
  · assumption
  · refine Eff.ite ?_ ?_
    · refine Eff.after (State.searchMove_eff _ _ _) ?_
      refine Eff.after (State.updP_eff _ _ _) ?_
      assumption
    · refine Eff.after (State.updP_eff _ _ _) ?_
      assumption

end Sys2Proof.Machine
end

