-- ==== Sys2Proof/Laws/RecorderOps.lean ====
section
/-! SUPPORT. What each operation of Sys2Proof/Machine/RecorderOps.lean may change: `x_eff` names the parts of the state that x may change and says that
x keeps every form of Sys2Proof/Safety.lean; `x_effs` says so of an operation with operations as arguments, under the same of each argument. -/

set_option Elab.async false

namespace Sys2Proof.Machine

theorem State.countGap_eff (s : State) (seq : Nat) : Eff [.objs, .recorder, .verge] s (State.countGap s seq) := by
  delta State.countGap
  refine Eff.start fun h0 => ?_
  extract_lets -merge -underBinder +onlyGivenNames y0
  refine h0.named (x := y0) ?_ fun _ => ?_
  · subst y0
    refine Eff.after (State.bump_eff _ _ _ _ _) ?_
    assumption
  clear_value y0
  split
  · refine Eff.after (State.updR_eff _ _) ?_
    assumption
  · extract_lets -merge -underBinder +onlyGivenNames y1
    try clear_value y1
    refine Eff.after (State.updR_eff _ _) ?_
    refine Eff.after (State.takeSeq_eff _ _) ?_
    assumption

theorem State.makeRoom_eff (s : State) : Eff [.objs, .recorder, .verge] s (State.makeRoom s) := by
  delta State.makeRoom
  refine Eff.start fun h0 => ?_
  refine Eff.ite ?_ ?_
  · assumption
  · split
    · refine Eff.after (State.countGap_eff _ _) ?_
      refine Eff.after (State.updR_eff _ _) ?_
      assumption
    · assumption

theorem State.acceptRecord_eff (s : State) (rec_ : Record) : Eff [.objs, .recorder, .verge] s (State.acceptRecord s rec_) := by
  delta State.acceptRecord
  refine Eff.start fun h0 => ?_
  extract_lets -merge -underBinder +onlyGivenNames y0 y1
  try clear_value y0 y1
  extract_lets -merge -underBinder +onlyGivenNames y2
  refine h0.named (x := y2) ?_ fun _ => ?_
  · subst y2
    refine Eff.after (State.updR_eff _ _) ?_
    refine Eff.after (State.buffered_eff _ _) ?_
    assumption
  clear_value y2
  refine Eff.ite ?_ ?_
  · assumption
  · extract_lets -merge -underBinder +onlyGivenNames y3
    refine h0.named (x := y3) ?_ fun _ => ?_
    · subst y3
      refine Eff.after (State.makeRoom_eff _) ?_
      assumption
    clear_value y3
    refine Eff.after (State.updR_eff _ _) ?_
    assumption

theorem State.startFlush_eff (s : State) (cause : FlushCause) : Eff [.recorder, .verge] s (State.startFlush s cause) := by
  delta State.startFlush
  refine Eff.start fun h0 => ?_
  refine Eff.ite ?_ ?_
  · assumption
  · split
    · extract_lets -merge -underBinder +onlyGivenNames y0
      try clear_value y0
      refine Eff.after (State.updR_eff _ _) ?_
      assumption
    · extract_lets -merge -underBinder +onlyGivenNames y1
      try clear_value y1
      extract_lets -merge -underBinder +onlyGivenNames y2
      refine h0.named (x := y2) ?_ fun _ => ?_
      · subst y2
        refine Eff.after (State.takeSeq_eff _ _) ?_
        assumption
      clear_value y2
      extract_lets -merge -underBinder +onlyGivenNames y3
      try clear_value y3
      refine Eff.after (State.updR_eff _ _) ?_
      refine Eff.after (State.buffered_eff _ _) ?_
      assumption

theorem State.attributes_eff (s : State) (w : Option Nat) : Eff [.recorder, .milestone, .verge] s (State.attributes s w) := by
  delta State.attributes
  refine Eff.start fun h0 => ?_
  split
  · assumption
  · extract_lets -merge -underBinder +onlyGivenNames y0
    refine h0.named (x := y0) ?_ fun _ => ?_
    · subst y0
      refine Eff.ite ?_ ?_
      · refine Eff.after (State.trigger_eff _ _ _) ?_
        assumption
      · assumption
    clear_value y0
    refine Eff.ite ?_ ?_
    · refine Eff.after (State.startFlush_eff _ _) ?_
      assumption
    · assumption

theorem State.matchTrigger_eff (s : State) (code : Nat) : Eff [.milestone] s (State.matchTrigger s code) := by
  delta State.matchTrigger
  refine Eff.start fun h0 => ?_
  refine Eff.ite ?_ ?_
  · refine Eff.after (State.trigger_eff _ _ _) ?_
    assumption
  · assumption

theorem State.ownRecord_eff (s : State) (src : IslandId) (n : Nat) (code : Nat) (continued : Bool) (summary : Bool) (payload : List Int) :
    Eff [.objs, .recorder, .milestone, .verge] s (State.ownRecord s src n code continued summary payload) := by
  delta State.ownRecord
  refine Eff.start fun h0 => ?_
  refine Eff.after (State.acceptRecord_eff _ _) ?_
  refine Eff.after (State.matchTrigger_eff _ _) ?_
  assumption

theorem State.ownNext_eff (s : State) (code : Nat) (payload : List Int) :
    Eff [.objs, .recorder, .milestone, .verge] s (State.ownNext s code payload) := by
  delta State.ownNext
  refine Eff.start fun h0 => ?_
  extract_lets -merge -underBinder +onlyGivenNames y0
  try clear_value y0
  refine Eff.after (State.ownRecord_eff _ _ _ _ _ _ _) ?_
  refine Eff.after (State.takeSeq_eff _ _) ?_
  assumption

theorem State.setTokens_eff (s : State) (code : Nat) (level : Nat) : Eff [.recorder] s (State.setTokens s code level) := by
  delta State.setTokens
  refine Eff.start fun h0 => ?_
  refine Eff.after (State.updR_eff _ _) ?_
  assumption

theorem State.ownPair_eff (s : State) (code : Nat) (first : List Int) (second : List Int) :
    Eff [.objs, .recorder, .milestone, .verge] s (State.ownPair s code first second) := by
  delta State.ownPair
  refine Eff.start fun h0 => ?_
  extract_lets -merge -underBinder +onlyGivenNames y0
  try clear_value y0
  extract_lets -merge -underBinder +onlyGivenNames y1
  refine h0.named (x := y1) ?_ fun _ => ?_
  · subst y1
    refine Eff.after (State.ownRecord_eff _ _ _ _ _ _ _) ?_
    refine Eff.after (State.takeSeq_eff _ _) ?_
    assumption
  clear_value y1
  refine Eff.after (State.ownRecord_eff _ _ _ _ _ _ _) ?_
  assumption

theorem State.recordTimeSet_eff (s : State) (old : Int) (new : Int) (setter : Nat) :
    Eff [.objs, .recorder, .milestone, .verge] s (State.recordTimeSet s old new setter) := by
  delta State.recordTimeSet
  refine Eff.start fun h0 => ?_
  refine Eff.after (State.ownPair_eff _ _ _ _) ?_
  assumption

theorem State.setTimeOfDay_eff (s : State) (v : Int) (setter : Nat) :
    Eff [.objs, .recorder, .milestone, .verge] s (State.setTimeOfDay s v setter) := by
  delta State.setTimeOfDay
  refine Eff.start fun h0 => ?_
  extract_lets -merge -underBinder +onlyGivenNames y0
  try clear_value y0
  extract_lets -merge -underBinder +onlyGivenNames y1 y2
  refine h0.named (x := y2) ?_ fun _ => ?_
  · subst y2
    subst y1
    refine Eff.put ?_
    assumption
  clear_value y1 y2
  refine Eff.after (State.recordTimeSet_eff _ _ _ _) ?_
  assumption

theorem State.settleBuckets_eff (s : State) (r : Row) : Eff [.recorder] s (State.settleBuckets s r) := by
  delta State.settleBuckets
  refine Eff.start fun h0 => ?_
  refine Eff.ite ?_ ?_
  · refine Eff.after (State.updR_eff _ _) ?_
    assumption
  · assumption

theorem State.freeze_eff (s : State) : Eff [.recorder] s (State.freeze s) := by
  delta State.freeze
  refine Eff.start fun h0 => ?_
  extract_lets -merge -underBinder +onlyGivenNames y0
  try clear_value y0
  refine Eff.ite ?_ ?_
  · assumption
  · extract_lets -merge -underBinder +onlyGivenNames y1 y2 y3
    try clear_value y1 y2 y3
    refine Eff.after (State.updR_eff _ _) ?_
    assumption

end Sys2Proof.Machine
end

