-- ==== Sys2Proof/Laws/MemOps.lean ====
section
/-! SUPPORT. What each operation of Sys2Proof/Machine/MemOps.lean may change: `x_eff` names the parts of the state that x may change and says that
x keeps every form of Sys2Proof/Safety.lean; `x_effs` says so of an operation with operations as arguments, under the same of each argument. -/

set_option Elab.async false

namespace Sys2Proof.Machine

theorem State.offerLayby_eff (s : State) (requester : Nat) (line : Nat) : Eff [.mem] s (State.offerLayby s requester line) := by
  delta State.offerLayby
  refine Eff.start fun h0 => ?_
  refine Eff.ite ?_ ?_
  · assumption
  · refine Eff.ite ?_ ?_
    · refine Eff.after (State.updMem_eff _ _) ?_
      assumption
    · refine Eff.after (State.updMem_eff _ _) ?_
      assumption

theorem State.allocate_eff (s : State) (requester : Nat) (line : Nat) (way : Nat) : Eff [.mem] s (State.allocate s requester line way) := by
  delta State.allocate
  refine Eff.start fun h0 => ?_
  extract_lets -merge -underBinder +onlyGivenNames y0
  try clear_value y0
  extract_lets -merge -underBinder +onlyGivenNames y1
  refine h0.named (x := y1) ?_ fun _ => ?_
  · subst y1
    split
    · refine Eff.ite ?_ ?_
      · assumption
      · refine Eff.after (State.offerLayby_eff _ _ _) ?_
        assumption
    · assumption
  clear_value y1
  refine Eff.after (State.updMem_eff _ _) ?_
  assumption

theorem State.drainWord_eff (s : State) (e : MergeEntry) (w : Nat) : Eff [.objs, .mem, .recorder] s (State.drainWord s e w) := by
  delta State.drainWord
  refine Eff.start fun h0 => ?_
  extract_lets -merge -underBinder +onlyGivenNames y0
  try clear_value y0
  split
  · assumption
  · refine Eff.after (State.updMem_eff _ _) ?_
    assumption
  · extract_lets -merge -underBinder +onlyGivenNames y1 y2
    try clear_value y1 y2
    extract_lets -merge -underBinder +onlyGivenNames y3
    refine h0.named (x := y3) ?_ fun _ => ?_
    · subst y3
      refine Eff.after (State.bump_eff _ _ _ _ _) ?_
      assumption
    clear_value y3
    refine Eff.ite ?_ ?_
    · refine Eff.after (State.report_eff _ _ _ _) ?_
      refine Eff.after (State.bump_eff _ _ _ _ _) ?_
      refine Eff.after (State.updMem_eff _ _) ?_
      assumption
    · refine Eff.after (State.updMem_eff _ _) ?_
      assumption

theorem State.endDisable_eff (s : State) : Eff [.objs, .mem, .recorder] s (State.endDisable s) := by
  delta State.endDisable
  refine Eff.start fun h0 => ?_
  refine Eff.ite ?_ ?_
  · extract_lets -merge -underBinder +onlyGivenNames y0
    try clear_value y0
    refine Eff.after (State.report_eff _ _ _ _) ?_
    refine Eff.after (State.updMem_eff _ _) ?_
    assumption
  · assumption

theorem State.drain_eff (s : State) (ddr : Bool) (span : Nat) : Eff [.objs, .mem, .recorder] s (State.drain s ddr span) := by
  delta State.drain
  refine Eff.start fun h0 => ?_
  split
  · assumption
  · extract_lets -merge -underBinder +onlyGivenNames y0
    refine h0.named (x := y0) ?_ fun _ => ?_
    · subst y0
      refine Eff.after (State.updMem_eff _ _) ?_
      assumption
    clear_value y0
    refine Eff.after (State.endDisable_eff _) ?_
    refine Eff.forEach ?_ fun _ _ _ => ?_
    · assumption
    · refine Eff.after (State.drainWord_eff _ _ _) ?_
      assumption

theorem State.cleanLine_eff (s : State) (line : Nat) : Eff [.objs, .mem, .recorder] s (State.cleanLine s line) := by
  delta State.cleanLine
  refine Eff.start fun h0 => ?_
  refine Eff.after (State.drain_eff _ _ _) ?_
  assumption

theorem State.mergeWrite_eff (s : State) (ddr : Bool) (span : Nat) (bytes : List (Nat × Byte)) :
    Eff [.objs, .mem, .recorder] s (State.mergeWrite s ddr span bytes) := by
  delta State.mergeWrite
  refine Eff.start fun h0 => ?_
  extract_lets -merge -underBinder +onlyGivenNames y0
  try clear_value y0
  extract_lets -merge -underBinder +onlyGivenNames y1
  refine h0.named (x := y1) ?_ fun _ => ?_
  · subst y1
    refine Eff.after (State.updMem_eff _ _) ?_
    assumption
  clear_value y1
  extract_lets -merge -underBinder +onlyGivenNames y2
  try clear_value y2
  refine Eff.ite ?_ ?_
  · refine Eff.after (State.updMem_eff _ _) ?_
    assumption
  · extract_lets -merge -underBinder +onlyGivenNames y3
    refine h0.named (x := y3) ?_ fun _ => ?_
    · subst y3
      refine Eff.ite ?_ ?_
      · assumption
      · split
        · refine Eff.after (State.drain_eff _ _ _) ?_
          assumption
        · assumption
    clear_value y3
    refine Eff.after (State.updMem_eff _ _) ?_
    assumption

theorem State.zeroLine_eff (s : State) (byte : Nat) : Eff [.objs, .mem, .recorder] s (State.zeroLine s byte) := by
  delta State.zeroLine
  refine Eff.start fun h0 => ?_
  refine Eff.ite ?_ ?_
  · refine Eff.after (State.bump_eff _ _ _ _ _) ?_
    assumption
  · extract_lets -merge -underBinder +onlyGivenNames y0
    try clear_value y0
    extract_lets -merge -underBinder +onlyGivenNames y1
    refine h0.named (x := y1) ?_ fun _ => ?_
    · subst y1
      refine Eff.ite ?_ ?_
      · assumption
      · split
        · refine Eff.after (State.allocate_eff _ _ _ _) ?_
          assumption
        · assumption
    clear_value y1
    refine Eff.after (State.mergeWrite_eff _ _ _ _) ?_
    assumption

theorem State.maintain_eff (s : State) (op : Nat) (address : Nat) : Eff [.objs, .mem, .recorder] s (State.maintain s op address) := by
  delta State.maintain
  refine Eff.start fun h0 => ?_
  extract_lets -merge -underBinder +onlyGivenNames y0 y1
  try clear_value y0 y1
  split
  · refine Eff.after (State.cleanLine_eff _ _) ?_
    assumption
  · refine Eff.after (State.dropLine_eff _ _) ?_
    assumption
  · refine Eff.after (State.dropLine_eff _ _) ?_
    refine Eff.after (State.cleanLine_eff _ _) ?_
    assumption
  · split
    · refine Eff.after (State.cleanLine_eff _ _) ?_
      assumption
    · assumption
  · split
    · refine Eff.after (State.updMem_eff _ _) ?_
      assumption
    · assumption
  · split
    · refine Eff.after (State.updMem_eff _ _) ?_
      refine Eff.after (State.cleanLine_eff _ _) ?_
      assumption
    · assumption
  · refine Eff.after (State.zeroLine_eff _ _) ?_
    assumption

theorem State.drainAll_eff (s : State) : Eff [.objs, .mem, .recorder] s (State.drainAll s) := by
  delta State.drainAll
  refine Eff.start fun h0 => ?_
  refine Eff.forEach ?_ fun _ _ _ => ?_
  · assumption
  · refine Eff.after (State.drain_eff _ _ _) ?_
    assumption

theorem State.rampPut_eff (s : State) (k : RampId) (x : RampItem) : Eff [.objs, .ramps] s (State.rampPut s k x) := by
  unfold State.rampPut
  dsimp only
  refine Eff.dite (c := _ = true) (fun _ => (State.bump_eff _ _ _ _ _).after (Eff.mono (State.updRamp_eff _ _ _ fun h => h))) fun hn => ?_
  by_cases hu : rampDepth ≤ (s.ramps[k]).used
  · have hm : (s.ramps[k]).maySwap = true := by
      rw [decide_eq_true hu] at hn; simpa using hn
    rw [if_pos hu]
    exact State.updRamp_after (Eff.mono (State.updRamp_eff _ _ _ fun h => absurd ⟨hm, hu⟩ h.2.2.2)) fun h _ => absurd ⟨hm, hu⟩ h.2.2.2
  · rw [if_neg hu]
    refine Eff.mono (State.updRamp_eff _ _ _ fun h => Ramp.ok_settle _ _ ?_)
    split
    · exact Ramp.fits_enter x h.fits (Nat.lt_of_not_le hu)
    · exact Ramp.fits_enter x h.fits (Nat.lt_of_not_le hu)

theorem State.rampRead_eff (s : State) (k : RampId) : Eff [.host, .ramps] s (State.rampRead s k) := by
  delta State.rampRead
  refine Eff.start fun h0 => ?_
  extract_lets -merge -underBinder +onlyGivenNames y0
  try clear_value y0
  extract_lets -merge -underBinder +onlyGivenNames y1
  refine h0.named (x := y1) ?_ fun _ => ?_
  · subst y1
    refine Eff.after (State.updRamp_eff _ _ _ fun hr => ?_) ?_
    · split
      · rename_i hm; exact Ramp.ok_swap hr.fits hm
      · exact hr
    · assumption
  clear_value y1
  split
  · assumption
  · extract_lets -merge -underBinder +onlyGivenNames y2
    refine h0.named (x := y2) ?_ fun _ => ?_
    · subst y2
      refine Eff.after (State.updRamp_eff _ _ _ fun hr => Ramp.ok_settle _ _ (Ramp.fits_remove hr.fits)) ?_
      assumption
    clear_value y2
    refine Eff.ite ?_ ?_
    · assumption
    · refine Eff.after (State.updCmd_eff _ _ _) ?_
      assumption

theorem State.retireRow_eff (s : State) (bank : Nat) (row : Nat) (cause : Int) :
    Eff [.objs, .mem, .recorder] s (State.retireRow s bank row cause) := by
  unfold State.retireRow
  split
  · exact .refl _ _
  · rename_i spare _
    dsimp only
    have h : Eff [.objs, .mem, .recorder] s (s.updMem fun m => { (m.copyRow bank row) with
        badSpares := m.badSpares ++ ((m.retired.filter fun r => r.1 == bank && r.2.1 == row).map fun r => (r.1, r.2.2))
        retired := (m.retired.filter fun r => !(r.1 == bank && r.2.1 == row)) ++ [(bank, row, spare)] }) :=
      Eff.mono (State.updMem_eff _ _ fun h => by dsimp only; exact Mem.wf_of_stored (Mem.wf_copyRow bank row h))
    refine .ite ?_ ((State.report_eff _ _ _ _).after h)
    exact (State.report_eff _ _ _ _).after (Eff.after (State.updMem_eff _ _) ((State.report_eff _ _ _ _).after h))

theorem State.writeWord_eff (s : State) (ddr : Bool) (word : Nat) (d : Word64) : Eff [.objs, .mem, .recorder] s (State.writeWord s ddr word d) := by
  delta State.writeWord
  refine Eff.start fun h0 => ?_
  refine Eff.after (State.mergeWrite_eff _ _ _ _) ?_
  assumption

theorem State.trackWord_eff (s : State) (ddr : Bool) (word : Nat) : Eff [.objs, .mem, .recorder] s (State.trackWord s ddr word) := by
  delta State.trackWord
  refine Eff.start fun h0 => ?_
  split
  · extract_lets -merge -underBinder +onlyGivenNames y0
    try clear_value y0
    refine Eff.ite ?_ ?_
    · refine Eff.after (State.updMem_eff _ _) ?_
      assumption
    · split
      · refine Eff.after (State.updMem_eff _ _) ?_
        assumption
      · assumption
  · extract_lets -merge -underBinder +onlyGivenNames y1
    refine h0.named (x := y1) ?_ fun _ => ?_
    · subst y1
      refine Eff.after (State.updMem_eff _ _) ?_
      assumption
    clear_value y1
    split
    · assumption
    · refine Eff.ite ?_ ?_
      · assumption
      · extract_lets -merge -underBinder +onlyGivenNames y2
        try clear_value y2
        extract_lets -merge -underBinder +onlyGivenNames y3
        refine h0.named (x := y3) ?_ fun _ => ?_
        · subst y3
          refine Eff.after (State.writeWord_eff _ _ _ _) ?_
          assumption
        clear_value y3
        extract_lets -merge -underBinder +onlyGivenNames y4
        refine h0.named (x := y4) ?_ fun _ => ?_
        · subst y4
          refine Eff.after (State.updMem_eff _ _) ?_
          assumption
        clear_value y4
        refine Eff.after (State.report_eff _ _ _ _) ?_
        refine Eff.after (State.bump_eff _ _ _ _ _) ?_
        assumption
    · refine Eff.ite ?_ ?_
      · refine Eff.after (State.updMem_eff _ _) ?_
        refine Eff.after (State.retireRow_eff _ _ _ _) ?_
        assumption
      · extract_lets -merge -underBinder +onlyGivenNames y5
        refine h0.named (x := y5) ?_ fun _ => ?_
        · subst y5
          refine Eff.after (State.updMem_eff _ _) ?_
          assumption
        clear_value y5
        refine Eff.after (State.report_eff _ _ _ _) ?_
        assumption

end Sys2Proof.Machine
end

