-- ==== Sys2Proof/Laws/RunForm.lean ====
section
/-! SUPPORT. What each operation of Sys2Proof/Machine/RunForm.lean may change: `x_eff` names the parts of the state that x may change and says that
x keeps every form of Sys2Proof/Safety.lean; `x_effs` says so of an operation with operations as arguments, under the same of each argument. -/

set_option Elab.async false

namespace Sys2Proof.Machine

theorem State.checkJournal_eff (s : State) (p : PickupId) : Eff [.objs, .sides, .host, .recorder] s (State.checkJournal s p) := by
  delta State.checkJournal
  refine Eff.start fun h0 => ?_
  extract_lets -merge -underBinder +onlyGivenNames y0
  try clear_value y0
  refine Eff.ite ?_ ?_
  · refine Eff.after (State.journalFull_eff _ _) ?_
    assumption
  · assumption

theorem State.openZone_eff (s : State) (p : PickupId) (zone : Nat) (first : Nat) (waiting : List CmdRef) :
    Eff [.sides] s (State.openZone s p zone first waiting) := by
  delta State.openZone
  refine Eff.start fun h0 => ?_
  refine Eff.ite ?_ ?_
  · assumption
  · refine Eff.after (State.updZone_eff _ _ _ _) ?_
    refine Eff.after (State.formPair_eff _ _ _ _) ?_
    assumption

theorem State.skipFiller_eff (s : State) (p : PickupId) (zone : Nat) (cs : List Nat) : Eff [.sides] s (State.skipFiller s p zone cs) := by
  delta State.skipFiller
  refine Eff.start fun h0 => ?_
  split
  · assumption
  · refine Eff.after (State.updZone_eff _ _ _ _) ?_
    assumption

theorem State.takeBlocks_eff (s : State) (p : PickupId) (zone : Nat) (cs : List Nat) : Eff [.sides] s (State.takeBlocks s p zone cs) := by
  delta State.takeBlocks
  refine Eff.start fun h0 => ?_
  refine Eff.after (State.updS_eff _ _ _) ?_
  assumption

theorem State.formRunTo_eff (s : State) (p : PickupId) (zone : Nat) (partialToo : Bool) (limit : Nat) :
    Eff [.objs, .sides, .host, .recorder] s (State.formRunTo s p zone partialToo limit) := by
  delta State.formRunTo
  refine Eff.start fun h0 => ?_
  extract_lets -merge -underBinder +onlyGivenNames y0
  try clear_value y0
  split
  · assumption
  · refine Eff.ite ?_ ?_
    · assumption
    · extract_lets -merge -underBinder +onlyGivenNames y1 y2
      try clear_value y1 y2
      refine Eff.ite ?_ ?_
      · refine Eff.ite ?_ ?_
        · extract_lets -merge -underBinder +onlyGivenNames y3 y4
          try clear_value y3 y4
          refine Eff.ite ?_ ?_
          · extract_lets -merge -underBinder +onlyGivenNames y5
            try clear_value y5
            extract_lets -merge -underBinder +onlyGivenNames y6
            refine h0.named (x := y6) ?_ fun _ => ?_
            · subst y6
              refine Eff.forEach ?_ fun _ _ _ => ?_
              · assumption
              · refine Eff.after (State.commit_eff _ _) ?_
                assumption
            clear_value y6
            extract_lets -merge -underBinder +onlyGivenNames y7
            refine h0.named (x := y7) ?_ fun _ => ?_
            · subst y7
              refine Eff.after (State.openZone_eff _ _ _ _ _) ?_
              refine Eff.after (State.skipFiller_eff _ _ _ _) ?_
              refine Eff.after (State.takeBlocks_eff _ _ _ _) ?_
              assumption
            clear_value y7
            refine Eff.after (State.needSpare_eff _ _ _) ?_
            assumption
          · assumption
        · assumption
      · extract_lets -merge -underBinder +onlyGivenNames y8 y9
        try clear_value y8 y9
        refine Eff.ite ?_ ?_
        · assumption
        · extract_lets -merge -underBinder +onlyGivenNames y10 y11 y12 y13
          try clear_value y10 y11 y12 y13
          extract_lets -merge -underBinder +onlyGivenNames y14
          refine h0.named (x := y14) ?_ fun _ => ?_
          · subst y14
            refine Eff.forEach ?_ fun _ _ _ => ?_
            · assumption
            · refine Eff.after (State.commit_eff _ _) ?_
              assumption
          clear_value y14
          extract_lets -merge -underBinder +onlyGivenNames y15
          refine h0.named (x := y15) ?_ fun _ => ?_
          · subst y15
            refine Eff.after (State.skipFiller_eff _ _ _ _) ?_
            refine Eff.after (State.takeBlocks_eff _ _ _ _) ?_
            assumption
          clear_value y15
          refine Eff.after (State.openZone_eff _ _ _ _ _) ?_
          refine Eff.after (State.updS_eff _ _ _) ?_
          assumption

theorem State.formRun_eff (s : State) (p : PickupId) (zone : Nat) (partialToo : Bool) :
    Eff [.objs, .sides, .host, .recorder] s (State.formRun s p zone partialToo) := by
  delta State.formRun
  refine Eff.start fun h0 => ?_
  refine Eff.after (State.formRunTo_eff _ _ _ _ _) ?_
  assumption

theorem State.formAll_eff (s : State) (p : PickupId) (zones : List Nat) : Eff [.objs, .sides, .host, .recorder] s (State.formAll s p zones) := by
  delta State.formAll
  refine Eff.start fun h0 => ?_
  refine Eff.forEach ?_ fun _ _ _ => ?_
  · assumption
  · refine Eff.forEach ?_ fun _ _ _ => ?_
    · assumption
    · refine Eff.after (State.formRun_eff _ _ _ _) ?_
      assumption

theorem State.formCovered_eff (s : State) (p : PickupId) (covers : List CmdRef) :
    Eff [.objs, .sides, .host, .recorder] s (State.formCovered s p covers) := by
  delta State.formCovered
  refine Eff.start fun h0 => ?_
  refine Eff.forEach ?_ fun _ _ _ => ?_
  · assumption
  · extract_lets -merge -underBinder +onlyGivenNames y0
    try clear_value y0
    refine Eff.forEach ?_ fun _ _ _ => ?_
    · assumption
    · refine Eff.after (State.formRunTo_eff _ _ _ _ _) ?_
      assumption

theorem State.spareRun_eff (s : State) (p : PickupId) : Eff [.objs, .sides, .host, .recorder] s (State.spareRun s p) := by
  delta State.spareRun
  refine Eff.start fun h0 => ?_
  extract_lets -merge -underBinder +onlyGivenNames y0 y1
  try clear_value y0 y1
  split
  · assumption
  · split
    · refine Eff.after (State.giveUpCluster_eff _ _ _ _ _) ?_
      refine Eff.after (State.recordSparesExhausted_eff _ _) ?_
      assumption
    · extract_lets -merge -underBinder +onlyGivenNames y2 y3
      try clear_value y2 y3
      refine Eff.after (State.updS_eff _ _ _) ?_
      assumption

theorem State.writeMember_eff {s : State} {p : PickupId} {j : JournalPair} {copy : Bool} {t : State} (heq : s.writeMember p j copy = some t) :
    Eff [.sides] s t := by
  delta State.writeMember at heq
  extract_lets -merge -underBinder +onlyGivenNames x m at heq
  clear_value x m
  split at heq
  · cases heq
  · rw [← Option.some.inj heq]; exact State.updS_eff _ _ _

theorem State.writePair_eff (s : State) (p : PickupId) : Eff [.objs, .sides, .host, .recorder] s (State.writePair s p) := by
  delta State.writePair
  refine Eff.start fun h0 => ?_
  extract_lets -merge -underBinder +onlyGivenNames y0 y1
  have h1 : Eff [.objs, .sides, .host, .recorder] s y1 := by
    subst y1
    split
    · dsimp only
      refine Eff.ite h0 ((State.updS_eff _ _ _).after (Eff.ite ?_ h0))
      exact Eff.forEach h0 fun _ _ h => (State.commit_eff _ _).after h
    · exact h0
  clear_value y1
  split
  · exact h1
  · rename_i j _
    extract_lets -merge -underBinder +onlyGivenNames a b
    have ha : ∀ t, a = some t → Eff [.objs, .sides, .host, .recorder] s t := by
      intro t ht
      subst a
      split at ht
      · exact (State.writeMember_eff ht).after h1
      · cases ht; exact h1
    have hb : ∀ t, b = some t → Eff [.objs, .sides, .host, .recorder] s t := by
      intro t ht
      subst b
      obtain ⟨u, hu, hv⟩ := Option.bind_eq_some_iff.1 ht
      split at hv
      · exact (State.writeMember_eff hv).after (ha _ hu)
      · cases hv; exact ha _ hu
    clear_value a b
    split
    · exact hb _ rfl
    · exact (State.dropPair_eff _ _ _).after ((State.journalFull_eff _ _).after ((State.updS_eff _ _ _).after h1))

end Sys2Proof.Machine
end

