-- ==== Sys2Proof/Laws/QueueOps.lean ====
section
/-! SUPPORT. What each operation of Sys2Proof/Machine/QueueOps.lean may change: `x_eff` names the parts of the state that x may change and says that
x keeps every form of Sys2Proof/Safety.lean; `x_effs` says so of an operation with operations as arguments, under the same of each argument. -/

set_option Elab.async false

namespace Sys2Proof.Machine

theorem State.onCores_effs {l : List Part} {s0 : State} {s : State} {k : CmdRef} {mine : Cmd → Bool} {f : State → Cmd → State} (h : Eff l s0 s) (h_f : ∀ u v, Eff l s0 u → Eff l s0 (f u v)) (hs : partsIn [.host] l = true := by decide) :
    OutEff l s0 (State.onCores s k mine f) := by
  delta State.onCores
  refine State.when_effs ?_ (fun _ _ => ?_)
  · assumption
  · split
    · refine Eff.ite ?_ ?_
      · refine h_f _ _ ?_
        refine Eff.after (State.updCmd_eff _ _ _) ?_ (partsIn_trans (by decide) hs)
        refine Eff.after (State.commit_eff _ _) ?_ (partsIn_trans (by decide) hs)
        assumption
      · assumption
    · assumption

theorem State.admin_effs {l : List Part} {s0 : State} {s : State} {k : CmdRef} {mine : Cmd → Bool} {f : State → Cmd → State} (h : Eff l s0 s) (h_f : ∀ u v, Eff l s0 u → Eff l s0 (f u v)) (hs : partsIn [.host] l = true := by decide) :
    OutEff l s0 (State.admin s k mine f) := by
  delta State.admin
  refine State.onCores_effs ?_ (fun _ _ _ => ?_) (partsIn_trans (by decide) hs)
  · assumption
  · refine h_f _ _ ?_
    assumption

theorem State.boundMiss_eff (s : State) (c : Cmd) (bound : Int) (why : Option MissCause) :
    Eff [.objs, .recorder] s (State.boundMiss s c bound why) := by
  delta State.boundMiss
  refine Eff.start fun h0 => ?_
  split
  · assumption
  · refine Eff.ite ?_ ?_
    · refine Eff.after (State.report_eff _ _ _ _) ?_
      refine Eff.after (State.bump_eff _ _ _ _ _) ?_
      assumption
    · assumption

theorem State.endSelfTest_eff (s : State) (result : Nat) (segment : Nat) : Eff [.objs, .host, .recorder] s (State.endSelfTest s result segment) := by
  delta State.endSelfTest
  refine Eff.start fun h0 => ?_
  split
  · assumption
  · refine Eff.after (State.report_eff _ _ _ _) ?_
    refine Eff.put ?_
    assumption

theorem State.leaveRamps_eff (s : State) (gone : CmdRef → Bool) : Eff [.ramps] s (State.leaveRamps s gone) :=
  State.mapRamps_eff s _ fun _ h => Ramp.ok_timed _ _
    (Ramp.ok_settle _ _ (Ramp.fits_of_le h.fits (List.length_filter_le _ _) rfl (List.length_filter_le _ _)))

theorem State.leaveReads_eff (s : State) (k : CmdRef) (atOnce : Bool) :
    Eff [.objs, .pickups, .channels, .decoding, .sides, .spindles, .axes, .host, .recorder] s (State.leaveReads s k atOnce) := by
  delta State.leaveReads
  refine Eff.start fun h0 => ?_
  refine Eff.forEach ?_ fun _ _ _ => ?_
  · assumption
  · extract_lets -merge -underBinder +onlyGivenNames y0
    try clear_value y0
    refine Eff.forEach ?_ fun _ _ _ => ?_
    · assumption
    · extract_lets -merge -underBinder +onlyGivenNames y1
      refine h0.named (x := y1) ?_ fun _ => ?_
      · subst y1
        refine Eff.after (State.updRead_eff _ _ _ _ _) ?_
        assumption
      clear_value y1
      refine Eff.ite ?_ ?_
      · refine Eff.ite ?_ ?_
        · refine Eff.after (State.updRead_eff _ _ _ _ _) ?_
          assumption
        · refine Eff.after (State.discardRead_eff _ _ _ _) ?_
          assumption
      · assumption

theorem State.giveData_eff (s : State) (k : CmdRef) (l : List Nat) : Eff [.host] s (State.giveData s k l) := by
  delta State.giveData
  refine Eff.start fun h0 => ?_
  refine Eff.after (State.updCtrl_eff _ _ _) ?_
  assumption

theorem State.updCq_eff (s : State) (c : CtrlId) (id : Nat) (f : Cq → Cq) : Eff [.host] s (State.updCq s c id f) := by
  delta State.updCq
  refine Eff.start fun h0 => ?_
  refine Eff.after (State.updCtrl_eff _ _ _) ?_
  assumption

theorem State.setDw0_eff (s : State) (k : CmdRef) (v : Nat) : Eff [.host] s (State.setDw0 s k v) := by
  delta State.setDw0
  refine Eff.start fun h0 => ?_
  refine Eff.after (State.updCmd_eff _ _ _) ?_
  assumption

theorem State.releaseTolls_eff (s : State) (k : CmdRef) : Eff [.host] s (State.releaseTolls s k) := by
  delta State.releaseTolls
  refine Eff.start fun h0 => ?_
  refine Eff.put ?_
  assumption

theorem State.takeTolls_eff (s : State) (c : Cmd) (order : Nat) (slots : List Nat) (ranges : List (Nat × Nat)) :
    Eff [.objs, .host] s (State.takeTolls s c order slots ranges) := by
  delta State.takeTolls
  refine Eff.start fun h0 => ?_
  extract_lets -merge -underBinder +onlyGivenNames y0
  refine h0.named (x := y0) ?_ fun _ => ?_
  · subst y0
    refine Eff.forEach ?_ fun _ _ _ => ?_
    · assumption
    · refine Eff.put ?_
      assumption
  clear_value y0
  refine Eff.after (State.maxOb_eff _ _ _ _ _) ?_
  refine Eff.after (State.updCmd_eff _ _ _) ?_
  assumption

theorem State.tally_eff (s : State) (kind : Nat) (cls : Nat) (ns : Nat) : Eff [.host] s (State.tally s kind cls ns) := by
  delta State.tally
  refine Eff.start fun h0 => ?_
  extract_lets -merge -underBinder +onlyGivenNames y0
  try clear_value y0
  refine Eff.put ?_
  assumption

theorem State.toRamp_eff {s : State} {p : PickupId} {c : Cmd} {order : Nat} {t : State} {x : Option MissCause}
    (heq : State.toRamp s p c order = (t, x)) : Eff [.objs, .host, .ramps] s t := by
  cases heq
  exact (State.updCmd_eff _ _ _).after (State.rampPut_eff _ _ _).mono

theorem State.updSq_eff (s : State) (c : CtrlId) (id : Nat) (f : Sq → Sq) : Eff [.host] s (State.updSq s c id f) := by
  delta State.updSq
  refine Eff.start fun h0 => ?_
  refine Eff.after (State.updCtrl_eff _ _ _) ?_
  assumption

theorem State.withdrawWrite_eff (s : State) (p : PickupId) (c : Cmd) : Eff [.sides, .host] s (State.withdrawWrite s p c) := by
  delta State.withdrawWrite
  refine Eff.start fun h0 => ?_
  extract_lets -merge -underBinder +onlyGivenNames y0 y1 y2
  try clear_value y0 y1 y2
  refine Eff.after (State.withdrawFrom_eff _ _ _ _) ?_
  assumption

theorem State.withdraw_eff (s : State) (c : Cmd) :
    Eff [.objs, .pickups, .channels, .decoding, .sides, .spindles, .axes, .host, .recorder] s (State.withdraw s c) := by
  delta State.withdraw
  refine Eff.start fun h0 => ?_
  extract_lets -merge -underBinder +onlyGivenNames y0
  refine h0.named (x := y0) ?_ fun _ => ?_
  · subst y0
    split
    · refine Eff.ite ?_ ?_
      · refine Eff.after (State.withdrawWrite_eff _ _ _) ?_
        assumption
      · assumption
    · assumption
  clear_value y0
  refine Eff.after (State.leaveReads_eff _ _ _) ?_
  assumption

end Sys2Proof.Machine
end

