-- ==== Sys2Proof/Laws/Queues.lean ====
section
/-! SUPPORT. What each operation of Sys2Proof/Machine/Queues.lean may change: `x_eff` names the parts of the state that x may change and says that
x keeps every form of Sys2Proof/Safety.lean; `x_effs` says so of an operation with operations as arguments, under the same of each argument. -/

set_option Elab.async false

namespace Sys2Proof.Machine

theorem State.advanceZone_eff (s : State) (p : PickupId) (lba : Nat) (nlb : Nat) : Eff [.sides] s (State.advanceZone s p lba nlb) := by
  delta State.advanceZone
  refine Eff.start fun h0 => ?_
  refine Eff.after (State.updZone_eff _ _ _ _) ?_
  assumption

theorem State.settleShutdown_eff (s : State) (c : CtrlId) : Eff [.objs, .host, .recorder] s (State.settleShutdown s c) := by
  delta State.settleShutdown
  refine Eff.start fun h0 => ?_
  extract_lets -merge -underBinder +onlyGivenNames y0 y1
  try clear_value y0 y1
  refine Eff.ite ?_ ?_
  · refine Eff.after (State.report_eff _ _ _ _) ?_
    refine Eff.after (State.updCtrl_eff _ _ _) ?_
    assumption
  · assumption

theorem State.settleShutdowns_eff (s : State) : Eff [.objs, .host, .recorder] s (State.settleShutdowns s) := by
  delta State.settleShutdowns
  refine Eff.start fun h0 => ?_
  refine Eff.forEach ?_ fun _ _ _ => ?_
  · assumption
  · refine Eff.after (State.settleShutdown_eff _ _) ?_
    assumption

theorem State.errorCompletion_eff (s : State) (m : Cmd) (st : Status) (code : Int) :
    Eff [.objs, .host, .recorder] s (State.errorCompletion s m st code) := by
  delta State.errorCompletion
  refine Eff.start fun h0 => ?_
  refine Eff.ite ?_ ?_
  · assumption
  · extract_lets -merge -underBinder +onlyGivenNames y0
    try clear_value y0
    extract_lets -merge -underBinder +onlyGivenNames y1
    refine h0.named (x := y1) ?_ fun _ => ?_
    · subst y1
      refine Eff.after (State.updCtrl_eff _ _ _) ?_
      refine Eff.after (State.bump_eff _ _ _ _ _) ?_
      assumption
    clear_value y1
    extract_lets -merge -underBinder +onlyGivenNames y2 y3
    refine h0.named (x := y3) ?_ fun _ => ?_
    · subst y3
      subst y2
      refine Eff.put ?_
      assumption
    clear_value y2 y3
    refine Eff.after (State.push_eff _ _ _) ?_
    assumption

theorem State.interrupt_eff (s : State) (c : CtrlId) (cq : Nat) : Eff [.host] s (State.interrupt s c cq) := by
  delta State.interrupt
  refine Eff.start fun h0 => ?_
  extract_lets -merge -underBinder +onlyGivenNames y0
  try clear_value y0
  split
  · assumption
  · refine Eff.ite ?_ ?_
    · refine Eff.after (State.updCq_eff _ _ _ _) ?_
      assumption
    · refine Eff.after (State.updCtrl_eff _ _ _) ?_
      refine Eff.after (State.updCq_eff _ _ _ _) ?_
      assumption

theorem State.mountAgain_eff (s : State) : Eff [.pickups, .spindles, .host, .mem, .verge] s (State.mountAgain s) := by
  unfold State.mountAgain
  refine (State.remountIdle_eff _).after ⟨fun q hq => ?_, ⟨rfl, .refl _, id, id, id, id, id⟩⟩
  cases q <;> first | exact absurd (by decide) hq | rfl

theorem State.leavePs2_eff (s : State) (c : CtrlId) : Eff [.objs, .pickups, .spindles, .host, .mem, .recorder, .verge] s (State.leavePs2 s c) := by
  delta State.leavePs2
  refine Eff.start fun h0 => ?_
  extract_lets -merge -underBinder +onlyGivenNames y0
  try clear_value y0
  extract_lets -merge -underBinder +onlyGivenNames y1 y2
  refine h0.named (x := y2) ?_ fun _ => ?_
  · subst y2
    subst y1
    refine Eff.put ?_
    assumption
  clear_value y1 y2
  refine Eff.after (State.mountAgain_eff _) ?_
  refine Eff.after (State.report_eff _ _ _ _) ?_
  assumption

theorem State.settleDeletion_eff (s : State) (c : CtrlId) (sq : Nat) : Eff [.host] s (State.settleDeletion s c sq) := by
  delta State.settleDeletion
  refine Eff.start fun h0 => ?_
  split
  · split
    · refine Eff.ite ?_ ?_
      · assumption
      · refine Eff.after (State.finishCmd_eff _ _ _) ?_
        refine Eff.after (State.updCtrl_eff _ _ _) ?_
        assumption
    · assumption
  · assumption

theorem State.suspendEntry_eff (s : State) (k : CmdRef) :
    Eff [.objs, .pickups, .spindles, .host, .mem, .recorder, .verge] s (State.suspendEntry s k) := by
  delta State.suspendEntry
  refine Eff.start fun h0 => ?_
  split
  · refine Eff.ite ?_ ?_
    · extract_lets -merge -underBinder +onlyGivenNames y0 y1
      refine h0.named (x := y1) ?_ fun _ => ?_
      · subst y1
        subst y0
        refine Eff.put ?_
        assumption
      clear_value y0 y1
      refine Eff.after (State.mountAgain_eff _) ?_
      refine Eff.after (State.report_eff _ _ _ _) ?_
      assumption
    · assumption
  · assumption

theorem State.waitInDispatch_eff (s : State) (m : Cmd) (toll : Bool) : Eff [.objs, .host, .recorder] s (State.waitInDispatch s m toll) := by
  delta State.waitInDispatch
  refine Eff.start fun h0 => ?_
  refine Eff.ite ?_ ?_
  · assumption
  · extract_lets -merge -underBinder +onlyGivenNames y0
    refine h0.named (x := y0) ?_ fun _ => ?_
    · subst y0
      refine Eff.after (State.updCmd_eff _ _ _) ?_
      assumption
    clear_value y0
    extract_lets -merge -underBinder +onlyGivenNames y1
    refine h0.named (x := y1) ?_ fun _ => ?_
    · subst y1
      refine Eff.after (State.boundMiss_eff _ _ _ _) ?_
      assumption
    clear_value y1
    refine Eff.ite ?_ ?_
    · extract_lets -merge -underBinder +onlyGivenNames y2
      refine h0.named (x := y2) ?_ fun _ => ?_
      · subst y2
        refine Eff.after (State.bump_eff _ _ _ _ _) ?_
        assumption
      clear_value y2
      refine Eff.ite ?_ ?_
      · assumption
      · refine Eff.after (State.report_eff _ _ _ _) ?_
        refine Eff.put ?_
        assumption
    · assumption

theorem execCommandFetch_eff (c : CtrlId) (sq : Nat) (e : Sqe) (roundTripNs : Nat) (s : State) :
    OutEff [.objs, .pickups, .spindles, .host, .mem, .recorder, .verge] s (execCommandFetch c sq e roundTripNs s) := by
  delta execCommandFetch
  refine OutEff.start fun h0 => ?_
  extract_lets -merge -underBinder +onlyGivenNames y0
  try clear_value y0
  refine State.when_effs ?_ (fun _ _ => ?_)
  · assumption
  · split
    · assumption
    · extract_lets -merge -underBinder +onlyGivenNames y1 y2
      try clear_value y1 y2
      refine Eff.ite ?_ ?_
      · assumption
      · extract_lets -merge -underBinder +onlyGivenNames y3
        try clear_value y3
        extract_lets -merge -underBinder +onlyGivenNames y4
        refine h0.named (x := y4) ?_ fun _ => ?_
        · subst y4
          refine Eff.after (State.updCtrl_eff _ _ _) ?_
          assumption
        clear_value y4
        extract_lets -merge -underBinder +onlyGivenNames y5
        refine h0.named (x := y5) ?_ fun _ => ?_
        · subst y5
          refine Eff.after (State.updSq_eff _ _ _ _) ?_
          assumption
        clear_value y5
        extract_lets -merge -underBinder +onlyGivenNames y6
        refine h0.named (x := y6) ?_ fun _ => ?_
        · subst y6
          refine Eff.after (State.maxOb_eff _ _ _ _ _) ?_
          assumption
        clear_value y6
        extract_lets -merge -underBinder +onlyGivenNames y7
        try clear_value y7
        extract_lets -merge -underBinder +onlyGivenNames y8
        refine h0.named (x := y8) ?_ fun _ => ?_
        · subst y8
          refine Eff.after (State.updCtrl_eff _ _ _) ?_
          assumption
        clear_value y8
        extract_lets -merge -underBinder +onlyGivenNames y9 y10
        try clear_value y9 y10
        extract_lets -merge -underBinder +onlyGivenNames y11 y12
        refine h0.named (x := y12) ?_ fun _ => ?_
        · subst y12
          subst y11
          refine Eff.put ?_
          assumption
        clear_value y11 y12
        refine Eff.ite ?_ ?_
        · assumption
        · extract_lets -merge -underBinder +onlyGivenNames y13
          refine h0.named (x := y13) ?_ fun _ => ?_
          · subst y13
            refine Eff.ite ?_ ?_
            · refine Eff.after (State.leavePs2_eff _ _) ?_
              assumption
            · assumption
          clear_value y13
          refine Eff.ite ?_ ?_
          · refine Eff.after (State.suspendEntry_eff _ _) ?_
            assumption
          · assumption

theorem execCommitPoint_eff (k : CmdRef) (s : State) : OutEff [.host] s (execCommitPoint k s) := by
  delta execCommitPoint
  refine OutEff.start fun h0 => ?_
  refine State.when_effs ?_ (fun _ _ => ?_)
  · assumption
  · split
    · refine Eff.ite ?_ ?_
      · assumption
      · refine Eff.ite ?_ ?_
        · refine Eff.after (State.commit_eff _ _) ?_
          refine Eff.after (State.finishCmd_eff _ _ _) ?_
          assumption
        · refine Eff.ite ?_ ?_
          · refine Eff.after (State.commit_eff _ _) ?_
            assumption
          · assumption
    · assumption

theorem execCompletionPost_eff (k : CmdRef) (dataNs : Nat) (wholeNs : Nat) (s : State) :
    OutEff [.objs, .pickups, .channels, .decoding, .sides, .spindles, .axes, .host, .recorder] s (execCompletionPost k dataNs wholeNs s) := by
  delta execCompletionPost
  refine OutEff.start fun h0 => ?_
  refine State.when_effs ?_ (fun _ _ => ?_)
  · assumption
  · split
    · split
      · assumption
      · refine Eff.ite ?_ ?_
        · assumption
        · extract_lets -merge -underBinder +onlyGivenNames y0
          refine h0.named (x := y0) ?_ fun _ => ?_
          · subst y0
            refine Eff.after (State.updCq_eff _ _ _ _) ?_
            assumption
          clear_value y0
          extract_lets -merge -underBinder +onlyGivenNames y1
          refine h0.named (x := y1) ?_ fun _ => ?_
          · subst y1
            refine Eff.after (State.updCtrl_eff _ _ _) ?_
            assumption
          clear_value y1
          extract_lets -merge -underBinder +onlyGivenNames y2
          refine h0.named (x := y2) ?_ fun _ => ?_
          · subst y2
            refine Eff.after (State.errorCompletion_eff _ _ _ _) ?_
            refine Eff.after (State.bump_eff _ _ _ _ _) ?_
            assumption
          clear_value y2
          extract_lets -merge -underBinder +onlyGivenNames y3
          try clear_value y3
          extract_lets -merge -underBinder +onlyGivenNames y4
          refine h0.named (x := y4) ?_ fun _ => ?_
          · subst y4
            refine Eff.ite ?_ ?_
            · refine Eff.after (State.tally_eff _ _ _ _) ?_
              assumption
            · assumption
          clear_value y4
          extract_lets -merge -underBinder +onlyGivenNames y5
          refine h0.named (x := y5) ?_ fun _ => ?_
          · subst y5
            refine Eff.ite ?_ ?_
            · refine Eff.after (State.tally_eff _ _ _ _) ?_
              assumption
            · refine Eff.ite ?_ ?_
              · refine Eff.after (State.tally_eff _ _ _ _) ?_
                assumption
              · assumption
          clear_value y5
          extract_lets -merge -underBinder +onlyGivenNames y6
          refine h0.named (x := y6) ?_ fun _ => ?_
          · subst y6
            refine Eff.ite ?_ ?_
            · refine Eff.after (State.boundMiss_eff _ _ _ _) ?_
              assumption
            · assumption
          clear_value y6
          extract_lets -merge -underBinder +onlyGivenNames y7
          refine h0.named (x := y7) ?_ fun _ => ?_
          · subst y7
            refine Eff.after (State.leaveReads_eff _ _ _) ?_
            refine Eff.after (State.releaseTolls_eff _ _) ?_
            assumption
          clear_value y7
          extract_lets -merge -underBinder +onlyGivenNames y8 y9
          refine h0.named (x := y9) ?_ fun _ => ?_
          · subst y9
            subst y8
            refine Eff.put ?_
            assumption
          clear_value y8 y9
          refine Eff.after (State.settleShutdowns_eff _) ?_
          refine Eff.after (State.settleDeletion_eff _ _ _) ?_
          refine Eff.after (State.interrupt_eff _ _ _) ?_
          assumption
    · assumption

theorem execCreateIoCompletionQueue_eff (k : CmdRef) (s : State) : OutEff [.host] s (execCreateIoCompletionQueue k s) := by
  delta execCreateIoCompletionQueue
  refine OutEff.start fun h0 => ?_
  refine State.admin_effs ?_ (fun _ _ _ => ?_)
  · assumption
  · extract_lets -merge -underBinder +onlyGivenNames y0 y1 y2 y3
    try clear_value y0 y1 y2 y3
    refine Eff.ite ?_ ?_
    · refine Eff.after (State.finishCmd_eff _ _ _) ?_
      assumption
    · refine Eff.ite ?_ ?_
      · refine Eff.after (State.finishCmd_eff _ _ _) ?_
        assumption
      · refine Eff.ite ?_ ?_
        · refine Eff.after (State.finishCmd_eff _ _ _) ?_
          assumption
        · refine Eff.after (State.finishCmd_eff _ _ _) ?_
          refine Eff.after (State.updCtrl_eff _ _ _) ?_
          assumption

theorem execCreateIoSubmissionQueue_eff (k : CmdRef) (s : State) : OutEff [.host] s (execCreateIoSubmissionQueue k s) := by
  delta execCreateIoSubmissionQueue
  refine OutEff.start fun h0 => ?_
  refine State.admin_effs ?_ (fun _ _ _ => ?_)
  · assumption
  · extract_lets -merge -underBinder +onlyGivenNames y0 y1 y2 y3
    try clear_value y0 y1 y2 y3
    refine Eff.ite ?_ ?_
    · refine Eff.after (State.finishCmd_eff _ _ _) ?_
      assumption
    · refine Eff.ite ?_ ?_
      · refine Eff.after (State.finishCmd_eff _ _ _) ?_
        assumption
      · refine Eff.ite ?_ ?_
        · refine Eff.after (State.finishCmd_eff _ _ _) ?_
          assumption
        · refine Eff.after (State.finishCmd_eff _ _ _) ?_
          refine Eff.after (State.updCtrl_eff _ _ _) ?_
          assumption

theorem execDeleteIoCompletionQueue_eff (k : CmdRef) (s : State) : OutEff [.host] s (execDeleteIoCompletionQueue k s) := by
  delta execDeleteIoCompletionQueue
  refine OutEff.start fun h0 => ?_
  refine State.admin_effs ?_ (fun _ _ _ => ?_)
  · assumption
  · extract_lets -merge -underBinder +onlyGivenNames y0
    try clear_value y0
    refine Eff.ite ?_ ?_
    · refine Eff.after (State.finishCmd_eff _ _ _) ?_
      assumption
    · refine Eff.ite ?_ ?_
      · refine Eff.after (State.finishCmd_eff _ _ _) ?_
        assumption
      · refine Eff.after (State.finishCmd_eff _ _ _) ?_
        refine Eff.after (State.updCtrl_eff _ _ _) ?_
        assumption

theorem execDeleteIoSubmissionQueue_eff (k : CmdRef) (s : State) :
    OutEff [.objs, .pickups, .channels, .decoding, .sides, .spindles, .axes, .host, .recorder] s (execDeleteIoSubmissionQueue k s) := by
  delta execDeleteIoSubmissionQueue
  refine OutEff.start fun h0 => ?_
  refine State.admin_effs ?_ (fun _ _ _ => ?_)
  · assumption
  · extract_lets -merge -underBinder +onlyGivenNames y0
    try clear_value y0
    refine Eff.ite ?_ ?_
    · refine Eff.after (State.finishCmd_eff _ _ _) ?_
      assumption
    · extract_lets -merge -underBinder +onlyGivenNames y1
      try clear_value y1
      extract_lets -merge -underBinder +onlyGivenNames y2
      refine h0.named (x := y2) ?_ fun _ => ?_
      · subst y2
        refine Eff.forEach ?_ fun _ _ _ => ?_
        · assumption
        · refine Eff.after (State.finishCmd_eff _ _ _) ?_
          refine Eff.after (State.withdraw_eff _ _) ?_
          assumption
      clear_value y2
      refine Eff.after (State.settleDeletion_eff _ _ _) ?_
      refine Eff.after (State.updSq_eff _ _ _ _) ?_
      assumption

theorem execDispatch_eff (c : CtrlId) (sq : Nat) (latencyNs : Nat) (s : State) :
    OutEff [.objs, .sides, .host, .ramps, .recorder] s (execDispatch c sq latencyNs s) := by
  delta execDispatch
  refine OutEff.start fun h0 => ?_
  refine State.when_effs ?_ (fun _ _ => ?_)
  · assumption
  · split
    · assumption
    · split
      · assumption
      · refine Eff.ite ?_ ?_
        · assumption
        · split
          · refine Eff.after (State.finishCmd_eff _ _ _) ?_
            refine Eff.after (State.updCmd_eff _ _ _) ?_
            assumption
          · extract_lets -merge -underBinder +onlyGivenNames y0 y1 y2
            try clear_value y0 y1 y2
            refine Eff.ite ?_ ?_
            · refine Eff.after (State.waitInDispatch_eff _ _ _) ?_
              assumption
            · refine Eff.ite ?_ ?_
              · refine Eff.after (State.waitInDispatch_eff _ _ _) ?_
                assumption
              · extract_lets -merge -underBinder +onlyGivenNames y3
                try clear_value y3
                extract_lets -merge -underBinder +onlyGivenNames y4 y5
                refine h0.named (x := y5) ?_ fun _ => ?_
                · subst y5
                  subst y4
                  refine Eff.put ?_
                  assumption
                clear_value y4 y5
                extract_lets -merge -underBinder +onlyGivenNames y6
                refine h0.named (x := y6) ?_ fun _ => ?_
                · subst y6
                  refine Eff.after (State.updCmd_eff _ _ _) ?_
                  assumption
                clear_value y6
                extract_lets -merge -underBinder +onlyGivenNames y7
                refine h0.named (x := y7) ?_ fun _ => ?_
                · subst y7
                  refine Eff.after (State.takeTolls_eff _ _ _ _ _) ?_
                  assumption
                clear_value y7
                extract_lets -merge -underBinder +onlyGivenNames y8
                refine h0.named (x := y8) ?_ fun _ => ?_
                · subst y8
                  refine Eff.ite ?_ ?_
                  · refine Eff.after (State.advanceZone_eff _ _ _ _) ?_
                    assumption
                  · assumption
                clear_value y8
                extract_lets -merge -underBinder +onlyGivenNames y9 y10 y11
                try clear_value y9 y10 y11
                split
                · assumption
                · refine Eff.ite ?_ ?_
                  · extract_lets -merge -underBinder +onlyGivenNames y12
                    refine h0.named (x := y12) ?_ fun _ => ?_
                    · subst y12
                      refine Eff.after (State.updCmd_eff _ _ _) ?_
                      refine Eff.after (State.bump_eff _ _ _ _ _) ?_
                      assumption
                    clear_value y12
                    refine Eff.ite ?_ ?_
                    · assumption
                    · refine Eff.after (State.boundMiss_eff _ _ _ _) ?_
                      assumption
                  · split
                    · rename_i heq
                      have := Eff.after (b := [.objs, .sides, .host, .ramps, .recorder]) (s0 := s) (State.toRamp_eff heq) (by
                        assumption
                        )
                      extract_lets -merge -underBinder +onlyGivenNames y13
                      refine h0.named (x := y13) ?_ fun _ => ?_
                      · subst y13
                        refine Eff.after (State.tally_eff _ _ _ _) ?_
                        assumption
                      clear_value y13
                      refine Eff.ite ?_ ?_
                      · assumption
                      · refine Eff.after (State.boundMiss_eff _ _ _ _) ?_
                        assumption

theorem execDoorbellWrite_eff (c : CtrlId) (queue : Nat) (completion : Bool) (value : Nat) (s : State) :
    OutEff [.host] s (execDoorbellWrite c queue completion value s) := by
  delta execDoorbellWrite
  refine OutEff.start fun h0 => ?_
  refine State.when_effs ?_ (fun _ _ => ?_)
  · assumption
  · extract_lets -merge -underBinder +onlyGivenNames y0 y1
    refine h0.named (x := y1) ?_ fun _ => ?_
    · subst y1
      subst y0
      refine Eff.put ?_
      assumption
    clear_value y0 y1
    refine Eff.ite ?_ ?_
    · refine Eff.after (State.updCq_eff _ _ _ _) ?_
      assumption
    · refine Eff.after (State.updSq_eff _ _ _ _) ?_
      assumption

theorem execTollgateStallRelease_eff (k : CmdRef) (latencyNs : Nat) (s : State) :
    OutEff [.objs, .host, .ramps] s (execTollgateStallRelease k latencyNs s) := by
  delta execTollgateStallRelease
  refine OutEff.start fun h0 => ?_
  refine State.when_effs ?_ (fun _ _ => ?_)
  · assumption
  · split
    · assumption
    · split
      · assumption
      · extract_lets -merge -underBinder +onlyGivenNames y0
        try clear_value y0
        refine Eff.ite ?_ ?_
        · assumption
        · refine Eff.ite ?_ ?_
          · refine Eff.after (State.updCmd_eff _ _ _) ?_
            assumption
          · refine Eff.ite ?_ ?_
            · refine Eff.after (State.finishCmd_eff _ _ _) ?_
              refine Eff.after (State.updCmd_eff _ _ _) ?_
              assumption
            · refine Eff.ite ?_ ?_
              · refine Eff.after (State.finishCmd_eff _ _ _) ?_
                refine Eff.after (State.updCmd_eff _ _ _) ?_
                assumption
              · refine Eff.after (State.tally_eff _ _ _ _) ?_
                exact (State.toRamp_eff rfl).after (by assumption)

end Sys2Proof.Machine
end

