-- ==== Sys2Proof/Laws/Admin.lean ====
section
/-! SUPPORT. What each operation of Sys2Proof/Machine/Admin.lean may change: `x_eff` names the parts of the state that x may change and says that
x keeps every form of Sys2Proof/Safety.lean; `x_effs` says so of an operation with operations as arguments, under the same of each argument. -/

set_option Elab.async false

namespace Sys2Proof.Machine

theorem State.markAborted_eff (s : State) (k : CmdRef) : Eff [.ramps] s (State.markAborted s k) := by
  refine State.mapRamps_eff s _ fun r h => ?_
  obtain ⟨h1, h2, h3, h4⟩ := h
  refine ⟨?_, h2, ?_, ?_⟩
  · rw [List.length_map]; exact h1
  · rw [List.length_map]; exact h3
  · intro hc
    refine h4 ⟨?_, hc.2⟩
    have := hc.1
    simp only [Ramp.maySwap, Bool.and_eq_true, beq_iff_eq, bne_iff_ne, ne_eq, List.map_eq_nil_iff] at this ⊢
    exact this

theorem State.setFeatures_effs {l : List Part} {s0 : State} {s : State} {k : CmdRef} {mine : Nat → Bool} {f : State → Cmd → State} (h : Eff l s0 s) (h_f : ∀ u v, Eff l s0 u → Eff l s0 (f u v)) (hs : partsIn [.host] l = true := by decide) :
    OutEff l s0 (State.setFeatures s k mine f) := by
  delta State.setFeatures
  refine State.admin_effs ?_ (fun _ _ _ => ?_) (partsIn_trans (by decide) hs)
  · assumption
  · refine Eff.ite ?_ ?_
    · refine Eff.after (State.finishCmd_eff _ _ _) ?_ (partsIn_trans (by decide) hs)
      assumption
    · refine h_f _ _ ?_
      assumption

theorem State.startSelfTest_eff (s : State) (k : CmdRef) (c : Cmd) (extended : Bool) :
    Eff [.objs, .host, .recorder] s (State.startSelfTest s k c extended) := by
  delta State.startSelfTest
  refine Eff.start fun h0 => ?_
  refine Eff.ite ?_ ?_
  · refine Eff.after (State.finishCmd_eff _ _ _) ?_
    assumption
  · extract_lets -merge -underBinder +onlyGivenNames y0
    try clear_value y0
    extract_lets -merge -underBinder +onlyGivenNames y1 y2
    refine h0.named (x := y2) ?_ fun _ => ?_
    · subst y2
      subst y1
      refine Eff.put ?_
      assumption
    clear_value y1 y2
    extract_lets -merge -underBinder +onlyGivenNames y3
    refine h0.named (x := y3) ?_ fun _ => ?_
    · subst y3
      refine Eff.after (State.report_eff _ _ _ _) ?_
      assumption
    clear_value y3
    extract_lets -merge -underBinder +onlyGivenNames y4
    try clear_value y4
    refine Eff.after (State.finishCmd_eff _ _ _) ?_
    refine Eff.ite ?_ ?_
    · assumption
    · refine Eff.after (State.endSelfTest_eff _ _ _) ?_
      assumption

theorem execAbort_eff (k : CmdRef) (targetWaits : Bool) (s : State) :
    OutEff [.objs, .pickups, .channels, .decoding, .sides, .spindles, .axes, .host, .ramps, .recorder] s (execAbort k targetWaits s) := by
  delta execAbort
  refine OutEff.start fun h0 => ?_
  refine State.admin_effs ?_ (fun _ _ _ => ?_)
  · assumption
  · extract_lets -merge -underBinder +onlyGivenNames y0
    try clear_value y0
    refine Eff.ite ?_ ?_
    · refine Eff.after (State.finishCmd_eff _ _ _) ?_
      assumption
    · extract_lets -merge -underBinder +onlyGivenNames y1 y2
      try clear_value y1 y2
      split
      · rename_i hu _ v aborted heq
        have : Eff [.objs, .pickups, .channels, .decoding, .sides, .spindles, .axes, .host, .ramps, .recorder] s v := by
          split at heq
          · split at heq <;> obtain ⟨rfl, rfl⟩ := Prod.mk.inj heq
            · exact (State.updCmd_eff _ _ _).after ((State.markAborted_eff _ _).after ((State.withdraw_eff _ _).after hu))
            · exact hu
          · split at heq <;> obtain ⟨rfl, rfl⟩ := Prod.mk.inj heq
            · exact (State.updCtrl_eff _ _ _).after hu
            · exact hu
        extract_lets -merge -underBinder +onlyGivenNames y3
        refine h0.named (x := y3) ?_ fun _ => ?_
        · subst y3
          refine Eff.after (State.bump_eff _ _ _ _ _) ?_
          assumption
        clear_value y3
        extract_lets -merge -underBinder +onlyGivenNames y4
        refine h0.named (x := y4) ?_ fun _ => ?_
        · subst y4
          refine Eff.after (State.report_eff _ _ _ _) ?_
          assumption
        clear_value y4
        refine Eff.after (State.finishCmd_eff _ _ _) ?_
        refine Eff.after (State.setDw0_eff _ _ _) ?_
        assumption

theorem execAsynchronousEventRequest_eff (k : CmdRef) (s : State) : OutEff [.host] s (execAsynchronousEventRequest k s) := by
  delta execAsynchronousEventRequest
  refine OutEff.start fun h0 => ?_
  refine State.when_effs ?_ (fun _ _ => ?_)
  · assumption
  · split
    · assumption
    · refine Eff.ite ?_ ?_
      · assumption
      · extract_lets -merge -underBinder +onlyGivenNames y0
        refine h0.named (x := y0) ?_ fun _ => ?_
        · subst y0
          refine Eff.after (State.updCmd_eff _ _ _) ?_
          assumption
        clear_value y0
        extract_lets -merge -underBinder +onlyGivenNames y1
        try clear_value y1
        refine Eff.ite ?_ ?_
        · refine Eff.after (State.finishCmd_eff _ _ _) ?_
          assumption
        · split
          · refine Eff.after (State.finishCmd_eff _ _ _) ?_
            refine Eff.after (State.setDw0_eff _ _ _) ?_
            refine Eff.after (State.updCtrl_eff _ _ _) ?_
            assumption
          · refine Eff.after (State.updCtrl_eff _ _ _) ?_
            assumption

theorem execDeviceSelfTestAbort_eff (k : CmdRef) (s : State) : OutEff [.objs, .host, .recorder] s (execDeviceSelfTestAbort k s) := by
  delta execDeviceSelfTestAbort
  refine OutEff.start fun h0 => ?_
  refine State.admin_effs ?_ (fun _ _ _ => ?_)
  · assumption
  · refine Eff.after (State.finishCmd_eff _ _ _) ?_
    refine Eff.after (State.endSelfTest_eff _ _ _) ?_
    assumption

theorem execDeviceSelfTestExtended_eff (k : CmdRef) (s : State) : OutEff [.objs, .host, .recorder] s (execDeviceSelfTestExtended k s) := by
  delta execDeviceSelfTestExtended
  refine OutEff.start fun h0 => ?_
  refine State.admin_effs ?_ (fun _ _ _ => ?_)
  · assumption
  · refine Eff.after (State.startSelfTest_eff _ _ _ _) ?_
    assumption

theorem execDeviceSelfTestShort_eff (k : CmdRef) (s : State) : OutEff [.objs, .host, .recorder] s (execDeviceSelfTestShort k s) := by
  delta execDeviceSelfTestShort
  refine OutEff.start fun h0 => ?_
  refine State.admin_effs ?_ (fun _ _ _ => ?_)
  · assumption
  · refine Eff.after (State.startSelfTest_eff _ _ _ _) ?_
    assumption

theorem execGetFeatures_eff (k : CmdRef) (s : State) : OutEff [.host] s (execGetFeatures k s) := by
  delta execGetFeatures
  refine OutEff.start fun h0 => ?_
  refine State.admin_effs ?_ (fun _ _ _ => ?_)
  · assumption
  · extract_lets -merge -underBinder +onlyGivenNames y0 y1
    try clear_value y0 y1
    split
    · refine Eff.ite ?_ ?_
      · refine Eff.after (State.finishCmd_eff _ _ _) ?_
        refine Eff.after (State.giveData_eff _ _ _) ?_
        assumption
      · extract_lets -merge -underBinder +onlyGivenNames y2
        try clear_value y2
        refine Eff.after (State.finishCmd_eff _ _ _) ?_
        refine Eff.after (State.setDw0_eff _ _ _) ?_
        assumption
    · refine Eff.after (State.finishCmd_eff _ _ _) ?_
      refine Eff.after (State.setDw0_eff _ _ _) ?_
      assumption
    · refine Eff.after (State.finishCmd_eff _ _ _) ?_
      refine Eff.after (State.setDw0_eff _ _ _) ?_
      assumption

theorem execGetLogPage_eff (k : CmdRef) (s : State) : OutEff [.sides, .host] s (execGetLogPage k s) := by
  delta execGetLogPage
  refine OutEff.start fun h0 => ?_
  refine State.admin_effs ?_ (fun _ _ _ => ?_)
  · assumption
  · extract_lets -merge -underBinder +onlyGivenNames y0
    try clear_value y0
    extract_lets -merge -underBinder +onlyGivenNames y1
    refine h0.named (x := y1) ?_ fun _ => ?_
    · subst y1
      refine Eff.after (State.giveData_eff _ _ _) ?_
      assumption
    clear_value y1
    extract_lets -merge -underBinder +onlyGivenNames y2
    refine h0.named (x := y2) ?_ fun _ => ?_
    · subst y2
      split
      · refine Eff.after (State.updCtrl_eff _ _ _) ?_
        assumption
      · split
        · refine Eff.after (State.updS_eff _ _ _) ?_
          assumption
        · assumption
      · assumption
    clear_value y2
    refine Eff.after (State.finishCmd_eff _ _ _) ?_
    assumption

theorem execIdentify_eff (k : CmdRef) (s : State) : OutEff [.host] s (execIdentify k s) := by
  delta execIdentify
  refine OutEff.start fun h0 => ?_
  refine State.admin_effs ?_ (fun _ _ _ => ?_)
  · assumption
  · refine Eff.after (State.finishCmd_eff _ _ _) ?_
    refine Eff.after (State.giveData_eff _ _ _) ?_
    assumption

theorem execSelfTestStep_eff (segmentEnds : Bool) (passes : Bool) (s : State) :
    OutEff [.objs, .host, .recorder] s (execSelfTestStep segmentEnds passes s) := by
  delta execSelfTestStep
  refine OutEff.start fun h0 => ?_
  refine State.when_effs ?_ (fun _ _ => ?_)
  · assumption
  · split
    · assumption
    · extract_lets -merge -underBinder +onlyGivenNames y0
      try clear_value y0
      refine Eff.ite ?_ ?_
      · assumption
      · refine Eff.ite ?_ ?_
        · refine Eff.after (State.endSelfTest_eff _ _ _) ?_
          assumption
        · refine Eff.ite ?_ ?_
          · refine Eff.after (State.endSelfTest_eff _ _ _) ?_
            assumption
          · refine Eff.put ?_
            assumption

theorem execSetFeatures_eff (k : CmdRef) (s : State) : OutEff [.host] s (execSetFeatures k s) := by
  delta execSetFeatures
  refine OutEff.start fun h0 => ?_
  refine State.setFeatures_effs ?_ (fun _ _ _ => ?_)
  · assumption
  · extract_lets -merge -underBinder +onlyGivenNames y0 y1
    try clear_value y0 y1
    split
    · extract_lets -merge -underBinder +onlyGivenNames y2
      try clear_value y2
      refine Eff.after (State.finishCmd_eff _ _ _) ?_
      refine Eff.after (State.setDw0_eff _ _ _) ?_
      refine Eff.after (State.updCtrl_eff _ _ _) ?_
      assumption
    · extract_lets -merge -underBinder +onlyGivenNames y3
      try clear_value y3
      refine Eff.after (State.finishCmd_eff _ _ _) ?_
      refine Eff.forEach ?_ fun _ _ _ => ?_
      · assumption
      · refine Eff.after (State.updCtrl_eff _ _ _) ?_
        assumption
    · refine Eff.after (State.finishCmd_eff _ _ _) ?_
      refine Eff.after (State.updCtrl_eff _ _ _) ?_
      assumption

theorem execSetFeaturesPowerManagement_eff (k : CmdRef) (s : State) :
    OutEff [.objs, .sides, .host, .recorder] s (execSetFeaturesPowerManagement k s) := by
  delta execSetFeaturesPowerManagement
  refine OutEff.start fun h0 => ?_
  refine OutEff.ite ?_ ?_
  · refine OutEff.next ?_
    assumption
  · refine State.setFeatures_effs ?_ (fun _ _ _ => ?_)
    · assumption
    · extract_lets -merge -underBinder +onlyGivenNames y0
      try clear_value y0
      refine Eff.ite ?_ ?_
      · refine Eff.after (State.finishCmd_eff _ _ _) ?_
        assumption
      · extract_lets -merge -underBinder +onlyGivenNames y1 y2
        refine h0.named (x := y2) ?_ fun _ => ?_
        · subst y2
          subst y1
          refine Eff.put ?_
          assumption
        clear_value y1 y2
        extract_lets -merge -underBinder +onlyGivenNames y3
        refine h0.named (x := y3) ?_ fun _ => ?_
        · subst y3
          refine Eff.forEach ?_ fun _ _ _ => ?_
          · assumption
          · refine Eff.after (State.formAll_eff _ _ _) ?_
            assumption
        clear_value y3
        refine Eff.after (State.endSelfTest_eff _ _ _) ?_
        assumption

theorem execSetFeaturesTimestamp_eff (k : CmdRef) (s : State) :
    OutEff [.objs, .host, .recorder, .milestone, .verge] s (execSetFeaturesTimestamp k s) := by
  delta execSetFeaturesTimestamp
  refine OutEff.start fun h0 => ?_
  refine State.setFeatures_effs ?_ (fun _ _ _ => ?_)
  · assumption
  · extract_lets -merge -underBinder +onlyGivenNames y0
    try clear_value y0
    refine Eff.after (State.finishCmd_eff _ _ _) ?_
    refine Eff.after (State.setTimeOfDay_eff _ _ _) ?_
    assumption

end Sys2Proof.Machine
end

