-- ==== Sys2Proof/Laws/AuthOps.lean ====
section
/-! SUPPORT. What each operation of Sys2Proof/Machine/AuthOps.lean may change: `x_eff` names the parts of the state that x may change and says that
x keeps every form of Sys2Proof/Safety.lean; `x_effs` says so of an operation with operations as arguments, under the same of each argument. -/

set_option Elab.async false

namespace Sys2Proof.Machine

theorem State.updClient_eff (s : State) (cl : Client) (f : ClientState → ClientState) : Eff [.signpost] s (State.updClient s cl f) := by
  delta State.updClient
  refine Eff.start fun h0 => ?_
  refine Eff.put ?_
  assumption

theorem State.authFailed_eff (s : State) (cl : Client) : Eff [.objs, .signpost, .recorder] s (State.authFailed s cl) := by
  delta State.authFailed
  refine Eff.start fun h0 => ?_
  extract_lets -merge -underBinder +onlyGivenNames y0
  try clear_value y0
  extract_lets -merge -underBinder +onlyGivenNames y1
  refine h0.named (x := y1) ?_ fun _ => ?_
  · subst y1
    refine Eff.after (State.report_eff _ _ _ _) ?_
    refine Eff.after (State.setOb_eff _ _ _ _ _) ?_
    assumption
  clear_value y1
  refine Eff.ite ?_ ?_
  · refine Eff.after (State.report_eff _ _ _ _) ?_
    refine Eff.put ?_
    assumption
  · assumption

theorem State.authorise_eff {s : State} {cl : Client} {key : Nat} {value : List Byte} {verdict : Option Bool} {t : State} {x : Option Nat}
    (heq : State.authorise s cl key value verdict = (t, x)) : Eff [.objs, .signpost, .recorder] s t := by
  unfold State.authorise at heq
  split at heq
  · cases heq; exact .refl _ _
  · split at heq
    · cases heq; exact .refl _ _
    · dsimp only at heq
      split at heq <;> cases heq
      · exact (State.report_eff _ _ _ _).after ((State.bump_eff _ _ _ _ _).after ((State.setOb_eff _ _ _ _ _).after (State.updClient_eff _ _ _).mono))
      · exact (State.authFailed_eff _ _).after (State.updClient_eff _ _ _).mono

theorem State.authWrite_effs {l : List Part} {s0 : State} {s : State} {cl : Client} {r : Row} {i : Nat} {k : Nat} {v : Int} {verdict : Option Bool} {bad : Bool} {busy : Bool} {effect : State → State} (h : Eff l s0 s) (h_effect : ∀ u, Eff l s0 u → Eff l s0 (effect u)) (hs : partsIn [.freeCount, .objs, .signpost, .recorder] l = true := by decide) :
    Eff l s0 (State.authWrite s cl r i k v verdict bad busy effect) := by
  delta State.authWrite
  refine Eff.ite ?_ ?_
  · assumption
  · refine Eff.ite ?_ ?_
    · refine Eff.after (State.answer_eff _ _ _ _) ?_ (partsIn_trans (by decide) hs)
      assumption
    · split
      · rename_i heq
        have := Eff.after (b := l) (s0 := s0) (State.authorise_eff heq) (by
          assumption
          ) (partsIn_trans (by decide) hs)
        refine Eff.after (State.answer_eff _ _ _ _) ?_ (partsIn_trans (by decide) hs)
        assumption
      · rename_i heq
        have := Eff.after (b := l) (s0 := s0) (State.authorise_eff heq) (by
          assumption
          ) (partsIn_trans (by decide) hs)
        refine Eff.ite ?_ ?_
        · refine Eff.after (State.answer_eff _ _ _ _) ?_ (partsIn_trans (by decide) hs)
          assumption
        · refine Eff.ite ?_ ?_
          · refine Eff.after (State.answer_eff _ _ _ _) ?_ (partsIn_trans (by decide) hs)
            assumption
          · refine Eff.after (State.answer_eff _ _ _ _) ?_ (partsIn_trans (by decide) hs)
            refine h_effect _ ?_
            refine Eff.after (State.recordWrite_eff _ _ _) ?_ (partsIn_trans (by decide) hs)
            assumption

end Sys2Proof.Machine
end

