-- ==== Sys2Proof/Laws/Motor.lean ====
section
/-! SUPPORT. What each operation of Sys2Proof/Machine/Motor.lean may change: `x_eff` names the parts of the state that x may change and says that
x keeps every form of Sys2Proof/Safety.lean; `x_effs` says so of an operation with operations as arguments, under the same of each argument. -/

set_option Elab.async false

namespace Sys2Proof.Machine

theorem State.currentLoop_eff (s : State) (i : SpindleId) : Eff [.spindles] s (State.currentLoop s i) := by
  delta State.currentLoop
  refine Eff.start fun h0 => ?_
  extract_lets -merge -underBinder +onlyGivenNames y0
  try clear_value y0
  split
  · extract_lets -merge -underBinder +onlyGivenNames y1
    try clear_value y1
    split
    · split
      · extract_lets -merge -underBinder +onlyGivenNames y2 y3 y4 y5 y6 y7 y8 y9 y10 y11
        try clear_value y2 y3 y4 y5 y6 y7 y8 y9 y10 y11
        split
        · refine Eff.after (State.updM_eff _ _ _) ?_
          assumption

theorem State.driveLegs_eff (s : State) (i : SpindleId) : Eff [.spindles] s (State.driveLegs s i) := by
  delta State.driveLegs
  refine Eff.start fun h0 => ?_
  extract_lets -merge -underBinder +onlyGivenNames y0 y1
  try clear_value y0 y1
  refine Eff.ite ?_ ?_
  · refine Eff.after (State.updM_eff _ _ _) ?_
    assumption
  · refine Eff.ite ?_ ?_
    · extract_lets -merge -underBinder +onlyGivenNames y2
      try clear_value y2
      refine Eff.after (State.updM_eff _ _ _) ?_
      assumption
    · refine Eff.ite ?_ ?_
      · assumption
      · refine Eff.after (State.updM_eff _ _ _) ?_
        assumption

theorem State.seed_eff (s : State) (i : SpindleId) (angle : Nat) (n : Int) : Eff [.spindles] s (State.seed s i angle n) := by
  delta State.seed
  refine Eff.start fun h0 => ?_
  extract_lets -merge -underBinder +onlyGivenNames y0
  try clear_value y0
  refine Eff.after (State.updM_eff _ _ _) ?_
  assumption

theorem State.observe_eff (s : State) (i : SpindleId) (va : Int) (vb : Int) (ia : Int) (ib : Int) :
    Eff [.spindles] s (State.observe s i va vb ia ib) := by
  delta State.observe
  refine Eff.start fun h0 => ?_
  refine Eff.after (State.updM_eff _ _ _) ?_
  assumption

theorem State.timeCrossings_eff (s : State) (i : SpindleId) (v : List Int) : Eff [.spindles] s (State.timeCrossings s i v) := by
  delta State.timeCrossings
  refine Eff.start fun h0 => ?_
  refine Eff.after (State.updM_eff _ _ _) ?_
  assumption

theorem State.integrateFlux_eff (s : State) (i : SpindleId) (ia : Int) (ib : Int) : Eff [.spindles] s (State.integrateFlux s i ia ib) := by
  delta State.integrateFlux
  refine Eff.start fun h0 => ?_
  refine Eff.after (State.updM_eff _ _ _) ?_
  assumption

theorem State.switchVector_eff (s : State) (i : SpindleId) (ia : Int) (ib : Int) : Eff [.spindles] s (State.switchVector s i ia ib) := by
  delta State.switchVector
  refine Eff.start fun h0 => ?_
  extract_lets -merge -underBinder +onlyGivenNames y0 y1 y2 y3 y4 y5 y6 y7 y8 y9 y10 y11
  try clear_value y0 y1 y2 y3 y4 y5 y6 y7 y8 y9 y10 y11
  refine Eff.after (State.updM_eff _ _ _) ?_
  assumption

end Sys2Proof.Machine
end

