-- ==== Sys2Proof/Laws/Axes.lean ====
section
/-! SUPPORT. What each operation of Sys2Proof/Machine/Axes.lean may change: `x_eff` names the parts of the state that x may change and says that
x keeps every form of Sys2Proof/Safety.lean; `x_effs` says so of an operation with operations as arguments, under the same of each argument. -/

set_option Elab.async false

namespace Sys2Proof.Machine

theorem State.axisAnswer_eff (s : State) (a : AxisId) (cmd : Int) (r : AxisResult) :
    Eff [.objs, .axes, .recorder] s (State.axisAnswer s a cmd r) := by
  delta State.axisAnswer
  refine Eff.start fun h0 => ?_
  extract_lets -merge -underBinder +onlyGivenNames y0
  refine h0.named (x := y0) ?_ fun _ => ?_
  · subst y0
    refine Eff.after (State.updA_eff _ _ _) ?_
    assumption
  clear_value y0
  refine Eff.ite ?_ ?_
  · assumption
  · refine Eff.after (State.report_eff _ _ _ _) ?_
    assumption

theorem State.axisCommand_effs {l : List Part} {s0 : State} {s : State} {cl : Client} {a : AxisId} {v : Int} {cmd : Int} {result : State → AxisResult} {effect : State → State} (h : Eff l s0 s) (h_effect : ∀ u, Eff l s0 u → Eff l s0 (effect u)) (hs : partsIn [.freeCount, .objs, .axes, .signpost, .recorder] l = true := by decide) :
    Eff l s0 (State.axisCommand s cl a v cmd result effect) := by
  delta State.axisCommand
  refine Eff.ite ?_ ?_
  · assumption
  · refine State.hostWrite_effs ?_ (fun _ _ => ?_) (partsIn_trans (by decide) hs)
    · assumption
    · extract_lets -merge -underBinder +onlyGivenNames y0
      try clear_value y0
      extract_lets -merge -underBinder +onlyGivenNames y1
      refine h.named (x := y1) ?_ fun _ => ?_
      · subst y1
        refine Eff.after (State.axisAnswer_eff _ _ _ _) ?_ (partsIn_trans (by decide) hs)
        assumption
      clear_value y1
      refine Eff.ite ?_ ?_
      · refine h_effect _ ?_
        assumption
      · assumption

theorem State.axisEncoder_eff (s : State) (a : AxisId) (delta : Int) (before : Int) : Eff [.axes] s (State.axisEncoder s a delta before) := by
  delta State.axisEncoder
  refine Eff.start fun h0 => ?_
  refine Eff.ite ?_ ?_
  · extract_lets -merge -underBinder +onlyGivenNames y0
    try clear_value y0
    refine Eff.after (State.updA_eff _ _ _) ?_
    assumption
  · assumption

theorem State.axisFault_eff (s : State) (a : AxisId) (b : AxisFaultBit) :
    Eff [.objs, .pickups, .channels, .sides, .spindles, .axes, .host, .recorder] s (State.axisFault s a b) := by
  delta State.axisFault
  refine Eff.start fun h0 => ?_
  extract_lets -merge -underBinder +onlyGivenNames y0
  refine h0.named (x := y0) ?_ fun _ => ?_
  · subst y0
    refine Eff.after (State.faultAxis_eff _ _ _) ?_
    assumption
  clear_value y0
  refine Eff.dite (fun _ => ?_) fun _ => ?_
  · refine Eff.after (State.park_eff _ _ _) ?_
    assumption
  · assumption

theorem State.axisLimits_eff (s : State) (a : AxisId) :
    Eff [.objs, .pickups, .channels, .sides, .spindles, .axes, .host, .recorder] s (State.axisLimits s a) := by
  delta State.axisLimits
  refine Eff.start fun h0 => ?_
  extract_lets -merge -underBinder +onlyGivenNames y0
  try clear_value y0
  refine Eff.ite ?_ ?_
  · extract_lets -merge -underBinder +onlyGivenNames y1
    try clear_value y1
    refine Eff.ite ?_ ?_
    · refine Eff.after (State.axisFault_eff _ _ _) ?_
      assumption
    · refine Eff.after (State.axisFault_eff _ _ _) ?_
      assumption
  · assumption

theorem State.axisLoadAngle_eff (s : State) (a : AxisId) (ea : Int) (eb : Int) : Eff [.objs, .axes, .recorder] s (State.axisLoadAngle s a ea eb) := by
  delta State.axisLoadAngle
  refine Eff.start fun h0 => ?_
  extract_lets -merge -underBinder +onlyGivenNames y0
  try clear_value y0
  refine Eff.ite ?_ ?_
  · extract_lets -merge -underBinder +onlyGivenNames y1 y2 y3 y4 y5 y6 y7 y8 y9 y10
    try clear_value y1 y2 y3 y4 y5 y6 y7 y8 y9 y10
    extract_lets -merge -underBinder +onlyGivenNames y11
    refine h0.named (x := y11) ?_ fun _ => ?_
    · subst y11
      refine Eff.after (State.updA_eff _ _ _) ?_
      assumption
    clear_value y11
    refine Eff.ite ?_ ?_
    · refine Eff.after (State.report_eff _ _ _ _) ?_
      assumption
    · assumption
  · assumption

theorem State.axisMotion_eff (s : State) (a : AxisId) : Eff [.objs, .axes] s (State.axisMotion s a) := by
  delta State.axisMotion
  refine Eff.start fun h0 => ?_
  extract_lets -merge -underBinder +onlyGivenNames y0 y1 y2 y3
  try clear_value y0 y1 y2 y3
  split
  · extract_lets -merge -underBinder +onlyGivenNames y4 y5
    try clear_value y4 y5
    split
    · extract_lets -merge -underBinder +onlyGivenNames y6
      refine h0.named (x := y6) ?_ fun _ => ?_
      · subst y6
        refine Eff.after (State.updA_eff _ _ _) ?_
        assumption
      clear_value y6
      extract_lets -merge -underBinder +onlyGivenNames y7
      refine h0.named (x := y7) ?_ fun _ => ?_
      · subst y7
        refine Eff.ite ?_ ?_
        · refine Eff.after (State.bump_eff _ _ _ _ _) ?_
          assumption
        · assumption
      clear_value y7
      split
      · refine Eff.ite ?_ ?_
        · refine Eff.after (State.startMove_eff _ _ _) ?_
          assumption
        · assumption
      · assumption
  · extract_lets -merge -underBinder +onlyGivenNames y8
    try clear_value y8
    extract_lets -merge -underBinder +onlyGivenNames y9
    refine h0.named (x := y9) ?_ fun _ => ?_
    · subst y9
      refine Eff.after (State.updA_eff _ _ _) ?_
      assumption
    clear_value y9
    split
    · refine Eff.ite ?_ ?_
      · refine Eff.after (State.startMove_eff _ _ _) ?_
        assumption
      · assumption
    · assumption
  · refine Eff.after (State.updA_eff _ _ _) ?_
    assumption
  · split
    · refine Eff.ite ?_ ?_
      · refine Eff.after (State.startMove_eff _ _ _) ?_
        assumption
      · refine Eff.after (State.updA_eff _ _ _) ?_
        assumption
    · refine Eff.ite ?_ ?_
      · assumption
      · refine Eff.after (State.updA_eff _ _ _) ?_
        assumption
  · assumption

theorem execAxisDisable_eff (cl : Client) (a : AxisId) (v : Int) (s : State) :
    OutEff [.freeCount, .objs, .axes, .signpost, .recorder] s (execAxisDisable cl a v s) := by
  delta execAxisDisable
  refine OutEff.start fun h0 => ?_
  refine State.when_effs ?_ (fun _ _ => ?_)
  · assumption
  · refine State.axisCommand_effs ?_ (fun _ _ => ?_)
    · assumption
    · refine Eff.after (State.disableAxis_eff _ _ _) ?_
      assumption

theorem execAxisEnable_eff (cl : Client) (a : AxisId) (v : Int) (s : State) :
    OutEff [.freeCount, .objs, .axes, .signpost, .recorder] s (execAxisEnable cl a v s) := by
  delta execAxisEnable
  refine OutEff.start fun h0 => ?_
  refine State.when_effs ?_ (fun _ _ => ?_)
  · assumption
  · refine State.axisCommand_effs ?_ (fun _ _ => ?_)
    · assumption
    · refine Eff.ite ?_ ?_
      · refine Eff.after (State.updA_eff _ _ _) ?_
        assumption
      · assumption

theorem execAxisHalt_eff (cl : Client) (a : AxisId) (v : Int) (s : State) :
    OutEff [.freeCount, .objs, .axes, .signpost, .recorder] s (execAxisHalt cl a v s) := by
  delta execAxisHalt
  refine OutEff.start fun h0 => ?_
  refine State.when_effs ?_ (fun _ _ => ?_)
  · assumption
  · refine State.axisCommand_effs ?_ (fun _ _ => ?_)
    · assumption
    · refine Eff.after (State.updA_eff _ _ _) ?_
      refine Eff.after (State.haltAxis_eff _ _) ?_
      assumption

theorem execAxisHome_eff (cl : Client) (a : AxisId) (v : Int) (s : State) :
    OutEff [.freeCount, .objs, .axes, .signpost, .recorder] s (execAxisHome cl a v s) := by
  delta execAxisHome
  refine OutEff.start fun h0 => ?_
  refine State.when_effs ?_ (fun _ _ => ?_)
  · assumption
  · refine State.axisCommand_effs ?_ (fun _ _ => ?_)
    · assumption
    · refine Eff.after (State.updA_eff _ _ _) ?_
      refine Eff.after (State.setOb_eff _ _ _ _ _) ?_
      assumption

theorem State.moveTo_eff (s : State) (a : AxisId) (t : Int) : Eff [.axes] s (State.moveTo s a t) := by
  delta State.moveTo
  refine Eff.start fun h0 => ?_
  extract_lets -merge -underBinder +onlyGivenNames y0 y1 y2 y3
  try clear_value y0 y1 y2 y3
  split
  · refine Eff.ite ?_ ?_
    · refine Eff.after (State.updA_eff _ _ _) ?_
      assumption
    · refine Eff.after (State.updA_eff _ _ _) ?_
      refine Eff.after (State.haltAxis_eff _ _) ?_
      assumption
  · refine Eff.after (State.updA_eff _ _ _) ?_
    assumption
  · refine Eff.after (State.startMove_eff _ _ _) ?_
    assumption

theorem execAxisMove_eff (cl : Client) (a : AxisId) (v : Int) (s : State) :
    OutEff [.freeCount, .objs, .axes, .signpost, .recorder] s (execAxisMove cl a v s) := by
  delta execAxisMove
  refine OutEff.start fun h0 => ?_
  refine State.when_effs ?_ (fun _ _ => ?_)
  · assumption
  · refine State.axisCommand_effs ?_ (fun _ _ => ?_)
    · assumption
    · refine Eff.after (State.moveTo_eff _ _ _) ?_
      assumption

theorem execAxisStop_eff (cl : Client) (a : AxisId) (v : Int) (s : State) :
    OutEff [.freeCount, .objs, .axes, .signpost, .recorder] s (execAxisStop cl a v s) := by
  delta execAxisStop
  refine OutEff.start fun h0 => ?_
  refine State.when_effs ?_ (fun _ _ => ?_)
  · assumption
  · refine State.axisCommand_effs ?_ (fun _ _ => ?_)
    · assumption
    · refine Eff.after (State.stopAxis_eff _ _ _ _) ?_
      assumption

theorem execClearFault_eff (cl : Client) (a : AxisId) (v : Int) (s : State) :
    OutEff [.freeCount, .objs, .axes, .signpost, .recorder] s (execClearFault cl a v s) := by
  delta execClearFault
  refine OutEff.start fun h0 => ?_
  refine State.when_effs ?_ (fun _ _ => ?_)
  · assumption
  · refine State.axisCommand_effs ?_ (fun _ _ => ?_)
    · assumption
    · refine Eff.after (State.updA_eff _ _ _) ?_
      assumption

theorem State.coilPeriod_eff (s : State) (a : AxisId) (code : Int × Int) (position vm : Int) :
    Eff [.axes] s (s.coilPeriod a code position vm).1 := State.updA_eff _ _ _

theorem State.coilPeriods_eff {s : State} {a : AxisId} {coils : List (Int × Int)} {vm before : Int} {t : State} {x : Int × Int}
    (heq : s.coilPeriods a coils vm before = (t, x)) : Eff [.axes] s t := by
  suffices h : Eff [.axes] s (s.coilPeriods a coils vm before).1 by rw [heq] at h; exact h
  have hl : ∀ (l : List ((Int × Int) × Nat)) (acc : State × Int × Int) (f : State × Int × Int → (Int × Int) × Nat → State × Int × Int),
      (∀ acc c, Eff [.axes] acc.1 (f acc c).1) → Eff [.axes] s acc.1 → Eff [.axes] s (l.foldl f acc).1 := by
    intro l
    induction l with
    | nil => exact fun _ _ _ h => h
    | cons c l ih => exact fun acc f hf h => ih _ f hf ((hf acc c).after h)
  exact hl _ (s, 0, 0) _ (fun acc c => State.coilPeriod_eff _ _ _ _ _) (.refl _ _)

theorem execAxisDriverFault_eff (a : AxisId) (s : State) :
    OutEff [.objs, .pickups, .channels, .sides, .spindles, .axes, .host, .recorder] s (execAxisDriverFault a s) := by
  delta execAxisDriverFault
  refine OutEff.start fun h0 => ?_
  refine State.when_effs ?_ (fun _ _ => ?_)
  · assumption
  · refine Eff.after (State.updA_eff _ _ _) ?_
    refine Eff.after (State.axisFault_eff _ _ _) ?_
    assumption

theorem execAxisOvercurrent_eff (a : AxisId) (code : Int) (s : State) :
    OutEff [.objs, .pickups, .channels, .sides, .spindles, .axes, .host, .recorder] s (execAxisOvercurrent a code s) := by
  delta execAxisOvercurrent
  refine OutEff.start fun h0 => ?_
  refine State.when_effs ?_ (fun _ _ => ?_)
  · assumption
  · refine Eff.after (State.updA_eff _ _ _) ?_
    refine Eff.after (State.axisFault_eff _ _ _) ?_
    assumption

theorem execEncoderError_eff (a : AxisId) (s : State) :
    OutEff [.objs, .pickups, .channels, .sides, .spindles, .axes, .host, .recorder] s (execEncoderError a s) := by
  delta execEncoderError
  refine OutEff.start fun h0 => ?_
  refine State.when_effs ?_ (fun _ _ => ?_)
  · assumption
  · refine Eff.after (State.axisFault_eff _ _ _) ?_
    refine Eff.after (State.bump_eff _ _ _ _ _) ?_
    assumption

theorem execHoldDelayExpiry_eff (a : AxisId) (s : State) : OutEff [.axes] s (execHoldDelayExpiry a s) := by
  delta execHoldDelayExpiry
  refine OutEff.start fun h0 => ?_
  refine State.when_effs ?_ (fun _ _ => ?_)
  · assumption
  · refine Eff.after (State.updA_eff _ _ _) ?_
    assumption

theorem execHomeInput_eff (a : AxisId) (high : Bool) (s : State) :
    OutEff [.objs, .pickups, .channels, .sides, .spindles, .axes, .host, .recorder] s (execHomeInput a high s) := by
  delta execHomeInput
  refine OutEff.start fun h0 => ?_
  extract_lets -merge -underBinder +onlyGivenNames y0
  try clear_value y0
  refine State.when_effs ?_ (fun _ _ => ?_)
  · assumption
  · refine Eff.ite ?_ ?_
    · refine Eff.ite ?_ ?_
      · extract_lets -merge -underBinder +onlyGivenNames y1
        try clear_value y1
        refine Eff.after (State.haltAxis_eff _ _) ?_
        refine Eff.after (State.updA_eff _ _ _) ?_
        assumption
      · assumption
    · refine Eff.ite ?_ ?_
      · extract_lets -merge -underBinder +onlyGivenNames y2
        refine h0.named (x := y2) ?_ fun _ => ?_
        · subst y2
          refine Eff.after (State.bump_eff _ _ _ _ _) ?_
          assumption
        clear_value y2
        refine Eff.ite ?_ ?_
        · refine Eff.after (State.axisFault_eff _ _ _) ?_
          assumption
        · assumption
      · assumption

theorem execHomingEnd_eff (a : AxisId) (s : State) : OutEff [.objs, .axes, .recorder] s (execHomingEnd a s) := by
  delta execHomingEnd
  refine OutEff.start fun h0 => ?_
  extract_lets -merge -underBinder +onlyGivenNames y0
  try clear_value y0
  refine State.when_effs ?_ (fun _ _ => ?_)
  · assumption
  · refine Eff.after (State.report_eff _ _ _ _) ?_
    refine Eff.after (State.updA_eff _ _ _) ?_
    assumption

theorem execLimitInput_eff (a : AxisId) (positive : Bool) (high : Bool) (s : State) :
    OutEff [.objs, .pickups, .channels, .sides, .spindles, .axes, .host, .recorder] s (execLimitInput a positive high s) := by
  delta execLimitInput
  refine OutEff.start fun h0 => ?_
  refine State.when_effs ?_ (fun _ _ => ?_)
  · assumption
  · extract_lets -merge -underBinder +onlyGivenNames y0
    try clear_value y0
    refine Eff.after (State.axisLimits_eff _ _) ?_
    refine Eff.after (State.updA_eff _ _ _) ?_
    assumption

theorem execProfilePeriod_eff (a : AxisId) (encoderDelta : Int) (coils : List (Int × Int)) (vm : Nat) (fltHigh : Bool) (s : State) :
    OutEff [.objs, .pickups, .channels, .sides, .spindles, .axes, .host, .recorder] s (execProfilePeriod a encoderDelta coils vm fltHigh s) := by
  delta execProfilePeriod
  refine OutEff.start fun h0 => ?_
  refine State.when_effs ?_ (fun _ _ => ?_)
  · assumption
  · extract_lets -merge -underBinder +onlyGivenNames y0
    refine h0.named (x := y0) ?_ fun _ => ?_
    · subst y0
      refine Eff.after (State.axisLimits_eff _ _) ?_
      refine Eff.after (State.updA_eff _ _ _) ?_
      assumption
    clear_value y0
    extract_lets -merge -underBinder +onlyGivenNames y1
    try clear_value y1
    extract_lets -merge -underBinder +onlyGivenNames y2
    refine h0.named (x := y2) ?_ fun _ => ?_
    · subst y2
      refine Eff.after (State.axisMotion_eff _ _) ?_
      assumption
    clear_value y2
    split
    · rename_i heq
      have := Eff.after (b := [.objs, .pickups, .channels, .sides, .spindles, .axes, .host, .recorder]) (s0 := s) (State.coilPeriods_eff heq) (by
        assumption
        )
      extract_lets -merge -underBinder +onlyGivenNames y3
      refine h0.named (x := y3) ?_ fun _ => ?_
      · subst y3
        refine Eff.ite ?_ ?_
        · assumption
        · refine Eff.after (State.updA_eff _ _ _) ?_
          assumption
      clear_value y3
      refine Eff.after (State.axisLoadAngle_eff _ _ _ _) ?_
      refine Eff.after (State.axisEncoder_eff _ _ _ _) ?_
      assumption

theorem execStall_eff (a : AxisId) (s : State) :
    OutEff [.objs, .pickups, .channels, .sides, .spindles, .axes, .host, .recorder] s (execStall a s) := by
  delta execStall
  refine OutEff.start fun h0 => ?_
  refine State.when_effs ?_ (fun _ _ => ?_)
  · assumption
  · extract_lets -merge -underBinder +onlyGivenNames y0 y1
    try clear_value y0 y1
    extract_lets -merge -underBinder +onlyGivenNames y2
    refine h0.named (x := y2) ?_ fun _ => ?_
    · subst y2
      refine Eff.after (State.report_eff _ _ _ _) ?_
      refine Eff.after (State.bump_eff _ _ _ _ _) ?_
      assumption
    clear_value y2
    extract_lets -merge -underBinder +onlyGivenNames y3
    try clear_value y3
    extract_lets -merge -underBinder +onlyGivenNames y4
    refine h0.named (x := y4) ?_ fun _ => ?_
    · subst y4
      refine Eff.after (State.updA_eff _ _ _) ?_
      assumption
    clear_value y4
    refine Eff.ite ?_ ?_
    · refine Eff.after (State.axisFault_eff _ _ _) ?_
      assumption
    · refine Eff.after (State.stopAxis_eff _ _ _ _) ?_
      assumption

theorem execStallRetry_eff (a : AxisId) (s : State) : OutEff [.axes] s (execStallRetry a s) := by
  delta execStallRetry
  refine OutEff.start fun h0 => ?_
  extract_lets -merge -underBinder +onlyGivenNames y0
  try clear_value y0
  refine State.when_effs ?_ (fun _ _ => ?_)
  · assumption
  · refine Eff.after (State.updA_eff _ _ _) ?_
    assumption

end Sys2Proof.Machine
end

