-- ==== Sys2Proof/Laws/CalOps.lean ====
section
/-! SUPPORT. What each operation of Sys2Proof/Machine/CalOps.lean may change: `x_eff` names the parts of the state that x may change and says that
x keeps every form of Sys2Proof/Safety.lean; `x_effs` says so of an operation with operations as arguments, under the same of each argument. -/

set_option Elab.async false

namespace Sys2Proof.Machine

theorem State.updItem_eff (s : State) (ix : Fin 92) (f : CalItem → CalItem) : Eff [.cal] s (State.updItem s ix f) := by
  delta State.updItem
  refine Eff.start fun h0 => ?_
  refine Eff.put ?_
  assumption

theorem State.makeDue_eff (s : State) (ix : Fin 92) : Eff [.cal] s (State.makeDue s ix) := by
  delta State.makeDue
  refine Eff.start fun h0 => ?_
  refine Eff.after (State.updItem_eff _ _ _) ?_
  assumption

theorem State.voidItem_eff (s : State) (ix : Fin 92) : Eff [.cal] s (State.voidItem s ix) := by
  delta State.voidItem
  refine Eff.start fun h0 => ?_
  refine Eff.after (State.updItem_eff _ _ _) ?_
  assumption

theorem State.voidItems_eff (s : State) : Eff [.cal] s (State.voidItems s) := by
  delta State.voidItems
  refine Eff.start fun h0 => ?_
  refine Eff.forEach ?_ fun _ _ _ => ?_
  · assumption
  · refine Eff.after (State.voidItem_eff _ _) ?_
    assumption

theorem State.estimate_eff (s : State) : Eff [.objs, .recorder] s (State.estimate s) := by
  delta State.estimate
  refine Eff.start fun h0 => ?_
  extract_lets -merge -underBinder +onlyGivenNames y0
  try clear_value y0
  split
  · refine Eff.after (State.setOb_eff _ _ _ _ _) ?_
    refine Eff.after (State.setOb_eff _ _ _ _ _) ?_
    refine Eff.after (State.setOb_eff _ _ _ _ _) ?_
    assumption
  · split
    · extract_lets -merge -underBinder +onlyGivenNames y1
      try clear_value y1
      extract_lets -merge -underBinder +onlyGivenNames y2
      refine h0.named (x := y2) ?_ fun _ => ?_
      · subst y2
        refine Eff.after (State.setOb_eff _ _ _ _ _) ?_
        assumption
      clear_value y2
      extract_lets -merge -underBinder +onlyGivenNames y3
      refine h0.named (x := y3) ?_ fun _ => ?_
      · subst y3
        refine Eff.after (State.setOb_eff _ _ _ _ _) ?_
        assumption
      clear_value y3
      extract_lets -merge -underBinder +onlyGivenNames y4
      refine h0.named (x := y4) ?_ fun _ => ?_
      · subst y4
        refine Eff.after (State.setOb_eff _ _ _ _ _) ?_
        assumption
      clear_value y4
      refine Eff.ite ?_ ?_
      · refine Eff.after (State.report_eff _ _ _ _) ?_
        assumption
      · assumption

theorem State.noteSlopes_eff (s : State) (p : PickupId) : Eff [.cal] s (State.noteSlopes s p) := by
  delta State.noteSlopes
  refine Eff.start fun h0 => ?_
  refine Eff.forEach ?_ fun _ _ _ => ?_
  · assumption
  · split
    · split
      · refine Eff.put ?_
        assumption
      · assumption
    · assumption

theorem State.noteOpc_eff (s : State) (p : PickupId) (n : Nat) : Eff [.sides, .cal] s (State.noteOpc s p n) := by
  delta State.noteOpc
  refine Eff.start fun h0 => ?_
  refine Eff.after (State.noteSlopes_eff _ _) ?_
  refine Eff.after (State.updS_eff _ _ _) ?_
  assumption

theorem State.placePlan_eff (s : State) (p : PickupId) (es : List Staged) : Eff [.objs, .staging, .cal, .recorder] s (State.placePlan s p es) := by
  delta State.placePlan
  refine Eff.start fun h0 => ?_
  extract_lets -merge -underBinder +onlyGivenNames y0
  try clear_value y0
  refine Eff.ite ?_ ?_
  · assumption
  · refine Eff.ite ?_ ?_
    · refine Eff.put ?_
      assumption
    · refine Eff.after (State.placeInternal_eff _ _ _) ?_
      assumption

theorem State.reportOpc_eff (s : State) (p : PickupId) (pair : Fin 2) (powers : List (Nat × Int)) :
    Eff [.objs, .recorder] s (State.reportOpc s p pair powers) := by
  delta State.reportOpc
  refine Eff.start fun h0 => ?_
  refine Eff.after (State.report_eff _ _ _ _) ?_
  assumption

theorem State.takeSegment_eff (s : State) (p : PickupId) (n : Nat) : Eff [.sides] s (State.takeSegment s p n) := by
  delta State.takeSegment
  refine Eff.start fun h0 => ?_
  refine Eff.after (State.updS_eff _ _ _) ?_
  assumption

theorem State.runLeaves_eff (s : State) (inst : Fin 8) (raw : CalRaw) : Eff [.objs, .sides, .cal, .recorder] s (State.runLeaves s inst raw) := by
  delta State.runLeaves
  refine Eff.start fun h0 => ?_
  split
  · extract_lets -merge -underBinder +onlyGivenNames y0 y1 y2
    try clear_value y0 y1 y2
    refine Eff.after (State.reportOpc_eff _ _ _ _) ?_
    refine Eff.after (State.reportOpc_eff _ _ _ _) ?_
    refine Eff.after (State.takeSegment_eff _ _ _) ?_
    refine Eff.after (State.takeSegment_eff _ _ _) ?_
    refine Eff.after (State.noteOpc_eff _ _ _) ?_
    refine Eff.after (State.noteOpc_eff _ _ _) ?_
    assumption
  · assumption

end Sys2Proof.Machine
end

