-- ==== Sys2Proof/Laws/Calibration.lean ====
section
/-! SUPPORT. What each operation of Sys2Proof/Machine/Calibration.lean may change: `x_eff` names the parts of the state that x may change and says that
x keeps every form of Sys2Proof/Safety.lean; `x_effs` says so of an operation with operations as arguments, under the same of each argument. -/

set_option Elab.async false

namespace Sys2Proof.Machine

theorem execCalRequest_eff (cl : Client) (v : Int) (s : State) :
    OutEff [.freeCount, .objs, .signpost, .cal, .recorder] s (execCalRequest cl v s) := by
  delta execCalRequest
  refine OutEff.start fun h0 => ?_
  extract_lets -merge -underBinder +onlyGivenNames y0 y1 y2
  try clear_value y0 y1 y2
  refine OutEff.next ?_
  refine State.hostWrite_effs ?_ (fun _ _ => ?_)
  · assumption
  · refine Eff.forEach ?_ fun _ _ _ => ?_
    · assumption
    · refine Eff.after (State.makeDue_eff _ _) ?_
      assumption

theorem execMarginPlanRequest_eff (cl : Client) (v : Int) (s : State) :
    OutEff [.freeCount, .objs, .signpost, .cal, .recorder] s (execMarginPlanRequest cl v s) := by
  delta execMarginPlanRequest
  refine OutEff.start fun h0 => ?_
  refine OutEff.next ?_
  refine State.hostWrite_effs ?_ (fun _ _ => ?_)
  · assumption
  · refine Eff.put ?_
    assumption

theorem State.dueByTemperature_eff (s : State) : Eff [.cal] s (State.dueByTemperature s) := by
  delta State.dueByTemperature
  refine Eff.start fun h0 => ?_
  refine Eff.forEach ?_ fun _ _ _ => ?_
  · assumption
  · extract_lets -merge -underBinder +onlyGivenNames y0
    try clear_value y0
    refine Eff.ite ?_ ?_
    · refine Eff.after (State.makeDue_eff _ _) ?_
      assumption
    · assumption

theorem State.itemAgrees_eff (s : State) (ix : Fin 92) (value : List Int) :
    Eff [.objs, .spindles, .staging, .cal, .recorder] s (State.itemAgrees s ix value) := by
  delta State.itemAgrees
  refine Eff.start fun h0 => ?_
  split
  · extract_lets -merge -underBinder +onlyGivenNames y0 y1 y2 y3 y4 y5
    try clear_value y0 y1 y2 y3 y4 y5
    extract_lets -merge -underBinder +onlyGivenNames y6
    refine h0.named (x := y6) ?_ fun _ => ?_
    · subst y6
      refine Eff.after (State.bump_eff _ _ _ _ _) ?_
      refine Eff.after (State.updItem_eff _ _ _) ?_
      assumption
    clear_value y6
    refine Eff.ite ?_ ?_
    · refine Eff.dite (fun _ => ?_) fun _ => ?_
      · refine Eff.after (State.updM_eff _ _ _) ?_
        assumption
      · assumption
    · extract_lets -merge -underBinder +onlyGivenNames y7 y8
      try clear_value y7 y8
      refine Eff.after (State.placeInternal_eff _ _ _) ?_
      refine Eff.put ?_
      assumption

theorem State.itemFails_eff (s : State) (ix : Fin 92) : Eff [.objs, .cal, .recorder] s (State.itemFails s ix) := by
  delta State.itemFails
  refine Eff.start fun h0 => ?_
  split
  · extract_lets -merge -underBinder +onlyGivenNames y0
    try clear_value y0
    refine Eff.ite ?_ ?_
    · refine Eff.after (State.report_eff _ _ _ _) ?_
      refine Eff.after (State.bump_eff _ _ _ _ _) ?_
      refine Eff.after (State.updItem_eff _ _ _) ?_
      assumption
    · refine Eff.after (State.updItem_eff _ _ _) ?_
      assumption

theorem State.planDueOpc_eff (s : State) (p : PickupId) : Eff [.cal] s (State.planDueOpc s p) := by
  delta State.planDueOpc
  refine Eff.start fun h0 => ?_
  split
  · refine Eff.ite ?_ ?_
    · refine Eff.after (State.makeDue_eff _ _) ?_
      assumption
    · assumption
  · assumption

theorem State.seekBack_eff (s : State) (ix : Fin 92) (inst : Fin 8) :
    Eff [.objs, .pickups, .channels, .sides, .spindles, .axes, .host, .cal, .recorder] s (State.seekBack s ix inst) := by
  delta State.seekBack
  refine Eff.start fun h0 => ?_
  split
  · assumption
  · extract_lets -merge -underBinder +onlyGivenNames y0
    refine h0.named (x := y0) ?_ fun _ => ?_
    · subst y0
      refine Eff.after (State.updItem_eff _ _ _) ?_
      assumption
    clear_value y0
    extract_lets -merge -underBinder +onlyGivenNames y1
    try clear_value y1
    refine Eff.ite ?_ ?_
    · refine Eff.after (State.startSeek_eff _ _ _) ?_
      assumption
    · assumption

theorem execCalDeferred_eff (item : Fin 12) (inst : Fin 8) (s : State) : OutEff [.objs, .cal, .recorder] s (execCalDeferred item inst s) := by
  delta execCalDeferred
  refine OutEff.start fun h0 => ?_
  split
  · refine OutEff.next ?_
    assumption
  · extract_lets -merge -underBinder +onlyGivenNames y0
    try clear_value y0
    refine State.when_effs ?_ (fun _ _ => ?_)
    · assumption
    · refine Eff.after (State.report_eff _ _ _ _) ?_
      refine Eff.after (State.updItem_eff _ _ _) ?_
      assumption

theorem execCalItemStart_eff (item : Fin 12) (inst : Fin 8) (s : State) :
    OutEff [.objs, .pickups, .channels, .sides, .spindles, .axes, .host, .cal, .recorder] s (execCalItemStart item inst s) := by
  delta execCalItemStart
  refine OutEff.start fun h0 => ?_
  split
  · refine OutEff.next ?_
    assumption
  · extract_lets -merge -underBinder +onlyGivenNames y0 y1 y2
    have h_begin_ : ∀ u b, Eff [.objs, .pickups, .channels, .sides, .spindles, .axes, .host, .cal, .recorder] s u → Eff [.objs, .pickups, .channels, .sides, .spindles, .axes, .host, .cal, .recorder] s (y2 u b) := fun _ _ hu => (State.updItem_eff _ _ _).after hu
    clear_value y0 y1 y2
    refine State.when_effs ?_ (fun _ _ => ?_)
    · assumption
    · refine Eff.ite ?_ ?_
      · refine Eff.dite (fun _ => ?_) fun _ => ?_
        · refine Eff.ite ?_ ?_
          · refine h_begin_ _ _ ?_
            assumption
          · assumption
        · assumption
      · refine Eff.ite ?_ ?_
        · assumption
        · refine Eff.ite ?_ ?_
          · split
            · assumption
            · extract_lets -merge -underBinder +onlyGivenNames y3
              try clear_value y3
              refine Eff.ite ?_ ?_
              · refine h_begin_ _ _ ?_
                assumption
              · refine Eff.after (State.startSeek_eff _ _ _) ?_
                refine h_begin_ _ _ ?_
                assumption
          · refine h_begin_ _ _ ?_
            assumption

theorem execCalRetry_eff (item : Fin 12) (inst : Fin 8) (s : State) : OutEff [.cal] s (execCalRetry item inst s) := by
  delta execCalRetry
  refine OutEff.start fun h0 => ?_
  split
  · refine OutEff.next ?_
    assumption
  · refine State.when_effs ?_ (fun _ _ => ?_)
    · assumption
    · refine Eff.after (State.updItem_eff _ _ _) ?_
      assumption

theorem execCalRunEnd_eff (item : Fin 12) (inst : Fin 8) (raw : CalRaw) (s : State) :
    OutEff [.objs, .pickups, .channels, .sides, .spindles, .axes, .host, .staging, .cal, .recorder] s (execCalRunEnd item inst raw s) := by
  delta execCalRunEnd
  refine OutEff.start fun h0 => ?_
  split
  · extract_lets -merge -underBinder +onlyGivenNames y0
    try clear_value y0
    refine State.when_effs ?_ (fun _ _ => ?_)
    · assumption
    · extract_lets -merge -underBinder +onlyGivenNames y1
      try clear_value y1
      extract_lets -merge -underBinder +onlyGivenNames y2
      refine h0.named (x := y2) ?_ fun _ => ?_
      · subst y2
        refine Eff.after (State.updItem_eff _ _ _) ?_
        assumption
      clear_value y2
      extract_lets -merge -underBinder +onlyGivenNames y3
      try clear_value y3
      refine Eff.ite ?_ ?_
      · refine Eff.ite ?_ ?_
        · refine Eff.after (State.seekBack_eff _ _ _) ?_
          refine Eff.after (State.itemFails_eff _ _) ?_
          assumption
        · refine Eff.after (State.updItem_eff _ _ _) ?_
          assumption
      · refine Eff.ite ?_ ?_
        · refine Eff.after (State.seekBack_eff _ _ _) ?_
          refine Eff.after (State.updItem_eff _ _ _) ?_
          assumption
        · extract_lets -merge -underBinder +onlyGivenNames y4
          refine h0.named (x := y4) ?_ fun _ => ?_
          · subst y4
            refine Eff.after (State.runLeaves_eff _ _ _) ?_
            assumption
          clear_value y4
          split
          · refine Eff.after (State.updItem_eff _ _ _) ?_
            assumption
          · refine Eff.ite ?_ ?_
            · refine Eff.after (State.seekBack_eff _ _ _) ?_
              refine Eff.after (State.itemAgrees_eff _ _ _) ?_
              assumption
            · refine Eff.after (State.report_eff _ _ _ _) ?_
              refine Eff.after (State.bump_eff _ _ _ _ _) ?_
              refine Eff.after (State.updItem_eff _ _ _) ?_
              assumption
          · refine Eff.ite ?_ ?_
            · refine Eff.after (State.seekBack_eff _ _ _) ?_
              refine Eff.after (State.itemAgrees_eff _ _ _) ?_
              assumption
            · refine Eff.ite ?_ ?_
              · refine Eff.after (State.seekBack_eff _ _ _) ?_
                refine Eff.after (State.itemAgrees_eff _ _ _) ?_
                assumption
              · refine Eff.after (State.seekBack_eff _ _ _) ?_
                refine Eff.after (State.itemFails_eff _ _) ?_
                assumption
  · refine OutEff.next ?_
    assumption

theorem execCalStep_eff (item : Fin 12) (inst : Fin 8) (s : State) : OutEff [.cal] s (execCalStep item inst s) := by
  delta execCalStep
  refine OutEff.start fun h0 => ?_
  split
  · refine OutEff.next ?_
    assumption
  · extract_lets -merge -underBinder +onlyGivenNames y0 y1 y2
    try clear_value y0 y1 y2
    refine State.when_effs ?_ (fun _ _ => ?_)
    · assumption
    · refine Eff.after (State.updItem_eff _ _ _) ?_
      assumption

theorem execDieTemperatureSample_eff (centi : Int) (s : State) : OutEff [.objs, .cal] s (execDieTemperatureSample centi s) := by
  delta execDieTemperatureSample
  refine OutEff.start fun h0 => ?_
  refine State.when_effs ?_ (fun _ _ => ?_)
  · assumption
  · extract_lets -merge -underBinder +onlyGivenNames y0 y1 y2
    try clear_value y0 y1 y2
    extract_lets -merge -underBinder +onlyGivenNames y3 y4
    refine h0.named (x := y4) ?_ fun _ => ?_
    · subst y4
      subst y3
      refine Eff.put ?_
      assumption
    clear_value y3 y4
    extract_lets -merge -underBinder +onlyGivenNames y5
    refine h0.named (x := y5) ?_ fun _ => ?_
    · subst y5
      refine Eff.after (State.setOb_eff _ _ _ _ _) ?_
      assumption
    clear_value y5
    refine Eff.after (State.dueByTemperature_eff _) ?_
    refine Eff.after (State.setOb_eff _ _ _ _ _) ?_
    assumption

theorem execLedgerPoint_eff (code : Nat) (instance_ : Nat) (currents : Nat × Nat) (s : State) :
    OutEff [.objs, .cal, .recorder] s (execLedgerPoint code instance_ currents s) := by
  delta execLedgerPoint
  refine OutEff.start fun h0 => ?_
  refine State.when_effs ?_ (fun _ _ => ?_)
  · assumption
  · extract_lets -merge -underBinder +onlyGivenNames y0 y1 y2
    try clear_value y0 y1 y2
    split
    · assumption
    · extract_lets -merge -underBinder +onlyGivenNames y3
      have h_record : ∀ u b, Eff [.objs, .cal, .recorder] s u → Eff [.objs, .cal, .recorder] s (y3 u b) := fun _ _ hu => (State.report_eff _ _ _ _).after (Eff.put hu)
      clear_value y3
      split
      · refine Eff.ite ?_ ?_
        · assumption
        · extract_lets -merge -underBinder +onlyGivenNames y4
          try clear_value y4
          refine h_record _ _ ?_
          refine Eff.put ?_
          assumption
      · refine Eff.ite ?_ ?_
        · assumption
        · extract_lets -merge -underBinder +onlyGivenNames y5
          try clear_value y5
          refine h_record _ _ ?_
          refine Eff.put ?_
          assumption

theorem execMarginPlan_eff (s : State) : OutEff [.objs, .staging, .cal, .recorder] s (execMarginPlan s) := by
  delta execMarginPlan
  refine OutEff.start fun h0 => ?_
  refine State.when_effs ?_ (fun _ _ => ?_)
  · assumption
  · extract_lets -merge -underBinder +onlyGivenNames y0 y1
    refine h0.named (x := y1) ?_ fun _ => ?_
    · subst y1
      subst y0
      refine Eff.after (State.estimate_eff _) ?_
      refine Eff.put ?_
      assumption
    clear_value y0 y1
    extract_lets -merge -underBinder +onlyGivenNames y2 y3 y4 y5
    try clear_value y2 y3 y4 y5
    refine Eff.ite ?_ ?_
    · assumption
    · refine Eff.ite ?_ ?_
      · extract_lets -merge -underBinder +onlyGivenNames y6
        try clear_value y6
        refine Eff.after (State.report_eff _ _ _ _) ?_
        refine Eff.put ?_
        assumption
      · extract_lets -merge -underBinder +onlyGivenNames y7
        refine h0.named (x := y7) ?_ fun _ => ?_
        · subst y7
          refine Eff.forEach ?_ fun _ _ _ => ?_
          · assumption
          · refine Eff.after (State.planDueOpc_eff _ _) ?_
            assumption
        clear_value y7
        refine Eff.after (State.placeInternal_eff _ _ _) ?_
        refine Eff.forEach ?_ fun _ _ _ => ?_
        · assumption
        · refine Eff.after (State.placePlan_eff _ _ _) ?_
          assumption

theorem execOperatingHour_eff (s : State) : OutEff [.objs, .cal] s (execOperatingHour s) := by
  delta execOperatingHour
  refine OutEff.start fun h0 => ?_
  refine State.when_effs ?_ (fun _ _ => ?_)
  · assumption
  · extract_lets -merge -underBinder +onlyGivenNames y0
    refine h0.named (x := y0) ?_ fun _ => ?_
    · subst y0
      refine Eff.after (State.setOb_eff _ _ _ _ _) ?_
      assumption
    clear_value y0
    extract_lets -merge -underBinder +onlyGivenNames y1
    try clear_value y1
    refine Eff.forEach ?_ fun _ _ _ => ?_
    · assumption
    · extract_lets -merge -underBinder +onlyGivenNames y2
      try clear_value y2
      refine Eff.ite ?_ ?_
      · refine Eff.after (State.makeDue_eff _ _) ?_
        assumption
      · assumption

theorem execPlanSetRelease_eff (p : PickupId) (s : State) : OutEff [.objs, .staging, .cal, .recorder] s (execPlanSetRelease p s) := by
  delta execPlanSetRelease
  refine OutEff.start fun h0 => ?_
  extract_lets -merge -underBinder +onlyGivenNames y0
  try clear_value y0
  refine State.when_effs ?_ (fun _ _ => ?_)
  · assumption
  · split
    · assumption
    · refine Eff.after (State.placeInternal_eff _ _ _) ?_
      refine Eff.put ?_
      assumption

end Sys2Proof.Machine
end

