-- ==== Sys2Proof/Laws/Memory.lean ====
section
/-! SUPPORT. What each operation of Sys2Proof/Machine/Memory.lean may change: `x_eff` names the parts of the state that x may change and says that
x keeps every form of Sys2Proof/Safety.lean; `x_effs` says so of an operation with operations as arguments, under the same of each argument. -/

set_option Elab.async false

namespace Sys2Proof.Machine

theorem State.maintenance_eff (s : State) (cl : Client) (op : Int) (v : Int) (fillInFlight : Bool) :
    Eff [.freeCount, .objs, .signpost, .mem, .recorder] s (State.maintenance s cl op v fillInFlight) := by
  delta State.maintenance
  refine Eff.start fun h0 => ?_
  refine Eff.ite ?_ ?_
  · assumption
  · refine State.hostWrite_effs ?_ (fun _ _ => ?_)
    · assumption
    · extract_lets -merge -underBinder +onlyGivenNames y0
      try clear_value y0
      refine Eff.ite ?_ ?_
      · refine Eff.after (State.bump_eff _ _ _ _ _) ?_
        assumption
      · refine Eff.ite ?_ ?_
        · refine Eff.after (State.updMem_eff _ _) ?_
          assumption
        · refine Eff.after (State.maintain_eff _ _ _) ?_
          assumption

theorem execCleanAndInvalidateByAddress_eff (cl : Client) (v : Int) (fillInFlight : Bool) (s : State) :
    OutEff [.freeCount, .objs, .signpost, .mem, .recorder] s (execCleanAndInvalidateByAddress cl v fillInFlight s) := by
  delta execCleanAndInvalidateByAddress
  refine OutEff.start fun h0 => ?_
  refine OutEff.next ?_
  refine Eff.after (State.maintenance_eff _ _ _ _ _) ?_
  assumption

theorem execCleanAndInvalidateBySetAndWay_eff (cl : Client) (v : Int) (fillInFlight : Bool) (s : State) :
    OutEff [.freeCount, .objs, .signpost, .mem, .recorder] s (execCleanAndInvalidateBySetAndWay cl v fillInFlight s) := by
  delta execCleanAndInvalidateBySetAndWay
  refine OutEff.start fun h0 => ?_
  refine OutEff.next ?_
  refine Eff.after (State.maintenance_eff _ _ _ _ _) ?_
  assumption

theorem execCleanByAddress_eff (cl : Client) (v : Int) (fillInFlight : Bool) (s : State) :
    OutEff [.freeCount, .objs, .signpost, .mem, .recorder] s (execCleanByAddress cl v fillInFlight s) := by
  delta execCleanByAddress
  refine OutEff.start fun h0 => ?_
  refine OutEff.next ?_
  refine Eff.after (State.maintenance_eff _ _ _ _ _) ?_
  assumption

theorem execCleanBySetAndWay_eff (cl : Client) (v : Int) (fillInFlight : Bool) (s : State) :
    OutEff [.freeCount, .objs, .signpost, .mem, .recorder] s (execCleanBySetAndWay cl v fillInFlight s) := by
  delta execCleanBySetAndWay
  refine OutEff.start fun h0 => ?_
  refine OutEff.next ?_
  refine Eff.after (State.maintenance_eff _ _ _ _ _) ?_
  assumption

theorem execInvalidateByAddress_eff (cl : Client) (v : Int) (fillInFlight : Bool) (s : State) :
    OutEff [.freeCount, .objs, .signpost, .mem, .recorder] s (execInvalidateByAddress cl v fillInFlight s) := by
  delta execInvalidateByAddress
  refine OutEff.start fun h0 => ?_
  refine OutEff.next ?_
  refine Eff.after (State.maintenance_eff _ _ _ _ _) ?_
  assumption

theorem execInvalidateBySetAndWay_eff (cl : Client) (v : Int) (fillInFlight : Bool) (s : State) :
    OutEff [.freeCount, .objs, .signpost, .mem, .recorder] s (execInvalidateBySetAndWay cl v fillInFlight s) := by
  delta execInvalidateBySetAndWay
  refine OutEff.start fun h0 => ?_
  refine OutEff.next ?_
  refine Eff.after (State.maintenance_eff _ _ _ _ _) ?_
  assumption

theorem execZeroALine_eff (cl : Client) (v : Int) (fillInFlight : Bool) (s : State) :
    OutEff [.freeCount, .objs, .signpost, .mem, .recorder] s (execZeroALine cl v fillInFlight s) := by
  delta execZeroALine
  refine OutEff.start fun h0 => ?_
  refine OutEff.next ?_
  refine Eff.after (State.maintenance_eff _ _ _ _ _) ?_
  assumption

theorem execCacheDisable_eff (cl : Client) (v : Int) (s : State) :
    OutEff [.freeCount, .objs, .signpost, .mem, .recorder] s (execCacheDisable cl v s) := by
  delta execCacheDisable
  refine OutEff.start fun h0 => ?_
  refine OutEff.next ?_
  refine Eff.ite ?_ ?_
  · assumption
  · refine State.hostWrite_effs ?_ (fun _ _ => ?_)
    · assumption
    · extract_lets -merge -underBinder +onlyGivenNames y0
      refine h0.named (x := y0) ?_ fun _ => ?_
      · subst y0
        refine Eff.after (State.setOb_eff _ _ _ _ _) ?_
        assumption
      clear_value y0
      refine Eff.ite ?_ ?_
      · refine Eff.after (State.endDisable_eff _) ?_
        refine Eff.after (State.updMem_eff _ _) ?_
        assumption
      · assumption

theorem execCacheEnable_eff (cl : Client) (v : Int) (s : State) :
    OutEff [.freeCount, .objs, .signpost, .mem, .recorder] s (execCacheEnable cl v s) := by
  delta execCacheEnable
  refine OutEff.start fun h0 => ?_
  refine OutEff.next ?_
  refine Eff.ite ?_ ?_
  · assumption
  · refine State.hostWrite_effs ?_ (fun _ _ => ?_)
    · assumption
    · extract_lets -merge -underBinder +onlyGivenNames y0
      refine h0.named (x := y0) ?_ fun _ => ?_
      · subst y0
        refine Eff.after (State.setOb_eff _ _ _ _ _) ?_
        assumption
      clear_value y0
      refine Eff.ite ?_ ?_
      · assumption
      · refine Eff.after (State.updMem_eff _ _) ?_
        assumption

theorem execEncodedWrite_eff (cl : Client) (v : Int) (s : State) :
    OutEff [.freeCount, .objs, .signpost, .mem, .recorder] s (execEncodedWrite cl v s) := by
  delta execEncodedWrite
  refine OutEff.start fun h0 => ?_
  refine OutEff.next ?_
  refine Eff.ite ?_ ?_
  · assumption
  · refine State.hostWrite_effs ?_ (fun _ _ => ?_)
    · assumption
    · refine Eff.after (State.updMem_eff _ _) ?_
      assumption

theorem execRawWrite_eff (cl : Client) (v : Int) (s : State) : OutEff [.freeCount, .objs, .signpost, .mem, .recorder] s (execRawWrite cl v s) := by
  delta execRawWrite
  refine OutEff.start fun h0 => ?_
  refine OutEff.next ?_
  refine Eff.ite ?_ ?_
  · assumption
  · refine State.hostWrite_effs ?_ (fun _ _ => ?_)
    · assumption
    · refine Eff.after (State.updMem_eff _ _) ?_
      assumption

theorem execScrubStart_eff (cl : Client) (v : Int) (s : State) :
    OutEff [.freeCount, .objs, .signpost, .mem, .recorder] s (execScrubStart cl v s) := by
  delta execScrubStart
  refine OutEff.start fun h0 => ?_
  refine OutEff.next ?_
  refine Eff.ite ?_ ?_
  · assumption
  · refine State.hostWrite_effs ?_ (fun _ _ => ?_)
    · assumption
    · refine Eff.after (State.updMem_eff _ _) ?_
      assumption

theorem execScrubStop_eff (cl : Client) (v : Int) (s : State) : OutEff [.freeCount, .objs, .signpost, .mem, .recorder] s (execScrubStop cl v s) := by
  delta execScrubStop
  refine OutEff.start fun h0 => ?_
  refine OutEff.next ?_
  refine Eff.ite ?_ ?_
  · assumption
  · refine State.hostWrite_effs ?_ (fun _ _ => ?_)
    · assumption
    · refine Eff.after (State.updMem_eff _ _) ?_
      assumption

theorem execSplitRead_eff (cl : Client) (v : Int) (s : State) : OutEff [.freeCount, .objs, .signpost, .recorder] s (execSplitRead cl v s) := by
  delta execSplitRead
  refine OutEff.start fun h0 => ?_
  refine OutEff.next ?_
  refine Eff.ite ?_ ?_
  · assumption
  · refine State.hostWrite_effs ?_ (fun _ _ => ?_)
    · assumption
    · extract_lets -merge -underBinder +onlyGivenNames y0 y1
      try clear_value y0 y1
      refine Eff.after (State.setOb_eff _ _ _ _ _) ?_
      refine Eff.after (State.setOb_eff _ _ _ _ _) ?_
      refine Eff.after (State.setOb_eff _ _ _ _ _) ?_
      refine Eff.after (State.setOb_eff _ _ _ _ _) ?_
      assumption

theorem State.endScrub_eff (s : State) (x : Scrub) (wordsRead : Nat) (status : Nat) :
    Eff [.objs, .mem, .recorder] s (State.endScrub s x wordsRead status) := by
  delta State.endScrub
  refine Eff.start fun h0 => ?_
  extract_lets -merge -underBinder +onlyGivenNames y0
  try clear_value y0
  refine Eff.after (State.report_eff _ _ _ _) ?_
  refine Eff.after (State.updMem_eff _ _) ?_
  assumption

theorem State.entryLost_eff (s : State) (byte : Nat) : Eff [.sides] s (State.entryLost s byte) := by
  delta State.entryLost
  refine Eff.start fun h0 => ?_
  extract_lets -merge -underBinder +onlyGivenNames y0
  try clear_value y0
  refine Eff.dite (fun _ => ?_) fun _ => ?_
  · extract_lets -merge -underBinder +onlyGivenNames y1 y2 y3
    try clear_value y1 y2 y3
    refine Eff.ite ?_ ?_
    · refine Eff.after (State.setEntry_eff _ _ _ _ _) ?_
      assumption
    · assumption
  · assumption

theorem State.frameWordLost_eff (s : State) (byte : Nat) : Eff [.channels] s (State.frameWordLost s byte) := by
  delta State.frameWordLost
  refine Eff.start fun h0 => ?_
  extract_lets -merge -underBinder +onlyGivenNames y0 y1 y2
  try clear_value y0 y1 y2
  refine Eff.dite (fun _ => ?_) fun _ => ?_
  · refine Eff.after (State.updC_eff _ _ _) ?_
    assumption
  · assumption

theorem State.itemLost_eff (s : State) (word : Nat) : Eff [.objs, .host, .ramps, .recorder] s (State.itemLost s word) := by
  delta State.itemLost
  refine Eff.start fun h0 => ?_
  refine Eff.dite (fun _ => ?_) fun _ => ?_
  · extract_lets -merge -underBinder +onlyGivenNames y0 y1 y2 y3 y4
    try clear_value y0 y1 y2 y3 y4
    split
    · assumption
    · extract_lets -merge -underBinder +onlyGivenNames y5
      refine h0.named (x := y5) ?_ fun _ => ?_
      · subst y5
        refine Eff.after (State.updRamp_eff _ _ _ fun hr => Ramp.ok_settle _ _ (Ramp.fits_remove hr.fits)) ?_
        assumption
      clear_value y5
      extract_lets -merge -underBinder +onlyGivenNames y6
      refine h0.named (x := y6) ?_ fun _ => ?_
      · subst y6
        refine Eff.after (State.report_eff _ _ _ _) ?_
        refine Eff.after (State.bump_eff _ _ _ _ _) ?_
        assumption
      clear_value y6
      refine Eff.after (State.finishCmd_eff _ _ _) ?_
      assumption
  · assumption

theorem State.llrsLost_eff (s : State) (byte : Nat) : Eff [.sides] s (State.llrsLost s byte) := by
  delta State.llrsLost
  refine Eff.start fun h0 => ?_
  extract_lets -merge -underBinder +onlyGivenNames y0 y1
  try clear_value y0 y1
  refine Eff.dite (fun _ => ?_) fun _ => ?_
  · extract_lets -merge -underBinder +onlyGivenNames y2
    try clear_value y2
    split
    · assumption
    · extract_lets -merge -underBinder +onlyGivenNames y3 y4 y5
      try clear_value y3 y4 y5
      refine Eff.after (State.updSector_eff _ _ _ _ _ _) ?_
      assumption
  · assumption

theorem State.mapWordLost_eff (s : State) (byte : Nat) : Eff [.pickups] s (State.mapWordLost s byte) := by
  delta State.mapWordLost
  refine Eff.start fun h0 => ?_
  exact Eff.dite (fun _ => State.updP_eff _ _ _) fun _ => h0

theorem State.mergeWordLost_eff (s : State) (ddr : Bool) (word : Nat) : Eff [.objs, .mem, .recorder] s (State.mergeWordLost s ddr word) := by
  delta State.mergeWordLost
  refine Eff.start fun h0 => ?_
  split
  · assumption
  · extract_lets -merge -underBinder +onlyGivenNames y0
    try clear_value y0
    extract_lets -merge -underBinder +onlyGivenNames y1
    refine h0.named (x := y1) ?_ fun _ => ?_
    · subst y1
      refine Eff.after (State.updMem_eff _ _) ?_
      assumption
    clear_value y1
    extract_lets -merge -underBinder +onlyGivenNames y2
    try clear_value y2
    refine Eff.after (State.report_eff _ _ _ _) ?_
    refine Eff.after (State.bump_eff _ _ _ _ _) ?_
    refine Eff.after (State.updMem_eff _ _) ?_
    assumption

theorem State.recordLost_eff (s : State) (word : Nat) : Eff [.objs, .recorder, .verge] s (State.recordLost s word) := by
  delta State.recordLost
  refine Eff.start fun h0 => ?_
  extract_lets -merge -underBinder +onlyGivenNames y0 y1 y2
  try clear_value y0 y1 y2
  split
  · assumption
  · extract_lets -merge -underBinder +onlyGivenNames y3
    try clear_value y3
    extract_lets -merge -underBinder +onlyGivenNames y4
    refine h0.named (x := y4) ?_ fun _ => ?_
    · subst y4
      refine Eff.after (State.updR_eff _ _) ?_
      assumption
    clear_value y4
    refine Eff.ite ?_ ?_
    · refine Eff.after (State.countGap_eff _ _) ?_
      assumption
    · assumption

theorem State.samplesLost_eff (s : State) (word : Nat) : Eff [.traces] s (State.samplesLost s word) := by
  delta State.samplesLost
  refine Eff.start fun h0 => ?_
  refine Eff.dite (fun _ => ?_) fun _ => ?_
  · extract_lets -merge -underBinder +onlyGivenNames y0 y1 y2 y3 y4
    try clear_value y0 y1 y2 y3 y4
    refine Eff.put ?_
    assumption
  · assumption

theorem State.ownerActs_eff (s : State) (memory : Nat) (byte : Nat) (holds : WordHolds) :
    Eff [.objs, .pickups, .channels, .sides, .host, .ramps, .mem, .recorder, .milestone, .traces, .verge, .power] s (State.ownerActs s memory byte holds) := by
  delta State.ownerActs
  refine Eff.start fun h0 => ?_
  split
  · refine Eff.after (State.mergeWordLost_eff _ _ _) ?_
    assumption
  · refine Eff.put ?_
    assumption
  · refine Eff.after (State.frameWordLost_eff _ _) ?_
    assumption
  · refine Eff.after (State.mapWordLost_eff _ _) ?_
    assumption
  · refine Eff.after (State.entryLost_eff _ _) ?_
    assumption
  · refine Eff.after (State.llrsLost_eff _ _) ?_
    assumption
  · refine Eff.ite ?_ ?_
    · refine Eff.after (State.bufferLost_eff _ _ _ _) ?_
      assumption
    · assumption
  · refine Eff.after (State.finishCmd_eff _ _ _) ?_
    assumption
  · refine Eff.after (State.finishCmd_eff _ _ _) ?_
    assumption
  · refine Eff.after (State.finishCmd_eff _ _ _) ?_
    assumption
  · refine Eff.after (State.abandonRun_eff _ _ _) ?_
    assumption
  · refine Eff.put ?_
    assumption
  · refine Eff.after (State.itemLost_eff _ _) ?_
    assumption
  · refine Eff.after (State.recordLost_eff _ _) ?_
    assumption
  · refine Eff.after (State.samplesLost_eff _ _) ?_
    assumption
  · refine Eff.put ?_
    assumption
  · assumption

theorem State.runWaiting_eff (s : State) (line : Nat) (way : Nat) : Eff [.objs, .mem, .recorder] s (State.runWaiting s line way) := by
  delta State.runWaiting
  refine Eff.start fun h0 => ?_
  extract_lets -merge -underBinder +onlyGivenNames y0
  try clear_value y0
  extract_lets -merge -underBinder +onlyGivenNames y1
  refine h0.named (x := y1) ?_ fun _ => ?_
  · subst y1
    refine Eff.after (State.updMem_eff _ _) ?_
    assumption
  clear_value y1
  refine Eff.forEach ?_ fun _ _ _ => ?_
  · assumption
  · refine Eff.after (State.maintain_eff _ _ _) ?_
    assumption

theorem State.scrubHit_eff (s : State) (byte : Nat) (syndrome : Byte) : Eff [.mem] s (State.scrubHit s byte syndrome) := by
  delta State.scrubHit
  refine Eff.start fun h0 => ?_
  refine Eff.after (State.updMem_eff _ _) ?_
  assumption

theorem execCacheFill_eff (requester : Fin 4) (line : Nat) (s : State) : OutEff [.objs, .mem, .recorder] s (execCacheFill requester line s) := by
  delta execCacheFill
  refine OutEff.start fun h0 => ?_
  refine State.when_effs ?_ (fun _ _ => ?_)
  · assumption
  · refine Eff.ite ?_ ?_
    · refine Eff.after (State.bump_eff _ _ _ _ _) ?_
      assumption
    · extract_lets -merge -underBinder +onlyGivenNames y0
      refine h0.named (x := y0) ?_ fun _ => ?_
      · subst y0
        refine Eff.after (State.bump_eff _ _ _ _ _) ?_
        assumption
      clear_value y0
      extract_lets -merge -underBinder +onlyGivenNames y1
      refine h0.named (x := y1) ?_ fun _ => ?_
      · subst y1
        refine Eff.ite ?_ ?_
        · refine Eff.after (State.bump_eff _ _ _ _ _) ?_
          assumption
        · assumption
      clear_value y1
      split
      · assumption
      · refine Eff.after (State.runWaiting_eff _ _ _) ?_
        refine Eff.after (State.allocate_eff _ _ _ _) ?_
        assumption

theorem execCorrectedRead_eff (memory : Nat) (place : Nat) (syndrome : BitVec 8) (scrub : Bool) (s : State) :
    OutEff [.objs, .mem, .recorder] s (execCorrectedRead memory place syndrome scrub s) := by
  delta execCorrectedRead
  refine OutEff.start fun h0 => ?_
  refine OutEff.ite ?_ ?_
  · exact OutEff.fault _
  · refine State.when_effs ?_ (fun _ _ => ?_)
    · assumption
    · extract_lets -merge -underBinder +onlyGivenNames y0
      refine h0.named (x := y0) ?_ fun _ => ?_
      · subst y0
        refine Eff.after (State.report_eff _ _ _ _) ?_
        refine Eff.after (State.bump_eff _ _ _ _ _) ?_
        assumption
      clear_value y0
      extract_lets -merge -underBinder +onlyGivenNames y1
      refine h0.named (x := y1) ?_ fun _ => ?_
      · subst y1
        refine Eff.ite ?_ ?_
        · refine Eff.after (State.scrubHit_eff _ _ _) ?_
          assumption
        · assumption
      clear_value y1
      split
      · refine Eff.after (State.trackWord_eff _ _ _) ?_
        assumption
      · refine Eff.after (State.trackWord_eff _ _ _) ?_
        assumption
      · refine Eff.after (State.bump_eff _ _ _ _ _) ?_
        assumption
      · assumption

theorem execMergeDrain_eff (ddr : Bool) (span : Nat) (s : State) : OutEff [.objs, .mem, .recorder] s (execMergeDrain ddr span s) := by
  delta execMergeDrain
  refine OutEff.start fun h0 => ?_
  refine State.when_effs ?_ (fun _ _ => ?_)
  · assumption
  · split
    · assumption
    · extract_lets -merge -underBinder +onlyGivenNames y0
      try clear_value y0
      refine Eff.ite ?_ ?_
      · refine Eff.after (State.drain_eff _ _ _) ?_
        assumption
      · assumption

theorem execMergeDrainTimeout_eff (ddr : Bool) (span : Nat) (s : State) : OutEff [.objs, .mem, .recorder] s (execMergeDrainTimeout ddr span s) := by
  delta execMergeDrainTimeout
  refine OutEff.start fun h0 => ?_
  refine State.when_effs ?_ (fun _ _ => ?_)
  · assumption
  · split
    · assumption
    · refine Eff.ite ?_ ?_
      · refine Eff.after (State.drain_eff _ _ _) ?_
        assumption
      · assumption

theorem execOnRampIdleTimeout_eff (k : RampId) (s : State) : OutEff [.objs, .ramps] s (execOnRampIdleTimeout k s) := by
  delta execOnRampIdleTimeout
  refine OutEff.start fun h0 => ?_
  refine State.when_effs ?_ (fun _ _ => ?_)
  · assumption
  · refine Eff.after (State.bump_eff _ _ _ _ _) ?_
    refine Eff.after (State.updRamp_eff _ _ _ fun hr => ?_) ?_
    · dsimp only
      split
      · rename_i hm; exact Ramp.ok_swap hr.fits hm
      · exact hr
    assumption

theorem execOnRampRead_eff (k : RampId) (s : State) : OutEff [.host, .ramps] s (execOnRampRead k s) := by
  delta execOnRampRead
  refine OutEff.start fun h0 => ?_
  refine State.when_effs ?_ (fun _ _ => ?_)
  · assumption
  · refine Eff.after (State.rampRead_eff _ _) ?_
    assumption

theorem execScrubDone_eff (wordsRead : Nat) (s : State) : OutEff [.objs, .mem, .recorder] s (execScrubDone wordsRead s) := by
  delta execScrubDone
  refine OutEff.start fun h0 => ?_
  refine State.when_effs ?_ (fun _ _ => ?_)
  · assumption
  · split
    · assumption
    · refine Eff.ite ?_ ?_
      · refine Eff.after (State.endScrub_eff _ _ _ _) ?_
        assumption
      · refine Eff.after (State.endScrub_eff _ _ _ _) ?_
        assumption

theorem execUncorrectableRead_eff (memory : Nat) (place : Nat) (syndrome : BitVec 8) (scrub : Bool) (holds : WordHolds) (s : State) :
    OutEff [.objs, .pickups, .channels, .sides, .host, .ramps, .mem, .recorder, .milestone, .traces, .verge, .power] s (execUncorrectableRead memory place syndrome scrub holds s) := by
  delta execUncorrectableRead
  refine OutEff.start fun h0 => ?_
  refine OutEff.ite ?_ ?_
  · exact OutEff.fault _
  · refine State.when_effs ?_ (fun _ _ => ?_)
    · assumption
    · extract_lets -merge -underBinder +onlyGivenNames y0
      refine h0.named (x := y0) ?_ fun _ => ?_
      · subst y0
        refine Eff.after (State.setOb_eff _ _ _ _ _) ?_
        refine Eff.after (State.setOb_eff _ _ _ _ _) ?_
        refine Eff.after (State.bump_eff _ _ _ _ _) ?_
        assumption
      clear_value y0
      extract_lets -merge -underBinder +onlyGivenNames y1
      refine h0.named (x := y1) ?_ fun _ => ?_
      · subst y1
        refine Eff.ite ?_ ?_
        · refine Eff.after (State.scrubHit_eff _ _ _) ?_
          assumption
        · assumption
      clear_value y1
      split
      · refine Eff.after (State.updMem_eff _ _ fun h => by split <;> exact h) ?_
        refine Eff.after (State.bump_eff _ _ _ _ _) ?_
        assumption
      · refine Eff.after (State.ownerActs_eff _ _ _ _) ?_
        refine Eff.after (State.report_eff _ _ _ _) ?_
        assumption

end Sys2Proof.Machine
end

