-- ==== Sys2Proof/Laws/TraceOps.lean ====
section
/-! SUPPORT. What each operation of Sys2Proof/Machine/TraceOps.lean may change: `x_eff` names the parts of the state that x may change and says that
x keeps every form of Sys2Proof/Safety.lean; `x_effs` says so of an operation with operations as arguments, under the same of each argument. -/

set_option Elab.async false

namespace Sys2Proof.Machine

theorem State.traceTap_eff (s : State) (src : IslandId) (n : Nat) (point : Nat → Option Int) : Eff [.traces] s (State.traceTap s src n point) := by
  delta State.traceTap
  refine Eff.start fun h0 => ?_
  refine Eff.forEach ?_ fun _ _ _ => ?_
  · assumption
  · extract_lets -merge -underBinder +onlyGivenNames y0 y1
    try clear_value y0 y1
    refine Eff.ite ?_ ?_
    · split
      · refine Eff.put ?_
        assumption
      · assumption
    · assumption

end Sys2Proof.Machine
end

