-- ==== Sys2Proof/Laws/Milestones.lean ====
section
/-! SUPPORT. What each operation of Sys2Proof/Machine/Milestones.lean may change: `x_eff` names the parts of the state that x may change and says that
x keeps every form of Sys2Proof/Safety.lean; `x_effs` says so of an operation with operations as arguments, under the same of each argument. -/

set_option Elab.async false

namespace Sys2Proof.Machine

theorem execMilestoneRelease_eff (cl : Client) (v : Int) (s : State) :
    OutEff [.freeCount, .objs, .signpost, .recorder, .milestone] s (execMilestoneRelease cl v s) := by
  delta execMilestoneRelease
  refine OutEff.start fun h0 => ?_
  refine OutEff.next ?_
  refine State.hostWrite_effs ?_ (fun _ _ => ?_)
  · assumption
  · refine Eff.ite ?_ ?_
    · refine Eff.put ?_
      assumption
    · assumption

theorem execMilestoneRequest_eff (cl : Client) (v : Int) (s : State) :
    OutEff [.freeCount, .objs, .signpost, .recorder, .milestone] s (execMilestoneRequest cl v s) := by
  delta execMilestoneRequest
  refine OutEff.start fun h0 => ?_
  refine OutEff.next ?_
  refine State.hostWrite_effs ?_ (fun _ _ => ?_)
  · assumption
  · refine Eff.after (State.trigger_eff _ _ _) ?_
    assumption

theorem execTraceArm_eff (cl : Client) (ch : Fin 8) (v : Int) (s : State) :
    OutEff [.freeCount, .objs, .signpost, .recorder, .traces] s (execTraceArm cl ch v s) := by
  delta execTraceArm
  refine OutEff.start fun h0 => ?_
  refine OutEff.next ?_
  refine Eff.ite ?_ ?_
  · assumption
  · refine State.hostWrite_effs ?_ (fun _ _ => ?_)
    · assumption
    · refine Eff.put ?_
      assumption

theorem execTraceStop_eff (cl : Client) (ch : Fin 8) (v : Int) (s : State) :
    OutEff [.freeCount, .objs, .signpost, .recorder, .traces] s (execTraceStop cl ch v s) := by
  delta execTraceStop
  refine OutEff.start fun h0 => ?_
  refine OutEff.next ?_
  refine Eff.ite ?_ ?_
  · assumption
  · refine State.hostWrite_effs ?_ (fun _ _ => ?_)
    · assumption
    · refine Eff.put ?_
      assumption

theorem State.stopRings_eff (s : State) : Eff [.traces] s (State.stopRings s) := by
  delta State.stopRings
  refine Eff.start fun h0 => ?_
  refine Eff.forEach ?_ fun _ _ _ => ?_
  · assumption
  · refine Eff.ite ?_ ?_
    · refine Eff.put ?_
      assumption
    · assumption

theorem execMilestone_eff (cycle : Nat) (s : State) : OutEff [.objs, .recorder, .milestone, .traces, .verge] s (execMilestone cycle s) := by
  delta execMilestone
  refine OutEff.start fun h0 => ?_
  refine State.when_effs ?_ (fun _ _ => ?_)
  · assumption
  · extract_lets -merge -underBinder +onlyGivenNames y0 y1
    try clear_value y0 y1
    extract_lets -merge -underBinder +onlyGivenNames y2
    refine h0.named (x := y2) ?_ fun _ => ?_
    · subst y2
      refine Eff.put ?_
      assumption
    clear_value y2
    extract_lets -merge -underBinder +onlyGivenNames y3
    try clear_value y3
    extract_lets -merge -underBinder +onlyGivenNames y4
    refine h0.named (x := y4) ?_ fun _ => ?_
    · subst y4
      refine Eff.ite ?_ ?_
      · refine Eff.after (State.stopRings_eff _) ?_
        refine Eff.after (State.freeze_eff _) ?_
        assumption
      · refine Eff.after (State.bump_eff _ _ _ _ _) ?_
        assumption
    clear_value y4
    extract_lets -merge -underBinder +onlyGivenNames y5
    refine h0.named (x := y5) ?_ fun _ => ?_
    · subst y5
      refine Eff.ite ?_ ?_
      · refine Eff.after (State.ownNext_eff _ _ _) ?_
        assumption
      · assumption
    clear_value y5
    refine Eff.ite ?_ ?_
    · refine Eff.put ?_
      assumption
    · assumption

theorem execMilestoneBallEdge_eff (s : State) : OutEff [.milestone] s (execMilestoneBallEdge s) := by
  delta execMilestoneBallEdge
  refine OutEff.start fun h0 => ?_
  refine State.when_effs ?_ (fun _ _ => ?_)
  · assumption
  · refine Eff.ite ?_ ?_
    · refine Eff.put ?_
      assumption
    · refine Eff.after (State.trigger_eff _ _ _) ?_
      assumption

theorem execMilestoneLatch_eff (island : IslandId) (latencyNs : Nat) (s : State) :
    OutEff [.freeCount, .milestone] s (execMilestoneLatch island latencyNs s) := by
  delta execMilestoneLatch
  refine OutEff.start fun h0 => ?_
  refine State.when_effs ?_ (fun _ _ => ?_)
  · assumption
  · extract_lets -merge -underBinder +onlyGivenNames y0 y1 y2
    try clear_value y0 y1 y2
    extract_lets -merge -underBinder +onlyGivenNames y3
    refine h0.named (x := y3) ?_ fun _ => ?_
    · subst y3
      refine Eff.put ?_
      assumption
    clear_value y3
    extract_lets -merge -underBinder +onlyGivenNames y4 y5
    refine h0.named (x := y5) ?_ fun _ => ?_
    · subst y5
      subst y4
      refine Eff.put ?_
      assumption
    clear_value y4 y5
    refine Eff.ite ?_ ?_
    · refine Eff.put ?_
      assumption
    · assumption

theorem execTraceComplete_eff (ch : Fin 8) (s : State) : OutEff [.traces] s (execTraceComplete ch s) := by
  delta execTraceComplete
  refine OutEff.start fun h0 => ?_
  extract_lets -merge -underBinder +onlyGivenNames y0 y1
  try clear_value y0 y1
  refine State.when_effs ?_ (fun _ _ => ?_)
  · assumption
  · refine Eff.put ?_
    assumption

end Sys2Proof.Machine
end

