-- ==== Sys2Proof/Laws/Spindle.lean ====
section
/-! SUPPORT. What each operation of Sys2Proof/Machine/Spindle.lean may change: `x_eff` names the parts of the state that x may change and says that
x keeps every form of Sys2Proof/Safety.lean; `x_effs` says so of an operation with operations as arguments, under the same of each argument. -/

set_option Elab.async false

namespace Sys2Proof.Machine

theorem State.burn_eff (s : State) (i : SpindleId) : Eff [.objs, .spindles] s (State.burn s i) := by
  delta State.burn
  refine Eff.start fun h0 => ?_
  extract_lets -merge -underBinder +onlyGivenNames y0 y1
  try clear_value y0 y1
  refine Eff.after (State.bump_eff _ _ _ _ _) ?_
  refine Eff.after (State.updM_eff _ _ _) ?_
  assumption

theorem State.spindleCommand_effs {l : List Part} {s0 : State} {s : State} {cl : Client} {i : SpindleId} {v : Int} {cmd : Int} {busy : Bool} {effect : State → State} (h : Eff l s0 s) (h_effect : ∀ u, Eff l s0 u → Eff l s0 (effect u)) (hs : partsIn [.freeCount, .objs, .signpost, .recorder] l = true := by decide) :
    Eff l s0 (State.spindleCommand s cl i v cmd busy effect) := by
  delta State.spindleCommand
  refine Eff.ite ?_ ?_
  · assumption
  · refine State.hostWrite_effs ?_ (fun _ _ => ?_) (partsIn_trans (by decide) hs)
    · assumption
    · refine h_effect _ ?_
      assumption

theorem execSpindleCoast_eff (cl : Client) (i : SpindleId) (v : Int) (s : State) :
    OutEff [.freeCount, .objs, .pickups, .channels, .sides, .spindles, .axes, .host, .signpost, .recorder] s (execSpindleCoast cl i v s) := by
  delta execSpindleCoast
  refine OutEff.start fun h0 => ?_
  refine State.when_effs ?_ (fun _ _ => ?_)
  · assumption
  · refine State.spindleCommand_effs ?_ (fun _ _ => ?_)
    · assumption
    · refine Eff.after (State.coastSpindle_eff _ _) ?_
      assumption

theorem execSpindleStart_eff (cl : Client) (i : SpindleId) (v : Int) (s : State) :
    OutEff [.freeCount, .objs, .spindles, .signpost, .recorder] s (execSpindleStart cl i v s) := by
  delta execSpindleStart
  refine OutEff.start fun h0 => ?_
  refine State.when_effs ?_ (fun _ _ => ?_)
  · assumption
  · refine State.spindleCommand_effs ?_ (fun _ _ => ?_)
    · assumption
    · refine Eff.after (State.startSpindle_eff _ _ _) ?_
      assumption

theorem execSpindleStartReverse_eff (cl : Client) (i : SpindleId) (v : Int) (s : State) :
    OutEff [.freeCount, .objs, .spindles, .signpost, .recorder] s (execSpindleStartReverse cl i v s) := by
  delta execSpindleStartReverse
  refine OutEff.start fun h0 => ?_
  refine State.when_effs ?_ (fun _ _ => ?_)
  · assumption
  · extract_lets -merge -underBinder +onlyGivenNames y0
    try clear_value y0
    refine State.spindleCommand_effs ?_ (fun _ _ => ?_)
    · assumption
    · refine Eff.after (State.startSpindle_eff _ _ _) ?_
      assumption

theorem execSpindleStop_eff (cl : Client) (i : SpindleId) (v : Int) (s : State) :
    OutEff [.freeCount, .objs, .pickups, .channels, .sides, .spindles, .axes, .host, .signpost, .recorder] s (execSpindleStop cl i v s) := by
  delta execSpindleStop
  refine OutEff.start fun h0 => ?_
  refine State.when_effs ?_ (fun _ _ => ?_)
  · assumption
  · refine State.spindleCommand_effs ?_ (fun _ _ => ?_)
    · assumption
    · refine Eff.after (State.stopSpindle_eff _ _) ?_
      assumption

theorem State.driveMotor_eff (s : State) (i : SpindleId) : Eff [.spindles] s (State.driveMotor s i) := by
  delta State.driveMotor
  refine Eff.start fun h0 => ?_
  extract_lets -merge -underBinder +onlyGivenNames y0 y1
  try clear_value y0 y1
  extract_lets -merge -underBinder +onlyGivenNames y2
  refine h0.named (x := y2) ?_ fun _ => ?_
  · subst y2
    split
    · refine Eff.after (State.updM_eff _ _ _) ?_
      assumption
    · refine Eff.ite ?_ ?_
      · assumption
      · refine Eff.after (State.updM_eff _ _ _) ?_
        refine Eff.after (State.seed_eff _ _ _ _) ?_
        assumption
    · refine Eff.ite ?_ ?_
      · refine Eff.after (State.updM_eff _ _ _) ?_
        assumption
      · assumption
    · assumption
  clear_value y2
  extract_lets -merge -underBinder +onlyGivenNames y3
  refine h0.named (x := y3) ?_ fun _ => ?_
  · subst y3
    refine Eff.ite ?_ ?_
    · refine Eff.after (State.currentLoop_eff _ _) ?_
      assumption
    · assumption
  clear_value y3
  refine Eff.after (State.driveLegs_eff _ _) ?_
  assumption

theorem State.enterRunning_eff (s : State) (i : SpindleId) : Eff [.objs, .spindles, .recorder] s (State.enterRunning s i) := by
  delta State.enterRunning
  refine Eff.start fun h0 => ?_
  extract_lets -merge -underBinder +onlyGivenNames y0
  try clear_value y0
  refine Eff.after (State.spinReport_eff _ _ _ _) ?_
  refine Eff.after (State.updM_eff _ _ _) ?_
  assumption

theorem State.followRotor_eff (s : State) (i : SpindleId) (mV : List Int) : Eff [.spindles] s (State.followRotor s i mV) := by
  delta State.followRotor
  refine Eff.start fun h0 => ?_
  extract_lets -merge -underBinder +onlyGivenNames y0
  try clear_value y0
  split
  · split
    · extract_lets -merge -underBinder +onlyGivenNames y1
      try clear_value y1
      extract_lets -merge -underBinder +onlyGivenNames y2
      refine h0.named (x := y2) ?_ fun _ => ?_
      · subst y2
        refine Eff.after (State.updM_eff _ _ _) ?_
        assumption
      clear_value y2
      extract_lets -merge -underBinder +onlyGivenNames y3
      refine h0.named (x := y3) ?_ fun _ => ?_
      · subst y3
        refine Eff.ite ?_ ?_
        · refine Eff.after (State.timeCrossings_eff _ _ _) ?_
          assumption
        · assumption
      clear_value y3
      refine Eff.ite ?_ ?_
      · assumption
      · extract_lets -merge -underBinder +onlyGivenNames y4
        refine h0.named (x := y4) ?_ fun _ => ?_
        · subst y4
          refine Eff.ite ?_ ?_
          · refine Eff.after (State.observe_eff _ _ _ _ _ _) ?_
            assumption
          · refine Eff.after (State.observe_eff _ _ _ _ _ _) ?_
            assumption
        clear_value y4
        extract_lets -merge -underBinder +onlyGivenNames y5 y6
        try clear_value y5 y6
        refine Eff.after (State.updM_eff _ _ _) ?_
        assumption

theorem State.giveUp_eff (s : State) (i : SpindleId) :
    Eff [.objs, .pickups, .channels, .sides, .spindles, .axes, .host, .recorder] s (State.giveUp s i) := by
  delta State.giveUp
  refine Eff.start fun h0 => ?_
  extract_lets -merge -underBinder +onlyGivenNames y0
  refine h0.named (x := y0) ?_ fun _ => ?_
  · subst y0
    refine Eff.after (State.bump_eff _ _ _ _ _) ?_
    refine Eff.after (State.updM_eff _ _ _) ?_
    assumption
  clear_value y0
  refine Eff.after (State.parkBoth_eff _ _ _) ?_
  refine Eff.after (State.spinReport_eff _ _ _ _) ?_
  assumption

theorem State.pulseGates_eff (s : State) (i : SpindleId) (regen : Bool) : Eff [.spindles] s (State.pulseGates s i regen) := by
  delta State.pulseGates
  refine Eff.start fun h0 => ?_
  extract_lets -merge -underBinder +onlyGivenNames y0 y1
  try clear_value y0 y1
  refine Eff.ite ?_ ?_
  · assumption
  · refine Eff.after (State.updM_eff _ _ _) ?_
    assumption

theorem execAlignEnd_eff (i : SpindleId) (s : State) : OutEff [.spindles] s (execAlignEnd i s) := by
  delta execAlignEnd
  refine OutEff.start fun h0 => ?_
  extract_lets -merge -underBinder +onlyGivenNames y0
  try clear_value y0
  refine State.when_effs ?_ (fun _ _ => ?_)
  · assumption
  · refine Eff.after (State.updM_eff _ _ _) ?_
    assumption

theorem execAtRest_eff (i : SpindleId) (s : State) :
    OutEff [.objs, .pickups, .channels, .sides, .spindles, .axes, .host, .recorder] s (execAtRest i s) := by
  delta execAtRest
  refine OutEff.start fun h0 => ?_
  extract_lets -merge -underBinder +onlyGivenNames y0
  try clear_value y0
  refine State.when_effs ?_ (fun _ _ => ?_)
  · assumption
  · extract_lets -merge -underBinder +onlyGivenNames y1
    try clear_value y1
    split
    · refine Eff.after (State.spinReport_eff _ _ _ _) ?_
      refine Eff.after (State.updM_eff _ _ _) ?_
      assumption
    · refine Eff.after (State.updM_eff _ _ _) ?_
      refine Eff.after (State.startOrWait_eff _ _ _) ?_
      refine Eff.after (State.updM_eff _ _ _) ?_
      assumption
    · refine Eff.after (State.updM_eff _ _ _) ?_
      assumption
    · refine Eff.after (State.faultSpindle_eff _ _ _) ?_
      refine Eff.after (State.updM_eff _ _ _) ?_
      assumption

theorem execAtSpeed_eff (i : SpindleId) (s : State) : OutEff [.pickups] s (execAtSpeed i s) := by
  delta execAtSpeed
  refine OutEff.start fun h0 => ?_
  extract_lets -merge -underBinder +onlyGivenNames y0
  try clear_value y0
  refine State.when_effs ?_ (fun _ _ => ?_)
  · assumption
  · refine Eff.ite ?_ ?_
    · refine Eff.forEach ?_ fun _ _ _ => ?_
      · assumption
      · extract_lets -merge -underBinder +onlyGivenNames y1
        try clear_value y1
        refine Eff.ite ?_ ?_
        · refine Eff.after (State.updP_eff _ _ _) ?_
          assumption
        · assumption
    · assumption

theorem execCatchSpinLock_eff (i : SpindleId) (s : State) : OutEff [.objs, .spindles, .recorder] s (execCatchSpinLock i s) := by
  delta execCatchSpinLock
  refine OutEff.start fun h0 => ?_
  extract_lets -merge -underBinder +onlyGivenNames y0
  try clear_value y0
  refine State.when_effs ?_ (fun _ _ => ?_)
  · assumption
  · refine Eff.after (State.enterRunning_eff _ _) ?_
    refine Eff.after (State.updM_eff _ _ _) ?_
    assumption

theorem execDtcEvaluation_eff (i : SpindleId) (currents : List Int) (s : State) : OutEff [.spindles] s (execDtcEvaluation i currents s) := by
  delta execDtcEvaluation
  refine OutEff.start fun h0 => ?_
  refine State.when_effs ?_ (fun _ _ => ?_)
  · assumption
  · split
    · extract_lets -merge -underBinder +onlyGivenNames y0
      refine h0.named (x := y0) ?_ fun _ => ?_
      · subst y0
        refine Eff.after (State.integrateFlux_eff _ _ _ _) ?_
        assumption
      clear_value y0
      refine Eff.ite ?_ ?_
      · refine Eff.after (State.switchVector_eff _ _ _ _) ?_
        assumption
      · assumption

theorem execFrictionTorqueApply_eff (i : SpindleId) (s : State) : OutEff [.objs, .spindles, .cal, .recorder] s (execFrictionTorqueApply i s) := by
  delta execFrictionTorqueApply
  refine OutEff.start fun h0 => ?_
  extract_lets -merge -underBinder +onlyGivenNames y0
  try clear_value y0
  refine State.when_effs ?_ (fun _ _ => ?_)
  · assumption
  · extract_lets -merge -underBinder +onlyGivenNames y1 y2
    try clear_value y1 y2
    extract_lets -merge -underBinder +onlyGivenNames y3
    refine h0.named (x := y3) ?_ fun _ => ?_
    · subst y3
      refine Eff.after (State.updM_eff _ _ _) ?_
      refine Eff.after (State.putKey_eff _ _ _) ?_
      assumption
    clear_value y3
    extract_lets -merge -underBinder +onlyGivenNames y4 y5
    refine h0.named (x := y5) ?_ fun _ => ?_
    · subst y5
      subst y4
      refine Eff.put ?_
      assumption
    clear_value y4 y5
    refine Eff.after (State.report_eff _ _ _ _) ?_
    assumption

theorem execGateFault_eff (i : SpindleId) (s : State) :
    OutEff [.objs, .pickups, .channels, .sides, .spindles, .axes, .host, .recorder] s (execGateFault i s) := by
  delta execGateFault
  refine OutEff.start fun h0 => ?_
  refine State.when_effs ?_ (fun _ _ => ?_)
  · assumption
  · refine Eff.after (State.faultSpindle_eff _ _ _) ?_
    refine Eff.after (State.spinReport_eff _ _ _ _) ?_
    refine Eff.after (State.bump_eff _ _ _ _ _) ?_
    refine Eff.after (State.updM_eff _ _ _) ?_
    assumption

theorem execHandover_eff (i : SpindleId) (s : State) : OutEff [.objs, .spindles, .recorder] s (execHandover i s) := by
  delta execHandover
  refine OutEff.start fun h0 => ?_
  extract_lets -merge -underBinder +onlyGivenNames y0
  try clear_value y0
  refine State.when_effs ?_ (fun _ _ => ?_)
  · assumption
  · extract_lets -merge -underBinder +onlyGivenNames y1 y2
    try clear_value y1 y2
    refine Eff.after (State.enterRunning_eff _ _) ?_
    refine Eff.after (State.updM_eff _ _ _) ?_
    assumption

theorem execObserverLost_eff (i : SpindleId) (s : State) :
    OutEff [.objs, .pickups, .channels, .spindles, .axes, .recorder, .milestone] s (execObserverLost i s) := by
  delta execObserverLost
  refine OutEff.start fun h0 => ?_
  extract_lets -merge -underBinder +onlyGivenNames y0
  try clear_value y0
  refine State.when_effs ?_ (fun _ _ => ?_)
  · assumption
  · extract_lets -merge -underBinder +onlyGivenNames y1
    refine h0.named (x := y1) ?_ fun _ => ?_
    · subst y1
      refine Eff.after (State.bump_eff _ _ _ _ _) ?_
      refine Eff.after (State.updM_eff _ _ _) ?_
      assumption
    clear_value y1
    refine Eff.after (State.spinReport_eff _ _ _ _) ?_
    refine Eff.after (State.holdBoth_eff _ _) ?_
    assumption

theorem execPwmPeriod_eff (i : SpindleId) (currents : List Int) (voltages : List Nat) (fltHigh : Bool) (s : State) :
    OutEff [.objs, .pickups, .channels, .sides, .spindles, .axes, .host, .recorder, .traces] s (execPwmPeriod i currents voltages fltHigh s) := by
  delta execPwmPeriod
  refine OutEff.start fun h0 => ?_
  refine State.when_effs ?_ (fun _ _ => ?_)
  · assumption
  · extract_lets -merge -underBinder +onlyGivenNames y0
    try clear_value y0
    extract_lets -merge -underBinder +onlyGivenNames y1
    refine h0.named (x := y1) ?_ fun _ => ?_
    · subst y1
      refine Eff.after (State.updM_eff _ _ _) ?_
      assumption
    clear_value y1
    split
    · refine Eff.ite ?_ ?_
      · assumption
      · refine Eff.after (State.faultSpindle_eff _ _ _) ?_
        refine Eff.after (State.spinReport_eff _ _ _ _) ?_
        refine Eff.after (State.bump_eff _ _ _ _ _) ?_
        assumption
    · extract_lets -merge -underBinder +onlyGivenNames y2
      refine h0.named (x := y2) ?_ fun _ => ?_
      · subst y2
        refine Eff.after (State.driveMotor_eff _ _) ?_
        refine Eff.after (State.followRotor_eff _ _ _) ?_
        assumption
      clear_value y2
      extract_lets -merge -underBinder +onlyGivenNames y3
      refine h0.named (x := y3) ?_ fun _ => ?_
      · subst y3
        refine Eff.ite ?_ ?_
        · refine Eff.after (State.burn_eff _ _) ?_
          assumption
        · assumption
      clear_value y3
      refine Eff.forEach ?_ fun _ _ _ => ?_
      · assumption
      · refine Eff.after (State.traceTap_eff _ _ _ _) ?_
        assumption

theorem execRateFloor_eff (p : PickupId) (s : State) : OutEff [.objs, .spindles, .recorder] s (execRateFloor p s) := by
  delta execRateFloor
  refine OutEff.start fun h0 => ?_
  extract_lets -merge -underBinder +onlyGivenNames y0 y1
  try clear_value y0 y1
  refine State.when_effs ?_ (fun _ _ => ?_)
  · assumption
  · refine Eff.after (State.spinReport_eff _ _ _ _) ?_
    refine Eff.after (State.updM_eff _ _ _) ?_
    assumption

theorem execRateMatchEvaluation_eff (i : SpindleId) (s : State) : OutEff [.sides, .spindles] s (execRateMatchEvaluation i s) := by
  delta execRateMatchEvaluation
  refine OutEff.start fun h0 => ?_
  refine State.when_effs ?_ (fun _ _ => ?_)
  · assumption
  · extract_lets -merge -underBinder +onlyGivenNames y0 y1 y2 y3 y4 y5
    try clear_value y0 y1 y2 y3 y4 y5
    extract_lets -merge -underBinder +onlyGivenNames y6
    refine h0.named (x := y6) ?_ fun _ => ?_
    · subst y6
      refine Eff.after (State.updM_eff _ _ _) ?_
      assumption
    clear_value y6
    refine Eff.forEach ?_ fun _ _ _ => ?_
    · assumption
    · refine Eff.after (State.updS_eff _ _ _) ?_
      assumption

theorem execReacquisitionAttemptEnd_eff (i : SpindleId) (s : State) :
    OutEff [.objs, .pickups, .channels, .sides, .spindles, .axes, .host, .recorder] s (execReacquisitionAttemptEnd i s) := by
  delta execReacquisitionAttemptEnd
  refine OutEff.start fun h0 => ?_
  extract_lets -merge -underBinder +onlyGivenNames y0 y1 y2 y3 y4
  try clear_value y0 y1 y2 y3 y4
  refine State.when_effs ?_ (fun _ _ => ?_)
  · assumption
  · extract_lets -merge -underBinder +onlyGivenNames y5
    try clear_value y5
    refine Eff.ite ?_ ?_
    · extract_lets -merge -underBinder +onlyGivenNames y6
      refine h0.named (x := y6) ?_ fun _ => ?_
      · subst y6
        refine Eff.after (State.bump_eff _ _ _ _ _) ?_
        refine Eff.after (State.updM_eff _ _ _) ?_
        assumption
      clear_value y6
      extract_lets -merge -underBinder +onlyGivenNames y7
      refine h0.named (x := y7) ?_ fun _ => ?_
      · subst y7
        refine Eff.forEach ?_ fun _ _ _ => ?_
        · assumption
        · refine Eff.after (State.updP_eff _ _ _) ?_
          assumption
      clear_value y7
      extract_lets -merge -underBinder +onlyGivenNames y8
      refine h0.named (x := y8) ?_ fun _ => ?_
      · subst y8
        refine Eff.after (State.spinReport_eff _ _ _ _) ?_
        assumption
      clear_value y8
      refine Eff.ite ?_ ?_
      · refine Eff.after (State.enterRunning_eff _ _) ?_
        assumption
      · assumption
    · refine Eff.ite ?_ ?_
      · refine Eff.after (State.giveUp_eff _ _) ?_
        refine Eff.after (State.updM_eff _ _ _) ?_
        assumption
      · refine Eff.after (State.updM_eff _ _ _) ?_
        assumption

theorem execSensingEnd_eff (i : SpindleId) (s : State) : OutEff [.objs, .spindles, .recorder] s (execSensingEnd i s) := by
  delta execSensingEnd
  refine OutEff.start fun h0 => ?_
  extract_lets -merge -underBinder +onlyGivenNames y0
  try clear_value y0
  refine State.when_effs ?_ (fun _ _ => ?_)
  · assumption
  · extract_lets -merge -underBinder +onlyGivenNames y1 y2 y3
    try clear_value y1 y2 y3
    refine Eff.ite ?_ ?_
    · refine Eff.after (State.spinReport_eff _ _ _ _) ?_
      refine Eff.after (State.bump_eff _ _ _ _ _) ?_
      refine Eff.after (State.updM_eff _ _ _) ?_
      assumption
    · refine Eff.ite ?_ ?_
      · refine Eff.after (State.spinReport_eff _ _ _ _) ?_
        refine Eff.after (State.bump_eff _ _ _ _ _) ?_
        refine Eff.after (State.updM_eff _ _ _) ?_
        refine Eff.after (State.seed_eff _ _ _ _) ?_
        assumption
      · refine Eff.after (State.spinReport_eff _ _ _ _) ?_
        refine Eff.after (State.bump_eff _ _ _ _ _) ?_
        refine Eff.after (State.updM_eff _ _ _) ?_
        refine Eff.after (State.seed_eff _ _ _ _) ?_
        assumption

theorem execSpeedSample_eff (i : SpindleId) (s : State) : OutEff [.objs, .spindles, .recorder] s (execSpeedSample i s) := by
  delta execSpeedSample
  refine OutEff.start fun h0 => ?_
  refine State.when_effs ?_ (fun _ _ => ?_)
  · assumption
  · extract_lets -merge -underBinder +onlyGivenNames y0 y1 y2 y3 y4
    try clear_value y0 y1 y2 y3 y4
    extract_lets -merge -underBinder +onlyGivenNames y5
    refine h0.named (x := y5) ?_ fun _ => ?_
    · subst y5
      refine Eff.ite ?_ ?_
      · refine Eff.after (State.spinReport_eff _ _ _ _) ?_
        assumption
      · assumption
    clear_value y5
    extract_lets -merge -underBinder +onlyGivenNames y6 y7 y8 y9 y10 y11 y12 y13 y14 y15 y16 y17 y18 y19 y20 y21
    try clear_value y6 y7 y8 y9 y10 y11 y12 y13 y14 y15 y16 y17 y18 y19 y20 y21
    extract_lets -merge -underBinder +onlyGivenNames y22
    refine h0.named (x := y22) ?_ fun _ => ?_
    · subst y22
      refine Eff.after (State.updM_eff _ _ _) ?_
      assumption
    clear_value y22
    extract_lets -merge -underBinder +onlyGivenNames y23
    refine h0.named (x := y23) ?_ fun _ => ?_
    · subst y23
      refine Eff.after (State.bump_eff _ _ _ _ _) ?_
      assumption
    clear_value y23
    refine Eff.ite ?_ ?_
    · refine Eff.after (State.spinReport_eff _ _ _ _) ?_
      assumption
    · assumption

theorem execStartAttemptFail_eff (i : SpindleId) (s : State) : OutEff [.objs, .spindles] s (execStartAttemptFail i s) := by
  delta execStartAttemptFail
  refine OutEff.start fun h0 => ?_
  refine State.when_effs ?_ (fun _ _ => ?_)
  · assumption
  · refine Eff.after (State.bump_eff _ _ _ _ _) ?_
    refine Eff.after (State.updM_eff _ _ _) ?_
    assumption

theorem execStartRetry_eff (i : SpindleId) (s : State) :
    OutEff [.objs, .pickups, .channels, .sides, .spindles, .axes, .host, .recorder] s (execStartRetry i s) := by
  delta execStartRetry
  refine OutEff.start fun h0 => ?_
  extract_lets -merge -underBinder +onlyGivenNames y0
  try clear_value y0
  refine State.when_effs ?_ (fun _ _ => ?_)
  · assumption
  · refine Eff.ite ?_ ?_
    · refine Eff.after (State.faultSpindle_eff _ _ _) ?_
      refine Eff.after (State.spinReport_eff _ _ _ _) ?_
      assumption
    · refine Eff.after (State.updM_eff _ _ _) ?_
      refine Eff.after (State.beginSensing_eff _ _ _) ?_
      assumption

theorem execVbusLow_eff (i : SpindleId) (s : State) : OutEff [.objs, .spindles, .recorder] s (execVbusLow i s) := by
  delta execVbusLow
  refine OutEff.start fun h0 => ?_
  extract_lets -merge -underBinder +onlyGivenNames y0
  try clear_value y0
  refine State.when_effs ?_ (fun _ _ => ?_)
  · assumption
  · refine Eff.after (State.spinReport_eff _ _ _ _) ?_
    refine Eff.after (State.updM_eff _ _ _) ?_
    assumption

theorem execVbusSample_eff (i : SpindleId) (code : Nat) (s : State) :
    OutEff [.objs, .pickups, .channels, .sides, .spindles, .axes, .host, .recorder] s (execVbusSample i code s) := by
  delta execVbusSample
  refine OutEff.start fun h0 => ?_
  refine State.when_effs ?_ (fun _ _ => ?_)
  · assumption
  · extract_lets -merge -underBinder +onlyGivenNames y0 y1 y2 y3 y4 y5 y6 y7 y8 y9 y10
    try clear_value y0 y1 y2 y3 y4 y5 y6 y7 y8 y9 y10
    extract_lets -merge -underBinder +onlyGivenNames y11
    refine h0.named (x := y11) ?_ fun _ => ?_
    · subst y11
      refine Eff.after (State.bump_eff _ _ _ _ _) ?_
      refine Eff.after (State.updM_eff _ _ _) ?_
      assumption
    clear_value y11
    extract_lets -merge -underBinder +onlyGivenNames y12
    refine h0.named (x := y12) ?_ fun _ => ?_
    · subst y12
      refine Eff.after (State.pulseGates_eff _ _ _) ?_
      assumption
    clear_value y12
    extract_lets -merge -underBinder +onlyGivenNames y13
    refine h0.named (x := y13) ?_ fun _ => ?_
    · subst y13
      refine Eff.ite ?_ ?_
      · refine Eff.after (State.spinReport_eff _ _ _ _) ?_
        refine Eff.after (State.bump_eff _ _ _ _ _) ?_
        assumption
      · assumption
    clear_value y13
    refine Eff.ite ?_ ?_
    · refine Eff.after (State.faultSpindle_eff _ _ _) ?_
      refine Eff.after (State.spinReport_eff _ _ _ _) ?_
      refine Eff.after (State.bump_eff _ _ _ _ _) ?_
      assumption
    · assumption

end Sys2Proof.Machine
end

