-- ==== Sys2Proof/Laws/FirmwareOps.lean ====
section
/-! SUPPORT. What each operation of Sys2Proof/Machine/FirmwareOps.lean may change: `x_eff` names the parts of the state that x may change and says that
x keeps every form of Sys2Proof/Safety.lean; `x_effs` says so of an operation with operations as arguments, under the same of each argument. -/

set_option Elab.async false

namespace Sys2Proof.Machine

theorem State.abortStaging_eff (s : State) : Eff [.objs, .staging, .recorder] s (State.abortStaging s) := by
  delta State.abortStaging
  refine Eff.start fun h0 => ?_
  refine Eff.ite ?_ ?_
  · assumption
  · refine Eff.after (State.report_eff _ _ _ _) ?_
    refine Eff.after (State.switchOutcome_eff _ _ _) ?_
    refine Eff.after (State.emptyArea_eff _) ?_
    assumption

theorem State.writeBoot_eff (s : State) (active : Nat) (pending : Option Nat) : Eff [.power] s (State.writeBoot s active pending) := by
  delta State.writeBoot
  refine Eff.start fun h0 => ?_
  refine Eff.ite ?_ ?_
  · assumption
  · refine Eff.put ?_
    assumption

theorem State.becomeActive_eff (s : State) (i : Nat) : Eff [.objs, .recorder, .power, .otp] s (State.becomeActive s i) := by
  delta State.becomeActive
  extract_lets -merge -underBinder +onlyGivenNames y0
  have h0 : Eff [.objs, .recorder, .power, .otp] s y0 := (State.writeBoot_eff _ _ _).mono
  clear_value y0
  split
  · exact h0
  · extract_lets -merge -underBinder +onlyGivenNames old y1 y2 raised
    have h1 : Eff [.objs, .recorder, .power, .otp] s y2 := Eff.put h0
    have ho : y2.otp = y0.otp := rfl
    clear_value y2
    split
    · refine (State.report_eff _ _ _ _).after ⟨h1.frame.trans fun q hq => ?_, h1.good.trans ⟨rfl, ⟨rfl, rfl, rfl, fun _ h => h, ?_⟩, id, id, id, id, id⟩⟩
      · cases q <;> first | exact absurd (by decide) hq | rfl
      · rw [ho]; exact Nat.le_max_left _ _
    · exact h1

theorem State.coreStop_eff (s : State) : Eff [.objs, .staging, .cal, .recorder, .power] s (State.coreStop s) := by
  delta State.coreStop
  refine Eff.start fun h0 => ?_
  extract_lets -merge -underBinder +onlyGivenNames y0
  refine h0.named (x := y0) ?_ fun _ => ?_
  · subst y0
    refine Eff.after (State.voidItems_eff _) ?_
    refine Eff.after (State.abortStaging_eff _) ?_
    assumption
  clear_value y0
  extract_lets -merge -underBinder +onlyGivenNames y1
  refine h0.named (x := y1) ?_ fun _ => ?_
  · subst y1
    refine Eff.forEach ?_ fun _ _ _ => ?_
    · assumption
    · refine Eff.ite ?_ ?_
      · split
        · refine Eff.after (State.makeDue_eff _ _) ?_
          assumption
        · assumption
      · assumption
  clear_value y1
  extract_lets -merge -underBinder +onlyGivenNames y2 y3
  refine h0.named (x := y3) ?_ fun _ => ?_
  · subst y3
    subst y2
    refine Eff.put ?_
    assumption
  clear_value y2 y3
  refine Eff.put ?_
  assumption

theorem State.activatePending_eff (s : State) : Eff [.objs, .staging, .cal, .recorder, .power, .otp] s (State.activatePending s) := by
  delta State.activatePending
  refine Eff.start fun h0 => ?_
  split
  · assumption
  · split
    · refine Eff.after (State.report_eff _ _ _ _) ?_
      refine Eff.after (State.writeBoot_eff _ _ _) ?_
      assumption
    · extract_lets -merge -underBinder +onlyGivenNames y0
      refine h0.named (x := y0) ?_ fun _ => ?_
      · subst y0
        refine Eff.after (State.becomeActive_eff _ _) ?_
        refine Eff.after (State.coreStop_eff _) ?_
        assumption
      clear_value y0
      refine Eff.put ?_
      assumption

theorem State.writeSlot_eff (s : State) (i : Nat) (m : Image) : Eff [.objs, .recorder, .power] s (State.writeSlot s i m) := by
  delta State.writeSlot
  refine Eff.start fun h0 => ?_
  extract_lets -merge -underBinder +onlyGivenNames y0
  try clear_value y0
  refine Eff.after (State.report_eff _ _ _ _) ?_
  refine Eff.put ?_
  assumption

end Sys2Proof.Machine
end

