-- ==== Sys2Proof/Laws/ResetOps.lean ====
section
/-! SUPPORT. What each operation of Sys2Proof/Machine/ResetOps.lean may change: `x_eff` names the parts of the state that x may change and says that
x keeps every form of Sys2Proof/Safety.lean; `x_effs` says so of an operation with operations as arguments, under the same of each argument. -/

set_option Elab.async false

namespace Sys2Proof.Machine

theorem State.enterPs3_eff (s : State) :
    Eff [.objs, .doms, .pickups, .channels, .decoding, .sides, .spindles, .axes, .host, .ramps, .signpost, .staging, .mem, .cal, .recorder, .milestone, .traces, .xspAin, .xspDir, .verge, .power] s (State.enterPs3 s) := by
  delta State.enterPs3
  refine Eff.start fun h0 => ?_
  extract_lets -merge -underBinder +onlyGivenNames y0
  refine h0.named (x := y0) ?_ fun _ => ?_
  · subst y0
    refine Eff.after (State.loseIslands_eff _ _) ?_
    assumption
  clear_value y0
  refine Eff.put ?_
  assumption

theorem State.systemReset_eff (s : State) (cause : Nat) :
    Eff [.objs, .doms, .pickups, .channels, .decoding, .sides, .spindles, .axes, .host, .ramps, .signpost, .staging, .mem, .cal, .recorder, .milestone, .traces, .xspAin, .xspDir, .power] s (State.systemReset s cause) := by
  delta State.systemReset
  refine Eff.start fun h0 => ?_
  extract_lets -merge -underBinder +onlyGivenNames y0
  try clear_value y0
  extract_lets -merge -underBinder +onlyGivenNames y1
  refine h0.named (x := y1) ?_ fun _ => ?_
  · subst y1
    refine Eff.after (State.loseIslands_eff _ _) ?_
    assumption
  clear_value y1
  refine Eff.forEach ?_ fun _ _ _ => ?_
  · assumption
  · extract_lets -merge -underBinder +onlyGivenNames y2
    try clear_value y2
    refine Eff.ite ?_ ?_
    · assumption
    · refine Eff.after (State.updM_eff _ _ _) ?_
      assumption

end Sys2Proof.Machine
end

