-- ==== Sys2Proof/Laws/Recorder.lean ====
section
/-! SUPPORT. What each operation of Sys2Proof/Machine/Recorder.lean may change: `x_eff` names the parts of the state that x may change and says that
x keeps every form of Sys2Proof/Safety.lean; `x_effs` says so of an operation with operations as arguments, under the same of each argument. -/

set_option Elab.async false

namespace Sys2Proof.Machine

theorem State.noteErrorSeq_eff (s : State) (tag : Option Nat) (n : Nat) : Eff [.host] s (State.noteErrorSeq s tag n) := by
  delta State.noteErrorSeq
  refine Eff.start fun h0 => ?_
  split
  · assumption
  · refine Eff.forEach ?_ fun _ _ _ => ?_
    · assumption
    · refine Eff.after (State.updCtrl_eff _ _ _) ?_
      assumption

theorem State.acceptReport_eff (s : State) (src : IslandId) (r : Report) (w : Option Nat) :
    Eff [.objs, .host, .recorder, .milestone, .verge] s (State.acceptReport s src r w) := by
  delta State.acceptReport
  refine Eff.start fun h0 => ?_
  extract_lets -merge -underBinder +onlyGivenNames y0
  try clear_value y0
  extract_lets -merge -underBinder +onlyGivenNames y1
  refine h0.named (x := y1) ?_ fun _ => ?_
  · subst y1
    refine Eff.ite ?_ ?_
    · assumption
    · refine Eff.after (State.takeSeq_eff _ _) ?_
      assumption
  clear_value y1
  extract_lets -merge -underBinder +onlyGivenNames y2
  refine h0.named (x := y2) ?_ fun _ => ?_
  · subst y2
    refine Eff.after (State.acceptRecord_eff _ _) ?_
    assumption
  clear_value y2
  refine Eff.after (State.attributes_eff _ _) ?_
  refine Eff.after (State.noteErrorSeq_eff _ _ _) ?_
  assumption

theorem State.checkOrigin_eff (s : State) : Eff [.objs, .recorder, .milestone, .verge] s (State.checkOrigin s) := by
  delta State.checkOrigin
  refine Eff.start fun h0 => ?_
  refine Eff.ite ?_ ?_
  · refine Eff.after (State.ownNext_eff _ _ _) ?_
    refine Eff.after (State.updR_eff _ _) ?_
    assumption
  · assumption

theorem State.closeGap_eff (s : State) : Eff [.objs, .recorder, .milestone, .verge] s (State.closeGap s) := by
  delta State.closeGap
  refine Eff.start fun h0 => ?_
  split
  · assumption
  · refine Eff.ite ?_ ?_
    · extract_lets -merge -underBinder +onlyGivenNames y0
      try clear_value y0
      extract_lets -merge -underBinder +onlyGivenNames y1
      refine h0.named (x := y1) ?_ fun _ => ?_
      · subst y1
        refine Eff.after (State.updR_eff _ _) ?_
        assumption
      clear_value y1
      extract_lets -merge -underBinder +onlyGivenNames y2
      refine h0.named (x := y2) ?_ fun _ => ?_
      · subst y2
        refine Eff.after (State.ownRecord_eff _ _ _ _ _ _ _) ?_
        assumption
      clear_value y2
      refine Eff.after (State.ownRecord_eff _ _ _ _ _ _ _) ?_
      assumption
    · assumption

theorem State.closeSummary_eff (s : State) (code : Nat) : Eff [.objs, .recorder, .milestone, .verge] s (State.closeSummary s code) := by
  delta State.closeSummary
  refine Eff.start fun h0 => ?_
  split
  · assumption
  · refine Eff.ite ?_ ?_
    · refine Eff.after (State.ownRecord_eff _ _ _ _ _ _ _) ?_
      refine Eff.after (State.updR_eff _ _) ?_
      assumption
    · assumption

theorem State.firstHeader_eff (s : State) : Eff [.recorder, .verge] s (State.firstHeader s) := by
  delta State.firstHeader
  refine Eff.start fun h0 => ?_
  extract_lets -merge -underBinder +onlyGivenNames y0
  try clear_value y0
  refine Eff.after (State.updR_eff _ _) ?_
  refine Eff.put ?_
  assumption

theorem execEventStoreInit_eff (cl : Client) (v : Int) (authorised : Option Bool) (s : State) :
    OutEff [.freeCount, .objs, .signpost, .recorder, .verge] s (execEventStoreInit cl v authorised s) := by
  delta execEventStoreInit
  refine OutEff.start fun h0 => ?_
  refine OutEff.next ?_
  refine State.authWrite_effs ?_ (fun _ _ => ?_)
  · assumption
  · refine Eff.after (State.firstHeader_eff _) ?_
    refine Eff.after (State.updR_eff _ _) ?_
    refine Eff.after (State.setOb_eff _ _ _ _ _) ?_
    assumption

theorem execFlushRequest_eff (cl : Client) (v : Int) (s : State) :
    OutEff [.freeCount, .objs, .signpost, .recorder, .verge] s (execFlushRequest cl v s) := by
  delta execFlushRequest
  refine OutEff.start fun h0 => ?_
  refine OutEff.next ?_
  refine State.hostWrite_effs ?_ (fun _ _ => ?_)
  · assumption
  · refine Eff.after (State.startFlush_eff _ _) ?_
    assumption

theorem State.suppress_eff (s : State) (r : Report) : Eff [.objs, .host, .recorder, .milestone, .verge] s (State.suppress s r) := by
  delta State.suppress
  refine Eff.start fun h0 => ?_
  extract_lets -merge -underBinder +onlyGivenNames y0
  refine h0.named (x := y0) ?_ fun _ => ?_
  · subst y0
    refine Eff.after (State.bump_eff _ _ _ _ _) ?_
    refine Eff.after (State.closeSummary_eff _ _) ?_
    assumption
  clear_value y0
  split
  · refine Eff.after (State.noteErrorSeq_eff _ _ _) ?_
    refine Eff.after (State.updR_eff _ _) ?_
    assumption
  · extract_lets -merge -underBinder +onlyGivenNames y1
    try clear_value y1
    refine Eff.after (State.noteErrorSeq_eff _ _ _) ?_
    refine Eff.after (State.updR_eff _ _) ?_
    refine Eff.after (State.takeSeq_eff _ _) ?_
    assumption

theorem State.judgeReport_eff (s : State) (src : IslandId) (r : Report) :
    Eff [.objs, .host, .recorder, .milestone, .verge] s (State.judgeReport s src r) := by
  delta State.judgeReport
  refine Eff.start fun h0 => ?_
  extract_lets -merge -underBinder +onlyGivenNames y0
  refine h0.named (x := y0) ?_ fun _ => ?_
  · subst y0
    refine Eff.after (State.matchTrigger_eff _ _) ?_
    assumption
  clear_value y0
  split
  · refine Eff.after (State.acceptReport_eff _ _ _ _) ?_
    assumption
  · refine Eff.ite ?_ ?_
    · refine Eff.after (State.acceptReport_eff _ _ _ _) ?_
      assumption
    · extract_lets -merge -underBinder +onlyGivenNames y1
      try clear_value y1
      refine Eff.ite ?_ ?_
      · refine Eff.after (State.acceptReport_eff _ _ _ _) ?_
        refine Eff.after (State.setTokens_eff _ _ _) ?_
        assumption
      · refine Eff.after (State.suppress_eff _ _) ?_
        assumption

theorem State.runClear_eff (s : State) (v : Nat) (client : Nat) : Eff [.objs, .recorder, .milestone, .verge] s (State.runClear s v client) := by
  delta State.runClear
  refine Eff.start fun h0 => ?_
  extract_lets -merge -underBinder +onlyGivenNames y0 y1
  try clear_value y0 y1
  extract_lets -merge -underBinder +onlyGivenNames y2
  refine h0.named (x := y2) ?_ fun _ => ?_
  · subst y2
    refine Eff.after (State.writeHeader_eff _ _) ?_
    assumption
  clear_value y2
  extract_lets -merge -underBinder +onlyGivenNames y3
  refine h0.named (x := y3) ?_ fun _ => ?_
  · subst y3
    refine Eff.after (State.ownNext_eff _ _ _) ?_
    assumption
  clear_value y3
  refine Eff.after (State.updR_eff _ _) ?_
  assumption

theorem execRunningAreaClear_eff (cl : Client) (v : Int) (authorised : Option Bool) (s : State) :
    OutEff [.freeCount, .objs, .signpost, .recorder, .milestone, .verge] s (execRunningAreaClear cl v authorised s) := by
  delta execRunningAreaClear
  refine OutEff.start fun h0 => ?_
  extract_lets -merge -underBinder +onlyGivenNames y0 y1 y2
  try clear_value y0 y1 y2
  refine OutEff.next ?_
  refine State.authWrite_effs ?_ (fun _ _ => ?_)
  · assumption
  · extract_lets -merge -underBinder +onlyGivenNames y3
    refine h0.named (x := y3) ?_ fun _ => ?_
    · subst y3
      refine Eff.after (State.setOb_eff _ _ _ _ _) ?_
      assumption
    clear_value y3
    refine Eff.ite ?_ ?_
    · refine Eff.after (State.updR_eff _ _) ?_
      assumption
    · refine Eff.after (State.runClear_eff _ _ _) ?_
      assumption

theorem State.eraseDone_eff (s : State) (failed : Bool) : Eff [.objs, .recorder, .milestone, .verge] s (State.eraseDone s failed) := by
  delta State.eraseDone
  refine Eff.start fun h0 => ?_
  split
  · assumption
  · extract_lets -merge -underBinder +onlyGivenNames y0
    try clear_value y0
    extract_lets -merge -underBinder +onlyGivenNames y1
    refine h0.named (x := y1) ?_ fun _ => ?_
    · subst y1
      refine Eff.after (State.updR_eff _ _) ?_
      assumption
    clear_value y1
    refine Eff.ite ?_ ?_
    · refine Eff.after (State.ownNext_eff _ _ _) ?_
      refine Eff.after (State.updR_eff _ _) ?_
      assumption
    · assumption

theorem execEventReport_eff (island : IslandId) (s : State) : OutEff [.objs, .host, .recorder, .milestone, .verge] s (execEventReport island s) := by
  delta execEventReport
  refine OutEff.start fun h0 => ?_
  refine State.when_effs ?_ (fun _ _ => ?_)
  · assumption
  · split
    · assumption
    · rename_i e
      refine Eff.after (State.judgeReport_eff _ _ _) ?_
      refine Eff.after (State.updR_eff _ _ (queues_upd fun h => ?_)) ?_
      · refine Nat.le_trans (Nat.le_succ _) (Nat.le_trans (Nat.le_of_eq ?_) h)
        rw [e]; rfl
      assumption

theorem execFlushDone_eff (s : State) :
    OutEff [.objs, .doms, .pickups, .channels, .decoding, .sides, .spindles, .axes, .host, .ramps, .signpost, .staging, .mem, .cal, .recorder, .milestone, .traces, .xspAin, .xspDir, .verge, .power] s (execFlushDone s) := by
  delta execFlushDone
  refine OutEff.start fun h0 => ?_
  refine State.when_effs ?_ (fun _ _ => ?_)
  · assumption
  · split
    · assumption
    · refine Eff.ite ?_ ?_
      · assumption
      · extract_lets -merge -underBinder +onlyGivenNames y0
        refine h0.named (x := y0) ?_ fun _ => ?_
        · subst y0
          refine Eff.after (State.maxOb_eff _ _ _ _ _) ?_
          refine Eff.after (State.updR_eff _ _) ?_
          assumption
        clear_value y0
        extract_lets -merge -underBinder +onlyGivenNames y1
        refine h0.named (x := y1) ?_ fun _ => ?_
        · subst y1
          split
          · refine Eff.after (State.runClear_eff _ _ _) ?_
            assumption
          · assumption
        clear_value y1
        split
        · refine Eff.after (State.enterPs3_eff _) ?_
          assumption
        · refine Eff.after (State.systemReset_eff _ _) ?_
          assumption
        · assumption

theorem execPageProgram_eff (s : State) : OutEff [.recorder] s (execPageProgram s) := by
  delta execPageProgram
  refine OutEff.start fun h0 => ?_
  refine State.when_effs ?_ (fun _ _ => ?_)
  · assumption
  · split
    · assumption
    · extract_lets -merge -underBinder +onlyGivenNames y0 y1 y2 y3
      try clear_value y0 y1 y2 y3
      refine Eff.after (State.updR_eff _ _ (hb := fun h => by
        dsimp only; split
        · rw [List.length_map]; exact h
        · exact h)) ?_
      assumption

theorem execPageProgramDone_eff (failed : Bool) (s : State) : OutEff [.objs, .recorder, .milestone, .verge] s (execPageProgramDone failed s) := by
  delta execPageProgramDone
  refine OutEff.start fun h0 => ?_
  refine State.when_effs ?_ (fun _ _ => ?_)
  · assumption
  · extract_lets -merge -underBinder +onlyGivenNames y0 y1
    try clear_value y0 y1
    refine Eff.ite ?_ ?_
    · refine Eff.after (State.eraseDone_eff _ _) ?_
      assumption
    · refine Eff.ite ?_ ?_
      · refine Eff.after (State.ownNext_eff _ _ _) ?_
        refine Eff.after (State.updR_eff _ _) ?_
        assumption
      · extract_lets -merge -underBinder +onlyGivenNames y2
        refine h0.named (x := y2) ?_ fun _ => ?_
        · subst y2
          refine Eff.after (State.updR_eff _ _) ?_
          assumption
        clear_value y2
        refine Eff.after (State.checkOrigin_eff _) ?_
        refine Eff.after (State.closeGap_eff _) ?_
        assumption

theorem execReportQueueOverflow_eff (island : IslandId) (s : State) :
    OutEff [.objs, .recorder, .milestone, .verge] s (execReportQueueOverflow island s) := by
  delta execReportQueueOverflow
  refine OutEff.start fun h0 => ?_
  extract_lets -merge -underBinder +onlyGivenNames y0
  try clear_value y0
  refine State.when_effs ?_ (fun _ _ => ?_)
  · assumption
  · extract_lets -merge -underBinder +onlyGivenNames y1
    refine h0.named (x := y1) ?_ fun _ => ?_
    · subst y1
      refine Eff.after (State.ownRecord_eff _ _ _ _ _ _ _) ?_
      assumption
    clear_value y1
    extract_lets -merge -underBinder +onlyGivenNames y2
    try clear_value y2
    refine Eff.after (State.updR_eff _ _) ?_
    refine Eff.after (State.takeSeq_eff _ _) ?_
    assumption

theorem execSummaryClose_eff (code : Nat) (s : State) : OutEff [.objs, .recorder, .milestone, .verge] s (execSummaryClose code s) := by
  delta execSummaryClose
  refine OutEff.start fun h0 => ?_
  refine State.when_effs ?_ (fun _ _ => ?_)
  · assumption
  · refine Eff.after (State.closeSummary_eff _ _) ?_
    assumption

theorem execTickMark_eff (s : State) : OutEff [.objs, .recorder, .milestone, .verge] s (execTickMark s) := by
  delta execTickMark
  refine OutEff.start fun h0 => ?_
  refine State.when_effs ?_ (fun _ _ => ?_)
  · assumption
  · refine Eff.after (State.ownNext_eff _ _ _) ?_
    refine Eff.after (State.updR_eff _ _) ?_
    assumption

end Sys2Proof.Machine
end

