-- ==== Sys2Proof/Laws/PowerOps.lean ====
section
/-! SUPPORT. What each operation of Sys2Proof/Machine/PowerOps.lean may change: `x_eff` names the parts of the state that x may change and says that
x keeps every form of Sys2Proof/Safety.lean; `x_effs` says so of an operation with operations as arguments, under the same of each argument. -/

set_option Elab.async false

namespace Sys2Proof.Machine

theorem State.drainQueue_eff (s : State) (i : IslandId) : Eff [.objs, .host, .recorder, .milestone, .verge] s (State.drainQueue s i) := by
  delta State.drainQueue
  refine Eff.start fun h0 => ?_
  refine Eff.ite ?_ ?_
  · assumption
  · extract_lets -merge -underBinder +onlyGivenNames y0
    try clear_value y0
    extract_lets -merge -underBinder +onlyGivenNames y1
    refine h0.named (x := y1) ?_ fun _ => ?_
    · subst y1
      refine Eff.after (State.updR_eff _ _) ?_
      assumption
    clear_value y1
    refine Eff.forEach ?_ fun _ _ _ => ?_
    · assumption
    · refine Eff.after (State.judgeReport_eff _ _ _) ?_
      assumption

theorem State.resetSide_eff (s : State) (p : PickupId) (c : CtrlId) : Eff [.objs, .channels, .sides, .host, .recorder] s (State.resetSide s p c) := by
  delta State.resetSide
  refine Eff.start fun h0 => ?_
  extract_lets -merge -underBinder +onlyGivenNames y0 y1 y2 y3 y4 y5
  try clear_value y0 y1 y2 y3 y4 y5
  extract_lets -merge -underBinder +onlyGivenNames y6
  refine h0.named (x := y6) ?_ fun _ => ?_
  · subst y6
    refine Eff.ite ?_ ?_
    · refine Eff.after (State.abandonRun_eff _ _ _) ?_
      assumption
    · assumption
  clear_value y6
  extract_lets -merge -underBinder +onlyGivenNames y7
  refine h0.named (x := y7) ?_ fun _ => ?_
  · subst y7
    refine Eff.after (State.updS_eff _ _ _) ?_
    assumption
  clear_value y7
  extract_lets -merge -underBinder +onlyGivenNames y8
  refine h0.named (x := y8) ?_ fun _ => ?_
  · subst y8
    refine Eff.forEach ?_ fun _ _ _ => ?_
    · assumption
    · refine Eff.after (State.updZone_eff _ _ _ _) ?_
      assumption
  clear_value y8
  refine Eff.forEach ?_ fun _ _ _ => ?_
  · assumption
  · refine Eff.after (State.finishCmd_eff _ _ _) ?_
    assumption

theorem State.resetController_eff (s : State) (c : CtrlId) (kind : Nat) :
    Eff [.objs, .pickups, .channels, .decoding, .sides, .spindles, .axes, .host, .ramps, .staging, .cal, .recorder, .power, .otp] s (State.resetController s c kind) := by
  delta State.resetController
  refine Eff.start fun h0 => ?_
  extract_lets -merge -underBinder +onlyGivenNames y0
  try clear_value y0
  extract_lets -merge -underBinder +onlyGivenNames y1
  refine h0.named (x := y1) ?_ fun _ => ?_
  · subst y1
    refine Eff.forEach ?_ fun _ _ _ => ?_
    · assumption
    · refine Eff.after (State.resetSide_eff _ _ _) ?_
      assumption
  clear_value y1
  extract_lets -merge -underBinder +onlyGivenNames y2
  refine h0.named (x := y2) ?_ fun _ => ?_
  · subst y2
    refine Eff.after (State.leaveRamps_eff _ _) ?_
    assumption
  clear_value y2
  extract_lets -merge -underBinder +onlyGivenNames y3
  refine h0.named (x := y3) ?_ fun _ => ?_
  · subst y3
    refine Eff.forEach ?_ fun _ _ _ => ?_
    · assumption
    · refine Eff.after (State.leaveReads_eff _ _ _) ?_
      assumption
  clear_value y3
  extract_lets -merge -underBinder +onlyGivenNames y4
  refine h0.named (x := y4) ?_ fun _ => ?_
  · subst y4
    refine Eff.after (State.noteEnded_eff _ _) ?_
    assumption
  clear_value y4
  extract_lets -merge -underBinder +onlyGivenNames y5
  try clear_value y5
  extract_lets -merge -underBinder +onlyGivenNames y6 y7
  refine h0.named (x := y7) ?_ fun _ => ?_
  · subst y7
    subst y6
    refine Eff.put ?_
    assumption
  clear_value y6 y7
  extract_lets -merge -underBinder +onlyGivenNames y8
  refine h0.named (x := y8) ?_ fun _ => ?_
  · subst y8
    refine Eff.after (State.updCtrl_eff _ _ _) ?_
    assumption
  clear_value y8
  extract_lets -merge -underBinder +onlyGivenNames y9
  refine h0.named (x := y9) ?_ fun _ => ?_
  · subst y9
    refine Eff.after (State.report_eff _ _ _ _) ?_
    refine Eff.after (State.bump_eff _ _ _ _ _) ?_
    refine Eff.after (State.bump_eff _ _ _ _ _) ?_
    assumption
  clear_value y9
  extract_lets -merge -underBinder +onlyGivenNames y10
  refine h0.named (x := y10) ?_ fun _ => ?_
  · subst y10
    refine Eff.after (State.endSelfTest_eff _ _ _) ?_
    assumption
  clear_value y10
  refine Eff.after (State.activatePending_eff _) ?_
  refine Eff.after (State.settleShutdowns_eff _) ?_
  assumption

theorem State.resetObjects_eff (s : State) (i : IslandId) : Eff [.objs, .recorder] s (State.resetObjects s i) := by
  unfold State.resetObjects
  refine Eff.forEach ?_ fun _ _ h => (State.noteChange_eff _ _).after h
  refine ⟨fun q hq => by cases q <;> first | exact absurd (by decide) hq | rfl, ⟨rfl, .refl _, fun h => ⟨Sparse.rising_filter h.1, h.2⟩, id, id, id, id⟩⟩

theorem State.islandReset_eff (s : State) (i : IslandId) (client : Nat) :
    Eff [.objs, .pickups, .channels, .decoding, .sides, .spindles, .axes, .host, .ramps, .staging, .cal, .recorder, .milestone, .verge, .power, .otp] s (State.islandReset s i client) := by
  delta State.islandReset
  refine Eff.start fun h0 => ?_
  extract_lets -merge -underBinder +onlyGivenNames y0
  refine h0.named (x := y0) ?_ fun _ => ?_
  · subst y0
    refine Eff.after (State.bump_eff _ _ _ _ _) ?_
    refine Eff.after (State.report_eff _ _ _ _) ?_
    assumption
  clear_value y0
  extract_lets -merge -underBinder +onlyGivenNames y1 y2
  refine h0.named (x := y2) ?_ fun _ => ?_
  · subst y2
    subst y1
    refine Eff.ite ?_ ?_
    · refine Eff.put ?_
      assumption
    · assumption
  clear_value y1 y2
  extract_lets -merge -underBinder +onlyGivenNames y3
  refine h0.named (x := y3) ?_ fun _ => ?_
  · subst y3
    refine Eff.dite (fun _ => ?_) fun _ => ?_
    · extract_lets -merge -underBinder +onlyGivenNames y4
      try clear_value y4
      refine Eff.after (State.updC_eff _ _ _) ?_
      refine Eff.after (State.truncateFrame_eff _ _) ?_
      assumption
    · refine Eff.dite (fun _ => ?_) fun _ => ?_
      · extract_lets -merge -underBinder +onlyGivenNames y5
        try clear_value y5
        extract_lets -merge -underBinder +onlyGivenNames y6
        refine h0.named (x := y6) ?_ fun _ => ?_
        · subst y6
          refine Eff.ite ?_ ?_
          · assumption
          · refine Eff.after (State.parked_eff _ _) ?_
            refine Eff.after (State.park_eff _ _ _) ?_
            assumption
        clear_value y6
        refine Eff.after (State.updA_eff _ _ _) ?_
        refine Eff.after (State.losePosition_eff _ _ _) ?_
        refine Eff.after (State.updP_eff _ _ _) ?_
        assumption
      · refine Eff.dite (fun _ => ?_) fun _ => ?_
        · extract_lets -merge -underBinder +onlyGivenNames y7
          try clear_value y7
          extract_lets -merge -underBinder +onlyGivenNames y8
          refine h0.named (x := y8) ?_ fun _ => ?_
          · subst y8
            refine Eff.after (State.resetSpindle_eff _ _) ?_
            refine Eff.after (State.parkBoth_eff _ _ _) ?_
            assumption
          clear_value y8
          refine Eff.ite ?_ ?_
          · refine Eff.forEach ?_ fun _ _ _ => ?_
            · assumption
            · refine Eff.after (State.updA_eff _ _ _) ?_
              refine Eff.after (State.losePosition_eff _ _ _) ?_
              assumption
          · assumption
        · refine Eff.ite ?_ ?_
          · refine Eff.forEach ?_ fun _ _ _ => ?_
            · assumption
            · refine Eff.after (State.resetController_eff _ _ _) ?_
              assumption
          · assumption
  clear_value y3
  refine Eff.after (State.resetObjects_eff _ _) ?_
  refine Eff.after (State.drainQueue_eff _ _) ?_
  assumption

theorem State.stopMedia_eff (s : State) : Eff [.objs, .pickups, .channels, .sides, .spindles, .axes, .host, .recorder] s (State.stopMedia s) := by
  delta State.stopMedia
  refine Eff.start fun h0 => ?_
  extract_lets -merge -underBinder +onlyGivenNames y0
  refine h0.named (x := y0) ?_ fun _ => ?_
  · subst y0
    refine Eff.forEach ?_ fun _ _ _ => ?_
    · assumption
    · refine Eff.after (State.park_eff _ _ _) ?_
      assumption
  clear_value y0
  refine Eff.forEach ?_ fun _ _ _ => ?_
  · assumption
  · refine Eff.after (State.stopSpindle_eff _ _) ?_
    assumption

theorem State.startReset_eff (s : State) (cause : Nat) :
    Eff [.objs, .doms, .pickups, .channels, .decoding, .sides, .spindles, .axes, .host, .ramps, .signpost, .staging, .mem, .cal, .recorder, .milestone, .traces, .xspAin, .xspDir, .verge, .power] s (State.startReset s cause) := by
  unfold State.startReset
  refine .ite ?_ (State.systemReset_eff _ _).mono
  dsimp only
  generalize hu : (s.forEach (allFin 48) State.drainQueue).startFlush .reset = u
  have h0 : Eff [.objs, .doms, .pickups, .channels, .decoding, .sides, .spindles, .axes, .host, .ramps, .signpost, .staging, .mem, .cal, .recorder, .milestone, .traces, .xspAin, .xspDir, .verge, .power] s u := by
    rw [← hu]
    exact (State.startFlush_eff _ _).after (Eff.forEach (.refl _ _) fun _ _ h => (State.drainQueue_eff _ _).after h)
  have h1 := State.systemReset_eff u cause
  clear hu
  refine ⟨h0.frame.trans ((h1.frame.mono (subset_of_partsIn (by decide))).trans fun q hq => ?_),
    h0.good.trans ⟨h1.good.pending, h1.good.otp, h1.good.objects, id, id, id, h1.good.ramps⟩⟩
  cases q <;> first | exact absurd (by decide) hq | rfl

end Sys2Proof.Machine
end

