-- ==== Sys2Proof/Laws/Controllers.lean ====
section
/-! SUPPORT. What each operation of Sys2Proof/Machine/Controllers.lean may change: `x_eff` names the parts of the state that x may change and says that
x keeps every form of Sys2Proof/Safety.lean; `x_effs` says so of an operation with operations as arguments, under the same of each argument. -/

set_option Elab.async false

namespace Sys2Proof.Machine

theorem execLatencyReset_eff (cl : Client) (v : Int) (s : State) :
    OutEff [.freeCount, .objs, .host, .signpost, .recorder] s (execLatencyReset cl v s) := by
  delta execLatencyReset
  refine OutEff.start fun h0 => ?_
  refine OutEff.next ?_
  refine State.hostWrite_effs ?_ (fun _ _ => ?_)
  · assumption
  · refine Eff.put ?_
    assumption

theorem State.enterPs2_eff (s : State) : Eff [.objs, .channels, .axes, .recorder] s (State.enterPs2 s) := by
  delta State.enterPs2
  refine Eff.start fun h0 => ?_
  extract_lets -merge -underBinder +onlyGivenNames y0
  refine h0.named (x := y0) ?_ fun _ => ?_
  · subst y0
    refine Eff.forEach ?_ fun _ _ _ => ?_
    · assumption
    · refine Eff.ite ?_ ?_
      · refine Eff.after (State.disableAxis_eff _ _ _) ?_
        assumption
      · assumption
  clear_value y0
  refine Eff.forEach ?_ fun _ _ _ => ?_
  · assumption
  · refine Eff.after (State.updC_eff _ _ _) ?_
    assumption

theorem State.leaveForPs3_eff (s : State) :
    Eff [.objs, .doms, .pickups, .channels, .decoding, .sides, .spindles, .axes, .host, .ramps, .signpost, .staging, .mem, .cal, .recorder, .milestone, .traces, .xspAin, .xspDir, .verge, .power] s (State.leaveForPs3 s) := by
  delta State.leaveForPs3
  refine Eff.start fun h0 => ?_
  extract_lets -merge -underBinder +onlyGivenNames y0
  refine h0.named (x := y0) ?_ fun _ => ?_
  · subst y0
    refine Eff.forEach ?_ fun _ _ _ => ?_
    · assumption
    · refine Eff.ite ?_ ?_
      · refine Eff.after (State.disableAxis_eff _ _ _) ?_
        assumption
      · assumption
  clear_value y0
  extract_lets -merge -underBinder +onlyGivenNames y1
  refine h0.named (x := y1) ?_ fun _ => ?_
  · subst y1
    refine Eff.after (State.abortStaging_eff _) ?_
    assumption
  clear_value y1
  extract_lets -merge -underBinder +onlyGivenNames y2
  refine h0.named (x := y2) ?_ fun _ => ?_
  · subst y2
    refine Eff.forEach ?_ fun _ _ _ => ?_
    · assumption
    · refine Eff.after (State.updCtrl_eff _ _ _) ?_
      assumption
  clear_value y2
  refine Eff.ite ?_ ?_
  · refine Eff.after (State.startFlush_eff _ _) ?_
    assumption
  · refine Eff.after (State.enterPs3_eff _) ?_
    assumption

theorem State.wakeByPort_eff (s : State) :
    Eff [.objs, .doms, .pickups, .channels, .decoding, .sides, .spindles, .axes, .host, .ramps, .signpost, .staging, .mem, .cal, .recorder, .milestone, .traces, .xspAin, .xspDir, .verge, .power] s (State.wakeByPort s) := by
  delta State.wakeByPort
  refine Eff.start fun h0 => ?_
  extract_lets -merge -underBinder +onlyGivenNames y0
  refine h0.named (x := y0) ?_ fun _ => ?_
  · subst y0
    refine Eff.after (State.loseIslands_eff _ _) ?_
    assumption
  clear_value y0
  refine Eff.put ?_
  assumption

theorem execAbruptShutdown_eff (c : CtrlId) (s : State) :
    OutEff [.objs, .pickups, .channels, .decoding, .sides, .spindles, .axes, .host, .ramps, .staging, .cal, .recorder, .power, .otp] s (execAbruptShutdown c s) := by
  delta execAbruptShutdown
  refine OutEff.start fun h0 => ?_
  refine State.when_effs ?_ (fun _ _ => ?_)
  · assumption
  · refine Eff.after (State.report_eff _ _ _ _) ?_
    refine Eff.after (State.updCtrl_eff _ _ _) ?_
    refine Eff.after (State.resetController_eff _ _ _) ?_
    assumption

theorem execControllerEnable_eff (c : CtrlId) (weighted : Bool) (sqSize : Nat) (cqSize : Nat) (s : State) :
    OutEff [.objs, .host, .recorder] s (execControllerEnable c weighted sqSize cqSize s) := by
  delta execControllerEnable
  refine OutEff.start fun h0 => ?_
  extract_lets -merge -underBinder +onlyGivenNames y0
  try clear_value y0
  refine State.when_effs ?_ (fun _ _ => ?_)
  · assumption
  · refine Eff.after (State.report_eff _ _ _ _) ?_
    refine Eff.after (State.updCtrl_eff _ _ _) ?_
    assumption

theorem execControllerReset_eff (c : CtrlId) (kind : Fin 4) (s : State) :
    OutEff [.objs, .doms, .pickups, .channels, .decoding, .sides, .spindles, .axes, .host, .ramps, .signpost, .staging, .mem, .cal, .recorder, .milestone, .traces, .xspAin, .xspDir, .verge, .power, .otp] s (execControllerReset c kind s) := by
  delta execControllerReset
  refine OutEff.start fun h0 => ?_
  refine OutEff.ite ?_ ?_
  · refine OutEff.next ?_
    refine Eff.ite ?_ ?_
    · refine Eff.after (State.wakeByPort_eff _) ?_
      assumption
    · assumption
  · refine State.when_effs ?_ (fun _ _ => ?_)
    · assumption
    · refine Eff.after (State.resetController_eff _ _ _) ?_
      assumption

theorem execLinkDown_eff (c : CtrlId) (s : State) : OutEff [.objs, .host, .recorder] s (execLinkDown c s) := by
  delta execLinkDown
  refine OutEff.start fun h0 => ?_
  refine State.when_effs ?_ (fun _ _ => ?_)
  · assumption
  · refine Eff.after (State.report_eff _ _ _ _) ?_
    refine Eff.after (State.updCtrl_eff _ _ _) ?_
    assumption

theorem execLinkUp_eff (c : CtrlId) (rate : Nat) (width : Nat) (s : State) : OutEff [.objs, .host, .recorder] s (execLinkUp c rate width s) := by
  delta execLinkUp
  refine OutEff.start fun h0 => ?_
  refine State.when_effs ?_ (fun _ _ => ?_)
  · assumption
  · extract_lets -merge -underBinder +onlyGivenNames y0
    try clear_value y0
    extract_lets -merge -underBinder +onlyGivenNames y1
    refine h0.named (x := y1) ?_ fun _ => ?_
    · subst y1
      refine Eff.after (State.updCtrl_eff _ _ _) ?_
      assumption
    clear_value y1
    refine Eff.ite ?_ ?_
    · assumption
    · refine Eff.after (State.report_eff _ _ _ _) ?_
      assumption

theorem execNormalShutdown_eff (c : CtrlId) (s : State) : OutEff [.objs, .sides, .host, .recorder] s (execNormalShutdown c s) := by
  delta execNormalShutdown
  refine OutEff.start fun h0 => ?_
  refine State.when_effs ?_ (fun _ _ => ?_)
  · assumption
  · extract_lets -merge -underBinder +onlyGivenNames y0
    refine h0.named (x := y0) ?_ fun _ => ?_
    · subst y0
      refine Eff.after (State.updCtrl_eff _ _ _) ?_
      assumption
    clear_value y0
    extract_lets -merge -underBinder +onlyGivenNames y1
    refine h0.named (x := y1) ?_ fun _ => ?_
    · subst y1
      refine Eff.forEach ?_ fun _ _ _ => ?_
      · assumption
      · refine Eff.after (State.formAll_eff _ _ _) ?_
        assumption
    clear_value y1
    refine Eff.after (State.settleShutdown_eff _ _) ?_
    assumption

theorem execPowerStateEntry_eff (s : State) :
    OutEff [.objs, .pickups, .channels, .sides, .spindles, .axes, .host, .cal, .recorder] s (execPowerStateEntry s) := by
  delta execPowerStateEntry
  refine OutEff.start fun h0 => ?_
  refine State.when_effs ?_ (fun _ _ => ?_)
  · assumption
  · split
    · assumption
    · refine Eff.ite ?_ ?_
      · assumption
      · extract_lets -merge -underBinder +onlyGivenNames y0 y1
        refine h0.named (x := y1) ?_ fun _ => ?_
        · subst y1
          subst y0
          refine Eff.put ?_
          assumption
        clear_value y0 y1
        extract_lets -merge -underBinder +onlyGivenNames y2
        refine h0.named (x := y2) ?_ fun _ => ?_
        · subst y2
          refine Eff.after (State.voidItems_eff _) ?_
          assumption
        clear_value y2
        refine Eff.ite ?_ ?_
        · assumption
        · extract_lets -merge -underBinder +onlyGivenNames y3
          try clear_value y3
          extract_lets -merge -underBinder +onlyGivenNames y4 y5
          refine h0.named (x := y5) ?_ fun _ => ?_
          · subst y5
            subst y4
            refine Eff.put ?_
            assumption
          clear_value y4 y5
          extract_lets -merge -underBinder +onlyGivenNames y6
          refine h0.named (x := y6) ?_ fun _ => ?_
          · subst y6
            refine Eff.ite ?_ ?_
            · refine Eff.forEach ?_ fun _ _ _ => ?_
              · assumption
              · refine Eff.after (State.updS_eff _ _ _) ?_
                assumption
            · assumption
          clear_value y6
          refine Eff.after (State.stopMedia_eff _) ?_
          assumption

theorem execPowerStateEntryEnd_eff (s : State) :
    OutEff [.objs, .doms, .pickups, .channels, .decoding, .sides, .spindles, .axes, .host, .ramps, .signpost, .staging, .mem, .cal, .recorder, .milestone, .traces, .xspAin, .xspDir, .verge, .power] s (execPowerStateEntryEnd s) := by
  delta execPowerStateEntryEnd
  refine OutEff.start fun h0 => ?_
  refine State.when_effs ?_ (fun _ _ => ?_)
  · assumption
  · split
    · assumption
    · refine Eff.ite ?_ ?_
      · assumption
      · extract_lets -merge -underBinder +onlyGivenNames y0
        try clear_value y0
        extract_lets -merge -underBinder +onlyGivenNames y1
        refine h0.named (x := y1) ?_ fun _ => ?_
        · subst y1
          split
          · refine Eff.after (State.finishCmd_eff _ _ _) ?_
            assumption
          · assumption
        clear_value y1
        extract_lets -merge -underBinder +onlyGivenNames y2 y3
        refine h0.named (x := y3) ?_ fun _ => ?_
        · subst y3
          subst y2
          refine Eff.put ?_
          assumption
        clear_value y2 y3
        extract_lets -merge -underBinder +onlyGivenNames y4
        refine h0.named (x := y4) ?_ fun _ => ?_
        · subst y4
          refine Eff.after (State.report_eff _ _ _ _) ?_
          assumption
        clear_value y4
        refine Eff.ite ?_ ?_
        · refine Eff.after (State.leaveForPs3_eff _) ?_
          assumption
        · refine Eff.ite ?_ ?_
          · refine Eff.after (State.enterPs2_eff _) ?_
            assumption
          · refine Eff.ite ?_ ?_
            · refine Eff.after (State.mountAgain_eff _) ?_
              assumption
            · assumption

end Sys2Proof.Machine
end

