-- ==== Sys2Proof/Laws/Firmware.lean ====
section
/-! SUPPORT. What each operation of Sys2Proof/Machine/Firmware.lean may change: `x_eff` names the parts of the state that x may change and says that
x keeps every form of Sys2Proof/Safety.lean; `x_effs` says so of an operation with operations as arguments, under the same of each argument. -/

set_option Elab.async false

namespace Sys2Proof.Machine

theorem State.firmwareCommit_effs {l : List Part} {s0 : State} {s : State} {k : CmdRef} {action : Nat} {f : State → Cmd → State} (h : Eff l s0 s) (h_f : ∀ u v, Eff l s0 u → Eff l s0 (f u v)) (hs : partsIn [.host] l = true := by decide) :
    OutEff l s0 (State.firmwareCommit s k action f) := by
  delta State.firmwareCommit
  refine OutEff.ite ?_ ?_
  · refine OutEff.next ?_
    assumption
  · refine State.admin_effs ?_ (fun _ _ _ => ?_) (partsIn_trans (by decide) hs)
    · assumption
    · refine h_f _ _ ?_
      assumption

theorem State.replaceSlot_effs {l : List Part} {s0 : State} {s : State} {k : CmdRef} {c : Cmd} {next : State → Nat → State} (h : Eff l s0 s) (h_next : ∀ u v, Eff l s0 u → Eff l s0 (next u v)) (hs : partsIn [.objs, .host, .recorder, .power] l = true := by decide) :
    Eff l s0 (State.replaceSlot s k c next) := by
  delta State.replaceSlot
  extract_lets -merge -underBinder +onlyGivenNames y0 y1 y2
  try clear_value y0 y1 y2
  extract_lets -merge -underBinder +onlyGivenNames y3 y4
  refine h.named (x := y4) ?_ fun _ => ?_
  · subst y4
    subst y3
    refine Eff.put (h11 := .inr (subset_of_partsIn hs (by decide))) ?_
    assumption
  clear_value y3 y4
  split
  · refine Eff.after (State.finishCmd_eff _ _ _) ?_ (partsIn_trans (by decide) hs)
    assumption
  · split
    · refine Eff.after (State.finishCmd_eff _ _ _) ?_ (partsIn_trans (by decide) hs)
      assumption
    · refine Eff.ite ?_ ?_
      · refine Eff.after (State.finishCmd_eff _ _ _) ?_ (partsIn_trans (by decide) hs)
        assumption
      · refine h_next _ _ ?_
        refine Eff.after (State.writeSlot_eff _ _ _) ?_ (partsIn_trans (by decide) hs)
        assumption

theorem State.startActivation_eff (s : State) (k : CmdRef) (i : Nat) : Eff [.objs, .host, .recorder] s (State.startActivation s k i) := by
  delta State.startActivation
  refine Eff.start fun h0 => ?_
  extract_lets -merge -underBinder +onlyGivenNames y0
  try clear_value y0
  extract_lets -merge -underBinder +onlyGivenNames y1 y2
  refine h0.named (x := y2) ?_ fun _ => ?_
  · subst y2
    subst y1
    refine Eff.put ?_
    assumption
  clear_value y1 y2
  extract_lets -merge -underBinder +onlyGivenNames y3
  refine h0.named (x := y3) ?_ fun _ => ?_
  · subst y3
    refine Eff.after (State.endSelfTest_eff _ _ _) ?_
    assumption
  clear_value y3
  extract_lets -merge -underBinder +onlyGivenNames y4
  refine h0.named (x := y4) ?_ fun _ => ?_
  · subst y4
    refine Eff.forEach ?_ fun _ _ _ => ?_
    · assumption
    · extract_lets -merge -underBinder +onlyGivenNames y5
      refine h0.named (x := y5) ?_ fun _ => ?_
      · subst y5
        refine Eff.ite ?_ ?_
        · refine Eff.after (State.asyncEvent_eff _ _ _ _) ?_
          assumption
        · assumption
      clear_value y5
      refine Eff.after (State.updCtrl_eff _ _ _) ?_
      assumption
  clear_value y4
  refine Eff.after (State.report_eff _ _ _ _) ?_
  assumption

theorem State.withSlot_effs {l : List Part} {s0 : State} {s : State} {k : CmdRef} {c : Cmd} {f : State → Nat → State} (h : Eff l s0 s) (h_f : ∀ u v, Eff l s0 u → Eff l s0 (f u v)) (hs : partsIn [.host] l = true := by decide) :
    Eff l s0 (State.withSlot s k c f) := by
  delta State.withSlot
  extract_lets -merge -underBinder +onlyGivenNames y0
  try clear_value y0
  split
  · refine Eff.after (State.finishCmd_eff _ _ _) ?_ (partsIn_trans (by decide) hs)
    assumption
  · split
    · refine Eff.after (State.finishCmd_eff _ _ _) ?_ (partsIn_trans (by decide) hs)
      assumption
    · refine h_f _ _ ?_
      assumption

theorem execFirmwareCommitActivateAtReset_eff (k : CmdRef) (s : State) : OutEff [.host, .power] s (execFirmwareCommitActivateAtReset k s) := by
  delta execFirmwareCommitActivateAtReset
  refine OutEff.start fun h0 => ?_
  refine State.firmwareCommit_effs ?_ (fun _ _ _ => ?_)
  · assumption
  · refine State.withSlot_effs ?_ (fun _ _ _ => ?_)
    · assumption
    · refine Eff.after (State.finishCmd_eff _ _ _) ?_
      refine Eff.after (State.writeBoot_eff _ _ _) ?_
      assumption

theorem execFirmwareCommitActivateNow_eff (k : CmdRef) (s : State) : OutEff [.objs, .host, .recorder] s (execFirmwareCommitActivateNow k s) := by
  delta execFirmwareCommitActivateNow
  refine OutEff.start fun h0 => ?_
  refine State.firmwareCommit_effs ?_ (fun _ _ _ => ?_)
  · assumption
  · refine State.withSlot_effs ?_ (fun _ _ _ => ?_)
    · assumption
    · refine Eff.after (State.startActivation_eff _ _ _) ?_
      assumption

theorem execFirmwareCommitReplace_eff (k : CmdRef) (s : State) : OutEff [.objs, .host, .recorder, .power] s (execFirmwareCommitReplace k s) := by
  delta execFirmwareCommitReplace
  refine OutEff.start fun h0 => ?_
  refine State.firmwareCommit_effs ?_ (fun _ _ _ => ?_)
  · assumption
  · refine State.replaceSlot_effs ?_ (fun _ _ _ => ?_)
    · assumption
    · refine Eff.after (State.finishCmd_eff _ _ _) ?_
      assumption

theorem execFirmwareCommitReplaceActivate_eff (k : CmdRef) (s : State) :
    OutEff [.objs, .host, .recorder, .power] s (execFirmwareCommitReplaceActivate k s) := by
  delta execFirmwareCommitReplaceActivate
  refine OutEff.start fun h0 => ?_
  refine State.firmwareCommit_effs ?_ (fun _ _ _ => ?_)
  · assumption
  · refine State.replaceSlot_effs ?_ (fun _ _ _ => ?_)
    · assumption
    · refine Eff.after (State.finishCmd_eff _ _ _) ?_
      refine Eff.after (State.writeBoot_eff _ _ _) ?_
      assumption

theorem execFirmwareImageDownload_eff (k : CmdRef) (s : State) : OutEff [.host] s (execFirmwareImageDownload k s) := by
  delta execFirmwareImageDownload
  refine OutEff.start fun h0 => ?_
  refine State.admin_effs ?_ (fun _ _ _ => ?_)
  · assumption
  · extract_lets -merge -underBinder +onlyGivenNames y0
    try clear_value y0
    refine Eff.after (State.finishCmd_eff _ _ _) ?_
    refine Eff.put ?_
    assumption

theorem execFwActivationDone_eff (s : State) : OutEff [.objs, .host, .recorder, .power, .otp] s (execFwActivationDone s) := by
  delta execFwActivationDone
  refine OutEff.start fun h0 => ?_
  refine State.when_effs ?_ (fun _ _ => ?_)
  · assumption
  · split
    · assumption
    · refine Eff.ite ?_ ?_
      · assumption
      · extract_lets -merge -underBinder +onlyGivenNames y0 y1 y2
        refine h0.named (x := y2) ?_ fun _ => ?_
        · subst y2
          subst y1
          subst y0
          refine Eff.put ?_
          assumption
        clear_value y0 y1 y2
        extract_lets -merge -underBinder +onlyGivenNames y3
        refine h0.named (x := y3) ?_ fun _ => ?_
        · subst y3
          refine Eff.after (State.becomeActive_eff _ _) ?_
          assumption
        clear_value y3
        extract_lets -merge -underBinder +onlyGivenNames y4
        refine h0.named (x := y4) ?_ fun _ => ?_
        · subst y4
          refine Eff.forEach ?_ fun _ _ _ => ?_
          · assumption
          · refine Eff.after (State.updCtrl_eff _ _ _) ?_
            assumption
        clear_value y4
        refine Eff.after (State.report_eff _ _ _ _) ?_
        refine Eff.after (State.finishCmd_eff _ _ _) ?_
        assumption

theorem execFwActivationMediaIdle_eff (s : State) : OutEff [.objs, .host, .staging, .cal, .recorder, .power] s (execFwActivationMediaIdle s) := by
  delta execFwActivationMediaIdle
  refine OutEff.start fun h0 => ?_
  refine State.when_effs ?_ (fun _ _ => ?_)
  · assumption
  · split
    · assumption
    · refine Eff.ite ?_ ?_
      · assumption
      · refine Eff.after (State.bump_eff _ _ _ _ _) ?_
        extract_lets -merge -underBinder +onlyGivenNames y0
        refine h0.named (x := y0) ?_ fun _ => ?_
        · subst y0
          refine Eff.after (State.coreStop_eff _) ?_
          assumption
        clear_value y0
        refine Eff.put ?_
        assumption

end Sys2Proof.Machine
end

