-- ==== Sys2Proof/Laws/Power.lean ====
section
/-! SUPPORT. What each operation of Sys2Proof/Machine/Power.lean may change: `x_eff` names the parts of the state that x may change and says that
x keeps every form of Sys2Proof/Safety.lean; `x_effs` says so of an operation with operations as arguments, under the same of each argument. -/

set_option Elab.async false

namespace Sys2Proof.Machine

theorem State.failStartup_eff (s : State) (cause : Nat) : Eff [.objs, .host, .recorder, .power] s (State.failStartup s cause) := by
  unfold State.failStartup
  have h : Eff [.objs, .host, .recorder, .power] s ((s.setOb Obj.startupFailCause 0 0 cause).forEach (allFin 2) fun s c =>
      s.updCtrl c fun x => { x with cfs := true }) := Eff.forEach (State.setOb_eff _ _ _ _ _).mono fun _ _ h => (State.updCtrl_eff _ _ _).after h
  refine ⟨h.frame.trans fun q hq => ?_, h.good.trans ⟨rfl, .refl _, id, id, id, id, id⟩⟩
  cases q <;> first | exact absurd (by decide) hq | rfl

theorem State.measureCrossings_eff (s : State) (trips : List Nat) : Eff [.objs, .milestone] s (State.measureCrossings s trips) := by
  delta State.measureCrossings
  refine Eff.start fun h0 => ?_
  extract_lets -merge -underBinder +onlyGivenNames y0 y1 y2 y3
  try clear_value y0 y1 y2 y3
  extract_lets -merge -underBinder +onlyGivenNames y4
  refine h0.named (x := y4) ?_ fun _ => ?_
  · subst y4
    refine Eff.forEach ?_ fun _ _ _ => ?_
    · assumption
    · refine Eff.after (State.setOb_eff _ _ _ _ _) ?_
      assumption
  clear_value y4
  refine Eff.put ?_
  assumption

theorem State.bootImage_eff (s : State) (roundTrips : List Nat) :
    Eff [.freeCount, .objs, .host, .signpost, .mem, .recorder, .milestone, .power, .otp] s (State.bootImage s roundTrips) := by
  delta State.bootImage
  refine Eff.start fun h0 => ?_
  split
  · refine Eff.after (State.failStartup_eff _ _) ?_
    assumption
  · extract_lets -merge -underBinder +onlyGivenNames y0
    refine h0.named (x := y0) ?_ fun _ => ?_
    · subst y0
      split
      · refine Eff.after (State.report_eff _ _ _ _) ?_
        assumption
      · assumption
    clear_value y0
    extract_lets -merge -underBinder +onlyGivenNames y1
    refine h0.named (x := y1) ?_ fun _ => ?_
    · subst y1
      refine Eff.after (State.becomeActive_eff _ _) ?_
      assumption
    clear_value y1
    extract_lets -merge -underBinder +onlyGivenNames y2
    refine h0.named (x := y2) ?_ fun _ => ?_
    · subst y2
      refine Eff.after (State.measureCrossings_eff _ _) ?_
      assumption
    clear_value y2
    extract_lets -merge -underBinder +onlyGivenNames y3
    try clear_value y3
    extract_lets -merge -underBinder +onlyGivenNames y4
    refine h0.named (x := y4) ?_ fun _ => ?_
    · subst y4
      refine Eff.after (State.report_eff _ _ _ _) ?_
      assumption
    clear_value y4
    extract_lets -merge -underBinder +onlyGivenNames y5
    refine h0.named (x := y5) ?_ fun _ => ?_
    · subst y5
      refine Eff.after (State.setOb_eff _ _ _ _ _) ?_
      assumption
    clear_value y5
    extract_lets -merge -underBinder +onlyGivenNames y6
    refine h0.named (x := y6) ?_ fun _ => ?_
    · subst y6
      refine Eff.after (State.freeNext_eff _) ?_
      assumption
    clear_value y6
    extract_lets -merge -underBinder +onlyGivenNames y7 y8 y9
    refine h0.named (x := y9) ?_ fun _ => ?_
    · subst y9
      subst y8
      subst y7
      refine Eff.put ?_
      assumption
    clear_value y7 y8 y9
    refine Eff.after (State.updMem_eff _ _) ?_
    assumption

theorem execFirmwareKeyRevoke_eff (cl : Client) (v : Int) (authorised : Option Bool) (s : State) :
    OutEff [.freeCount, .objs, .signpost, .recorder, .otp] s (execFirmwareKeyRevoke cl v authorised s) := by
  delta execFirmwareKeyRevoke
  unfold State.authWrite
  extract_lets -merge -underBinder +onlyGivenNames k running mask
  have hmask : ∀ i, s.otp.keyRevoked.getLsbD i = true → mask.getLsbD i = true := by
    intro i hi
    have : mask.getLsbD i = (s.otp.keyRevoked.getLsbD i || (BitVec.ofNat 4 (2 ^ k)).getLsbD i) := BitVec.getLsbD_or
    rw [this, hi]; rfl
  clear_value k running mask
  refine OutEff.next (.ite (.refl _ _) (.ite (State.answer_eff _ _ _ _).mono ?_))
  split
  · rename_i heq
    exact (State.answer_eff _ _ _ _).after (State.authorise_eff heq).mono
  · rename_i t heq
    have h1 : Eff [.freeCount, .objs, .signpost, .recorder, .otp] s t := (State.authorise_eff heq).mono
    have ho : t.otp = s.otp := (State.authorise_eff heq).frame .otp (by decide)
    refine .ite ((State.answer_eff _ _ _ _).after h1) (.ite ((State.answer_eff _ _ _ _).after h1) ?_)
    refine (State.answer_eff _ _ _ _).after ((State.report_eff _ _ _ _).after ?_)
    have h2 : Eff [.freeCount, .objs, .signpost, .recorder, .otp] s (t.recordWrite cl (Obj.firmwareKeyRevoke.key 0 0)) := (State.recordWrite_eff _ _ _).after h1
    have ho2 : (t.recordWrite cl (Obj.firmwareKeyRevoke.key 0 0)).otp = s.otp :=
      ((State.recordWrite_eff t cl (Obj.firmwareKeyRevoke.key 0 0)).frame .otp (by decide)).trans ho
    refine ⟨h2.frame.trans fun q hq => ?_, h2.good.trans ⟨rfl, ⟨rfl, rfl, rfl, fun i hi => hmask i ?_, Nat.le_refl _⟩, id, id, id, id, id⟩⟩
    · cases q <;> first | exact absurd (by decide) hq | rfl
    · rw [← ho2]; exact hi

theorem execIslandResetRequest_eff (cl : Client) (v : Int) (authorised : Option Bool) (s : State) :
    OutEff [.freeCount, .objs, .pickups, .channels, .decoding, .sides, .spindles, .axes, .host, .ramps, .signpost, .staging, .cal, .recorder, .milestone, .verge, .power, .otp] s (execIslandResetRequest cl v authorised s) := by
  delta execIslandResetRequest
  refine OutEff.start fun h0 => ?_
  refine OutEff.next ?_
  refine State.authWrite_effs ?_ (fun _ _ => ?_)
  · assumption
  · refine Eff.dite (fun _ => ?_) fun _ => ?_
    · refine Eff.after (State.islandReset_eff _ _ _) ?_
      assumption
    · assumption

theorem execTimeOfDayWrite_eff (cl : Client) (v : Int) (s : State) :
    OutEff [.freeCount, .objs, .signpost, .recorder, .milestone, .verge] s (execTimeOfDayWrite cl v s) := by
  delta execTimeOfDayWrite
  refine OutEff.start fun h0 => ?_
  refine OutEff.next ?_
  refine State.hostWrite_effs ?_ (fun _ _ => ?_)
  · assumption
  · refine Eff.after (State.setTimeOfDay_eff _ _ _) ?_
    assumption

theorem State.doorOpens_eff (s : State) : Eff [.pickups, .sides, .host, .verge] s (State.doorOpens s) := by
  delta State.doorOpens
  refine Eff.start fun h0 => ?_
  extract_lets -merge -underBinder +onlyGivenNames y0 y1
  refine h0.named (x := y1) ?_ fun _ => ?_
  · subst y1
    subst y0
    refine Eff.put ?_
    assumption
  clear_value y0 y1
  refine Eff.forEach ?_ fun _ _ _ => ?_
  · assumption
  · refine Eff.ite ?_ ?_
    · extract_lets -merge -underBinder +onlyGivenNames y2
      refine h0.named (x := y2) ?_ fun _ => ?_
      · subst y2
        refine Eff.after (State.updS_eff _ _ _) ?_
        assumption
      clear_value y2
      refine Eff.ite ?_ ?_
      · refine Eff.after (State.unmount_eff _ _) ?_
        assumption
      · assumption
    · assumption

theorem State.overheats_eff (s : State) :
    Eff [.objs, .pickups, .channels, .decoding, .sides, .spindles, .axes, .host, .ramps, .staging, .cal, .recorder, .power, .otp] s (State.overheats s) := by
  delta State.overheats
  refine Eff.start fun h0 => ?_
  extract_lets -merge -underBinder +onlyGivenNames y0
  refine h0.named (x := y0) ?_ fun _ => ?_
  · subst y0
    refine Eff.after (State.stopMedia_eff _) ?_
    refine Eff.forEach ?_ fun _ _ _ => ?_
    · assumption
    · refine Eff.after (State.resetController_eff _ _ _) ?_
      assumption
  clear_value y0
  refine Eff.put ?_
  assumption

theorem State.powerFails_eff (s : State) : Eff [.objs, .channels, .sides, .spindles, .host, .recorder, .verge] s (State.powerFails s) := by
  delta State.powerFails
  refine Eff.start fun h0 => ?_
  extract_lets -merge -underBinder +onlyGivenNames y0
  refine h0.named (x := y0) ?_ fun _ => ?_
  · subst y0
    refine Eff.after (State.startFlush_eff _ _) ?_
    assumption
  clear_value y0
  extract_lets -merge -underBinder +onlyGivenNames y1
  refine h0.named (x := y1) ?_ fun _ => ?_
  · subst y1
    refine Eff.forEach ?_ fun _ _ _ => ?_
    · assumption
    · extract_lets -merge -underBinder +onlyGivenNames y2
      try clear_value y2
      extract_lets -merge -underBinder +onlyGivenNames y3
      refine h0.named (x := y3) ?_ fun _ => ?_
      · subst y3
        refine Eff.after (State.updS_eff _ _ _) ?_
        refine Eff.after (State.abandonRun_eff _ _ _) ?_
        assumption
      clear_value y3
      refine Eff.forEach ?_ fun _ _ _ => ?_
      · assumption
      · refine Eff.after (State.updZone_eff _ _ _ _) ?_
        assumption
  clear_value y1
  refine Eff.forEach ?_ fun _ _ _ => ?_
  · assumption
  · refine Eff.after (State.updM_eff _ _ _) ?_
    assumption

theorem State.programBoot_eff (s : State) (data : List Byte) : Eff [.power] s (State.programBoot s data) := by
  delta State.programBoot
  refine Eff.start fun h0 => ?_
  extract_lets -merge -underBinder +onlyGivenNames y0
  try clear_value y0
  refine Eff.ite ?_ ?_
  · refine Eff.put ?_
    assumption
  · assumption

theorem State.programSlot_eff (s : State) (i : Nat) (sector : Nat) (data : List Byte) : Eff [.power] s (State.programSlot s i sector data) := by
  delta State.programSlot
  refine Eff.start fun h0 => ?_
  extract_lets -merge -underBinder +onlyGivenNames y0 y1 y2 y3 y4 y5 y6
  try clear_value y0 y1 y2 y3 y4 y5 y6
  refine Eff.put ?_
  assumption

theorem State.selfTest1_eff (s : State) (rows : List (Nat × Nat)) : Eff [.objs, .mem, .recorder] s (State.selfTest1 s rows) := by
  delta State.selfTest1
  refine Eff.start fun h0 => ?_
  extract_lets -merge -underBinder +onlyGivenNames y0
  try clear_value y0
  extract_lets -merge -underBinder +onlyGivenNames y1
  refine h0.named (x := y1) ?_ fun _ => ?_
  · subst y1
    refine Eff.after (State.updMem_eff _ _) ?_
    assumption
  clear_value y1
  refine Eff.forEach ?_ fun _ _ _ => ?_
  · assumption
  · refine Eff.after (State.retireRow_eff _ _ _ _) ?_
    assumption

theorem State.setTickBase_eff (s : State) (own : Bool) : Eff [.objs, .recorder, .verge] s (State.setTickBase s own) := by
  delta State.setTickBase
  refine Eff.start fun h0 => ?_
  refine Eff.ite ?_ ?_
  · assumption
  · extract_lets -merge -underBinder +onlyGivenNames y0
    try clear_value y0
    refine Eff.after (State.report_eff _ _ _ _) ?_
    refine Eff.put ?_
    assumption

theorem State.startGrid_eff (s : State) (cause : Nat) : Eff [.objs, .power] s (State.startGrid s cause) := by
  delta State.startGrid
  refine Eff.start fun h0 => ?_
  refine Eff.after (State.bump_eff _ _ _ _ _) ?_
  refine Eff.put ?_
  assumption

theorem State.startRecorder_eff (s : State) : Eff [.objs, .host, .recorder, .milestone, .verge] s (State.startRecorder s) := by
  delta State.startRecorder
  refine Eff.start fun h0 => ?_
  extract_lets -merge -underBinder +onlyGivenNames y0 y1 y2 y3 y4
  try clear_value y0 y1 y2 y3 y4
  extract_lets -merge -underBinder +onlyGivenNames y5
  refine h0.named (x := y5) ?_ fun _ => ?_
  · subst y5
    refine Eff.after (State.setTickBase_eff _ _) ?_
    assumption
  clear_value y5
  extract_lets -merge -underBinder +onlyGivenNames y6 y7
  try clear_value y6 y7
  extract_lets -merge -underBinder +onlyGivenNames y8 y9
  refine h0.named (x := y9) ?_ fun _ => ?_
  · subst y9
    subst y8
    refine Eff.ite ?_ ?_
    · refine Eff.put ?_
      assumption
    · assumption
  clear_value y8 y9
  extract_lets -merge -underBinder +onlyGivenNames y10
  refine h0.named (x := y10) ?_ fun _ => ?_
  · subst y10
    refine Eff.after (State.updR_eff _ _) ?_
    assumption
  clear_value y10
  extract_lets -merge -underBinder +onlyGivenNames y11
  refine h0.named (x := y11) ?_ fun _ => ?_
  · subst y11
    refine Eff.ite ?_ ?_
    · refine Eff.after (State.firstHeader_eff _) ?_
      assumption
    · assumption
  clear_value y11
  extract_lets -merge -underBinder +onlyGivenNames y12
  refine h0.named (x := y12) ?_ fun _ => ?_
  · subst y12
    refine Eff.after (State.ownPair_eff _ _ _ _) ?_
    assumption
  clear_value y12
  refine Eff.forEach ?_ fun _ _ _ => ?_
  · assumption
  · extract_lets -merge -underBinder +onlyGivenNames y13
    try clear_value y13
    refine Eff.after (State.updR_eff _ _) ?_
    refine Eff.after (State.takeSeq_eff _ _) ?_
    assumption

theorem State.startReports_eff (s : State) (cause : Nat) (failingRows : List (Nat × Nat)) :
    Eff [.objs, .host, .mem, .recorder, .milestone, .verge] s (State.startReports s cause failingRows) := by
  delta State.startReports
  refine Eff.start fun h0 => ?_
  extract_lets -merge -underBinder +onlyGivenNames y0
  refine h0.named (x := y0) ?_ fun _ => ?_
  · subst y0
    refine Eff.after (State.startRecorder_eff _) ?_
    assumption
  clear_value y0
  extract_lets -merge -underBinder +onlyGivenNames y1
  refine h0.named (x := y1) ?_ fun _ => ?_
  · subst y1
    refine Eff.after (State.report_eff _ _ _ _) ?_
    assumption
  clear_value y1
  extract_lets -merge -underBinder +onlyGivenNames y2
  refine h0.named (x := y2) ?_ fun _ => ?_
  · subst y2
    refine Eff.ite ?_ ?_
    · refine Eff.after (State.report_eff _ _ _ _) ?_
      assumption
    · assumption
  clear_value y2
  extract_lets -merge -underBinder +onlyGivenNames y3
  refine h0.named (x := y3) ?_ fun _ => ?_
  · subst y3
    refine Eff.after (State.report_eff _ _ _ _) ?_
    assumption
  clear_value y3
  refine Eff.after (State.selfTest1_eff _ _) ?_
  assumption

theorem State.testArrays_eff (s : State) (failingRows : List (Nat × Nat)) : Eff [.freeCount, .objs, .power] s (State.testArrays s failingRows) := by
  delta State.testArrays
  refine Eff.start fun h0 => ?_
  extract_lets -merge -underBinder +onlyGivenNames y0 y1
  refine h0.named (x := y1) ?_ fun _ => ?_
  · subst y1
    subst y0
    refine Eff.put ?_
    assumption
  clear_value y0 y1
  extract_lets -merge -underBinder +onlyGivenNames y2
  refine h0.named (x := y2) ?_ fun _ => ?_
  · subst y2
    refine Eff.after (State.setOb_eff _ _ _ _ _) ?_
    refine Eff.after (State.setOb_eff _ _ _ _ _) ?_
    assumption
  clear_value y2
  refine Eff.after (State.freeNext_eff _) ?_
  assumption

theorem State.trip_effs {l : List Part} {s0 : State} {s : State} {k : Fin 4} {before : State → State} {effect : State → State} (h : Eff l s0 s) (h_before : ∀ u, Eff l s0 u → Eff l s0 (before u)) (h_effect : ∀ u, Eff l s0 u → Eff l s0 (effect u)) (hs : partsIn [.objs, .recorder, .verge] l = true := by decide) :
    Eff l s0 (State.trip s k before effect) := by
  delta State.trip
  extract_lets -merge -underBinder +onlyGivenNames y0 y1
  refine h.named (x := y1) ?_ fun _ => ?_
  · subst y1
    subst y0
    refine Eff.put (h22 := .inr (subset_of_partsIn hs (by decide))) ?_
    assumption
  clear_value y0 y1
  extract_lets -merge -underBinder +onlyGivenNames y2
  refine h.named (x := y2) ?_ fun _ => ?_
  · subst y2
    refine Eff.after (State.bump_eff _ _ _ _ _) ?_ (partsIn_trans (by decide) hs)
    assumption
  clear_value y2
  refine Eff.ite ?_ ?_
  · refine h_effect _ ?_
    refine Eff.after (State.report_eff _ _ _ _) ?_ (partsIn_trans (by decide) hs)
    refine h_before _ ?_
    assumption
  · assumption

theorem State.tripRow_effs {l : List Part} {s0 : State} {s : State} {k : Fin 4} {level : Nat} {heldUs : Nat} {before : State → State} {effect : State → State} (h : Eff l s0 s) (h_before : ∀ u, Eff l s0 u → Eff l s0 (before u)) (h_effect : ∀ u, Eff l s0 u → Eff l s0 (effect u)) (hs : partsIn [.objs, .recorder, .verge] l = true := by decide) :
    OutEff l s0 (State.tripRow s k level heldUs before effect) := by
  delta State.tripRow
  refine State.when_effs ?_ (fun _ _ => ?_)
  · assumption
  · refine State.trip_effs ?_ (fun _ _ => ?_) (fun _ _ => ?_) (partsIn_trans (by decide) hs)
    · assumption
    · refine h_before _ ?_
      assumption
    · refine h_effect _ ?_
      assumption

theorem execCanBusError_eff (port : Fin 2) (transmit : Int) (receive : Int) (s : State) :
    OutEff [.signpost] s (execCanBusError port transmit receive s) := by
  delta execCanBusError
  refine OutEff.start fun h0 => ?_
  refine State.when_effs ?_ (fun _ _ => ?_)
  · assumption
  · refine Eff.put ?_
    assumption

theorem execCartridgeDoorTrip_eff (level : Nat) (heldUs : Nat) (s : State) :
    OutEff [.objs, .pickups, .sides, .host, .recorder, .verge] s (execCartridgeDoorTrip level heldUs s) := by
  delta execCartridgeDoorTrip
  refine OutEff.start fun h0 => ?_
  refine State.tripRow_effs ?_ (fun _ _ => ?_) (fun _ _ => ?_)
  · assumption
  · assumption
  · refine Eff.after (State.doorOpens_eff _) ?_
    assumption

theorem execComparatorClear_eff (k : Fin 4) (level : Nat) (heldUs : Nat) (s : State) : OutEff [.verge] s (execComparatorClear k level heldUs s) := by
  delta execComparatorClear
  refine OutEff.start fun h0 => ?_
  refine State.when_effs ?_ (fun _ _ => ?_)
  · assumption
  · refine Eff.put ?_
    assumption

theorem execCoreReset_eff (s : State) :
    OutEff [.objs, .doms, .pickups, .channels, .decoding, .sides, .spindles, .axes, .host, .ramps, .signpost, .staging, .mem, .cal, .recorder, .milestone, .traces, .xspAin, .xspDir, .verge, .power] s (execCoreReset s) := by
  delta execCoreReset
  refine OutEff.start fun h0 => ?_
  refine State.when_effs ?_ (fun _ _ => ?_)
  · assumption
  · extract_lets -merge -underBinder +onlyGivenNames y0
    try clear_value y0
    refine Eff.ite ?_ ?_
    · refine Eff.after (State.startReset_eff _ _) ?_
      assumption
    · extract_lets -merge -underBinder +onlyGivenNames y1
      refine h0.named (x := y1) ?_ fun _ => ?_
      · subst y1
        refine Eff.after (State.bump_eff _ _ _ _ _) ?_
        refine Eff.after (State.coreStop_eff _) ?_
        assumption
      clear_value y1
      refine Eff.put ?_
      assumption

theorem execDebugPortAccess_eff (kind : Fin 4) (arg : Nat) (data : List Byte) (s : State) :
    OutEff [.objs, .doms, .pickups, .channels, .decoding, .sides, .spindles, .axes, .host, .ramps, .signpost, .staging, .mem, .cal, .recorder, .milestone, .traces, .xspAin, .xspDir, .verge, .power, .otp] s (execDebugPortAccess kind arg data s) := by
  delta execDebugPortAccess
  refine OutEff.start fun h0 => ?_
  refine State.when_effs ?_ (fun _ _ => ?_)
  · assumption
  · split
    · refine Eff.put ?_
      assumption
    · extract_lets -merge -underBinder +onlyGivenNames y0
      try clear_value y0
      refine Eff.ite ?_ ?_
      · refine Eff.after (State.programSlot_eff _ _ _ _) ?_
        assumption
      · refine Eff.ite ?_ ?_
        · refine Eff.after (State.programSlot_eff _ _ _ _) ?_
          assumption
        · extract_lets -merge -underBinder +onlyGivenNames y1
          refine h0.named (x := y1) ?_ fun _ => ?_
          · subst y1
            refine Eff.ite ?_ ?_
            · refine Eff.after (State.programBoot_eff _ _) ?_
              assumption
            · assumption
          clear_value y1
          refine Eff.put ?_
          assumption
    · refine Eff.after (State.startReset_eff _ _) ?_
      assumption
    · refine Eff.dite (fun _ => ?_) fun _ => ?_
      · refine Eff.ite ?_ ?_
        · refine Eff.after (State.islandReset_eff _ _ _) ?_
          assumption
        · assumption
      · assumption

theorem execEthLinkChange_eff (speed : Fin 4) (s : State) : OutEff [.signpost] s (execEthLinkChange speed s) := by
  delta execEthLinkChange
  refine OutEff.start fun h0 => ?_
  refine State.when_effs ?_ (fun _ _ => ?_)
  · assumption
  · refine Eff.put ?_
    assumption

theorem execInterruptCoalescingTime_eff (c : CtrlId) (s : State) : OutEff [.host] s (execInterruptCoalescingTime c s) := by
  delta execInterruptCoalescingTime
  refine OutEff.start fun h0 => ?_
  refine State.when_effs ?_ (fun _ _ => ?_)
  · assumption
  · extract_lets -merge -underBinder +onlyGivenNames y0
    try clear_value y0
    refine Eff.after (State.updCtrl_eff _ _ _) ?_
    assumption

theorem execLinkL1Entry_eff (c : CtrlId) (s : State) : OutEff [.host] s (execLinkL1Entry c s) := by
  delta execLinkL1Entry
  refine OutEff.start fun h0 => ?_
  refine State.when_effs ?_ (fun _ _ => ?_)
  · assumption
  · refine Eff.after (State.updCtrl_eff _ _ _) ?_
    assumption

theorem execLpddr5SelfRefreshEntry_eff (s : State) : OutEff [.mem] s (execLpddr5SelfRefreshEntry s) := by
  delta execLpddr5SelfRefreshEntry
  refine OutEff.start fun h0 => ?_
  refine State.when_effs ?_ (fun _ _ => ?_)
  · assumption
  · refine Eff.after (State.updMem_eff _ _) ?_
    assumption

theorem execOverTemperatureTrip_eff (heldUs : Nat) (s : State) :
    OutEff [.objs, .pickups, .channels, .decoding, .sides, .spindles, .axes, .host, .ramps, .staging, .cal, .recorder, .verge, .power, .otp] s (execOverTemperatureTrip heldUs s) := by
  delta execOverTemperatureTrip
  refine OutEff.start fun h0 => ?_
  refine State.tripRow_effs ?_ (fun _ _ => ?_) (fun _ _ => ?_)
  · assumption
  · refine Eff.after (State.report_eff _ _ _ _) ?_
    assumption
  · refine Eff.after (State.overheats_eff _) ?_
    assumption

theorem execQuietPllRelock_eff (s : State) : OutEff [.objs, .recorder, .power] s (execQuietPllRelock s) := by
  delta execQuietPllRelock
  refine OutEff.start fun h0 => ?_
  refine State.when_effs ?_ (fun _ _ => ?_)
  · assumption
  · refine Eff.after (State.report_eff _ _ _ _) ?_
    refine Eff.put ?_
    assumption

theorem execQuietPllUnlock_eff (s : State) :
    OutEff [.objs, .pickups, .channels, .sides, .spindles, .axes, .host, .recorder, .power] s (execQuietPllUnlock s) := by
  delta execQuietPllUnlock
  refine OutEff.start fun h0 => ?_
  refine State.when_effs ?_ (fun _ _ => ?_)
  · assumption
  · extract_lets -merge -underBinder +onlyGivenNames y0 y1 y2
    refine h0.named (x := y2) ?_ fun _ => ?_
    · subst y2
      subst y1
      subst y0
      refine Eff.put ?_
      assumption
    clear_value y0 y1 y2
    refine Eff.after (State.stopMedia_eff _) ?_
    refine Eff.after (State.report_eff _ _ _ _) ?_
    refine Eff.after (State.bump_eff _ _ _ _ _) ?_
    assumption

theorem execRingOscMeasurement_eff (delays : List Nat) (s : State) : OutEff [.objs] s (execRingOscMeasurement delays s) := by
  delta execRingOscMeasurement
  refine OutEff.start fun h0 => ?_
  refine State.when_effs ?_ (fun _ _ => ?_)
  · assumption
  · refine Eff.forEach ?_ fun _ _ _ => ?_
    · assumption
    · split
      · refine Eff.ite ?_ ?_
        · refine Eff.after (State.setOb_eff _ _ _ _ _) ?_
          assumption
        · assumption
      · assumption

theorem execShockTrip_eff (level : Nat) (heldUs : Nat) (s : State) : OutEff [.objs, .recorder, .verge] s (execShockTrip level heldUs s) := by
  delta execShockTrip
  refine OutEff.start fun h0 => ?_
  refine State.tripRow_effs ?_ (fun _ _ => ?_) (fun _ _ => ?_)
  · assumption
  · assumption
  · assumption

theorem execStartup_eff (failure : Fin 5) (failingRows : List (Nat × Nat)) (roundTrips : List Nat) (s : State) :
    OutEff [.freeCount, .objs, .host, .signpost, .mem, .recorder, .milestone, .verge, .power, .otp] s (execStartup failure failingRows roundTrips s) := by
  delta execStartup
  refine OutEff.start fun h0 => ?_
  refine State.when_effs ?_ (fun _ _ => ?_)
  · assumption
  · extract_lets -merge -underBinder +onlyGivenNames y0
    try clear_value y0
    extract_lets -merge -underBinder +onlyGivenNames y1
    refine h0.named (x := y1) ?_ fun _ => ?_
    · subst y1
      refine Eff.after (State.startGrid_eff _ _) ?_
      assumption
    clear_value y1
    refine Eff.ite ?_ ?_
    · refine Eff.after (State.failStartup_eff _ _) ?_
      assumption
    · extract_lets -merge -underBinder +onlyGivenNames y2
      refine h0.named (x := y2) ?_ fun _ => ?_
      · subst y2
        refine Eff.after (State.testArrays_eff _ _) ?_
        assumption
      clear_value y2
      refine Eff.ite ?_ ?_
      · refine Eff.after (State.failStartup_eff _ _) ?_
        refine Eff.after (State.setOb_eff _ _ _ _ _) ?_
        assumption
      · extract_lets -merge -underBinder +onlyGivenNames y3
        refine h0.named (x := y3) ?_ fun _ => ?_
        · subst y3
          refine Eff.after (State.startReports_eff _ _ _) ?_
          assumption
        clear_value y3
        refine Eff.ite ?_ ?_
        · refine Eff.after (State.failStartup_eff _ _) ?_
          assumption
        · refine Eff.after (State.bootImage_eff _ _) ?_
          assumption

theorem execSupplyFail_eff (level : Nat) (heldUs : Nat) (s : State) :
    OutEff [.objs, .channels, .sides, .spindles, .host, .recorder, .verge] s (execSupplyFail level heldUs s) := by
  delta execSupplyFail
  refine OutEff.start fun h0 => ?_
  refine State.tripRow_effs ?_ (fun _ _ => ?_) (fun _ _ => ?_)
  · assumption
  · assumption
  · refine Eff.after (State.powerFails_eff _) ?_
    assumption

theorem execSupplyRemoved_eff (s : State) :
    OutEff [.objs, .doms, .pickups, .channels, .decoding, .sides, .spindles, .axes, .host, .ramps, .signpost, .staging, .mem, .cal, .recorder, .milestone, .traces, .xspAin, .xspDir, .power] s (execSupplyRemoved s) := by
  delta execSupplyRemoved
  refine OutEff.start fun h0 => ?_
  refine State.when_effs ?_ (fun _ _ => ?_)
  · assumption
  · extract_lets -merge -underBinder +onlyGivenNames y0
    refine h0.named (x := y0) ?_ fun _ => ?_
    · subst y0
      refine Eff.after (State.loseIslands_eff _ _) ?_
      assumption
    clear_value y0
    refine Eff.put ?_
    assumption

theorem execSystemPllUnlock_eff (s : State) : OutEff [.objs, .recorder, .power] s (execSystemPllUnlock s) := by
  delta execSystemPllUnlock
  refine OutEff.start fun h0 => ?_
  refine State.when_effs ?_ (fun _ _ => ?_)
  · assumption
  · refine Eff.after (State.report_eff _ _ _ _) ?_
    refine Eff.put ?_
    assumption

theorem execSystemReset_eff (s : State) :
    OutEff [.objs, .doms, .pickups, .channels, .decoding, .sides, .spindles, .axes, .host, .ramps, .signpost, .staging, .mem, .cal, .recorder, .milestone, .traces, .xspAin, .xspDir, .verge, .power] s (execSystemReset s) := by
  delta execSystemReset
  refine OutEff.start fun h0 => ?_
  refine State.when_effs ?_ (fun _ _ => ?_)
  · assumption
  · refine Eff.after (State.startReset_eff _ _) ?_
    assumption

theorem execVddvLoss_eff (s : State) : OutEff [.objs, .verge] s (execVddvLoss s) := by
  unfold execVddvLoss
  refine State.when_effs (.refl _ _) fun u hu => ?_
  refine ⟨hu.frame.trans fun q hq => ?_, hu.good.trans ⟨rfl, .refl _, fun h => ⟨Sparse.rising_filter h.1, h.2⟩, id, id, id, id⟩⟩
  cases q <;> first | exact absurd (by decide) hq | rfl

theorem execVergePowerOn_eff (s : State) :
    OutEff [.objs, .doms, .pickups, .channels, .decoding, .sides, .spindles, .axes, .host, .ramps, .signpost, .staging, .mem, .cal, .recorder, .milestone, .traces, .xspAin, .xspDir, .verge, .power] s (execVergePowerOn s) := by
  unfold execVergePowerOn
  refine State.when_effs (.refl _ _) fun u hu => Eff.put ((State.loseIslands_eff _ _).after ?_)
  refine ⟨hu.frame.trans fun q hq => ?_, hu.good.trans ⟨rfl, .refl _, fun h => ⟨rfl, h.2⟩, id, id, id, id⟩⟩
  cases q <;> first | exact absurd (by decide) hq | rfl

theorem execWake_eff (cause : Fin 6) (s : State) :
    OutEff [.objs, .doms, .pickups, .channels, .decoding, .sides, .spindles, .axes, .host, .ramps, .signpost, .staging, .mem, .cal, .recorder, .milestone, .traces, .xspAin, .xspDir, .verge, .power] s (execWake cause s) := by
  delta execWake
  refine OutEff.start fun h0 => ?_
  refine State.when_effs ?_ (fun _ _ => ?_)
  · assumption
  · extract_lets -merge -underBinder +onlyGivenNames y0
    refine h0.named (x := y0) ?_ fun _ => ?_
    · subst y0
      refine Eff.after (State.loseIslands_eff _ _) ?_
      assumption
    clear_value y0
    refine Eff.put ?_
    assumption

theorem execWatchdog_eff (s : State) : OutEff [.objs, .staging, .cal, .recorder, .power] s (execWatchdog s) := by
  delta execWatchdog
  refine OutEff.start fun h0 => ?_
  refine State.when_effs ?_ (fun _ _ => ?_)
  · assumption
  · refine Eff.after (State.coreStop_eff _) ?_
    refine Eff.after (State.report_eff _ _ _ _) ?_
    assumption

end Sys2Proof.Machine
end

