-- ==== Sys2Proof/Laws/ReplyOps.lean ====
section
/-! SUPPORT. What each operation of Sys2Proof/Machine/ReplyOps.lean may change: `x_eff` names the parts of the state that x may change and says that
x keeps every form of Sys2Proof/Safety.lean; `x_effs` says so of an operation with operations as arguments, under the same of each argument. -/

set_option Elab.async false

namespace Sys2Proof.Machine

theorem State.updCan_eff (s : State) (port : Fin 2) (f : CanPort → CanPort) : Eff [.signpost] s (State.updCan s port f) := by
  delta State.updCan
  refine Eff.start fun h0 => ?_
  refine Eff.put ?_
  assumption

theorem State.updEth_eff (s : State) (f : Eth → Eth) : Eff [.signpost] s (State.updEth s f) := by
  delta State.updEth
  refine Eff.start fun h0 => ?_
  refine Eff.put ?_
  assumption

theorem State.transmit_eff (s : State) (cl : Client) (m : List Byte) : Eff [.signpost] s (State.transmit s cl m) := by
  delta State.transmit
  refine Eff.start fun h0 => ?_
  split
  · refine Eff.ite ?_ ?_
    · refine Eff.after (State.updCan_eff _ _ _) ?_
      assumption
    · assumption
  · refine Eff.after (State.updEth_eff _ _) ?_
    assumption
  · assumption

theorem State.serverBusy_eff (s : State) (cl : Client) (r : Request) : Eff [.objs, .signpost, .recorder] s (State.serverBusy s cl r) := by
  delta State.serverBusy
  refine Eff.start fun h0 => ?_
  extract_lets -merge -underBinder +onlyGivenNames y0
  try clear_value y0
  extract_lets -merge -underBinder +onlyGivenNames y1
  refine h0.named (x := y1) ?_ fun _ => ?_
  · subst y1
    refine Eff.after (State.report_eff _ _ _ _) ?_
    refine Eff.after (State.setOb_eff _ _ _ _ _) ?_
    refine Eff.after (State.bump_eff _ _ _ _ _) ?_
    assumption
  clear_value y1
  refine Eff.after (State.transmit_eff _ _ _) ?_
  assumption

theorem State.enqueue_eff (s : State) (cl : Client) (r : Request) : Eff [.objs, .signpost, .recorder] s (State.enqueue s cl r) := by
  delta State.enqueue
  refine Eff.start fun h0 => ?_
  refine Eff.ite ?_ ?_
  · refine Eff.put ?_
    assumption
  · refine Eff.after (State.serverBusy_eff _ _ _) ?_
    assumption

theorem State.resend_eff (s : State) (cl : Client) (r : Request) (p : Reply) : Eff [.objs, .signpost] s (State.resend s cl r p) := by
  delta State.resend
  refine Eff.start fun h0 => ?_
  extract_lets -merge -underBinder +onlyGivenNames y0 y1
  refine h0.named (x := y1) ?_ fun _ => ?_
  · subst y1
    subst y0
    refine Eff.put ?_
    assumption
  clear_value y0 y1
  extract_lets -merge -underBinder +onlyGivenNames y2
  refine h0.named (x := y2) ?_ fun _ => ?_
  · subst y2
    split
    · refine Eff.after (State.bump_eff _ _ _ _ _) ?_
      assumption
    · assumption
  clear_value y2
  refine Eff.after (State.transmit_eff _ _ _) ?_
  assumption

theorem State.arrive_eff (s : State) (cl : Client) (r : Request) : Eff [.objs, .signpost, .recorder] s (State.arrive s cl r) := by
  delta State.arrive
  refine Eff.start fun h0 => ?_
  split
  · refine Eff.after (State.resend_eff _ _ _ _) ?_
    assumption
  · refine Eff.ite ?_ ?_
    · refine Eff.after (State.updClient_eff _ _ _) ?_
      assumption
    · split
      · refine Eff.ite ?_ ?_
        · refine Eff.ite ?_ ?_
          · refine Eff.after (State.updCan_eff _ _ _) ?_
            assumption
          · refine Eff.after (State.serverBusy_eff _ _ _) ?_
            assumption
        · refine Eff.after (State.enqueue_eff _ _ _) ?_
          assumption
      · refine Eff.after (State.enqueue_eff _ _ _) ?_
        assumption

theorem State.arriveBytes_eff (s : State) (cl : Client) (m : List Byte) : Eff [.objs, .signpost, .recorder] s (State.arriveBytes s cl m) := by
  delta State.arriveBytes
  refine Eff.start fun h0 => ?_
  extract_lets -merge -underBinder +onlyGivenNames y0
  try clear_value y0
  refine Eff.after (State.arrive_eff _ _ _) ?_
  assumption

theorem State.clearSent_eff (s : State) : Eff [.signpost] s (State.clearSent s) := by
  delta State.clearSent
  refine Eff.start fun h0 => ?_
  refine Eff.put ?_
  assumption

theorem State.promoteHeld_eff (s : State) (cl : Client) : Eff [.objs, .signpost, .recorder] s (State.promoteHeld s cl) := by
  delta State.promoteHeld
  refine Eff.start fun h0 => ?_
  split
  · split
    · refine Eff.after (State.enqueue_eff _ _ _) ?_
      refine Eff.after (State.updCan_eff _ _ _) ?_
      assumption
    · assumption
  · assumption

theorem State.stampReply_eff (s : State) (cl : Client) (r : Request) : Eff [.objs, .signpost, .recorder] s (State.stampReply s cl r) := by
  delta State.stampReply
  refine Eff.start fun h0 => ?_
  split
  · assumption
  · extract_lets -merge -underBinder +onlyGivenNames y0
    try clear_value y0
    extract_lets -merge -underBinder +onlyGivenNames y1 y2
    refine h0.named (x := y2) ?_ fun _ => ?_
    · subst y2
      subst y1
      refine Eff.put ?_
      assumption
    clear_value y1 y2
    extract_lets -merge -underBinder +onlyGivenNames y3 y4
    try clear_value y3 y4
    extract_lets -merge -underBinder +onlyGivenNames y5
    refine h0.named (x := y5) ?_ fun _ => ?_
    · subst y5
      refine Eff.ite ?_ ?_
      · refine Eff.after (State.updClient_eff _ _ _) ?_
        assumption
      · assumption
    clear_value y5
    extract_lets -merge -underBinder +onlyGivenNames y6
    refine h0.named (x := y6) ?_ fun _ => ?_
    · subst y6
      refine Eff.forEach ?_ fun _ _ _ => ?_
      · assumption
      · refine Eff.after (State.transmit_eff _ _ _) ?_
        assumption
    clear_value y6
    refine Eff.after (State.promoteHeld_eff _ _) ?_
    assumption

end Sys2Proof.Machine
end

