-- ==== Sys2Proof/Laws/Servo.lean ====
section
/-! SUPPORT. What each operation of Sys2Proof/Machine/Servo.lean may change: `x_eff` names the parts of the state that x may change and says that
x keeps every form of Sys2Proof/Safety.lean; `x_effs` says so of an operation with operations as arguments, under the same of each argument. -/

set_option Elab.async false

namespace Sys2Proof.Machine

theorem State.activateBank_eff (s : State) (p : PickupId) (l : ServoLoop) : Eff [.objs, .pickups, .recorder] s (State.activateBank s p l) := by
  delta State.activateBank
  refine Eff.start fun h0 => ?_
  extract_lets -merge -underBinder +onlyGivenNames y0
  try clear_value y0
  extract_lets -merge -underBinder +onlyGivenNames y1
  refine h0.named (x := y1) ?_ fun _ => ?_
  · subst y1
    refine Eff.forEach ?_ fun _ _ _ => ?_
    · assumption
    · refine Eff.after (State.putKey_eff _ _ _) ?_
      assumption
  clear_value y1
  refine Eff.after (State.updLoop_eff _ _ _ _) ?_
  assumption

theorem State.activateBanks_eff (s : State) (p : PickupId) (named : List ServoLoop) (n : Nat) :
    Eff [.objs, .pickups, .staging, .recorder] s (State.activateBanks s p named n) := by
  delta State.activateBanks
  refine Eff.start fun h0 => ?_
  refine Eff.ite ?_ ?_
  · assumption
  · extract_lets -merge -underBinder +onlyGivenNames y0
    refine h0.named (x := y0) ?_ fun _ => ?_
    · subst y0
      refine Eff.forEach ?_ fun _ _ _ => ?_
      · assumption
      · refine Eff.after (State.activateBank_eff _ _ _) ?_
        assumption
    clear_value y0
    extract_lets -merge -underBinder +onlyGivenNames y1
    try clear_value y1
    extract_lets -merge -underBinder +onlyGivenNames y2 y3
    refine h0.named (x := y3) ?_ fun _ => ?_
    · subst y3
      subst y2
      refine Eff.put ?_
      assumption
    clear_value y2 y3
    refine Eff.after (State.report_eff _ _ _ _) ?_
    assumption

theorem State.activateDue_eff (s : State) (p : PickupId) (n : Nat) : Eff [.objs, .pickups, .staging, .recorder] s (State.activateDue s p n) := by
  delta State.activateDue
  refine Eff.start fun h0 => ?_
  refine Eff.ite ?_ ?_
  · refine Eff.after (State.activateBanks_eff _ _ _ _) ?_
    assumption
  · assumption

theorem execDefectHoldRequest_eff (cl : Client) (p : PickupId) (v : Int) (s : State) :
    OutEff [.freeCount, .objs, .pickups, .channels, .axes, .signpost, .recorder, .milestone] s (execDefectHoldRequest cl p v s) := by
  delta execDefectHoldRequest
  refine OutEff.start fun h0 => ?_
  refine State.when_effs ?_ (fun _ _ => ?_)
  · assumption
  · refine State.hostWrite_effs ?_ (fun _ _ => ?_)
    · assumption
    · refine Eff.after (State.enterHold_eff _ _ _ _ _) ?_
      assumption

theorem execHoldRelease_eff (cl : Client) (p : PickupId) (v : Int) (s : State) :
    OutEff [.freeCount, .objs, .pickups, .signpost, .recorder] s (execHoldRelease cl p v s) := by
  delta execHoldRelease
  refine OutEff.start fun h0 => ?_
  refine State.when_effs ?_ (fun _ _ => ?_)
  · assumption
  · refine State.hostWrite_effs ?_ (fun _ _ => ?_)
    · assumption
    · refine Eff.after (State.updP_eff _ _ _) ?_
      assumption

theorem execServoOverrunStatusClear_eff (cl : Client) (p : PickupId) (v : Int) (s : State) :
    OutEff [.freeCount, .objs, .signpost, .recorder] s (execServoOverrunStatusClear cl p v s) := by
  delta execServoOverrunStatusClear
  refine OutEff.start fun h0 => ?_
  refine State.when_effs ?_ (fun _ _ => ?_)
  · assumption
  · refine State.hostWrite_effs ?_ (fun _ _ => ?_)
    · assumption
    · extract_lets -merge -underBinder +onlyGivenNames y0
      try clear_value y0
      refine Eff.after (State.setOb_eff _ _ _ _ _) ?_
      assumption

theorem State.leaveHold_eff (s : State) (p : PickupId) : Eff [.objs, .pickups, .channels, .recorder] s (State.leaveHold s p) := by
  delta State.leaveHold
  refine Eff.start fun h0 => ?_
  extract_lets -merge -underBinder +onlyGivenNames y0
  refine h0.named (x := y0) ?_ fun _ => ?_
  · subst y0
    refine Eff.forEach ?_ fun _ _ _ => ?_
    · refine Eff.after (State.endHold_eff _ _) ?_
      assumption
    · refine Eff.after (State.unholdLoop_eff _ _ _) ?_
      assumption
  clear_value y0
  refine Eff.ite ?_ ?_
  · refine Eff.after (State.follow_eff _ _) ?_
    assumption
  · assumption

theorem State.servoFlag_eff (s : State) (p : PickupId) (mask : Nat) : Eff [.objs] s (State.servoFlag s p mask) := by
  delta State.servoFlag
  refine Eff.start fun h0 => ?_
  refine Eff.after (State.setOb_eff _ _ _ _ _) ?_
  assumption

theorem State.loopOnTime_eff (s : State) (p : PickupId) (i : LoopInputs) (l : ServoLoop) : Eff [.objs, .pickups] s (State.loopOnTime s p i l) := by
  delta State.loopOnTime
  refine Eff.start fun h0 => ?_
  extract_lets -merge -underBinder +onlyGivenNames y0 y1 y2 y3
  try clear_value y0 y1 y2 y3
  split
  · extract_lets -merge -underBinder +onlyGivenNames y4 y5 y6
    try clear_value y4 y5 y6
    split
    · split
      · extract_lets -merge -underBinder +onlyGivenNames y7
        try clear_value y7
        extract_lets -merge -underBinder +onlyGivenNames y8
        refine h0.named (x := y8) ?_ fun _ => ?_
        · subst y8
          refine Eff.after (State.updLoop_eff _ _ _ _) ?_
          assumption
        clear_value y8
        extract_lets -merge -underBinder +onlyGivenNames y9
        refine h0.named (x := y9) ?_ fun _ => ?_
        · subst y9
          refine Eff.ite ?_ ?_
          · refine Eff.after (State.servoFlag_eff _ _ _) ?_
            assumption
          · assumption
        clear_value y9
        extract_lets -merge -underBinder +onlyGivenNames y10
        refine h0.named (x := y10) ?_ fun _ => ?_
        · subst y10
          refine Eff.ite ?_ ?_
          · refine Eff.after (State.updP_eff _ _ _) ?_
            assumption
          · assumption
        clear_value y10
        refine Eff.after (State.updLoop_eff _ _ _ _) ?_
        assumption

theorem State.overrun_eff (s : State) (p : PickupId) (l : ServoLoop) (mapLate : Bool) :
    Eff [.objs, .pickups, .recorder] s (State.overrun s p l mapLate) := by
  delta State.overrun
  refine Eff.start fun h0 => ?_
  extract_lets -merge -underBinder +onlyGivenNames y0
  refine h0.named (x := y0) ?_ fun _ => ?_
  · subst y0
    refine Eff.after (State.servoFlag_eff _ _ _) ?_
    refine Eff.after (State.bump_eff _ _ _ _ _) ?_
    assumption
  clear_value y0
  extract_lets -merge -underBinder +onlyGivenNames y1
  refine h0.named (x := y1) ?_ fun _ => ?_
  · subst y1
    refine Eff.ite ?_ ?_
    · refine Eff.after (State.servoFlag_eff _ _ _) ?_
      assumption
    · assumption
  clear_value y1
  extract_lets -merge -underBinder +onlyGivenNames y2
  refine h0.named (x := y2) ?_ fun _ => ?_
  · subst y2
    refine Eff.after (State.updLoop_eff _ _ _ _) ?_
    assumption
  clear_value y2
  refine Eff.after (State.report_eff _ _ _ _) ?_
  refine Eff.after (State.updP_eff _ _ _) ?_
  assumption

theorem State.loopEdge_eff (s : State) (p : PickupId) (i : LoopInputs) (n : Nat) (l : ServoLoop) :
    Eff [.objs, .pickups, .recorder] s (State.loopEdge s p i n l) := by
  delta State.loopEdge
  refine Eff.start fun h0 => ?_
  refine Eff.ite ?_ ?_
  · assumption
  · refine Eff.ite ?_ ?_
    · refine Eff.after (State.overrun_eff _ _ _ _) ?_
      assumption
    · refine Eff.after (State.loopOnTime_eff _ _ _ _) ?_
      assumption

theorem State.measureEdge_eff (s : State) (p : PickupId) (i : LoopInputs) (tOn : Bool) (fOn : Bool) :
    Eff [.pickups] s (State.measureEdge s p i tOn fOn) := by
  delta State.measureEdge
  refine Eff.start fun h0 => ?_
  extract_lets -merge -underBinder +onlyGivenNames y0 y1 y2 y3 y4
  try clear_value y0 y1 y2 y3 y4
  refine Eff.after (State.updP_eff _ _ _) ?_
  assumption

theorem State.sendGuide_eff (s : State) (p : PickupId) : Eff [.channels] s (State.sendGuide s p) := by
  delta State.sendGuide
  refine Eff.start fun h0 => ?_
  extract_lets -merge -underBinder +onlyGivenNames y0
  try clear_value y0
  refine Eff.forEach ?_ fun _ _ _ => ?_
  · assumption
  · extract_lets -merge -underBinder +onlyGivenNames y1
    try clear_value y1
    refine Eff.after (State.updC_eff _ _ _) ?_
    assumption

theorem State.settleEdge_eff (s : State) (p : PickupId) (tOn : Bool) (fOn : Bool) (sOn : Bool) :
    Eff [.pickups] s (State.settleEdge s p tOn fOn sOn) := by
  delta State.settleEdge
  refine Eff.start fun h0 => ?_
  refine Eff.after (State.updP_eff _ _ _) ?_
  assumption

theorem State.skewEdge_eff (s : State) (p : PickupId) : Eff [.pickups] s (State.skewEdge s p) := by
  delta State.skewEdge
  refine Eff.start fun h0 => ?_
  extract_lets -merge -underBinder +onlyGivenNames y0 y1 y2 y3
  try clear_value y0 y1 y2 y3
  refine Eff.ite ?_ ?_
  · assumption
  · refine Eff.after (State.updLoop_eff _ _ _ _) ?_
    refine Eff.after (State.updP_eff _ _ _) ?_
    assumption

theorem State.sledOuterWord_eff (s : State) (p : PickupId) : Eff [.pickups, .axes] s (State.sledOuterWord s p) := by
  delta State.sledOuterWord
  refine Eff.start fun h0 => ?_
  extract_lets -merge -underBinder +onlyGivenNames y0 y1
  try clear_value y0 y1
  refine Eff.ite ?_ ?_
  · refine Eff.ite ?_ ?_
    · extract_lets -merge -underBinder +onlyGivenNames y2 y3 y4 y5
      try clear_value y2 y3 y4 y5
      refine Eff.after (State.updA_eff _ _ _) ?_
      refine Eff.after (State.updP_eff _ _ _) ?_
      assumption
    · refine Eff.after (State.updA_eff _ _ _) ?_
      assumption
  · assumption

theorem State.supervise_eff (s : State) (p : PickupId) (tOn : Bool) (fOn : Bool) : Eff [.pickups] s (State.supervise s p tOn fOn) := by
  delta State.supervise
  refine Eff.start fun h0 => ?_
  extract_lets -merge -underBinder +onlyGivenNames y0 y1 y2 y3 y4
  try clear_value y0 y1 y2 y3 y4
  split
  · split
    · extract_lets -merge -underBinder +onlyGivenNames y5 y6 y7 y8 y9 y10 y11 y12
      try clear_value y5 y6 y7 y8 y9 y10 y11 y12
      refine Eff.after (State.updP_eff _ _ _) ?_
      assumption

theorem State.wobbleEdge_eff (s : State) (p : PickupId) (i : LoopInputs) (n : Nat) : Eff [.pickups] s (State.wobbleEdge s p i n) := by
  delta State.wobbleEdge
  refine Eff.start fun h0 => ?_
  extract_lets -merge -underBinder +onlyGivenNames y0
  try clear_value y0
  refine Eff.after (State.updP_eff _ _ _) ?_
  assumption

theorem State.sampleEdge_eff (s : State) (p : PickupId) (i : LoopInputs) :
    Eff [.time, .objs, .pickups, .channels, .axes, .staging, .recorder, .traces, .xspAin] s (State.sampleEdge s p i) := by
  delta State.sampleEdge
  refine Eff.start fun h0 => ?_
  extract_lets -merge -underBinder +onlyGivenNames y0 y1 y2 y3 y4
  try clear_value y0 y1 y2 y3 y4
  extract_lets -merge -underBinder +onlyGivenNames y5
  refine h0.named (x := y5) ?_ fun _ => ?_
  · subst y5
    refine Eff.after (State.activateDue_eff _ _ _) ?_
    assumption
  clear_value y5
  extract_lets -merge -underBinder +onlyGivenNames y6
  refine h0.named (x := y6) ?_ fun _ => ?_
  · subst y6
    refine Eff.after (State.sendGuide_eff _ _) ?_
    refine Eff.after (State.wobbleEdge_eff _ _ _ _) ?_
    refine Eff.put ?_
    assumption
  clear_value y6
  extract_lets -merge -underBinder +onlyGivenNames y7
  refine h0.named (x := y7) ?_ fun _ => ?_
  · subst y7
    refine Eff.after (State.measureEdge_eff _ _ _ _ _) ?_
    refine Eff.after (State.updP_eff _ _ _) ?_
    assumption
  clear_value y7
  extract_lets -merge -underBinder +onlyGivenNames y8
  refine h0.named (x := y8) ?_ fun _ => ?_
  · subst y8
    split
    · refine Eff.ite ?_ ?_
      · refine Eff.after (State.updLoop_eff _ _ _ _) ?_
        refine Eff.after (State.updP_eff _ _ _) ?_
        assumption
      · assumption
    · assumption
  clear_value y8
  extract_lets -merge -underBinder +onlyGivenNames y9
  refine h0.named (x := y9) ?_ fun _ => ?_
  · subst y9
    refine Eff.ite ?_ ?_
    · refine Eff.after (State.skewEdge_eff _ _) ?_
      assumption
    · assumption
  clear_value y9
  extract_lets -merge -underBinder +onlyGivenNames y10
  refine h0.named (x := y10) ?_ fun _ => ?_
  · subst y10
    refine Eff.forEach ?_ fun _ _ _ => ?_
    · assumption
    · refine Eff.after (State.loopEdge_eff _ _ _ _ _) ?_
      assumption
  clear_value y10
  extract_lets -merge -underBinder +onlyGivenNames y11
  refine h0.named (x := y11) ?_ fun _ => ?_
  · subst y11
    refine Eff.ite ?_ ?_
    · refine Eff.after (State.sledOuterWord_eff _ _) ?_
      assumption
    · assumption
  clear_value y11
  extract_lets -merge -underBinder +onlyGivenNames y12
  refine h0.named (x := y12) ?_ fun _ => ?_
  · subst y12
    refine Eff.ite ?_ ?_
    · refine Eff.after (State.updP_eff _ _ _) ?_
      assumption
    · assumption
  clear_value y12
  extract_lets -merge -underBinder +onlyGivenNames y13
  refine h0.named (x := y13) ?_ fun _ => ?_
  · subst y13
    refine Eff.after (State.supervise_eff _ _ _ _) ?_
    refine Eff.after (State.settleEdge_eff _ _ _ _ _) ?_
    assumption
  clear_value y13
  extract_lets -merge -underBinder +onlyGivenNames y14
  refine h0.named (x := y14) ?_ fun _ => ?_
  · subst y14
    refine Eff.ite ?_ ?_
    · refine Eff.after (State.updP_eff _ _ _) ?_
      assumption
    · assumption
  clear_value y14
  extract_lets -merge -underBinder +onlyGivenNames y15
  refine h0.named (x := y15) ?_ fun _ => ?_
  · subst y15
    refine Eff.after (State.updP_eff _ _ _) ?_
    assumption
  clear_value y15
  extract_lets -merge -underBinder +onlyGivenNames y16
  refine h0.named (x := y16) ?_ fun _ => ?_
  · subst y16
    refine Eff.after (State.traceTap_eff _ _ _ _) ?_
    assumption
  clear_value y16
  refine Eff.forEach ?_ fun _ _ _ => ?_
  · assumption
  · extract_lets -merge -underBinder +onlyGivenNames y17
    try clear_value y17
    refine Eff.ite ?_ ?_
    · refine Eff.after (State.traceTap_eff _ _ _ _) ?_
      assumption
    · assumption

theorem execBankActivation_eff (p : PickupId) (loops : BitVec 5) (s : State) :
    OutEff [.objs, .pickups, .staging, .recorder] s (execBankActivation p loops s) := by
  delta execBankActivation
  refine OutEff.start fun h0 => ?_
  refine State.when_effs ?_ (fun _ _ => ?_)
  · assumption
  · refine Eff.after (State.activateBanks_eff _ _ _ _) ?_
    assumption

theorem execDefectHoldEntered_eff (p : PickupId) (s : State) :
    OutEff [.objs, .pickups, .channels, .axes, .recorder, .milestone] s (execDefectHoldEntered p s) := by
  delta execDefectHoldEntered
  refine OutEff.start fun h0 => ?_
  refine State.when_effs ?_ (fun _ _ => ?_)
  · assumption
  · extract_lets -merge -underBinder +onlyGivenNames y0
    try clear_value y0
    split
    · refine Eff.after (State.enterHold_eff _ _ _ _ _) ?_
      assumption

theorem execDefectHoldLeft_eff (p : PickupId) (s : State) :
    OutEff [.objs, .pickups, .channels, .sides, .spindles, .axes, .host, .recorder] s (execDefectHoldLeft p s) := by
  delta execDefectHoldLeft
  refine OutEff.start fun h0 => ?_
  extract_lets -merge -underBinder +onlyGivenNames y0
  try clear_value y0
  refine State.when_effs ?_ (fun _ _ => ?_)
  · assumption
  · extract_lets -merge -underBinder +onlyGivenNames y1
    try clear_value y1
    refine Eff.ite ?_ ?_
    · refine Eff.after (State.park_eff _ _ _) ?_
      assumption
    · refine Eff.ite ?_ ?_
      · extract_lets -merge -underBinder +onlyGivenNames y2
        refine h0.named (x := y2) ?_ fun _ => ?_
        · subst y2
          refine Eff.after (State.updP_eff _ _ _) ?_
          refine Eff.after (State.endHold_eff _ _) ?_
          assumption
        clear_value y2
        extract_lets -merge -underBinder +onlyGivenNames y3
        refine h0.named (x := y3) ?_ fun _ => ?_
        · subst y3
          refine Eff.forEach ?_ fun _ _ _ => ?_
          · assumption
          · refine Eff.after (State.unholdLoop_eff _ _ _) ?_
            assumption
        clear_value y3
        refine Eff.after (State.startRecovery_eff _ _ _) ?_
        assumption
      · refine Eff.after (State.runQueued_eff _ _) ?_
        refine Eff.after (State.leaveHold_eff _ _) ?_
        assumption

theorem execHoldTimeout_eff (p : PickupId) (s : State) :
    OutEff [.objs, .pickups, .channels, .sides, .spindles, .axes, .host, .recorder] s (execHoldTimeout p s) := by
  delta execHoldTimeout
  refine OutEff.start fun h0 => ?_
  extract_lets -merge -underBinder +onlyGivenNames y0
  try clear_value y0
  refine State.when_effs ?_ (fun _ _ => ?_)
  · assumption
  · extract_lets -merge -underBinder +onlyGivenNames y1
    refine h0.named (x := y1) ?_ fun _ => ?_
    · subst y1
      refine Eff.after (State.report_eff _ _ _ _) ?_
      refine Eff.after (State.bump_eff _ _ _ _ _) ?_
      assumption
    clear_value y1
    refine Eff.ite ?_ ?_
    · refine Eff.after (State.park_eff _ _ _) ?_
      assumption
    · refine Eff.after (State.startRecovery_eff _ _ _) ?_
      refine Eff.after (State.endHold_eff _ _) ?_
      assumption

theorem execLoopFault_eff (p : PickupId) (l : ServoLoop) (s : State) :
    OutEff [.objs, .pickups, .channels, .sides, .spindles, .axes, .host, .recorder, .milestone] s (execLoopFault p l s) := by
  delta execLoopFault
  refine OutEff.start fun h0 => ?_
  extract_lets -merge -underBinder +onlyGivenNames y0
  try clear_value y0
  refine State.when_effs ?_ (fun _ _ => ?_)
  · assumption
  · extract_lets -merge -underBinder +onlyGivenNames y1
    refine h0.named (x := y1) ?_ fun _ => ?_
    · subst y1
      refine Eff.after (State.report_eff _ _ _ _) ?_
      refine Eff.after (State.bump_eff _ _ _ _ _) ?_
      assumption
    clear_value y1
    extract_lets -merge -underBinder +onlyGivenNames y2
    refine h0.named (x := y2) ?_ fun _ => ?_
    · subst y2
      refine Eff.after (State.updLoop_eff _ _ _ _) ?_
      assumption
    clear_value y2
    split
    · refine Eff.ite ?_ ?_
      · refine Eff.after (State.park_eff _ _ _) ?_
        assumption
      · refine Eff.after (State.enterHold_eff _ _ _ _ _) ?_
        assumption
    · refine Eff.after (State.enterHold_eff _ _ _ _ _) ?_
      assumption

theorem execLoopSample_eff (p : PickupId) (i : LoopInputs) (s : State) :
    OutEff [.time, .objs, .pickups, .channels, .axes, .staging, .recorder, .traces, .xspAin] s (execLoopSample p i s) := by
  delta execLoopSample
  refine OutEff.start fun h0 => ?_
  refine State.when_effs ?_ (fun _ _ => ?_)
  · assumption
  · refine Eff.after (State.sampleEdge_eff _ _ _) ?_
    assumption

theorem execOutputSaturated_eff (p : PickupId) (l : ServoLoop) (s : State) : OutEff [.objs, .pickups, .recorder] s (execOutputSaturated p l s) := by
  delta execOutputSaturated
  refine OutEff.start fun h0 => ?_
  refine State.when_effs ?_ (fun _ _ => ?_)
  · assumption
  · refine Eff.after (State.report_eff _ _ _ _) ?_
    refine Eff.after (State.updLoop_eff _ _ _ _) ?_
    assumption

theorem execXspStepEdge_eff (dirHigh : Bool) (s : State) : OutEff [.pickups, .axes, .xspDir] s (execXspStepEdge dirHigh s) := by
  delta execXspStepEdge
  refine OutEff.start fun h0 => ?_
  refine State.when_effs ?_ (fun _ _ => ?_)
  · assumption
  · extract_lets -merge -underBinder +onlyGivenNames y0
    try clear_value y0
    extract_lets -merge -underBinder +onlyGivenNames y1
    refine h0.named (x := y1) ?_ fun _ => ?_
    · subst y1
      refine Eff.put ?_
      assumption
    clear_value y1
    extract_lets -merge -underBinder +onlyGivenNames y2
    refine h0.named (x := y2) ?_ fun _ => ?_
    · subst y2
      refine Eff.forEach ?_ fun _ _ _ => ?_
      · assumption
      · refine Eff.ite ?_ ?_
        · refine Eff.forEach ?_ fun _ _ _ => ?_
          · assumption
          · refine Eff.ite ?_ ?_
            · refine Eff.after (State.updLoop_eff _ _ _ _) ?_
              assumption
            · assumption
        · assumption
    clear_value y2
    refine Eff.forEach ?_ fun _ _ _ => ?_
    · assumption
    · refine Eff.ite ?_ ?_
      · refine Eff.after (State.updA_eff _ _ _) ?_
        assumption
      · assumption

end Sys2Proof.Machine
end

