-- ==== Sys2Proof/Laws/Switchover.lean ====
section
/-! SUPPORT. What each operation of Sys2Proof/Machine/Switchover.lean may change: `x_eff` names the parts of the state that x may change and says that
x keeps every form of Sys2Proof/Safety.lean; `x_effs` says so of an operation with operations as arguments, under the same of each argument. -/

set_option Elab.async false

namespace Sys2Proof.Machine

theorem State.activateRest_eff (s : State) : Eff [.objs, .pickups, .staging, .recorder] s (State.activateRest s) := by
  delta State.activateRest
  refine Eff.start fun h0 => ?_
  refine Eff.forEach ?_ fun _ _ _ => ?_
  · assumption
  · refine Eff.after (State.activateBanks_eff _ _ _ _) ?_
    assumption

theorem State.applyEffect_eff (s : State) (key : Nat) (old : Int) (new : Int) :
    Eff [.objs, .pickups, .channels, .sides, .axes, .ramps, .recorder] s (State.applyEffect s key old new) := by
  unfold State.applyEffect
  split
  · exact .refl _ _
  · refine .ite (.dite (fun _ => .ite (State.updS_eff _ _ _).mono (.refl _ _)) fun _ => .refl _ _) (.ite (.dite (fun _ =>
      (State.loadSets_eff _ _).mono) fun _ => .refl _ _) (.ite (.dite (fun _ =>
      (State.report_eff _ _ _ _).after (State.updP_eff _ _ _).mono) fun _ => .refl _ _)
      (.ite (.dite (fun _ => (State.updA_eff _ _ _).mono) fun _ => .refl _ _) (.ite (.dite (fun _ => ?_) fun _ => .refl _ _) (.refl _ _)))))
    refine (State.report_eff _ _ _ _).after (Eff.mono (State.updRamp_eff _ _ _ fun h => ?_))
    obtain ⟨h1, h2, h3, h4⟩ := h
    refine ⟨?_, h2, ?_, ?_⟩
    · rw [List.length_map]; exact h1
    · rw [List.length_map]; exact h3
    · intro hc
      refine h4 ⟨?_, hc.2⟩
      have := hc.1
      simp only [Ramp.maySwap, Bool.and_eq_true, beq_iff_eq, bne_iff_ne, ne_eq, List.map_eq_nil_iff] at this ⊢
      exact this

theorem State.switchWrite_effs {l : List Part} {s0 : State} {s : State} {cl : Client} {v : Int} {want : Int} {f : State → State} (h : Eff l s0 s) (h_f : ∀ u, Eff l s0 u → Eff l s0 (f u)) (hs : partsIn [.freeCount, .objs, .signpost, .staging, .recorder] l = true := by decide) :
    Eff l s0 (State.switchWrite s cl v want f) := by
  delta State.switchWrite
  extract_lets -merge -underBinder +onlyGivenNames y0
  try clear_value y0
  refine Eff.ite ?_ ?_
  · assumption
  · refine Eff.ite ?_ ?_
    · refine Eff.after (State.answer_eff _ _ _ _) ?_ (partsIn_trans (by decide) hs)
      assumption
    · refine Eff.ite ?_ ?_
      · refine Eff.after (State.answer_eff _ _ _ _) ?_ (partsIn_trans (by decide) hs)
        assumption
      · refine Eff.ite ?_ ?_
        · refine Eff.after (State.answer_eff _ _ _ _) ?_ (partsIn_trans (by decide) hs)
          assumption
        · refine h_f _ ?_
          refine Eff.after (State.recordWrite_eff _ _ _) ?_ (partsIn_trans (by decide) hs)
          refine Eff.after (State.areaTouched_eff _ _) ?_ (partsIn_trans (by decide) hs)
          assumption

theorem execSwitchoverApply_eff (cl : Client) (v : Int) (s : State) :
    OutEff [.freeCount, .objs, .signpost, .staging, .recorder] s (execSwitchoverApply cl v s) := by
  delta execSwitchoverApply
  refine OutEff.start fun h0 => ?_
  refine OutEff.next ?_
  refine State.switchWrite_effs ?_ (fun _ _ => ?_)
  · assumption
  · refine Eff.after (State.applyRequest_eff _ _ _) ?_
    assumption

theorem execSwitchoverCheck_eff (cl : Client) (v : Int) (s : State) :
    OutEff [.freeCount, .objs, .signpost, .staging, .recorder] s (execSwitchoverCheck cl v s) := by
  delta execSwitchoverCheck
  refine OutEff.start fun h0 => ?_
  refine OutEff.next ?_
  refine State.switchWrite_effs ?_ (fun _ _ => ?_)
  · assumption
  · split
    · refine Eff.after (State.answer_eff _ _ _ _) ?_
      refine Eff.after (State.switchRefused_eff _ _ _) ?_
      assumption
    · refine Eff.after (State.answer_eff _ _ _ _) ?_
      refine Eff.after (State.switchOutcome_eff _ _ _) ?_
      assumption

theorem execSwitchoverDiscard_eff (cl : Client) (v : Int) (s : State) :
    OutEff [.freeCount, .objs, .signpost, .staging, .cal, .recorder] s (execSwitchoverDiscard cl v s) := by
  delta execSwitchoverDiscard
  refine OutEff.start fun h0 => ?_
  refine OutEff.next ?_
  refine State.switchWrite_effs ?_ (fun _ _ => ?_)
  · assumption
  · refine Eff.ite ?_ ?_
    · refine Eff.after (State.answer_eff _ _ _ _) ?_
      assumption
    · refine Eff.after (State.answer_eff _ _ _ _) ?_
      refine Eff.after (State.placeWaiting_eff _) ?_
      refine Eff.after (State.report_eff _ _ _ _) ?_
      refine Eff.after (State.switchOutcome_eff _ _ _) ?_
      refine Eff.after (State.emptyArea_eff _) ?_
      assumption

theorem State.restoreItems_eff (s : State) : Eff [.objs, .cal, .recorder] s (State.restoreItems s) := by
  delta State.restoreItems
  refine Eff.start fun h0 => ?_
  split
  · assumption
  · extract_lets -merge -underBinder +onlyGivenNames y0 y1
    refine h0.named (x := y1) ?_ fun _ => ?_
    · subst y1
      subst y0
      refine Eff.put ?_
      assumption
    clear_value y0 y1
    extract_lets -merge -underBinder +onlyGivenNames y2
    refine h0.named (x := y2) ?_ fun _ => ?_
    · subst y2
      refine Eff.forEach ?_ fun _ _ _ => ?_
      · assumption
      · split
        · assumption
        · extract_lets -merge -underBinder +onlyGivenNames y3 y4
          try clear_value y3 y4
          refine Eff.after (State.updItem_eff _ _ _) ?_
          assumption
    clear_value y2
    refine Eff.after (State.report_eff _ _ _ _) ?_
    assumption

theorem State.internalApplied_eff (s : State) (owner : Option Client) (es : List Staged) (olds : List Int) (scope : Int) :
    Eff [.objs, .staging, .cal, .recorder] s (State.internalApplied s owner es olds scope) := by
  delta State.internalApplied
  refine Eff.start fun h0 => ?_
  split
  · refine Eff.after (State.report_eff _ _ _ _) ?_
    refine Eff.after (State.bump_eff _ _ _ _ _) ?_
    assumption
  · split
    · refine Eff.after (State.restoreItems_eff _) ?_
      assumption
    · extract_lets -merge -underBinder +onlyGivenNames y0 y1
      refine h0.named (x := y1) ?_ fun _ => ?_
      · subst y1
        subst y0
        refine Eff.put ?_
        assumption
      clear_value y0 y1
      extract_lets -merge -underBinder +onlyGivenNames y2
      refine h0.named (x := y2) ?_ fun _ => ?_
      · subst y2
        refine Eff.after (State.report_eff _ _ _ _) ?_
        assumption
      clear_value y2
      refine Eff.ite ?_ ?_
      · refine Eff.after (State.placeInternal_eff _ _ _) ?_
        assumption
      · assumption
  · assumption

theorem State.replyApplied_eff (s : State) (cl : Option Client) :
    Eff [.freeCount, .objs, .host, .signpost, .recorder] s (State.replyApplied s cl) := by
  delta State.replyApplied
  refine Eff.start fun h0 => ?_
  split
  · assumption
  · extract_lets -merge -underBinder +onlyGivenNames y0
    refine h0.named (x := y0) ?_ fun _ => ?_
    · subst y0
      refine Eff.after (State.answer_eff _ _ _ _) ?_
      assumption
    clear_value y0
    split
    · split
      · refine Eff.after (State.finishCmd_eff _ _ _) ?_
        assumption
      · assumption
    · split
      · refine Eff.after (State.stampReply_eff _ _ _) ?_
        assumption
      · assumption

theorem State.resetPlanBase_eff (s : State) (p : PickupId) (n : Nat) (code : Nat) : Eff [.objs, .recorder] s (State.resetPlanBase s p n code) := by
  delta State.resetPlanBase
  refine Eff.start fun h0 => ?_
  extract_lets -merge -underBinder +onlyGivenNames y0
  try clear_value y0
  refine Eff.after (State.putKey_eff _ _ _) ?_
  refine Eff.after (State.putKey_eff _ _ _) ?_
  assumption

theorem execStagingIdleTimeout_eff (s : State) : OutEff [.objs, .staging, .cal, .recorder] s (execStagingIdleTimeout s) := by
  delta execStagingIdleTimeout
  refine OutEff.start fun h0 => ?_
  refine State.when_effs ?_ (fun _ _ => ?_)
  · assumption
  · refine Eff.after (State.placeWaiting_eff _) ?_
    refine Eff.after (State.report_eff _ _ _ _) ?_
    refine Eff.after (State.switchOutcome_eff _ _ _) ?_
    refine Eff.after (State.emptyArea_eff _) ?_
    assumption

theorem execSwitchoverApplyEdge_eff (s : State) :
    OutEff [.freeCount, .objs, .pickups, .channels, .sides, .spindles, .axes, .host, .ramps, .signpost, .staging, .cal, .recorder] s (execSwitchoverApplyEdge s) := by
  delta execSwitchoverApplyEdge
  refine OutEff.start fun h0 => ?_
  refine State.when_effs ?_ (fun _ _ => ?_)
  · assumption
  · extract_lets -merge -underBinder +onlyGivenNames y0 y1 y2
    try clear_value y0 y1 y2
    extract_lets -merge -underBinder +onlyGivenNames y3
    refine h0.named (x := y3) ?_ fun _ => ?_
    · subst y3
      refine Eff.after (State.activateRest_eff _) ?_
      refine Eff.put ?_
      assumption
    clear_value y3
    extract_lets -merge -underBinder +onlyGivenNames y4
    refine h0.named (x := y4) ?_ fun _ => ?_
    · subst y4
      refine Eff.forEach ?_ fun _ _ _ => ?_
      · assumption
      · extract_lets -merge -underBinder +onlyGivenNames y5
        refine h0.named (x := y5) ?_ fun _ => ?_
        · subst y5
          refine Eff.after (State.putKey_eff _ _ _) ?_
          assumption
        clear_value y5
        refine Eff.after (State.applyEffect_eff _ _ _ _) ?_
        assumption
    clear_value y4
    extract_lets -merge -underBinder +onlyGivenNames y6
    try clear_value y6
    extract_lets -merge -underBinder +onlyGivenNames y7
    refine h0.named (x := y7) ?_ fun _ => ?_
    · subst y7
      refine Eff.ite ?_ ?_
      · assumption
      · refine Eff.forEach ?_ fun _ _ _ => ?_
        · assumption
        · extract_lets -merge -underBinder +onlyGivenNames y8
          refine h0.named (x := y8) ?_ fun _ => ?_
          · subst y8
            refine Eff.ite ?_ ?_
            · refine Eff.after (State.resetPlanBase_eff _ _ _ _) ?_
              assumption
            · assumption
          clear_value y8
          refine Eff.ite ?_ ?_
          · refine Eff.after (State.resetPlanBase_eff _ _ _ _) ?_
            assumption
          · assumption
    clear_value y7
    extract_lets -merge -underBinder +onlyGivenNames y9
    try clear_value y9
    extract_lets -merge -underBinder +onlyGivenNames y10
    refine h0.named (x := y10) ?_ fun _ => ?_
    · subst y10
      refine Eff.after (State.setOb_eff _ _ _ _ _) ?_
      assumption
    clear_value y10
    extract_lets -merge -underBinder +onlyGivenNames y11
    refine h0.named (x := y11) ?_ fun _ => ?_
    · subst y11
      refine Eff.after (State.bump_eff _ _ _ _ _) ?_
      refine Eff.after (State.setOb_eff _ _ _ _ _) ?_
      assumption
    clear_value y11
    extract_lets -merge -underBinder +onlyGivenNames y12
    try clear_value y12
    extract_lets -merge -underBinder +onlyGivenNames y13
    refine h0.named (x := y13) ?_ fun _ => ?_
    · subst y13
      refine Eff.after (State.report_eff _ _ _ _) ?_
      refine Eff.after (State.switchOutcome_eff _ _ _) ?_
      assumption
    clear_value y13
    extract_lets -merge -underBinder +onlyGivenNames y14
    refine h0.named (x := y14) ?_ fun _ => ?_
    · subst y14
      refine Eff.after (State.emptyArea_eff _) ?_
      assumption
    clear_value y14
    extract_lets -merge -underBinder +onlyGivenNames y15
    refine h0.named (x := y15) ?_ fun _ => ?_
    · subst y15
      refine Eff.forEach ?_ fun _ _ _ => ?_
      · assumption
      · refine Eff.ite ?_ ?_
        · refine Eff.after (State.beginSensing_eff _ _ _) ?_
          assumption
        · assumption
    clear_value y15
    extract_lets -merge -underBinder +onlyGivenNames y16
    refine h0.named (x := y16) ?_ fun _ => ?_
    · subst y16
      refine Eff.after (State.internalApplied_eff _ _ _ _ _) ?_
      assumption
    clear_value y16
    refine Eff.after (State.replyApplied_eff _ _) ?_
    refine Eff.after (State.placeWaiting_eff _) ?_
    assumption

end Sys2Proof.Machine
end

