-- ==== Sys2Proof/Laws/SignpostOps.lean ====
section
/-! SUPPORT. What each operation of Sys2Proof/Machine/SignpostOps.lean may change: `x_eff` names the parts of the state that x may change and says that
x keeps every form of Sys2Proof/Safety.lean; `x_effs` says so of an operation with operations as arguments, under the same of each argument. -/

set_option Elab.async false

namespace Sys2Proof.Machine

theorem State.axisWrite_eff (s : State) (cl : Client) (a : AxisId) (v : Int) :
    OutEff [.freeCount, .objs, .axes, .signpost, .recorder] s (State.axisWrite s cl a v) := by
  delta State.axisWrite
  refine OutEff.start fun h0 => ?_
  refine OutEff.ite ?_ ?_
  · refine OutEff.after (execAxisHalt_eff _ _ _ _) ?_
    assumption
  · refine OutEff.ite ?_ ?_
    · refine OutEff.after (execAxisStop_eff _ _ _ _) ?_
      assumption
    · refine OutEff.ite ?_ ?_
      · refine OutEff.after (execAxisHome_eff _ _ _ _) ?_
        assumption
      · refine OutEff.ite ?_ ?_
        · refine OutEff.after (execAxisEnable_eff _ _ _ _) ?_
          assumption
        · refine OutEff.ite ?_ ?_
          · refine OutEff.after (execAxisDisable_eff _ _ _ _) ?_
            assumption
          · refine OutEff.ite ?_ ?_
            · refine OutEff.after (execClearFault_eff _ _ _ _) ?_
              assumption
            · refine OutEff.after (execAxisMove_eff _ _ _ _) ?_
              assumption

theorem State.maintenanceWrite_eff (s : State) (cl : Client) (v : Int) :
    OutEff [.freeCount, .objs, .signpost, .mem, .recorder] s (State.maintenanceWrite s cl v) := by
  delta State.maintenanceWrite
  refine OutEff.start fun h0 => ?_
  refine OutEff.ite ?_ ?_
  · refine OutEff.after (execInvalidateByAddress_eff _ _ _ _) ?_
    assumption
  · refine OutEff.ite ?_ ?_
    · refine OutEff.after (execCleanAndInvalidateByAddress_eff _ _ _ _) ?_
      assumption
    · refine OutEff.ite ?_ ?_
      · refine OutEff.after (execCleanBySetAndWay_eff _ _ _ _) ?_
        assumption
      · refine OutEff.ite ?_ ?_
        · refine OutEff.after (execInvalidateBySetAndWay_eff _ _ _ _) ?_
          assumption
        · refine OutEff.ite ?_ ?_
          · refine OutEff.after (execCleanAndInvalidateBySetAndWay_eff _ _ _ _) ?_
            assumption
          · refine OutEff.ite ?_ ?_
            · refine OutEff.after (execZeroALine_eff _ _ _ _) ?_
              assumption
            · refine OutEff.after (execCleanByAddress_eff _ _ _ _) ?_
              assumption

theorem State.spindleWrite_eff (s : State) (cl : Client) (i : SpindleId) (v : Int) :
    OutEff [.freeCount, .objs, .pickups, .channels, .sides, .spindles, .axes, .host, .signpost, .recorder] s (State.spindleWrite s cl i v) := by
  delta State.spindleWrite
  refine OutEff.start fun h0 => ?_
  refine OutEff.ite ?_ ?_
  · refine OutEff.after (execSpindleStop_eff _ _ _ _) ?_
    assumption
  · refine OutEff.ite ?_ ?_
    · refine OutEff.after (execSpindleCoast_eff _ _ _ _) ?_
      assumption
    · refine OutEff.ite ?_ ?_
      · refine OutEff.after (execSpindleStartReverse_eff _ _ _ _) ?_
        assumption
      · refine OutEff.after (execSpindleStart_eff _ _ _ _) ?_
        assumption

/-- An instance number that exists picks an outcome. -/
theorem onFin_effs {l : List Part} {s : State} {n i : Nat} {f : Fin n → Out} {o : Out} (h : ∀ k, OutEff l s (f k)) (ho : onFin n i f = some o) :
    OutEff l s o := by
  unfold onFin at ho
  split at ho
  · rw [← Option.some.inj ho]; exact h _
  · cases ho

theorem OutEff.mono {a b : List Part} {s : State} {o : Out} (h : OutEff a s o) (hs : partsIn a b = true := by decide) : OutEff b s o :=
  fun t ht => (h t ht).mono hs

/-- An object with a command of its own: one case of the choice. -/
theorem OutEff.choose {l : List Part} {s : State} {c : Prop} [Decidable c] {x y : Option Out} (hx : ∀ o, x = some o → OutEff l s o)
    (hy : ∀ o, y = some o → OutEff l s o) : ∀ o, (if c then x else y) = some o → OutEff l s o := by
  intro o ho
  split at ho
  · exact hx o ho
  · exact hy o ho

theorem OutEff.chosen {l : List Part} {s : State} {x : Out} (h : OutEff l s x) : ∀ o, some x = some o → OutEff l s o :=
  fun _ ho => Option.some.inj ho ▸ h

theorem State.command_eff {s : State} {cl : Client} {r : Row} {i : Nat} {v : Int} {verdict : Option Bool} {o : Out}
    (ho : s.command cl r i v verdict = some o) :
    OutEff [.freeCount, .objs, .pickups, .channels, .decoding, .sides, .spindles, .axes, .host, .ramps, .signpost, .staging, .mem, .cal, .recorder, .milestone, .traces, .verge, .power, .otp] s o := by
  revert o
  unfold State.command
  show ∀ o, _ = some o → _
  refine .choose (fun _ => onFin_effs fun _ => (execDefectHoldRequest_eff _ _ _ _).mono) ?_
  refine .choose (fun _ => onFin_effs fun _ => (execHoldRelease_eff _ _ _ _).mono) ?_
  refine .choose (fun _ => onFin_effs fun _ => (execServoOverrunStatusClear_eff _ _ _ _).mono) ?_
  refine .choose (.chosen (execMountRequest_eff _ _ _).mono) ?_
  refine .choose (fun _ => onFin_effs fun _ => (execSeekRequest_eff _ _ _ _).mono) ?_
  refine .choose (fun _ => onFin_effs fun _ => (execParkRequest_eff _ _ _ _).mono) ?_
  refine .choose (fun _ => onFin_effs fun _ => (State.spindleWrite_eff _ _ _ _).mono) ?_
  refine .choose (fun _ => onFin_effs fun _ => (State.axisWrite_eff _ _ _ _).mono) ?_
  refine .choose (.chosen (execLatencyReset_eff _ _ _).mono) ?_
  refine .choose (.chosen (.ite (execEncodedWrite_eff _ _ _).mono (.ite (execSplitRead_eff _ _ _).mono (execRawWrite_eff _ _ _).mono))) ?_
  refine .choose (.chosen (.ite (execScrubStop_eff _ _ _).mono (execScrubStart_eff _ _ _).mono)) ?_
  refine .choose (.chosen (.ite (execCacheDisable_eff _ _ _).mono (execCacheEnable_eff _ _ _).mono)) ?_
  refine .choose (.chosen (State.maintenanceWrite_eff _ _ _).mono) ?_
  refine .choose (.chosen (execCalRequest_eff _ _ _).mono) ?_
  refine .choose (.chosen (execMarginPlanRequest_eff _ _ _).mono) ?_
  refine .choose (.chosen (execFlushRequest_eff _ _ _).mono) ?_
  refine .choose (.chosen (execRunningAreaClear_eff _ _ _ _).mono) ?_
  refine .choose (.chosen (execEventStoreInit_eff _ _ _ _).mono) ?_
  refine .choose (.chosen (execMilestoneRequest_eff _ _ _).mono) ?_
  refine .choose (.chosen (execMilestoneRelease_eff _ _ _).mono) ?_
  refine .choose (fun _ => onFin_effs fun _ => .ite (execTraceStop_eff _ _ _ _).mono (execTraceArm_eff _ _ _ _).mono) ?_
  refine .choose (.chosen (execIslandResetRequest_eff _ _ _ _).mono) ?_
  refine .choose (.chosen (execTimeOfDayWrite_eff _ _ _).mono) ?_
  refine .choose (.chosen (execFirmwareKeyRevoke_eff _ _ _ _).mono) ?_
  refine .choose (.chosen (.ite (execSwitchoverDiscard_eff _ _ _).mono (.ite (execSwitchoverCheck_eff _ _ _).mono (execSwitchoverApply_eff _ _ _).mono))) ?_
  exact fun _ ho => nomatch ho

theorem State.enumerateService_eff (s : State) (r : Request) : Eff [.freeCount, .objs, .signpost] s (State.enumerateService s r) := by
  delta State.enumerateService
  refine Eff.start fun h0 => ?_
  refine Eff.ite ?_ ?_
  · refine Eff.after (State.answer_eff _ _ _ _) ?_
    assumption
  · refine Eff.after (State.answer_eff _ _ _ _) ?_
    assumption

theorem State.setSession_eff (s : State) (n : Fin 8) (x : Option Session) : Eff [.signpost] s (State.setSession s n x) := by
  delta State.setSession
  refine Eff.start fun h0 => ?_
  refine Eff.put ?_
  assumption

theorem State.expireSession_eff (s : State) (n : Fin 8) (x : Session) : Eff [.objs, .signpost, .recorder] s (State.expireSession s n x) := by
  delta State.expireSession
  refine Eff.start fun h0 => ?_
  extract_lets -merge -underBinder +onlyGivenNames y0
  refine h0.named (x := y0) ?_ fun _ => ?_
  · subst y0
    refine Eff.after (State.setSession_eff _ _ _) ?_
    assumption
  clear_value y0
  extract_lets -merge -underBinder +onlyGivenNames y1 y2
  refine h0.named (x := y2) ?_ fun _ => ?_
  · subst y2
    subst y1
    refine Eff.put ?_
    assumption
  clear_value y1 y2
  refine Eff.after (State.report_eff _ _ _ _) ?_
  assumption

theorem State.expireSessions_eff (s : State) : Eff [.objs, .signpost, .recorder] s (State.expireSessions s) := by
  delta State.expireSessions
  refine Eff.start fun h0 => ?_
  refine Eff.forEach ?_ fun _ _ _ => ?_
  · assumption
  · split
    · refine Eff.ite ?_ ?_
      · refine Eff.after (State.expireSession_eff _ _ _) ?_
        assumption
      · assumption
    · assumption

theorem State.openSession_eff (s : State) (cl : Client) (write : Bool) (key : Nat) (total : Nat) (data : List Byte) (reply : List Byte) :
    Eff [.freeCount, .objs, .signpost] s (State.openSession s cl write key total data reply) := by
  delta State.openSession
  refine Eff.start fun h0 => ?_
  split
  · refine Eff.after (State.answer_eff _ _ _ _) ?_
    assumption
  · extract_lets -merge -underBinder +onlyGivenNames y0 y1
    try clear_value y0 y1
    extract_lets -merge -underBinder +onlyGivenNames y2 y3
    refine h0.named (x := y3) ?_ fun _ => ?_
    · subst y3
      subst y2
      refine Eff.put ?_
      assumption
    clear_value y2 y3
    refine Eff.after (State.answer_eff _ _ _ _) ?_
    refine Eff.after (State.setSession_eff _ _ _) ?_
    assumption

theorem State.newNonce_eff {s : State} {cl : Client} {t : State} {x : List Byte} (heq : State.newNonce s cl = (t, x)) : Eff [.signpost] s t := by
  cases heq
  exact (State.updClient_eff _ _ _).after (Eff.put (.refl _ _))

theorem State.readObject_eff {s : State} {cl : Client} {r : Row} {i : Nat} {k : Nat} {staged : Bool} {t : State} {x : Option Nat × List Byte}
    (heq : State.readObject s cl r i k staged = (t, x)) : Eff [.signpost, .staging] s t := by
  have hr : ∀ {b : Option Nat × List Byte}, (s, b) = (t, x) → Eff [.signpost, .staging] s t := fun h => by cases h; exact .refl _ _
  have ha : ∀ {b : Option Nat × List Byte}, (s.areaTouched cl, b) = (t, x) → Eff [.signpost, .staging] s t := fun h => by
    cases h; exact (State.areaTouched_eff _ _).mono
  unfold State.readObject at heq
  split at heq
  · cases heq; exact (State.newNonce_eff rfl).mono
  · split at heq
    · split at heq
      · exact hr heq
      · exact ha heq
    · split at heq
      · exact hr heq
      · split at heq
        · split at heq
          · exact hr heq
          · split at heq <;> exact ha heq
        · exact hr heq

theorem State.restoreLedger_eff (s : State) (cl : Client) (b : List Byte) :
    Eff [.freeCount, .objs, .signpost, .cal, .recorder] s (State.restoreLedger s cl b) := by
  delta State.restoreLedger
  refine Eff.start fun h0 => ?_
  extract_lets -merge -underBinder +onlyGivenNames y0 y1 y2
  try clear_value y0 y1 y2
  refine Eff.ite ?_ ?_
  · refine Eff.after (State.answer_eff _ _ _ _) ?_
    assumption
  · refine Eff.ite ?_ ?_
    · refine Eff.after (State.answer_eff _ _ _ _) ?_
      assumption
    · extract_lets -merge -underBinder +onlyGivenNames y3 y4
      try clear_value y3 y4
      extract_lets -merge -underBinder +onlyGivenNames y5
      refine h0.named (x := y5) ?_ fun _ => ?_
      · subst y5
        refine Eff.after (State.recordWrite_eff _ _ _) ?_
        assumption
      clear_value y5
      extract_lets -merge -underBinder +onlyGivenNames y6 y7
      refine h0.named (x := y7) ?_ fun _ => ?_
      · subst y7
        subst y6
        refine Eff.after (State.setOb_eff _ _ _ _ _) ?_
        refine Eff.put ?_
        assumption
      clear_value y6 y7
      refine Eff.after (State.answer_eff _ _ _ _) ?_
      refine Eff.after (State.report_eff _ _ _ _) ?_
      assumption

theorem State.restoreSet_eff (s : State) (cl : Client) (j : Nat) (b : List Byte) :
    Eff [.freeCount, .objs, .signpost, .staging, .cal, .recorder] s (State.restoreSet s cl j b) := by
  delta State.restoreSet
  refine Eff.start fun h0 => ?_
  extract_lets -merge -underBinder +onlyGivenNames y0
  try clear_value y0
  split
  · refine Eff.after (State.answer_eff _ _ _ _) ?_
    assumption
  · refine Eff.ite ?_ ?_
    · refine Eff.after (State.answer_eff _ _ _ _) ?_
      assumption
    · refine Eff.ite ?_ ?_
      · refine Eff.after (State.answer_eff _ _ _ _) ?_
        assumption
      · refine Eff.ite ?_ ?_
        · refine Eff.after (State.answer_eff _ _ _ _) ?_
          assumption
        · extract_lets -merge -underBinder +onlyGivenNames y1
          try clear_value y1
          split
          · refine Eff.after (State.answer_eff _ _ _ _) ?_
            refine Eff.after (State.switchRefused_eff _ _ _) ?_
            assumption
          · extract_lets -merge -underBinder +onlyGivenNames y2
            try clear_value y2
            extract_lets -merge -underBinder +onlyGivenNames y3
            refine h0.named (x := y3) ?_ fun _ => ?_
            · subst y3
              refine Eff.after (State.recordWrite_eff _ _ _) ?_
              assumption
            clear_value y3
            extract_lets -merge -underBinder +onlyGivenNames y4 y5
            refine h0.named (x := y5) ?_ fun _ => ?_
            · subst y5
              subst y4
              refine Eff.put ?_
              assumption
            clear_value y4 y5
            refine Eff.after (State.answer_eff _ _ _ _) ?_
            refine Eff.after (State.placeNow_eff _ _ _) ?_
            assumption

theorem State.runCommand_eff {l : List Part} {s : State} (r : Row) (v : Int) {o : Out} (ho : OutEff l s o)
    (hs : partsIn [.freeCount, .objs, .signpost] l = true := by decide) : Eff l s (State.runCommand s r v o) := by
  unfold State.runCommand
  have h : Eff l s (({ s with signpost := { s.signpost with lastReply := none } } : State).after o) :=
    State.after_eff (Eff.put (.refl _ _) (h13 := .inr (subset_of_partsIn hs (by decide)))) ho
  exact .ite h ((State.answer_eff _ _ _ _).after h (partsIn_trans (by decide) hs))

theorem State.holdComm_eff (s : State) (cl : Client) (key : Nat) (old : Int) : Eff [.signpost] s (State.holdComm s cl key old) := by
  delta State.holdComm
  refine Eff.start fun h0 => ?_
  refine Eff.ite ?_ ?_
  · refine Eff.put ?_
    assumption
  · assumption

theorem State.rwEffect_eff (s : State) (r : Row) (i : Nat) (k : Nat) (v : Int) (old : Int) :
    Eff [.objs, .channels, .recorder] s (State.rwEffect s r i k v old) := by
  delta State.rwEffect
  refine Eff.start fun h0 => ?_
  extract_lets -merge -underBinder +onlyGivenNames y0
  try clear_value y0
  refine Eff.ite ?_ ?_
  · refine Eff.dite (fun _ => ?_) fun _ => ?_
    · refine Eff.after (State.updC_eff _ _ _) ?_
      assumption
    · assumption
  · refine Eff.ite ?_ ?_
    · extract_lets -merge -underBinder +onlyGivenNames y1
      try clear_value y1
      refine Eff.dite (fun _ => ?_) fun _ => ?_
      · refine Eff.ite ?_ ?_
        · refine Eff.after (State.report_eff _ _ _ _) ?_
          assumption
        · assumption
      · assumption
    · assumption

theorem State.writeRw_eff (s : State) (cl : Client) (r : Row) (i : Nat) (k : Nat) (bytes : List Byte) :
    Eff [.freeCount, .objs, .doms, .channels, .signpost, .recorder] s (State.writeRw s cl r i k bytes) := by
  delta State.writeRw
  refine Eff.start fun h0 => ?_
  extract_lets -merge -underBinder +onlyGivenNames y0
  try clear_value y0
  refine Eff.ite ?_ ?_
  · extract_lets -merge -underBinder +onlyGivenNames y1
    try clear_value y1
    extract_lets -merge -underBinder +onlyGivenNames y2
    refine h0.named (x := y2) ?_ fun _ => ?_
    · subst y2
      refine Eff.after (State.setDom_eff _ _ _ _ _) ?_
      refine Eff.after (State.recordWrite_eff _ _ _) ?_
      assumption
    clear_value y2
    refine Eff.after (State.answer_eff _ _ _ _) ?_
    refine Eff.after (State.holdComm_eff _ _ _ _) ?_
    assumption
  · extract_lets -merge -underBinder +onlyGivenNames y3
    try clear_value y3
    refine Eff.ite ?_ ?_
    · refine Eff.after (State.answer_eff _ _ _ _) ?_
      assumption
    · refine Eff.ite ?_ ?_
      · refine Eff.after (State.answer_eff _ _ _ _) ?_
        assumption
      · extract_lets -merge -underBinder +onlyGivenNames y4
        try clear_value y4
        extract_lets -merge -underBinder +onlyGivenNames y5
        refine h0.named (x := y5) ?_ fun _ => ?_
        · subst y5
          refine Eff.after (State.rwEffect_eff _ _ _ _ _ _) ?_
          refine Eff.after (State.putKey_eff _ _ _) ?_
          refine Eff.after (State.recordWrite_eff _ _ _) ?_
          refine Eff.after (State.settleBuckets_eff _ _) ?_
          assumption
        clear_value y5
        refine Eff.after (State.answer_eff _ _ _ _) ?_
        refine Eff.after (State.holdComm_eff _ _ _ _) ?_
        assumption

theorem State.writeStaged_eff (s : State) (cl : Client) (r : Row) (i : Nat) (k : Nat) (v : Int) :
    Eff [.freeCount, .objs, .axes, .signpost, .staging] s (State.writeStaged s cl r i k v) := by
  delta State.writeStaged
  refine Eff.start fun h0 => ?_
  extract_lets -merge -underBinder +onlyGivenNames y0
  try clear_value y0
  extract_lets -merge -underBinder +onlyGivenNames y1
  refine h0.named (x := y1) ?_ fun _ => ?_
  · subst y1
    refine Eff.after (State.areaTouched_eff _ _) ?_
    assumption
  clear_value y1
  extract_lets -merge -underBinder +onlyGivenNames y2 y3
  try clear_value y2 y3
  refine Eff.ite ?_ ?_
  · refine Eff.after (State.answer_eff _ _ _ _) ?_
    assumption
  · refine Eff.ite ?_ ?_
    · refine Eff.after (State.answer_eff _ _ _ _) ?_
      assumption
    · refine Eff.ite ?_ ?_
      · refine Eff.after (State.answer_eff _ _ _ _) ?_
        assumption
      · refine Eff.ite ?_ ?_
        · refine Eff.after (State.answer_eff _ _ _ _) ?_
          assumption
        · refine Eff.ite ?_ ?_
          · extract_lets -merge -underBinder +onlyGivenNames y4
            refine h0.named (x := y4) ?_ fun _ => ?_
            · subst y4
              refine Eff.dite (fun _ => ?_) fun _ => ?_
              · refine Eff.after (State.updA_eff _ _ _) ?_
                assumption
              · assumption
            clear_value y4
            refine Eff.after (State.answer_eff _ _ _ _) ?_
            assumption
          · extract_lets -merge -underBinder +onlyGivenNames y5 y6
            try clear_value y5 y6
            refine Eff.after (State.answer_eff _ _ _ _) ?_
            refine Eff.put ?_
            assumption

theorem State.writeObject_eff (s : State) (cl : Client) (r : Row) (i : Nat) (k : Nat) (bytes : List Byte) (verdict : Option Bool) :
    Eff [.freeCount, .objs, .doms, .pickups, .channels, .decoding, .sides, .spindles, .axes, .host, .ramps, .signpost, .staging, .mem, .cal, .recorder, .milestone, .traces, .verge, .power, .otp] s (State.writeObject s cl r i k bytes verdict) := by
  delta State.writeObject
  refine Eff.start fun h0 => ?_
  extract_lets -merge -underBinder +onlyGivenNames y0
  try clear_value y0
  extract_lets -merge -underBinder +onlyGivenNames y1 y2
  refine h0.named (x := y2) ?_ fun _ => ?_
  · subst y2
    subst y1
    refine Eff.put ?_
    assumption
  clear_value y1 y2
  split
  · rename_i heq
    refine Eff.after (State.runCommand_eff _ _ (State.command_eff heq)) ?_
    assumption
  · refine Eff.ite ?_ ?_
    · refine Eff.after (State.restoreSet_eff _ _ _ _) ?_
      assumption
    · refine Eff.ite ?_ ?_
      · refine Eff.after (State.restoreLedger_eff _ _ _) ?_
        assumption
      · split
        · refine Eff.after (State.writeStaged_eff _ _ _ _ _ _) ?_
          assumption
        · refine State.authWrite_effs ?_ (fun _ _ => ?_)
          · assumption
          · refine Eff.after (State.setOb_eff _ _ _ _ _) ?_
            assumption
        · refine Eff.after (State.writeRw_eff _ _ _ _ _ _) ?_
          assumption

theorem State.objectService_eff (s : State) (cl : Client) (r : Request) :
    Eff [.freeCount, .objs, .doms, .pickups, .channels, .decoding, .sides, .spindles, .axes, .host, .ramps, .signpost, .staging, .mem, .cal, .recorder, .milestone, .traces, .verge, .power, .otp] s (State.objectService s cl r) := by
  delta State.objectService
  refine Eff.start fun h0 => ?_
  split
  · refine Eff.after (State.answer_eff _ _ _ _) ?_
    assumption
  · split
    · refine Eff.after (State.answer_eff _ _ _ _) ?_
      assumption
    · split
      · refine Eff.after (State.answer_eff _ _ _ _) ?_
        assumption
      · extract_lets -merge -underBinder +onlyGivenNames y0
        try clear_value y0
        refine Eff.ite ?_ ?_
        · refine Eff.after (State.writeObject_eff _ _ _ _ _ _ _) ?_
          assumption
        · refine Eff.ite ?_ ?_
          · refine Eff.after (State.openSession_eff _ _ _ _ _ _ _) ?_
            assumption
          · split
            · rename_i heq
              have := Eff.after (b := [.freeCount, .objs, .doms, .pickups, .channels, .decoding, .sides, .spindles, .axes, .host, .ramps, .signpost, .staging, .mem, .cal, .recorder, .milestone, .traces, .verge, .power, .otp]) (s0 := s) (State.readObject_eff heq) (by
                assumption
                )
              split
              · refine Eff.after (State.answer_eff _ _ _ _) ?_
                assumption
              · refine Eff.ite ?_ ?_
                · refine Eff.after (State.answer_eff _ _ _ _) ?_
                  assumption
                · refine Eff.after (State.openSession_eff _ _ _ _ _ _ _) ?_
                  assumption

theorem State.segmentService_eff (s : State) (cl : Client) (r : Request) :
    Eff [.freeCount, .objs, .doms, .pickups, .channels, .decoding, .sides, .spindles, .axes, .host, .ramps, .signpost, .staging, .mem, .cal, .recorder, .milestone, .traces, .verge, .power, .otp] s (State.segmentService s cl r) := by
  delta State.segmentService
  refine Eff.start fun h0 => ?_
  split
  · refine Eff.after (State.answer_eff _ _ _ _) ?_
    assumption
  · split
    · refine Eff.after (State.answer_eff _ _ _ _) ?_
      assumption
    · extract_lets -merge -underBinder +onlyGivenNames y0
      try clear_value y0
      extract_lets -merge -underBinder +onlyGivenNames y1
      refine h0.named (x := y1) ?_ fun _ => ?_
      · subst y1
        refine Eff.after (State.setSession_eff _ _ _) ?_
        assumption
      clear_value y1
      refine Eff.ite ?_ ?_
      · refine Eff.after (State.answer_eff _ _ _ _) ?_
        assumption
      · refine Eff.ite ?_ ?_
        · refine Eff.ite ?_ ?_
          · refine Eff.after (State.answer_eff _ _ _ _) ?_
            assumption
          · refine Eff.after (State.answer_eff _ _ _ _) ?_
            assumption
        · refine Eff.ite ?_ ?_
          · refine Eff.after (State.answer_eff _ _ _ _) ?_
            assumption
          · refine Eff.ite ?_ ?_
            · refine Eff.ite ?_ ?_
              · refine Eff.after (State.answer_eff _ _ _ _) ?_
                assumption
              · refine Eff.ite ?_ ?_
                · refine Eff.after (State.answer_eff _ _ _ _) ?_
                  assumption
                · refine Eff.after (State.answer_eff _ _ _ _) ?_
                  refine Eff.after (State.setSession_eff _ _ _) ?_
                  assumption
            · refine Eff.ite ?_ ?_
              · refine Eff.after (State.answer_eff _ _ _ _) ?_
                assumption
              · split
                · refine Eff.after (State.writeObject_eff _ _ _ _ _ _ _) ?_
                  assumption
                · refine Eff.after (State.answer_eff _ _ _ _) ?_
                  assumption

theorem State.execRequest_eff (s : State) (cl : Client) (r : Request) :
    Eff [.freeCount, .objs, .doms, .pickups, .channels, .decoding, .sides, .spindles, .axes, .host, .ramps, .signpost, .staging, .mem, .cal, .recorder, .milestone, .traces, .verge, .power, .otp] s (State.execRequest s cl r) := by
  delta State.execRequest
  refine Eff.start fun h0 => ?_
  extract_lets -merge -underBinder +onlyGivenNames y0 y1
  refine h0.named (x := y1) ?_ fun _ => ?_
  · subst y1
    subst y0
    refine Eff.after (State.expireSessions_eff _) ?_
    refine Eff.put ?_
    assumption
  clear_value y0 y1
  split
  · refine Eff.after (State.answer_eff _ _ _ _) ?_
    assumption
  · refine Eff.ite ?_ ?_
    · refine Eff.after (State.enumerateService_eff _ _) ?_
      assumption
    · refine Eff.ite ?_ ?_
      · refine Eff.after (State.segmentService_eff _ _ _) ?_
        assumption
      · refine Eff.after (State.objectService_eff _ _ _) ?_
        assumption

theorem State.serve_eff (s : State) (cl : Client) (r : Request) (mine : Bool) :
    OutEff [.freeCount, .objs, .doms, .pickups, .channels, .decoding, .sides, .spindles, .axes, .host, .ramps, .signpost, .staging, .mem, .cal, .recorder, .milestone, .traces, .verge, .power, .otp] s (State.serve s cl r mine) := by
  delta State.serve
  refine OutEff.start fun h0 => ?_
  refine State.when_effs ?_ (fun _ _ => ?_)
  · assumption
  · extract_lets -merge -underBinder +onlyGivenNames y0
    have h_run : ∀ u, Eff [.freeCount, .objs, .doms, .pickups, .channels, .decoding, .sides, .spindles, .axes, .host, .ramps, .signpost, .staging, .mem, .cal, .recorder, .milestone, .traces, .verge, .power, .otp] s u → Eff [.freeCount, .objs, .doms, .pickups, .channels, .decoding, .sides, .spindles, .axes, .host, .ramps, .signpost, .staging, .mem, .cal, .recorder, .milestone, .traces, .verge, .power, .otp] s (y0 u) := by
      intro u hu
      have := (State.execRequest_eff u.clearSent cl r).after ((State.clearSent_eff u).after hu)
      exact Eff.ite ((State.stampReply_eff _ _ _).after this) ((State.updClient_eff _ _ _).after this)
    clear_value y0
    split
    · refine Eff.ite ?_ ?_
      · refine h_run _ ?_
        refine Eff.put ?_
        assumption
      · assumption
    · split
      · refine Eff.after (State.resend_eff _ _ _ _) ?_
        refine Eff.after (State.clearSent_eff _) ?_
        assumption
      · refine h_run _ ?_
        assumption

end Sys2Proof.Machine
end

