-- ==== Sys2Proof/Laws/Carriers.lean ====
section
/-! SUPPORT. What each operation of Sys2Proof/Machine/Carriers.lean may change: `x_eff` names the parts of the state that x may change and says that
x keeps every form of Sys2Proof/Safety.lean; `x_effs` says so of an operation with operations as arguments, under the same of each argument. -/

set_option Elab.async false

namespace Sys2Proof.Machine

theorem State.canMessage_eff (s : State) (port : Fin 2) (m : List Byte) : Eff [.objs, .signpost, .recorder] s (State.canMessage s port m) := by
  delta State.canMessage
  refine Eff.start fun h0 => ?_
  refine Eff.ite ?_ ?_
  · refine Eff.after (State.bump_eff _ _ _ _ _) ?_
    assumption
  · refine Eff.after (State.arriveBytes_eff _ _ _) ?_
    refine Eff.after (State.bump_eff _ _ _ _ _) ?_
    assumption

theorem State.setRx_eff (s : State) (port : Fin 2) (x : Option IsoRx) : Eff [.signpost] s (State.setRx s port x) := by
  delta State.setRx
  refine Eff.start fun h0 => ?_
  refine Eff.after (State.updCan_eff _ _ _) ?_
  assumption

theorem State.consecutiveFrame_eff (s : State) (port : Fin 2) (f : List Byte) :
    Eff [.objs, .signpost, .recorder] s (State.consecutiveFrame s port f) := by
  delta State.consecutiveFrame
  refine Eff.start fun h0 => ?_
  split
  · assumption
  · refine Eff.ite ?_ ?_
    · refine Eff.after (State.setRx_eff _ _ _) ?_
      assumption
    · extract_lets -merge -underBinder +onlyGivenNames y0
      try clear_value y0
      refine Eff.ite ?_ ?_
      · refine Eff.after (State.setRx_eff _ _ _) ?_
        assumption
      · refine Eff.after (State.canMessage_eff _ _ _) ?_
        refine Eff.after (State.setRx_eff _ _ _) ?_
        assumption

theorem State.sendFlow_eff (s : State) (port : Fin 2) (status : Byte) : Eff [.signpost] s (State.sendFlow s port status) := by
  delta State.sendFlow
  refine Eff.start fun h0 => ?_
  refine Eff.after (State.updCan_eff _ _ _) ?_
  assumption

theorem State.firstFrame_eff (s : State) (port : Fin 2) (f : List Byte) : Eff [.objs, .signpost] s (State.firstFrame s port f) := by
  delta State.firstFrame
  refine Eff.start fun h0 => ?_
  extract_lets -merge -underBinder +onlyGivenNames y0 y1
  try clear_value y0 y1
  split
  · refine Eff.ite ?_ ?_
    · refine Eff.after (State.bump_eff _ _ _ _ _) ?_
      refine Eff.after (State.sendFlow_eff _ _ _) ?_
      refine Eff.after (State.setRx_eff _ _ _) ?_
      assumption
    · refine Eff.after (State.sendFlow_eff _ _ _) ?_
      refine Eff.after (State.setRx_eff _ _ _) ?_
      refine Eff.after (State.setRx_eff _ _ _) ?_
      assumption

theorem State.singleFrame_eff (s : State) (port : Fin 2) (f : List Byte) : Eff [.objs, .signpost, .recorder] s (State.singleFrame s port f) := by
  delta State.singleFrame
  refine Eff.start fun h0 => ?_
  extract_lets -merge -underBinder +onlyGivenNames y0
  try clear_value y0
  split
  · extract_lets -merge -underBinder +onlyGivenNames y1
    refine h0.named (x := y1) ?_ fun _ => ?_
    · subst y1
      refine Eff.after (State.setRx_eff _ _ _) ?_
      assumption
    clear_value y1
    refine Eff.ite ?_ ?_
    · assumption
    · refine Eff.after (State.canMessage_eff _ _ _) ?_
      assumption

theorem State.udpSlot_eff {s : State} {address : Nat} {port : Nat} {t : State} {x : Fin 16} (heq : State.udpSlot s address port = (t, x)) :
    Eff [.signpost] s t := by
  unfold State.udpSlot at heq
  dsimp only at heq
  split at heq
  · cases heq; exact State.updEth_eff _ _
  · split at heq
    · cases heq; exact State.updEth_eff _ _
    · cases heq; exact (State.updEth_eff _ _).after (Eff.put (.refl _ _))

theorem execArpRequest_eff (sourceMac : Nat) (targetAddress : Nat) (s : State) : OutEff [.signpost] s (execArpRequest sourceMac targetAddress s) := by
  delta execArpRequest
  refine OutEff.start fun h0 => ?_
  refine State.when_effs ?_ (fun _ _ => ?_)
  · assumption
  · refine Eff.after (State.updEth_eff _ _) ?_
    refine Eff.after (State.clearSent_eff _) ?_
    assumption

theorem execCanBusOff_eff (port : Fin 2) (s : State) : OutEff [.objs, .signpost, .recorder] s (execCanBusOff port s) := by
  delta execCanBusOff
  refine OutEff.start fun h0 => ?_
  refine State.when_effs ?_ (fun _ _ => ?_)
  · assumption
  · extract_lets -merge -underBinder +onlyGivenNames y0
    refine h0.named (x := y0) ?_ fun _ => ?_
    · subst y0
      refine Eff.after (State.updCan_eff _ _ _) ?_
      assumption
    clear_value y0
    refine Eff.after (State.report_eff _ _ _ _) ?_
    refine Eff.after (State.bump_eff _ _ _ _ _) ?_
    assumption

theorem execCanBusOffRecovery_eff (port : Fin 2) (s : State) : OutEff [.signpost] s (execCanBusOffRecovery port s) := by
  delta execCanBusOffRecovery
  refine OutEff.start fun h0 => ?_
  refine State.when_effs ?_ (fun _ _ => ?_)
  · assumption
  · refine Eff.after (State.updCan_eff _ _ _) ?_
    assumption

theorem execCanFrame_eff (port : Fin 2) (identifier : Nat) (classical : Bool) (payload : List Byte) (s : State) :
    OutEff [.objs, .signpost, .recorder] s (execCanFrame port identifier classical payload s) := by
  delta execCanFrame
  refine OutEff.start fun h0 => ?_
  refine State.when_effs ?_ (fun _ _ => ?_)
  · assumption
  · extract_lets -merge -underBinder +onlyGivenNames y0
    refine h0.named (x := y0) ?_ fun _ => ?_
    · subst y0
      refine Eff.after (State.clearSent_eff _) ?_
      assumption
    clear_value y0
    refine Eff.ite ?_ ?_
    · refine Eff.after (State.bump_eff _ _ _ _ _) ?_
      assumption
    · split
      · refine Eff.after (State.singleFrame_eff _ _ _) ?_
        assumption
      · refine Eff.after (State.firstFrame_eff _ _ _) ?_
        assumption
      · refine Eff.after (State.consecutiveFrame_eff _ _ _) ?_
        assumption
      · refine Eff.after (State.updCan_eff _ _ _) ?_
        assumption
      · assumption

theorem execCommSettingsChange_eff (index : Nat) (s : State) : OutEff [.objs, .signpost, .recorder] s (execCommSettingsChange index s) := by
  delta execCommSettingsChange
  refine OutEff.start fun h0 => ?_
  refine State.when_effs ?_ (fun _ _ => ?_)
  · assumption
  · extract_lets -merge -underBinder +onlyGivenNames y0 y1
    try clear_value y0 y1
    extract_lets -merge -underBinder +onlyGivenNames y2 y3
    refine h0.named (x := y3) ?_ fun _ => ?_
    · subst y3
      subst y2
      refine Eff.put ?_
      assumption
    clear_value y2 y3
    extract_lets -merge -underBinder +onlyGivenNames y4
    refine h0.named (x := y4) ?_ fun _ => ?_
    · subst y4
      refine Eff.forEach ?_ fun _ _ _ => ?_
      · assumption
      · refine Eff.ite ?_ ?_
        · refine Eff.after (State.updCan_eff _ _ _) ?_
          assumption
        · assumption
    clear_value y4
    refine Eff.forEach ?_ fun _ _ _ => ?_
    · assumption
    · refine Eff.after (State.report_eff _ _ _ _) ?_
      assumption

theorem execIcmpEcho_eff (v6 : Bool) (source : Nat) (target : Nat) (payload : List Byte) (s : State) :
    OutEff [.signpost] s (execIcmpEcho v6 source target payload s) := by
  delta execIcmpEcho
  refine OutEff.start fun h0 => ?_
  refine State.when_effs ?_ (fun _ _ => ?_)
  · assumption
  · refine Eff.after (State.updEth_eff _ _) ?_
    refine Eff.after (State.clearSent_eff _) ?_
    assumption

theorem execIsoTpTimeout_eff (port : Fin 2) (s : State) : OutEff [.signpost] s (execIsoTpTimeout port s) := by
  delta execIsoTpTimeout
  refine OutEff.start fun h0 => ?_
  refine State.when_effs ?_ (fun _ _ => ?_)
  · assumption
  · refine Eff.after (State.updCan_eff _ _ _) ?_
    refine Eff.after (State.clearSent_eff _) ?_
    assumption

theorem execNeighbourSolicitation_eff (source : Nat) (target : Nat) (s : State) :
    OutEff [.signpost] s (execNeighbourSolicitation source target s) := by
  delta execNeighbourSolicitation
  refine OutEff.start fun h0 => ?_
  refine State.when_effs ?_ (fun _ _ => ?_)
  · assumption
  · refine Eff.after (State.updEth_eff _ _) ?_
    refine Eff.after (State.clearSent_eff _) ?_
    assumption

theorem execReassemblyTimeout_eff (x0 : Fin 4) (s : State) : OutEff [.objs] s (execReassemblyTimeout x0 s) := by
  delta execReassemblyTimeout
  refine OutEff.start fun h0 => ?_
  refine State.when_effs ?_ (fun _ _ => ?_)
  · assumption
  · refine Eff.after (State.bump_eff _ _ _ _ _) ?_
    assumption

theorem execUdpDatagram_eff (sourceAddress : Nat) (sourcePort : Nat) (destPort : Nat) (v6 : Bool) (checksumZero : Bool) (payload : List Byte) (s : State) :
    OutEff [.objs, .signpost, .recorder] s (execUdpDatagram sourceAddress sourcePort destPort v6 checksumZero payload s) := by
  delta execUdpDatagram
  refine OutEff.start fun h0 => ?_
  refine State.when_effs ?_ (fun _ _ => ?_)
  · assumption
  · extract_lets -merge -underBinder +onlyGivenNames y0
    refine h0.named (x := y0) ?_ fun _ => ?_
    · subst y0
      refine Eff.after (State.clearSent_eff _) ?_
      assumption
    clear_value y0
    refine Eff.ite ?_ ?_
    · refine Eff.after (State.bump_eff _ _ _ _ _) ?_
      assumption
    · split
      · rename_i heq
        have := Eff.after (b := [.objs, .signpost, .recorder]) (s0 := s) (State.udpSlot_eff heq) (by
          refine Eff.after (State.bump_eff _ _ _ _ _) ?_
          assumption
          )
        refine Eff.after (State.arriveBytes_eff _ _ _) ?_
        assumption

end Sys2Proof.Machine
end

