-- ==== Sys2Proof/Laws/Pulses.lean ====
section
/-! SUPPORT. What each operation of Sys2Proof/Machine/Pulses.lean may change: `x_eff` names the parts of the state that x may change and says that
x keeps every form of Sys2Proof/Safety.lean; `x_effs` says so of an operation with operations as arguments, under the same of each argument. -/

set_option Elab.async false

namespace Sys2Proof.Machine

theorem State.writePower_eff (s : State) (g : BeamId) : Eff [.sides] s (State.writePower s g) := by
  delta State.writePower
  refine Eff.start fun h0 => ?_
  extract_lets -merge -underBinder +onlyGivenNames y0
  try clear_value y0
  refine Eff.after (State.updS_eff _ _ _) ?_
  assumption

end Sys2Proof.Machine
end

