-- ==== Sys2Proof/Laws/Channel.lean ====
section
/-! SUPPORT. What each operation of Sys2Proof/Machine/Channel.lean may change: `x_eff` names the parts of the state that x may change and says that
x keeps every form of Sys2Proof/Safety.lean; `x_effs` says so of an operation with operations as arguments, under the same of each argument. -/

set_option Elab.async false

namespace Sys2Proof.Machine

theorem State.buildFrame_eff (s : State) (g : BeamId) (stream : Nat) : Eff [.channels, .sides] s (State.buildFrame s g stream) := by
  delta State.buildFrame
  refine Eff.start fun h0 => ?_
  extract_lets -merge -underBinder +onlyGivenNames y0
  try clear_value y0
  split
  · refine Eff.after (State.writePower_eff _ _) ?_
    refine Eff.after (State.updC_eff _ _ _) ?_
    assumption
  · refine Eff.after (State.updC_eff _ _ _) ?_
    assumption

theorem State.checkHeader_eff {s : State} {g : BeamId} {h : Header} {t : State} {x : Bool} (heq : State.checkHeader s g h = (t, x)) :
    Eff [.objs, .recorder] s t := by
  unfold State.checkHeader at heq
  dsimp only at heq
  split at heq <;> cases heq
  · exact .refl _ _
  · exact (State.report_eff _ _ _ _).after (State.bump_eff _ _ _ _ _).mono

theorem State.countStatus_eff (s : State) (g : BeamId) (st : FrameStatus) : Eff [.objs] s (State.countStatus s g st) := by
  delta State.countStatus
  refine Eff.start fun h0 => ?_
  split
  · refine Eff.after (State.bump_eff _ _ _ _ _) ?_
    assumption
  · refine Eff.after (State.bump_eff _ _ _ _ _) ?_
    assumption
  · refine Eff.after (State.bump_eff _ _ _ _ _) ?_
    assumption
  · refine Eff.after (State.bump_eff _ _ _ _ _) ?_
    assumption
  · assumption

theorem State.lockFrame_eff (s : State) (g : BeamId) (header : Option Header) : Eff [.objs, .channels, .recorder] s (State.lockFrame s g header) := by
  delta State.lockFrame
  refine Eff.start fun h0 => ?_
  extract_lets -merge -underBinder +onlyGivenNames y0
  try clear_value y0
  refine Eff.ite ?_ ?_
  · refine Eff.after (State.report_eff _ _ _ _) ?_
    refine Eff.after (State.updC_eff _ _ _) ?_
    assumption
  · assumption

theorem State.noteSearch_eff (s : State) (g : BeamId) (a : Alignment) : Eff [.objs, .channels, .recorder] s (State.noteSearch s g a) := by
  delta State.noteSearch
  refine Eff.start fun h0 => ?_
  extract_lets -merge -underBinder +onlyGivenNames y0 y1
  try clear_value y0 y1
  extract_lets -merge -underBinder +onlyGivenNames y2
  refine h0.named (x := y2) ?_ fun _ => ?_
  · subst y2
    refine Eff.after (State.updC_eff _ _ _) ?_
    assumption
  clear_value y2
  extract_lets -merge -underBinder +onlyGivenNames y3
  refine h0.named (x := y3) ?_ fun _ => ?_
  · subst y3
    refine Eff.ite ?_ ?_
    · assumption
    · refine Eff.after (State.countStatus_eff _ _ _) ?_
      assumption
  clear_value y3
  refine Eff.ite ?_ ?_
  · refine Eff.after (State.report_eff _ _ _ _) ?_
    assumption
  · assumption

theorem State.setFrontEnd_eff (s : State) (g : BeamId) (rate : Nat) : Eff [.channels] s (State.setFrontEnd s g rate) := by
  delta State.setFrontEnd
  refine Eff.start fun h0 => ?_
  refine Eff.after (State.updC_eff _ _ _) ?_
  assumption

theorem State.storeFrame_eff (s : State) (g : BeamId) (stream : Nat) :
    Eff [.objs, .channels, .sides, .host, .recorder] s (State.storeFrame s g stream) := by
  delta State.storeFrame
  refine Eff.start fun h0 => ?_
  extract_lets -merge -underBinder +onlyGivenNames y0 y1 y2 y3 y4 y5 y6
  try clear_value y0 y1 y2 y3 y4 y5 y6
  split
  · refine Eff.after (State.updC_eff _ _ _) ?_
    assumption
  · extract_lets -merge -underBinder +onlyGivenNames y7
    refine h0.named (x := y7) ?_ fun _ => ?_
    · subst y7
      refine Eff.after (State.report_eff _ _ _ _) ?_
      refine Eff.after (State.bump_eff _ _ _ _ _) ?_
      assumption
    clear_value y7
    refine Eff.after (State.handFrame_eff _ _ _ _) ?_
    refine Eff.after (State.updC_eff _ _ _) ?_
    assumption

theorem execAgcLimit_eff (g : BeamId) (s : State) : OutEff [.objs, .channels, .recorder] s (execAgcLimit g s) := by
  delta execAgcLimit
  refine OutEff.start fun h0 => ?_
  refine State.when_effs ?_ (fun _ _ => ?_)
  · assumption
  · refine Eff.after (State.report_eff _ _ _ _) ?_
    refine Eff.after (State.updC_eff _ _ _) ?_
    assumption

theorem execAgcUpdate_eff (g : BeamId) (codes : List Int) (s : State) : OutEff [.channels] s (execAgcUpdate g codes s) := by
  delta execAgcUpdate
  refine OutEff.start fun h0 => ?_
  extract_lets -merge -underBinder +onlyGivenNames y0
  try clear_value y0
  refine State.when_effs ?_ (fun _ _ => ?_)
  · assumption
  · extract_lets -merge -underBinder +onlyGivenNames y1
    refine h0.named (x := y1) ?_ fun _ => ?_
    · subst y1
      refine Eff.after (State.updC_eff _ _ _) ?_
      assumption
    clear_value y1
    extract_lets -merge -underBinder +onlyGivenNames y2 y3 y4 y5 y6 y7
    try clear_value y2 y3 y4 y5 y6 y7
    refine Eff.after (State.updC_eff _ _ _) ?_
    assumption

theorem execCodewordOffer_eff (g : BeamId) (half : Fin 2) (s : State) :
    OutEff [.objs, .channels, .decoding, .sides, .recorder] s (execCodewordOffer g half s) := by
  delta execCodewordOffer
  refine OutEff.start fun h0 => ?_
  refine State.when_effs ?_ (fun _ _ => ?_)
  · assumption
  · extract_lets -merge -underBinder +onlyGivenNames y0
    try clear_value y0
    split
    · assumption
    · extract_lets -merge -underBinder +onlyGivenNames y1 y2 y3
      try clear_value y1 y2 y3
      extract_lets -merge -underBinder +onlyGivenNames y4
      refine h0.named (x := y4) ?_ fun _ => ?_
      · subst y4
        refine Eff.after (State.updC_eff _ _ _) ?_
        assumption
      clear_value y4
      extract_lets -merge -underBinder +onlyGivenNames y5
      refine h0.named (x := y5) ?_ fun _ => ?_
      · subst y5
        refine Eff.after (State.bump_eff _ _ _ _ _) ?_
        assumption
      clear_value y5
      extract_lets -merge -underBinder +onlyGivenNames y6
      refine h0.named (x := y6) ?_ fun _ => ?_
      · subst y6
        refine Eff.ite ?_ ?_
        · refine Eff.after (State.bump_eff _ _ _ _ _) ?_
          assumption
        · assumption
      clear_value y6
      refine Eff.after (State.offerCodeword_eff _ _ _ _ _ _) ?_
      assumption

theorem execEnvelopeFlag_eff (g : BeamId) (s : State) : OutEff [.objs, .channels] s (execEnvelopeFlag g s) := by
  delta execEnvelopeFlag
  refine OutEff.start fun h0 => ?_
  extract_lets -merge -underBinder +onlyGivenNames y0
  try clear_value y0
  refine State.when_effs ?_ (fun _ _ => ?_)
  · assumption
  · split
    · assumption
    · refine Eff.after (State.bump_eff _ _ _ _ _) ?_
      refine Eff.after (State.updC_eff _ _ _) ?_
      assumption
    · refine Eff.after (State.updC_eff _ _ _) ?_
      assumption

theorem execFrameSlotRelease_eff (g : BeamId) (slot : Fin 3) (s : State) : OutEff [.channels] s (execFrameSlotRelease g slot s) := by
  delta execFrameSlotRelease
  refine OutEff.start fun h0 => ?_
  extract_lets -merge -underBinder +onlyGivenNames y0
  try clear_value y0
  refine State.when_effs ?_ (fun _ _ => ?_)
  · assumption
  · refine Eff.after (State.updC_eff _ _ _) ?_
    assumption

theorem execFrameStart_eff (g : BeamId) (row : Nat) (wanted : Bool) (s : State) :
    OutEff [.objs, .channels, .sides, .host, .recorder] s (execFrameStart g row wanted s) := by
  delta execFrameStart
  refine OutEff.start fun h0 => ?_
  refine State.when_effs ?_ (fun _ _ => ?_)
  · assumption
  · extract_lets -merge -underBinder +onlyGivenNames y0 y1
    try clear_value y0 y1
    extract_lets -merge -underBinder +onlyGivenNames y2
    refine h0.named (x := y2) ?_ fun _ => ?_
    · subst y2
      refine Eff.after (State.updC_eff _ _ _) ?_
      assumption
    clear_value y2
    extract_lets -merge -underBinder +onlyGivenNames y3 y4
    try clear_value y3 y4
    extract_lets -merge -underBinder +onlyGivenNames y5
    refine h0.named (x := y5) ?_ fun _ => ?_
    · subst y5
      refine Eff.after (State.setFrontEnd_eff _ _ _) ?_
      assumption
    clear_value y5
    split
    · refine Eff.after (State.updC_eff _ _ _) ?_
      assumption
    · extract_lets -merge -underBinder +onlyGivenNames y6
      try clear_value y6
      refine Eff.ite ?_ ?_
      · refine Eff.after (State.buildFrame_eff _ _ _) ?_
        refine Eff.after (State.updC_eff _ _ _) ?_
        assumption
      · refine Eff.ite ?_ ?_
        · assumption
        · refine Eff.ite ?_ ?_
          · refine Eff.after (State.report_eff _ _ _ _) ?_
            refine Eff.after (State.updC_eff _ _ _) ?_
            assumption
          · extract_lets -merge -underBinder +onlyGivenNames y7
            refine h0.named (x := y7) ?_ fun _ => ?_
            · subst y7
              refine Eff.ite ?_ ?_
              · refine Eff.after (State.updC_eff _ _ _) ?_
                assumption
              · assumption
            clear_value y7
            extract_lets -merge -underBinder +onlyGivenNames y8
            try clear_value y8
            extract_lets -merge -underBinder +onlyGivenNames y9
            refine h0.named (x := y9) ?_ fun _ => ?_
            · subst y9
              refine Eff.after (State.updC_eff _ _ _) ?_
              assumption
            clear_value y9
            refine Eff.ite ?_ ?_
            · refine Eff.after (State.storeFrame_eff _ _ _) ?_
              assumption
            · assumption

theorem execGuideFlag_eff (g : BeamId) (s : State) : OutEff [.objs, .channels] s (execGuideFlag g s) := by
  delta execGuideFlag
  refine OutEff.start fun h0 => ?_
  extract_lets -merge -underBinder +onlyGivenNames y0
  try clear_value y0
  refine State.when_effs ?_ (fun _ _ => ?_)
  · assumption
  · split
    · assumption
    · refine Eff.after (State.bump_eff _ _ _ _ _) ?_
      refine Eff.after (State.updC_eff _ _ _) ?_
      assumption
    · refine Eff.after (State.updC_eff _ _ _) ?_
      assumption

theorem execItiFracDelayStep_eff (g : BeamId) (j : Fin 4) (s : State) : OutEff [.channels] s (execItiFracDelayStep g j s) := by
  delta execItiFracDelayStep
  refine OutEff.start fun h0 => ?_
  extract_lets -merge -underBinder +onlyGivenNames y0
  try clear_value y0
  refine State.when_effs ?_ (fun _ _ => ?_)
  · assumption
  · extract_lets -merge -underBinder +onlyGivenNames y1
    try clear_value y1
    refine Eff.after (State.updC_eff _ _ _) ?_
    assumption

theorem execItiLimit_eff (g : BeamId) (j : Fin 4) (s : State) : OutEff [.objs, .channels, .recorder] s (execItiLimit g j s) := by
  delta execItiLimit
  refine OutEff.start fun h0 => ?_
  extract_lets -merge -underBinder +onlyGivenNames y0 y1
  try clear_value y0 y1
  refine State.when_effs ?_ (fun _ _ => ?_)
  · assumption
  · refine Eff.after (State.report_eff _ _ _ _) ?_
    refine Eff.after (State.updC_eff _ _ _) ?_
    assumption

theorem execLockLost_eff (g : BeamId) (s : State) : OutEff [.objs, .channels, .recorder] s (execLockLost g s) := by
  delta execLockLost
  refine OutEff.start fun h0 => ?_
  extract_lets -merge -underBinder +onlyGivenNames y0
  try clear_value y0
  refine State.when_effs ?_ (fun _ _ => ?_)
  · assumption
  · refine Eff.after (State.report_eff _ _ _ _) ?_
    refine Eff.after (State.bump_eff _ _ _ _ _) ?_
    refine Eff.after (State.updC_eff _ _ _) ?_
    assumption

theorem execTimingAcqEnd_eff (g : BeamId) (s : State) : OutEff [.channels] s (execTimingAcqEnd g s) := by
  delta execTimingAcqEnd
  refine OutEff.start fun h0 => ?_
  extract_lets -merge -underBinder +onlyGivenNames y0
  try clear_value y0
  refine State.when_effs ?_ (fun _ _ => ?_)
  · assumption
  · refine Eff.after (State.updC_eff _ _ _) ?_
    assumption

theorem execTimingRelock_eff (g : BeamId) (s : State) : OutEff [.channels] s (execTimingRelock g s) := by
  delta execTimingRelock
  refine OutEff.start fun h0 => ?_
  extract_lets -merge -underBinder +onlyGivenNames y0
  try clear_value y0
  refine State.when_effs ?_ (fun _ _ => ?_)
  · assumption
  · refine Eff.after (State.updC_eff _ _ _) ?_
    assumption

theorem execTimingUnlock_eff (g : BeamId) (s : State) : OutEff [.objs, .channels, .recorder] s (execTimingUnlock g s) := by
  delta execTimingUnlock
  refine OutEff.start fun h0 => ?_
  extract_lets -merge -underBinder +onlyGivenNames y0
  try clear_value y0
  refine State.when_effs ?_ (fun _ _ => ?_)
  · assumption
  · refine Eff.after (State.report_eff _ _ _ _) ?_
    refine Eff.after (State.bump_eff _ _ _ _ _) ?_
    refine Eff.after (State.updC_eff _ _ _) ?_
    assumption

theorem execWaymarkSearch_eff (g : BeamId) (s : State) :
    OutEff [.objs, .pickups, .channels, .decoding, .sides, .spindles, .axes, .host, .recorder] s (execWaymarkSearch g s) := by
  delta execWaymarkSearch
  refine OutEff.start fun h0 => ?_
  extract_lets -merge -underBinder +onlyGivenNames y0 y1
  try clear_value y0 y1
  refine State.when_effs ?_ (fun _ _ => ?_)
  · assumption
  · extract_lets -merge -underBinder +onlyGivenNames y2
    try clear_value y2
    extract_lets -merge -underBinder +onlyGivenNames y3
    refine h0.named (x := y3) ?_ fun _ => ?_
    · subst y3
      refine Eff.after (State.noteSearch_eff _ _ _) ?_
      assumption
    clear_value y3
    split
    · rename_i h7 _ t matched heq
      have : Eff [.objs, .pickups, .channels, .decoding, .sides, .spindles, .axes, .host, .recorder] s t := by
        split at heq
        · exact (State.checkHeader_eff heq).after h7
        · cases heq; exact h7
      extract_lets -merge -underBinder +onlyGivenNames y4
      refine h0.named (x := y4) ?_ fun _ => ?_
      · subst y4
        refine Eff.after (State.lockFrame_eff _ _ _) ?_
        assumption
      clear_value y4
      extract_lets -merge -underBinder +onlyGivenNames y5
      try clear_value y5
      extract_lets -merge -underBinder +onlyGivenNames y6
      refine h0.named (x := y6) ?_ fun _ => ?_
      · subst y6
        refine Eff.after (State.updC_eff _ _ _) ?_
        assumption
      clear_value y6
      split
      · assumption
      · split
        · assumption
        · extract_lets -merge -underBinder +onlyGivenNames y7
          try clear_value y7
          extract_lets -merge -underBinder +onlyGivenNames y8
          refine h0.named (x := y8) ?_ fun _ => ?_
          · subst y8
            refine Eff.after (State.updC_eff _ _ _) ?_
            assumption
          clear_value y8
          refine Eff.after (State.settle_eff _ _ _ _) ?_
          refine Eff.after (State.handFrame_eff _ _ _ _) ?_
          assumption

theorem execWobbleAmplitudePost_eff (p : PickupId) (s : State) : OutEff [.pickups, .channels] s (execWobbleAmplitudePost p s) := by
  delta execWobbleAmplitudePost
  refine OutEff.start fun h0 => ?_
  refine State.when_effs ?_ (fun _ _ => ?_)
  · assumption
  · extract_lets -merge -underBinder +onlyGivenNames y0
    refine h0.named (x := y0) ?_ fun _ => ?_
    · subst y0
      refine Eff.after (State.updChannels_eff _ _ _) ?_
      assumption
    clear_value y0
    extract_lets -merge -underBinder +onlyGivenNames y1
    try clear_value y1
    refine Eff.after (State.updP_eff _ _ _) ?_
    assumption

end Sys2Proof.Machine
end

