-- ==== Sys2Proof/Laws/Decoding.lean ====
section
/-! SUPPORT. What each operation of Sys2Proof/Machine/Decoding.lean may change: `x_eff` names the parts of the state that x may change and says that
x keeps every form of Sys2Proof/Safety.lean; `x_effs` says so of an operation with operations as arguments, under the same of each argument. -/

set_option Elab.async false

namespace Sys2Proof.Machine

theorem State.applyDetour_eff (s : State) (p : PickupId) (d : DetourSettings) (code : Nat) (second : Bool) :
    Eff [.pickups, .channels, .spindles] s (State.applyDetour s p d code second) := by
  delta State.applyDetour
  refine Eff.start fun h0 => ?_
  extract_lets -merge -underBinder +onlyGivenNames y0
  try clear_value y0
  split
  · refine Eff.after (State.updP_eff _ _ _) ?_
    assumption
  · refine Eff.after (State.updP_eff _ _ _) ?_
    assumption
  · extract_lets -merge -underBinder +onlyGivenNames y1
    refine h0.named (x := y1) ?_ fun _ => ?_
    · subst y1
      refine Eff.after (State.updP_eff _ _ _) ?_
      assumption
    clear_value y1
    refine Eff.forEach ?_ fun _ _ _ => ?_
    · assumption
    · refine Eff.after (State.updC_eff _ _ _) ?_
      assumption
  · refine Eff.after (State.updP_eff _ _ _) ?_
    assumption
  · refine Eff.after (State.updM_eff _ _ _) ?_
    assumption
  · assumption

theorem State.confirmSecond_eff (s : State) (g : BeamId) (i : Fin 3) (f : FrameSlot) :
    Eff [.objs, .channels, .recorder] s (State.confirmSecond s g i f) := by
  delta State.confirmSecond
  refine Eff.start fun h0 => ?_
  extract_lets -merge -underBinder +onlyGivenNames y0
  refine h0.named (x := y0) ?_ fun _ => ?_
  · subst y0
    refine Eff.after (State.updC_eff _ _ _) ?_
    assumption
  clear_value y0
  refine Eff.after (State.report_eff _ _ _ _) ?_
  refine Eff.after (State.bump_eff _ _ _ _ _) ?_
  assumption

theorem State.endFirstPass_eff (s : State) (j : Job) (r : DecodeResult) :
    Eff [.objs, .pickups, .channels, .decoding, .sides, .spindles, .axes, .host, .recorder] s (State.endFirstPass s j r) := by
  delta State.endFirstPass
  refine Eff.start fun h0 => ?_
  extract_lets -merge -underBinder +onlyGivenNames y0
  try clear_value y0
  refine Eff.ite ?_ ?_
  · assumption
  · refine Eff.ite ?_ ?_
    · refine Eff.after (State.settle_eff _ _ _ _) ?_
      refine Eff.after (State.updSector_eff _ _ _ _ _ _) ?_
      assumption
    · extract_lets -merge -underBinder +onlyGivenNames y1
      refine h0.named (x := y1) ?_ fun _ => ?_
      · subst y1
        refine Eff.after (State.bump_eff _ _ _ _ _) ?_
        assumption
      clear_value y1
      extract_lets -merge -underBinder +onlyGivenNames y2
      refine h0.named (x := y2) ?_ fun _ => ?_
      · subst y2
        refine Eff.after (State.updSector_eff _ _ _ _ _ _) ?_
        assumption
      clear_value y2
      refine Eff.after (State.settle_eff _ _ _ _) ?_
      refine Eff.after (State.keepLlrs_eff _ _ _ _ _ _ _) ?_
      assumption

theorem State.offerSecond_eff (s : State) (g : BeamId) (i : Fin 3) (f : FrameSlot) :
    Eff [.objs, .channels, .decoding, .sides, .recorder] s (State.offerSecond s g i f) := by
  delta State.offerSecond
  refine Eff.start fun h0 => ?_
  extract_lets -merge -underBinder +onlyGivenNames y0 y1
  try clear_value y0 y1
  extract_lets -merge -underBinder +onlyGivenNames y2
  refine h0.named (x := y2) ?_ fun _ => ?_
  · subst y2
    refine Eff.after (State.updC_eff _ _ _) ?_
    assumption
  clear_value y2
  refine Eff.forEach ?_ fun _ _ _ => ?_
  · assumption
  · refine Eff.after (State.offerCodeword_eff _ _ _ _ _ _) ?_
    assumption

theorem State.firstPassDone_eff (s : State) (j : Job) (r : DecodeResult) :
    Eff [.objs, .pickups, .channels, .decoding, .sides, .spindles, .axes, .host, .mem, .recorder] s (State.firstPassDone s j r) := by
  delta State.firstPassDone
  refine Eff.start fun h0 => ?_
  extract_lets -merge -underBinder +onlyGivenNames y0
  try clear_value y0
  extract_lets -merge -underBinder +onlyGivenNames y1
  refine h0.named (x := y1) ?_ fun _ => ?_
  · subst y1
    refine Eff.after (State.bump_eff _ _ _ _ _) ?_
    assumption
  clear_value y1
  split
  · assumption
  · refine Eff.ite ?_ ?_
    · refine Eff.after (State.verifyCodeword_eff _ _ _ _ _) ?_
      assumption
    · refine Eff.ite ?_ ?_
      · refine Eff.after (State.offerSecond_eff _ _ _ _) ?_
        assumption
      · refine Eff.ite ?_ ?_
        · assumption
        · extract_lets -merge -underBinder +onlyGivenNames y2
          refine h0.named (x := y2) ?_ fun _ => ?_
          · subst y2
            refine Eff.ite ?_ ?_
            · refine Eff.after (State.confirmSecond_eff _ _ _ _) ?_
              assumption
            · assumption
          clear_value y2
          refine Eff.ite ?_ ?_
          · assumption
          · refine Eff.after (State.endFirstPass_eff _ _ _) ?_
            assumption

theorem State.redecodeLeft_eff (s : State) (p : PickupId) (layer : Nat) (q : Nat) :
    Eff [.objs, .pickups, .channels, .decoding, .sides, .spindles, .axes, .host, .recorder] s (State.redecodeLeft s p layer q) := by
  delta State.redecodeLeft
  refine Eff.start fun h0 => ?_
  extract_lets -merge -underBinder +onlyGivenNames y0
  refine h0.named (x := y0) ?_ fun _ => ?_
  · subst y0
    refine Eff.after (State.updRead_eff _ _ _ _ _) ?_
    assumption
  clear_value y0
  split
  · assumption
  · refine Eff.ite ?_ ?_
    · refine Eff.after (State.roundEnd_eff _ _ _ _) ?_
      assumption
    · refine Eff.after (State.settle_eff _ _ _ _) ?_
      assumption

theorem State.rereadFailed_eff (s : State) (j : Job) (r : DecodeResult) :
    Eff [.objs, .pickups, .channels, .decoding, .sides, .spindles, .axes, .host, .recorder] s (State.rereadFailed s j r) := by
  delta State.rereadFailed
  refine Eff.start fun h0 => ?_
  extract_lets -merge -underBinder +onlyGivenNames y0 y1 y2
  have h_store : ∀ n l, Eff [.objs, .pickups, .channels, .decoding, .sides, .spindles, .axes, .host, .recorder] s (y2 n l) := fun _ _ => (State.redecodeLeft_eff _ _ _ _).after
    ((State.keepLlrs_eff _ _ _ _ _ _ _).after ((State.updSector_eff _ _ _ _ _ _).after (.refl _ _)))
  clear_value y0 y1 y2
  split
  · refine Eff.ite ?_ ?_
    · exact h_store _ _
    · exact h_store _ _
  · refine Eff.ite ?_ ?_
    · exact h_store _ _
    · refine Eff.after (State.queueJob_eff _ _) ?_
      assumption

theorem State.redecodeDone_eff (s : State) (j : Job) (r : DecodeResult) :
    Eff [.objs, .pickups, .channels, .decoding, .sides, .spindles, .axes, .host, .recorder] s (State.redecodeDone s j r) := by
  delta State.redecodeDone
  refine Eff.start fun h0 => ?_
  extract_lets -merge -underBinder +onlyGivenNames y0
  try clear_value y0
  refine Eff.ite ?_ ?_
  · assumption
  · refine Eff.ite ?_ ?_
    · refine Eff.after (State.redecodeLeft_eff _ _ _ _) ?_
      refine Eff.after (State.updSector_eff _ _ _ _ _ _) ?_
      assumption
    · refine Eff.ite ?_ ?_
      · refine Eff.after (State.rereadFailed_eff _ _ _) ?_
        assumption
      · refine Eff.after (State.redecodeLeft_eff _ _ _ _) ?_
        assumption

theorem execClusterDecodeStart_eff (p : PickupId) (layer : LayerId) (q : Nat) (s : State) :
    OutEff [.objs, .sides] s (execClusterDecodeStart p layer q s) := by
  delta execClusterDecodeStart
  refine OutEff.start fun h0 => ?_
  refine State.when_effs ?_ (fun _ _ => ?_)
  · assumption
  · split
    · assumption
    · extract_lets -merge -underBinder +onlyGivenNames y0 y1
      try clear_value y0 y1
      refine Eff.ite ?_ ?_
      · refine Eff.after (State.bump_eff _ _ _ _ _) ?_
        refine Eff.after (State.updRead_eff _ _ _ _ _) ?_
        assumption
      · assumption

theorem execCodewordDecodeDone_eff (d : DecoderId) (s : State) :
    OutEff [.objs, .pickups, .channels, .decoding, .sides, .spindles, .axes, .host, .mem, .recorder] s (execCodewordDecodeDone d s) := by
  delta execCodewordDecodeDone
  refine OutEff.start fun h0 => ?_
  refine State.when_effs ?_ (fun _ _ => ?_)
  · assumption
  · split
    · assumption
    · extract_lets -merge -underBinder +onlyGivenNames y0
      try clear_value y0
      extract_lets -merge -underBinder +onlyGivenNames y1 y2
      refine h0.named (x := y2) ?_ fun _ => ?_
      · subst y2
        subst y1
        refine Eff.put ?_
        assumption
      clear_value y1 y2
      extract_lets -merge -underBinder +onlyGivenNames y3
      refine h0.named (x := y3) ?_ fun _ => ?_
      · subst y3
        refine Eff.after (State.bump_eff _ _ _ _ _) ?_
        assumption
      clear_value y3
      refine Eff.ite ?_ ?_
      · refine Eff.after (State.firstPassDone_eff _ _ _) ?_
        assumption
      · refine Eff.after (State.redecodeDone_eff _ _ _) ?_
        assumption

theorem execDecoderDispatch_eff (d : DecoderId) (s : State) : OutEff [.decoding] s (execDecoderDispatch d s) := by
  delta execDecoderDispatch
  refine OutEff.start fun h0 => ?_
  refine State.when_effs ?_ (fun _ _ => ?_)
  · assumption
  · split
    · assumption
    · refine Eff.put ?_
      assumption

theorem execOuterDecodeDone_eff (p : PickupId) (layer : LayerId) (q : Nat) (s : State) :
    OutEff [.objs, .pickups, .channels, .decoding, .sides, .spindles, .axes, .host, .recorder] s (execOuterDecodeDone p layer q s) := by
  delta execOuterDecodeDone
  refine OutEff.start fun h0 => ?_
  refine State.when_effs ?_ (fun _ _ => ?_)
  · assumption
  · split
    · assumption
    · refine Eff.ite ?_ ?_
      · assumption
      · extract_lets -merge -underBinder +onlyGivenNames y0
        try clear_value y0
        extract_lets -merge -underBinder +onlyGivenNames y1
        refine h0.named (x := y1) ?_ fun _ => ?_
        · subst y1
          refine Eff.forEach ?_ fun _ _ _ => ?_
          · assumption
          · refine Eff.after (State.decReport_eff _ _ _ _ _) ?_
            refine Eff.after (State.bump_eff _ _ _ _ _) ?_
            assumption
        clear_value y1
        extract_lets -merge -underBinder +onlyGivenNames y2
        refine h0.named (x := y2) ?_ fun _ => ?_
        · subst y2
          refine Eff.after (State.updRead_eff _ _ _ _ _) ?_
          assumption
        clear_value y2
        extract_lets -merge -underBinder +onlyGivenNames y3
        refine h0.named (x := y3) ?_ fun _ => ?_
        · subst y3
          refine Eff.after (State.queueRedecodes_eff _ _ _ _ _ _ _) ?_
          assumption
        clear_value y3
        refine Eff.ite ?_ ?_
        · refine Eff.after (State.roundEnd_eff _ _ _ _) ?_
          assumption
        · refine Eff.after (State.settle_eff _ _ _ _) ?_
          assumption

theorem execOverflowReread_eff (p : PickupId) (s : State) :
    OutEff [.objs, .pickups, .channels, .sides, .spindles, .axes, .host, .recorder] s (execOverflowReread p s) := by
  delta execOverflowReread
  refine OutEff.start fun h0 => ?_
  refine State.when_effs ?_ (fun _ _ => ?_)
  · assumption
  · split
    · assumption
    · extract_lets -merge -underBinder +onlyGivenNames y0
      refine h0.named (x := y0) ?_ fun _ => ?_
      · subst y0
        refine Eff.after (State.updRead_eff _ _ _ _ _) ?_
        assumption
      clear_value y0
      refine Eff.after (State.seekBefore_eff _ _ _ _ _) ?_
      refine Eff.after (State.bump_eff _ _ _ _ _) ?_
      assumption

theorem execRereadPassEnd_eff (p : PickupId) (s : State) :
    OutEff [.objs, .pickups, .channels, .decoding, .sides, .spindles, .axes, .host, .recorder] s (execRereadPassEnd p s) := by
  delta execRereadPassEnd
  refine OutEff.start fun h0 => ?_
  refine State.when_effs ?_ (fun _ _ => ?_)
  · assumption
  · split
    · assumption
    · refine Eff.ite ?_ ?_
      · assumption
      · extract_lets -merge -underBinder +onlyGivenNames y0
        try clear_value y0
        extract_lets -merge -underBinder +onlyGivenNames y1
        refine h0.named (x := y1) ?_ fun _ => ?_
        · subst y1
          refine Eff.after (State.endDetour_eff _ _) ?_
          assumption
        clear_value y1
        extract_lets -merge -underBinder +onlyGivenNames y2 y3
        try clear_value y2 y3
        extract_lets -merge -underBinder +onlyGivenNames y4
        refine h0.named (x := y4) ?_ fun _ => ?_
        · subst y4
          refine Eff.after (State.updRead_eff _ _ _ _ _) ?_
          assumption
        clear_value y4
        extract_lets -merge -underBinder +onlyGivenNames y5
        refine h0.named (x := y5) ?_ fun _ => ?_
        · subst y5
          refine Eff.ite ?_ ?_
          · refine Eff.after (State.seekBefore_eff _ _ _ _ _) ?_
            refine Eff.after (State.applyDetour_eff _ _ _ _ _) ?_
            assumption
          · assumption
        clear_value y5
        refine Eff.after (State.settle_eff _ _ _ _) ?_
        assumption

theorem execRungEnd_eff (p : PickupId) (s : State) :
    OutEff [.objs, .pickups, .channels, .decoding, .sides, .spindles, .axes, .host, .recorder] s (execRungEnd p s) := by
  delta execRungEnd
  refine OutEff.start fun h0 => ?_
  refine State.when_effs ?_ (fun _ _ => ?_)
  · assumption
  · split
    · assumption
    · extract_lets -merge -underBinder +onlyGivenNames y0
      try clear_value y0
      refine Eff.ite ?_ ?_
      · assumption
      · extract_lets -merge -underBinder +onlyGivenNames y1 y2
        try clear_value y1 y2
        extract_lets -merge -underBinder +onlyGivenNames y3
        refine h0.named (x := y3) ?_ fun _ => ?_
        · subst y3
          refine Eff.after (State.bump_eff _ _ _ _ _) ?_
          assumption
        clear_value y3
        extract_lets -merge -underBinder +onlyGivenNames y4
        refine h0.named (x := y4) ?_ fun _ => ?_
        · subst y4
          refine Eff.after (State.decReport_eff _ _ _ _ _) ?_
          assumption
        clear_value y4
        refine Eff.ite ?_ ?_
        · refine Eff.after (State.ladderEnd_eff _ _ _ _ _) ?_
          refine Eff.after (State.bump_eff _ _ _ _ _) ?_
          assumption
        · extract_lets -merge -underBinder +onlyGivenNames y5
          refine h0.named (x := y5) ?_ fun _ => ?_
          · subst y5
            refine Eff.after (State.updRead_eff _ _ _ _ _) ?_
            assumption
          clear_value y5
          refine Eff.after (State.prepareRung_eff _ _ _ _ _) ?_
          assumption

theorem execRungStart_eff (p : PickupId) (s : State) :
    OutEff [.objs, .pickups, .channels, .decoding, .sides, .spindles, .axes, .host, .recorder] s (execRungStart p s) := by
  delta execRungStart
  refine OutEff.start fun h0 => ?_
  refine State.when_effs ?_ (fun _ _ => ?_)
  · assumption
  · split
    · assumption
    · refine Eff.ite ?_ ?_
      · assumption
      · extract_lets -merge -underBinder +onlyGivenNames y0
        refine h0.named (x := y0) ?_ fun _ => ?_
        · subst y0
          refine Eff.after (State.prepareRung_eff _ _ _ _ _) ?_
          assumption
        clear_value y0
        split
        · assumption
        · split
          · assumption
          · extract_lets -merge -underBinder +onlyGivenNames y1 y2
            try clear_value y1 y2
            extract_lets -merge -underBinder +onlyGivenNames y3
            refine h0.named (x := y3) ?_ fun _ => ?_
            · subst y3
              refine Eff.after (State.updRead_eff _ _ _ _ _) ?_
              assumption
            clear_value y3
            refine Eff.ite ?_ ?_
            · refine Eff.after (State.queueRedecodes_eff _ _ _ _ _ _ _) ?_
              assumption
            · refine Eff.after (State.seekBefore_eff _ _ _ _ _) ?_
              refine Eff.after (State.applyDetour_eff _ _ _ _ _) ?_
              assumption

theorem execWorkspaceResume_eff (p : PickupId) (s : State) :
    OutEff [.objs, .pickups, .channels, .sides, .spindles, .axes, .host, .recorder] s (execWorkspaceResume p s) := by
  delta execWorkspaceResume
  refine OutEff.start fun h0 => ?_
  refine State.when_effs ?_ (fun _ _ => ?_)
  · assumption
  · extract_lets -merge -underBinder +onlyGivenNames y0
    try clear_value y0
    split
    · refine Eff.after (State.readNext_eff _ _) ?_
      refine Eff.after (State.updS_eff _ _ _) ?_
      assumption
    · refine Eff.after (State.readNext_eff _ _) ?_
      refine Eff.after (State.updRead_eff _ _ _ _ _) ?_
      refine Eff.after (State.updS_eff _ _ _) ?_
      assumption

end Sys2Proof.Machine
end

