-- ==== Sys2Proof/Laws/Frames.lean ====
section
/-! SUPPORT. What the shared operations that most commands use leave unchanged, part by part. -/

set_option Elab.async false

namespace Sys2Proof.Machine

/-! `State.bump`. -/

@[simp] theorem State.bump_time (s : State) (r : Row) (i : Nat) (k : Nat) (n : optParam Nat 1) : (s.bump r i k n).time = s.time :=
  (State.bump_eff s r i k n).frame .time (by decide)
@[simp] theorem State.bump_freeCount (s : State) (r : Row) (i : Nat) (k : Nat) (n : optParam Nat 1) : (s.bump r i k n).freeCount = s.freeCount :=
  (State.bump_eff s r i k n).frame .freeCount (by decide)
@[simp] theorem State.bump_pending (s : State) (r : Row) (i : Nat) (k : Nat) (n : optParam Nat 1) : (s.bump r i k n).pending = s.pending :=
  (State.bump_eff s r i k n).good.pending
@[simp] theorem State.bump_doms (s : State) (r : Row) (i : Nat) (k : Nat) (n : optParam Nat 1) : (s.bump r i k n).doms = s.doms :=
  (State.bump_eff s r i k n).frame .doms (by decide)
@[simp] theorem State.bump_pickups (s : State) (r : Row) (i : Nat) (k : Nat) (n : optParam Nat 1) : (s.bump r i k n).pickups = s.pickups :=
  (State.bump_eff s r i k n).frame .pickups (by decide)
@[simp] theorem State.bump_channels (s : State) (r : Row) (i : Nat) (k : Nat) (n : optParam Nat 1) : (s.bump r i k n).channels = s.channels :=
  (State.bump_eff s r i k n).frame .channels (by decide)
@[simp] theorem State.bump_decoding (s : State) (r : Row) (i : Nat) (k : Nat) (n : optParam Nat 1) : (s.bump r i k n).decoding = s.decoding :=
  (State.bump_eff s r i k n).frame .decoding (by decide)
@[simp] theorem State.bump_sides (s : State) (r : Row) (i : Nat) (k : Nat) (n : optParam Nat 1) : (s.bump r i k n).sides = s.sides :=
  (State.bump_eff s r i k n).frame .sides (by decide)
@[simp] theorem State.bump_spindles (s : State) (r : Row) (i : Nat) (k : Nat) (n : optParam Nat 1) : (s.bump r i k n).spindles = s.spindles :=
  (State.bump_eff s r i k n).frame .spindles (by decide)
@[simp] theorem State.bump_axes (s : State) (r : Row) (i : Nat) (k : Nat) (n : optParam Nat 1) : (s.bump r i k n).axes = s.axes :=
  (State.bump_eff s r i k n).frame .axes (by decide)
@[simp] theorem State.bump_host (s : State) (r : Row) (i : Nat) (k : Nat) (n : optParam Nat 1) : (s.bump r i k n).host = s.host :=
  (State.bump_eff s r i k n).frame .host (by decide)
@[simp] theorem State.bump_ramps (s : State) (r : Row) (i : Nat) (k : Nat) (n : optParam Nat 1) : (s.bump r i k n).ramps = s.ramps :=
  (State.bump_eff s r i k n).frame .ramps (by decide)
@[simp] theorem State.bump_signpost (s : State) (r : Row) (i : Nat) (k : Nat) (n : optParam Nat 1) : (s.bump r i k n).signpost = s.signpost :=
  (State.bump_eff s r i k n).frame .signpost (by decide)
@[simp] theorem State.bump_staging (s : State) (r : Row) (i : Nat) (k : Nat) (n : optParam Nat 1) : (s.bump r i k n).staging = s.staging :=
  (State.bump_eff s r i k n).frame .staging (by decide)
@[simp] theorem State.bump_mem (s : State) (r : Row) (i : Nat) (k : Nat) (n : optParam Nat 1) : (s.bump r i k n).mem = s.mem :=
  (State.bump_eff s r i k n).frame .mem (by decide)
@[simp] theorem State.bump_cal (s : State) (r : Row) (i : Nat) (k : Nat) (n : optParam Nat 1) : (s.bump r i k n).cal = s.cal :=
  (State.bump_eff s r i k n).frame .cal (by decide)
@[simp] theorem State.bump_recorder (s : State) (r : Row) (i : Nat) (k : Nat) (n : optParam Nat 1) : (s.bump r i k n).recorder = s.recorder :=
  (State.bump_eff s r i k n).frame .recorder (by decide)
@[simp] theorem State.bump_milestone (s : State) (r : Row) (i : Nat) (k : Nat) (n : optParam Nat 1) : (s.bump r i k n).milestone = s.milestone :=
  (State.bump_eff s r i k n).frame .milestone (by decide)
@[simp] theorem State.bump_traces (s : State) (r : Row) (i : Nat) (k : Nat) (n : optParam Nat 1) : (s.bump r i k n).traces = s.traces :=
  (State.bump_eff s r i k n).frame .traces (by decide)
@[simp] theorem State.bump_xspAin (s : State) (r : Row) (i : Nat) (k : Nat) (n : optParam Nat 1) : (s.bump r i k n).xspAin = s.xspAin :=
  (State.bump_eff s r i k n).frame .xspAin (by decide)
@[simp] theorem State.bump_xspDir (s : State) (r : Row) (i : Nat) (k : Nat) (n : optParam Nat 1) : (s.bump r i k n).xspDir = s.xspDir :=
  (State.bump_eff s r i k n).frame .xspDir (by decide)
@[simp] theorem State.bump_verge (s : State) (r : Row) (i : Nat) (k : Nat) (n : optParam Nat 1) : (s.bump r i k n).verge = s.verge :=
  (State.bump_eff s r i k n).frame .verge (by decide)
@[simp] theorem State.bump_power (s : State) (r : Row) (i : Nat) (k : Nat) (n : optParam Nat 1) : (s.bump r i k n).power = s.power :=
  (State.bump_eff s r i k n).frame .power (by decide)
@[simp] theorem State.bump_otp (s : State) (r : Row) (i : Nat) (k : Nat) (n : optParam Nat 1) : (s.bump r i k n).otp = s.otp :=
  (State.bump_eff s r i k n).frame .otp (by decide)

/-! `State.maxOb`. -/

@[simp] theorem State.maxOb_time (s : State) (r : Row) (i : Nat) (k : Nat) (v : Int) : (s.maxOb r i k v).time = s.time :=
  (State.maxOb_eff s r i k v).frame .time (by decide)
@[simp] theorem State.maxOb_freeCount (s : State) (r : Row) (i : Nat) (k : Nat) (v : Int) : (s.maxOb r i k v).freeCount = s.freeCount :=
  (State.maxOb_eff s r i k v).frame .freeCount (by decide)
@[simp] theorem State.maxOb_pending (s : State) (r : Row) (i : Nat) (k : Nat) (v : Int) : (s.maxOb r i k v).pending = s.pending :=
  (State.maxOb_eff s r i k v).good.pending
@[simp] theorem State.maxOb_doms (s : State) (r : Row) (i : Nat) (k : Nat) (v : Int) : (s.maxOb r i k v).doms = s.doms :=
  (State.maxOb_eff s r i k v).frame .doms (by decide)
@[simp] theorem State.maxOb_pickups (s : State) (r : Row) (i : Nat) (k : Nat) (v : Int) : (s.maxOb r i k v).pickups = s.pickups :=
  (State.maxOb_eff s r i k v).frame .pickups (by decide)
@[simp] theorem State.maxOb_channels (s : State) (r : Row) (i : Nat) (k : Nat) (v : Int) : (s.maxOb r i k v).channels = s.channels :=
  (State.maxOb_eff s r i k v).frame .channels (by decide)
@[simp] theorem State.maxOb_decoding (s : State) (r : Row) (i : Nat) (k : Nat) (v : Int) : (s.maxOb r i k v).decoding = s.decoding :=
  (State.maxOb_eff s r i k v).frame .decoding (by decide)
@[simp] theorem State.maxOb_sides (s : State) (r : Row) (i : Nat) (k : Nat) (v : Int) : (s.maxOb r i k v).sides = s.sides :=
  (State.maxOb_eff s r i k v).frame .sides (by decide)
@[simp] theorem State.maxOb_spindles (s : State) (r : Row) (i : Nat) (k : Nat) (v : Int) : (s.maxOb r i k v).spindles = s.spindles :=
  (State.maxOb_eff s r i k v).frame .spindles (by decide)
@[simp] theorem State.maxOb_axes (s : State) (r : Row) (i : Nat) (k : Nat) (v : Int) : (s.maxOb r i k v).axes = s.axes :=
  (State.maxOb_eff s r i k v).frame .axes (by decide)
@[simp] theorem State.maxOb_host (s : State) (r : Row) (i : Nat) (k : Nat) (v : Int) : (s.maxOb r i k v).host = s.host :=
  (State.maxOb_eff s r i k v).frame .host (by decide)
@[simp] theorem State.maxOb_ramps (s : State) (r : Row) (i : Nat) (k : Nat) (v : Int) : (s.maxOb r i k v).ramps = s.ramps :=
  (State.maxOb_eff s r i k v).frame .ramps (by decide)
@[simp] theorem State.maxOb_signpost (s : State) (r : Row) (i : Nat) (k : Nat) (v : Int) : (s.maxOb r i k v).signpost = s.signpost :=
  (State.maxOb_eff s r i k v).frame .signpost (by decide)
@[simp] theorem State.maxOb_staging (s : State) (r : Row) (i : Nat) (k : Nat) (v : Int) : (s.maxOb r i k v).staging = s.staging :=
  (State.maxOb_eff s r i k v).frame .staging (by decide)
@[simp] theorem State.maxOb_mem (s : State) (r : Row) (i : Nat) (k : Nat) (v : Int) : (s.maxOb r i k v).mem = s.mem :=
  (State.maxOb_eff s r i k v).frame .mem (by decide)
@[simp] theorem State.maxOb_cal (s : State) (r : Row) (i : Nat) (k : Nat) (v : Int) : (s.maxOb r i k v).cal = s.cal :=
  (State.maxOb_eff s r i k v).frame .cal (by decide)
@[simp] theorem State.maxOb_recorder (s : State) (r : Row) (i : Nat) (k : Nat) (v : Int) : (s.maxOb r i k v).recorder = s.recorder :=
  (State.maxOb_eff s r i k v).frame .recorder (by decide)
@[simp] theorem State.maxOb_milestone (s : State) (r : Row) (i : Nat) (k : Nat) (v : Int) : (s.maxOb r i k v).milestone = s.milestone :=
  (State.maxOb_eff s r i k v).frame .milestone (by decide)
@[simp] theorem State.maxOb_traces (s : State) (r : Row) (i : Nat) (k : Nat) (v : Int) : (s.maxOb r i k v).traces = s.traces :=
  (State.maxOb_eff s r i k v).frame .traces (by decide)
@[simp] theorem State.maxOb_xspAin (s : State) (r : Row) (i : Nat) (k : Nat) (v : Int) : (s.maxOb r i k v).xspAin = s.xspAin :=
  (State.maxOb_eff s r i k v).frame .xspAin (by decide)
@[simp] theorem State.maxOb_xspDir (s : State) (r : Row) (i : Nat) (k : Nat) (v : Int) : (s.maxOb r i k v).xspDir = s.xspDir :=
  (State.maxOb_eff s r i k v).frame .xspDir (by decide)
@[simp] theorem State.maxOb_verge (s : State) (r : Row) (i : Nat) (k : Nat) (v : Int) : (s.maxOb r i k v).verge = s.verge :=
  (State.maxOb_eff s r i k v).frame .verge (by decide)
@[simp] theorem State.maxOb_power (s : State) (r : Row) (i : Nat) (k : Nat) (v : Int) : (s.maxOb r i k v).power = s.power :=
  (State.maxOb_eff s r i k v).frame .power (by decide)
@[simp] theorem State.maxOb_otp (s : State) (r : Row) (i : Nat) (k : Nat) (v : Int) : (s.maxOb r i k v).otp = s.otp :=
  (State.maxOb_eff s r i k v).frame .otp (by decide)

/-! `State.setKey`. -/

@[simp] theorem State.setKey_time (s : State) (key : Nat) (v : Int) : (s.setKey key v).time = s.time :=
  (State.setKey_eff s key v).frame .time (by decide)
@[simp] theorem State.setKey_freeCount (s : State) (key : Nat) (v : Int) : (s.setKey key v).freeCount = s.freeCount :=
  (State.setKey_eff s key v).frame .freeCount (by decide)
@[simp] theorem State.setKey_pending (s : State) (key : Nat) (v : Int) : (s.setKey key v).pending = s.pending :=
  (State.setKey_eff s key v).good.pending
@[simp] theorem State.setKey_doms (s : State) (key : Nat) (v : Int) : (s.setKey key v).doms = s.doms :=
  (State.setKey_eff s key v).frame .doms (by decide)
@[simp] theorem State.setKey_pickups (s : State) (key : Nat) (v : Int) : (s.setKey key v).pickups = s.pickups :=
  (State.setKey_eff s key v).frame .pickups (by decide)
@[simp] theorem State.setKey_channels (s : State) (key : Nat) (v : Int) : (s.setKey key v).channels = s.channels :=
  (State.setKey_eff s key v).frame .channels (by decide)
@[simp] theorem State.setKey_decoding (s : State) (key : Nat) (v : Int) : (s.setKey key v).decoding = s.decoding :=
  (State.setKey_eff s key v).frame .decoding (by decide)
@[simp] theorem State.setKey_sides (s : State) (key : Nat) (v : Int) : (s.setKey key v).sides = s.sides :=
  (State.setKey_eff s key v).frame .sides (by decide)
@[simp] theorem State.setKey_spindles (s : State) (key : Nat) (v : Int) : (s.setKey key v).spindles = s.spindles :=
  (State.setKey_eff s key v).frame .spindles (by decide)
@[simp] theorem State.setKey_axes (s : State) (key : Nat) (v : Int) : (s.setKey key v).axes = s.axes :=
  (State.setKey_eff s key v).frame .axes (by decide)
@[simp] theorem State.setKey_host (s : State) (key : Nat) (v : Int) : (s.setKey key v).host = s.host :=
  (State.setKey_eff s key v).frame .host (by decide)
@[simp] theorem State.setKey_ramps (s : State) (key : Nat) (v : Int) : (s.setKey key v).ramps = s.ramps :=
  (State.setKey_eff s key v).frame .ramps (by decide)
@[simp] theorem State.setKey_signpost (s : State) (key : Nat) (v : Int) : (s.setKey key v).signpost = s.signpost :=
  (State.setKey_eff s key v).frame .signpost (by decide)
@[simp] theorem State.setKey_staging (s : State) (key : Nat) (v : Int) : (s.setKey key v).staging = s.staging :=
  (State.setKey_eff s key v).frame .staging (by decide)
@[simp] theorem State.setKey_mem (s : State) (key : Nat) (v : Int) : (s.setKey key v).mem = s.mem :=
  (State.setKey_eff s key v).frame .mem (by decide)
@[simp] theorem State.setKey_cal (s : State) (key : Nat) (v : Int) : (s.setKey key v).cal = s.cal :=
  (State.setKey_eff s key v).frame .cal (by decide)
@[simp] theorem State.setKey_recorder (s : State) (key : Nat) (v : Int) : (s.setKey key v).recorder = s.recorder :=
  (State.setKey_eff s key v).frame .recorder (by decide)
@[simp] theorem State.setKey_milestone (s : State) (key : Nat) (v : Int) : (s.setKey key v).milestone = s.milestone :=
  (State.setKey_eff s key v).frame .milestone (by decide)
@[simp] theorem State.setKey_traces (s : State) (key : Nat) (v : Int) : (s.setKey key v).traces = s.traces :=
  (State.setKey_eff s key v).frame .traces (by decide)
@[simp] theorem State.setKey_xspAin (s : State) (key : Nat) (v : Int) : (s.setKey key v).xspAin = s.xspAin :=
  (State.setKey_eff s key v).frame .xspAin (by decide)
@[simp] theorem State.setKey_xspDir (s : State) (key : Nat) (v : Int) : (s.setKey key v).xspDir = s.xspDir :=
  (State.setKey_eff s key v).frame .xspDir (by decide)
@[simp] theorem State.setKey_verge (s : State) (key : Nat) (v : Int) : (s.setKey key v).verge = s.verge :=
  (State.setKey_eff s key v).frame .verge (by decide)
@[simp] theorem State.setKey_power (s : State) (key : Nat) (v : Int) : (s.setKey key v).power = s.power :=
  (State.setKey_eff s key v).frame .power (by decide)
@[simp] theorem State.setKey_otp (s : State) (key : Nat) (v : Int) : (s.setKey key v).otp = s.otp :=
  (State.setKey_eff s key v).frame .otp (by decide)

/-! `State.push`. -/

@[simp] theorem State.push_time (s : State) (src : IslandId) (r : Report) : (s.push src r).time = s.time :=
  (State.push_eff s src r).frame .time (by decide)
@[simp] theorem State.push_freeCount (s : State) (src : IslandId) (r : Report) : (s.push src r).freeCount = s.freeCount :=
  (State.push_eff s src r).frame .freeCount (by decide)
@[simp] theorem State.push_pending (s : State) (src : IslandId) (r : Report) : (s.push src r).pending = s.pending :=
  (State.push_eff s src r).good.pending
@[simp] theorem State.push_doms (s : State) (src : IslandId) (r : Report) : (s.push src r).doms = s.doms :=
  (State.push_eff s src r).frame .doms (by decide)
@[simp] theorem State.push_pickups (s : State) (src : IslandId) (r : Report) : (s.push src r).pickups = s.pickups :=
  (State.push_eff s src r).frame .pickups (by decide)
@[simp] theorem State.push_channels (s : State) (src : IslandId) (r : Report) : (s.push src r).channels = s.channels :=
  (State.push_eff s src r).frame .channels (by decide)
@[simp] theorem State.push_decoding (s : State) (src : IslandId) (r : Report) : (s.push src r).decoding = s.decoding :=
  (State.push_eff s src r).frame .decoding (by decide)
@[simp] theorem State.push_sides (s : State) (src : IslandId) (r : Report) : (s.push src r).sides = s.sides :=
  (State.push_eff s src r).frame .sides (by decide)
@[simp] theorem State.push_spindles (s : State) (src : IslandId) (r : Report) : (s.push src r).spindles = s.spindles :=
  (State.push_eff s src r).frame .spindles (by decide)
@[simp] theorem State.push_axes (s : State) (src : IslandId) (r : Report) : (s.push src r).axes = s.axes :=
  (State.push_eff s src r).frame .axes (by decide)
@[simp] theorem State.push_host (s : State) (src : IslandId) (r : Report) : (s.push src r).host = s.host :=
  (State.push_eff s src r).frame .host (by decide)
@[simp] theorem State.push_ramps (s : State) (src : IslandId) (r : Report) : (s.push src r).ramps = s.ramps :=
  (State.push_eff s src r).frame .ramps (by decide)
@[simp] theorem State.push_signpost (s : State) (src : IslandId) (r : Report) : (s.push src r).signpost = s.signpost :=
  (State.push_eff s src r).frame .signpost (by decide)
@[simp] theorem State.push_staging (s : State) (src : IslandId) (r : Report) : (s.push src r).staging = s.staging :=
  (State.push_eff s src r).frame .staging (by decide)
@[simp] theorem State.push_mem (s : State) (src : IslandId) (r : Report) : (s.push src r).mem = s.mem :=
  (State.push_eff s src r).frame .mem (by decide)
@[simp] theorem State.push_cal (s : State) (src : IslandId) (r : Report) : (s.push src r).cal = s.cal :=
  (State.push_eff s src r).frame .cal (by decide)
@[simp] theorem State.push_milestone (s : State) (src : IslandId) (r : Report) : (s.push src r).milestone = s.milestone :=
  (State.push_eff s src r).frame .milestone (by decide)
@[simp] theorem State.push_traces (s : State) (src : IslandId) (r : Report) : (s.push src r).traces = s.traces :=
  (State.push_eff s src r).frame .traces (by decide)
@[simp] theorem State.push_xspAin (s : State) (src : IslandId) (r : Report) : (s.push src r).xspAin = s.xspAin :=
  (State.push_eff s src r).frame .xspAin (by decide)
@[simp] theorem State.push_xspDir (s : State) (src : IslandId) (r : Report) : (s.push src r).xspDir = s.xspDir :=
  (State.push_eff s src r).frame .xspDir (by decide)
@[simp] theorem State.push_verge (s : State) (src : IslandId) (r : Report) : (s.push src r).verge = s.verge :=
  (State.push_eff s src r).frame .verge (by decide)
@[simp] theorem State.push_power (s : State) (src : IslandId) (r : Report) : (s.push src r).power = s.power :=
  (State.push_eff s src r).frame .power (by decide)
@[simp] theorem State.push_otp (s : State) (src : IslandId) (r : Report) : (s.push src r).otp = s.otp :=
  (State.push_eff s src r).frame .otp (by decide)

/-! `State.report`. -/

@[simp] theorem State.report_time (s : State) (src : IslandId) (code : Nat) (payload : List Int) : (s.report src code payload).time = s.time :=
  (State.report_eff s src code payload).frame .time (by decide)
@[simp] theorem State.report_freeCount (s : State) (src : IslandId) (code : Nat) (payload : List Int) : (s.report src code payload).freeCount = s.freeCount :=
  (State.report_eff s src code payload).frame .freeCount (by decide)
@[simp] theorem State.report_pending (s : State) (src : IslandId) (code : Nat) (payload : List Int) : (s.report src code payload).pending = s.pending :=
  (State.report_eff s src code payload).good.pending
@[simp] theorem State.report_doms (s : State) (src : IslandId) (code : Nat) (payload : List Int) : (s.report src code payload).doms = s.doms :=
  (State.report_eff s src code payload).frame .doms (by decide)
@[simp] theorem State.report_pickups (s : State) (src : IslandId) (code : Nat) (payload : List Int) : (s.report src code payload).pickups = s.pickups :=
  (State.report_eff s src code payload).frame .pickups (by decide)
@[simp] theorem State.report_channels (s : State) (src : IslandId) (code : Nat) (payload : List Int) : (s.report src code payload).channels = s.channels :=
  (State.report_eff s src code payload).frame .channels (by decide)
@[simp] theorem State.report_decoding (s : State) (src : IslandId) (code : Nat) (payload : List Int) : (s.report src code payload).decoding = s.decoding :=
  (State.report_eff s src code payload).frame .decoding (by decide)
@[simp] theorem State.report_sides (s : State) (src : IslandId) (code : Nat) (payload : List Int) : (s.report src code payload).sides = s.sides :=
  (State.report_eff s src code payload).frame .sides (by decide)
@[simp] theorem State.report_spindles (s : State) (src : IslandId) (code : Nat) (payload : List Int) : (s.report src code payload).spindles = s.spindles :=
  (State.report_eff s src code payload).frame .spindles (by decide)
@[simp] theorem State.report_axes (s : State) (src : IslandId) (code : Nat) (payload : List Int) : (s.report src code payload).axes = s.axes :=
  (State.report_eff s src code payload).frame .axes (by decide)
@[simp] theorem State.report_host (s : State) (src : IslandId) (code : Nat) (payload : List Int) : (s.report src code payload).host = s.host :=
  (State.report_eff s src code payload).frame .host (by decide)
@[simp] theorem State.report_ramps (s : State) (src : IslandId) (code : Nat) (payload : List Int) : (s.report src code payload).ramps = s.ramps :=
  (State.report_eff s src code payload).frame .ramps (by decide)
@[simp] theorem State.report_signpost (s : State) (src : IslandId) (code : Nat) (payload : List Int) : (s.report src code payload).signpost = s.signpost :=
  (State.report_eff s src code payload).frame .signpost (by decide)
@[simp] theorem State.report_staging (s : State) (src : IslandId) (code : Nat) (payload : List Int) : (s.report src code payload).staging = s.staging :=
  (State.report_eff s src code payload).frame .staging (by decide)
@[simp] theorem State.report_mem (s : State) (src : IslandId) (code : Nat) (payload : List Int) : (s.report src code payload).mem = s.mem :=
  (State.report_eff s src code payload).frame .mem (by decide)
@[simp] theorem State.report_cal (s : State) (src : IslandId) (code : Nat) (payload : List Int) : (s.report src code payload).cal = s.cal :=
  (State.report_eff s src code payload).frame .cal (by decide)
@[simp] theorem State.report_milestone (s : State) (src : IslandId) (code : Nat) (payload : List Int) : (s.report src code payload).milestone = s.milestone :=
  (State.report_eff s src code payload).frame .milestone (by decide)
@[simp] theorem State.report_traces (s : State) (src : IslandId) (code : Nat) (payload : List Int) : (s.report src code payload).traces = s.traces :=
  (State.report_eff s src code payload).frame .traces (by decide)
@[simp] theorem State.report_xspAin (s : State) (src : IslandId) (code : Nat) (payload : List Int) : (s.report src code payload).xspAin = s.xspAin :=
  (State.report_eff s src code payload).frame .xspAin (by decide)
@[simp] theorem State.report_xspDir (s : State) (src : IslandId) (code : Nat) (payload : List Int) : (s.report src code payload).xspDir = s.xspDir :=
  (State.report_eff s src code payload).frame .xspDir (by decide)
@[simp] theorem State.report_verge (s : State) (src : IslandId) (code : Nat) (payload : List Int) : (s.report src code payload).verge = s.verge :=
  (State.report_eff s src code payload).frame .verge (by decide)
@[simp] theorem State.report_power (s : State) (src : IslandId) (code : Nat) (payload : List Int) : (s.report src code payload).power = s.power :=
  (State.report_eff s src code payload).frame .power (by decide)
@[simp] theorem State.report_otp (s : State) (src : IslandId) (code : Nat) (payload : List Int) : (s.report src code payload).otp = s.otp :=
  (State.report_eff s src code payload).frame .otp (by decide)

/-! `State.trigger`. -/

@[simp] theorem State.trigger_time (s : State) (bit : Nat) (detail : Nat) : (s.trigger bit detail).time = s.time :=
  (State.trigger_eff s bit detail).frame .time (by decide)
@[simp] theorem State.trigger_freeCount (s : State) (bit : Nat) (detail : Nat) : (s.trigger bit detail).freeCount = s.freeCount :=
  (State.trigger_eff s bit detail).frame .freeCount (by decide)
@[simp] theorem State.trigger_pending (s : State) (bit : Nat) (detail : Nat) : (s.trigger bit detail).pending = s.pending :=
  (State.trigger_eff s bit detail).good.pending
@[simp] theorem State.trigger_objs (s : State) (bit : Nat) (detail : Nat) : (s.trigger bit detail).objs = s.objs :=
  (State.trigger_eff s bit detail).frame .objs (by decide)
@[simp] theorem State.trigger_doms (s : State) (bit : Nat) (detail : Nat) : (s.trigger bit detail).doms = s.doms :=
  (State.trigger_eff s bit detail).frame .doms (by decide)
@[simp] theorem State.trigger_pickups (s : State) (bit : Nat) (detail : Nat) : (s.trigger bit detail).pickups = s.pickups :=
  (State.trigger_eff s bit detail).frame .pickups (by decide)
@[simp] theorem State.trigger_channels (s : State) (bit : Nat) (detail : Nat) : (s.trigger bit detail).channels = s.channels :=
  (State.trigger_eff s bit detail).frame .channels (by decide)
@[simp] theorem State.trigger_decoding (s : State) (bit : Nat) (detail : Nat) : (s.trigger bit detail).decoding = s.decoding :=
  (State.trigger_eff s bit detail).frame .decoding (by decide)
@[simp] theorem State.trigger_sides (s : State) (bit : Nat) (detail : Nat) : (s.trigger bit detail).sides = s.sides :=
  (State.trigger_eff s bit detail).frame .sides (by decide)
@[simp] theorem State.trigger_spindles (s : State) (bit : Nat) (detail : Nat) : (s.trigger bit detail).spindles = s.spindles :=
  (State.trigger_eff s bit detail).frame .spindles (by decide)
@[simp] theorem State.trigger_axes (s : State) (bit : Nat) (detail : Nat) : (s.trigger bit detail).axes = s.axes :=
  (State.trigger_eff s bit detail).frame .axes (by decide)
@[simp] theorem State.trigger_host (s : State) (bit : Nat) (detail : Nat) : (s.trigger bit detail).host = s.host :=
  (State.trigger_eff s bit detail).frame .host (by decide)
@[simp] theorem State.trigger_ramps (s : State) (bit : Nat) (detail : Nat) : (s.trigger bit detail).ramps = s.ramps :=
  (State.trigger_eff s bit detail).frame .ramps (by decide)
@[simp] theorem State.trigger_signpost (s : State) (bit : Nat) (detail : Nat) : (s.trigger bit detail).signpost = s.signpost :=
  (State.trigger_eff s bit detail).frame .signpost (by decide)
@[simp] theorem State.trigger_staging (s : State) (bit : Nat) (detail : Nat) : (s.trigger bit detail).staging = s.staging :=
  (State.trigger_eff s bit detail).frame .staging (by decide)
@[simp] theorem State.trigger_mem (s : State) (bit : Nat) (detail : Nat) : (s.trigger bit detail).mem = s.mem :=
  (State.trigger_eff s bit detail).frame .mem (by decide)
@[simp] theorem State.trigger_cal (s : State) (bit : Nat) (detail : Nat) : (s.trigger bit detail).cal = s.cal :=
  (State.trigger_eff s bit detail).frame .cal (by decide)
@[simp] theorem State.trigger_recorder (s : State) (bit : Nat) (detail : Nat) : (s.trigger bit detail).recorder = s.recorder :=
  (State.trigger_eff s bit detail).frame .recorder (by decide)
@[simp] theorem State.trigger_traces (s : State) (bit : Nat) (detail : Nat) : (s.trigger bit detail).traces = s.traces :=
  (State.trigger_eff s bit detail).frame .traces (by decide)
@[simp] theorem State.trigger_xspAin (s : State) (bit : Nat) (detail : Nat) : (s.trigger bit detail).xspAin = s.xspAin :=
  (State.trigger_eff s bit detail).frame .xspAin (by decide)
@[simp] theorem State.trigger_xspDir (s : State) (bit : Nat) (detail : Nat) : (s.trigger bit detail).xspDir = s.xspDir :=
  (State.trigger_eff s bit detail).frame .xspDir (by decide)
@[simp] theorem State.trigger_verge (s : State) (bit : Nat) (detail : Nat) : (s.trigger bit detail).verge = s.verge :=
  (State.trigger_eff s bit detail).frame .verge (by decide)
@[simp] theorem State.trigger_power (s : State) (bit : Nat) (detail : Nat) : (s.trigger bit detail).power = s.power :=
  (State.trigger_eff s bit detail).frame .power (by decide)
@[simp] theorem State.trigger_otp (s : State) (bit : Nat) (detail : Nat) : (s.trigger bit detail).otp = s.otp :=
  (State.trigger_eff s bit detail).frame .otp (by decide)

/-! `State.answer`. -/

@[simp] theorem State.answer_time (s : State) (abort : Option Nat) (data : optParam (List Byte) []) (session : optParam Nat 0) : (s.answer abort data session).time = s.time :=
  (State.answer_eff s abort data session).frame .time (by decide)
@[simp] theorem State.answer_pending (s : State) (abort : Option Nat) (data : optParam (List Byte) []) (session : optParam Nat 0) : (s.answer abort data session).pending = s.pending :=
  (State.answer_eff s abort data session).good.pending
@[simp] theorem State.answer_doms (s : State) (abort : Option Nat) (data : optParam (List Byte) []) (session : optParam Nat 0) : (s.answer abort data session).doms = s.doms :=
  (State.answer_eff s abort data session).frame .doms (by decide)
@[simp] theorem State.answer_pickups (s : State) (abort : Option Nat) (data : optParam (List Byte) []) (session : optParam Nat 0) : (s.answer abort data session).pickups = s.pickups :=
  (State.answer_eff s abort data session).frame .pickups (by decide)
@[simp] theorem State.answer_channels (s : State) (abort : Option Nat) (data : optParam (List Byte) []) (session : optParam Nat 0) : (s.answer abort data session).channels = s.channels :=
  (State.answer_eff s abort data session).frame .channels (by decide)
@[simp] theorem State.answer_decoding (s : State) (abort : Option Nat) (data : optParam (List Byte) []) (session : optParam Nat 0) : (s.answer abort data session).decoding = s.decoding :=
  (State.answer_eff s abort data session).frame .decoding (by decide)
@[simp] theorem State.answer_sides (s : State) (abort : Option Nat) (data : optParam (List Byte) []) (session : optParam Nat 0) : (s.answer abort data session).sides = s.sides :=
  (State.answer_eff s abort data session).frame .sides (by decide)
@[simp] theorem State.answer_spindles (s : State) (abort : Option Nat) (data : optParam (List Byte) []) (session : optParam Nat 0) : (s.answer abort data session).spindles = s.spindles :=
  (State.answer_eff s abort data session).frame .spindles (by decide)
@[simp] theorem State.answer_axes (s : State) (abort : Option Nat) (data : optParam (List Byte) []) (session : optParam Nat 0) : (s.answer abort data session).axes = s.axes :=
  (State.answer_eff s abort data session).frame .axes (by decide)
@[simp] theorem State.answer_host (s : State) (abort : Option Nat) (data : optParam (List Byte) []) (session : optParam Nat 0) : (s.answer abort data session).host = s.host :=
  (State.answer_eff s abort data session).frame .host (by decide)
@[simp] theorem State.answer_ramps (s : State) (abort : Option Nat) (data : optParam (List Byte) []) (session : optParam Nat 0) : (s.answer abort data session).ramps = s.ramps :=
  (State.answer_eff s abort data session).frame .ramps (by decide)
@[simp] theorem State.answer_staging (s : State) (abort : Option Nat) (data : optParam (List Byte) []) (session : optParam Nat 0) : (s.answer abort data session).staging = s.staging :=
  (State.answer_eff s abort data session).frame .staging (by decide)
@[simp] theorem State.answer_mem (s : State) (abort : Option Nat) (data : optParam (List Byte) []) (session : optParam Nat 0) : (s.answer abort data session).mem = s.mem :=
  (State.answer_eff s abort data session).frame .mem (by decide)
@[simp] theorem State.answer_cal (s : State) (abort : Option Nat) (data : optParam (List Byte) []) (session : optParam Nat 0) : (s.answer abort data session).cal = s.cal :=
  (State.answer_eff s abort data session).frame .cal (by decide)
@[simp] theorem State.answer_recorder (s : State) (abort : Option Nat) (data : optParam (List Byte) []) (session : optParam Nat 0) : (s.answer abort data session).recorder = s.recorder :=
  (State.answer_eff s abort data session).frame .recorder (by decide)
@[simp] theorem State.answer_milestone (s : State) (abort : Option Nat) (data : optParam (List Byte) []) (session : optParam Nat 0) : (s.answer abort data session).milestone = s.milestone :=
  (State.answer_eff s abort data session).frame .milestone (by decide)
@[simp] theorem State.answer_traces (s : State) (abort : Option Nat) (data : optParam (List Byte) []) (session : optParam Nat 0) : (s.answer abort data session).traces = s.traces :=
  (State.answer_eff s abort data session).frame .traces (by decide)
@[simp] theorem State.answer_xspAin (s : State) (abort : Option Nat) (data : optParam (List Byte) []) (session : optParam Nat 0) : (s.answer abort data session).xspAin = s.xspAin :=
  (State.answer_eff s abort data session).frame .xspAin (by decide)
@[simp] theorem State.answer_xspDir (s : State) (abort : Option Nat) (data : optParam (List Byte) []) (session : optParam Nat 0) : (s.answer abort data session).xspDir = s.xspDir :=
  (State.answer_eff s abort data session).frame .xspDir (by decide)
@[simp] theorem State.answer_verge (s : State) (abort : Option Nat) (data : optParam (List Byte) []) (session : optParam Nat 0) : (s.answer abort data session).verge = s.verge :=
  (State.answer_eff s abort data session).frame .verge (by decide)
@[simp] theorem State.answer_power (s : State) (abort : Option Nat) (data : optParam (List Byte) []) (session : optParam Nat 0) : (s.answer abort data session).power = s.power :=
  (State.answer_eff s abort data session).frame .power (by decide)
@[simp] theorem State.answer_otp (s : State) (abort : Option Nat) (data : optParam (List Byte) []) (session : optParam Nat 0) : (s.answer abort data session).otp = s.otp :=
  (State.answer_eff s abort data session).frame .otp (by decide)

/-! `State.recordWrite`. -/

@[simp] theorem State.recordWrite_time (s : State) (cl : Client) (key : Nat) : (s.recordWrite cl key).time = s.time :=
  (State.recordWrite_eff s cl key).frame .time (by decide)
@[simp] theorem State.recordWrite_freeCount (s : State) (cl : Client) (key : Nat) : (s.recordWrite cl key).freeCount = s.freeCount :=
  (State.recordWrite_eff s cl key).frame .freeCount (by decide)
@[simp] theorem State.recordWrite_pending (s : State) (cl : Client) (key : Nat) : (s.recordWrite cl key).pending = s.pending :=
  (State.recordWrite_eff s cl key).good.pending
@[simp] theorem State.recordWrite_doms (s : State) (cl : Client) (key : Nat) : (s.recordWrite cl key).doms = s.doms :=
  (State.recordWrite_eff s cl key).frame .doms (by decide)
@[simp] theorem State.recordWrite_pickups (s : State) (cl : Client) (key : Nat) : (s.recordWrite cl key).pickups = s.pickups :=
  (State.recordWrite_eff s cl key).frame .pickups (by decide)
@[simp] theorem State.recordWrite_channels (s : State) (cl : Client) (key : Nat) : (s.recordWrite cl key).channels = s.channels :=
  (State.recordWrite_eff s cl key).frame .channels (by decide)
@[simp] theorem State.recordWrite_decoding (s : State) (cl : Client) (key : Nat) : (s.recordWrite cl key).decoding = s.decoding :=
  (State.recordWrite_eff s cl key).frame .decoding (by decide)
@[simp] theorem State.recordWrite_sides (s : State) (cl : Client) (key : Nat) : (s.recordWrite cl key).sides = s.sides :=
  (State.recordWrite_eff s cl key).frame .sides (by decide)
@[simp] theorem State.recordWrite_spindles (s : State) (cl : Client) (key : Nat) : (s.recordWrite cl key).spindles = s.spindles :=
  (State.recordWrite_eff s cl key).frame .spindles (by decide)
@[simp] theorem State.recordWrite_axes (s : State) (cl : Client) (key : Nat) : (s.recordWrite cl key).axes = s.axes :=
  (State.recordWrite_eff s cl key).frame .axes (by decide)
@[simp] theorem State.recordWrite_host (s : State) (cl : Client) (key : Nat) : (s.recordWrite cl key).host = s.host :=
  (State.recordWrite_eff s cl key).frame .host (by decide)
@[simp] theorem State.recordWrite_ramps (s : State) (cl : Client) (key : Nat) : (s.recordWrite cl key).ramps = s.ramps :=
  (State.recordWrite_eff s cl key).frame .ramps (by decide)
@[simp] theorem State.recordWrite_signpost (s : State) (cl : Client) (key : Nat) : (s.recordWrite cl key).signpost = s.signpost :=
  (State.recordWrite_eff s cl key).frame .signpost (by decide)
@[simp] theorem State.recordWrite_staging (s : State) (cl : Client) (key : Nat) : (s.recordWrite cl key).staging = s.staging :=
  (State.recordWrite_eff s cl key).frame .staging (by decide)
@[simp] theorem State.recordWrite_mem (s : State) (cl : Client) (key : Nat) : (s.recordWrite cl key).mem = s.mem :=
  (State.recordWrite_eff s cl key).frame .mem (by decide)
@[simp] theorem State.recordWrite_cal (s : State) (cl : Client) (key : Nat) : (s.recordWrite cl key).cal = s.cal :=
  (State.recordWrite_eff s cl key).frame .cal (by decide)
@[simp] theorem State.recordWrite_milestone (s : State) (cl : Client) (key : Nat) : (s.recordWrite cl key).milestone = s.milestone :=
  (State.recordWrite_eff s cl key).frame .milestone (by decide)
@[simp] theorem State.recordWrite_traces (s : State) (cl : Client) (key : Nat) : (s.recordWrite cl key).traces = s.traces :=
  (State.recordWrite_eff s cl key).frame .traces (by decide)
@[simp] theorem State.recordWrite_xspAin (s : State) (cl : Client) (key : Nat) : (s.recordWrite cl key).xspAin = s.xspAin :=
  (State.recordWrite_eff s cl key).frame .xspAin (by decide)
@[simp] theorem State.recordWrite_xspDir (s : State) (cl : Client) (key : Nat) : (s.recordWrite cl key).xspDir = s.xspDir :=
  (State.recordWrite_eff s cl key).frame .xspDir (by decide)
@[simp] theorem State.recordWrite_verge (s : State) (cl : Client) (key : Nat) : (s.recordWrite cl key).verge = s.verge :=
  (State.recordWrite_eff s cl key).frame .verge (by decide)
@[simp] theorem State.recordWrite_power (s : State) (cl : Client) (key : Nat) : (s.recordWrite cl key).power = s.power :=
  (State.recordWrite_eff s cl key).frame .power (by decide)
@[simp] theorem State.recordWrite_otp (s : State) (cl : Client) (key : Nat) : (s.recordWrite cl key).otp = s.otp :=
  (State.recordWrite_eff s cl key).frame .otp (by decide)

/-! `State.noteChange`. -/

@[simp] theorem State.noteChange_time (s : State) (key : Nat) : (s.noteChange key).time = s.time :=
  (State.noteChange_eff s key).frame .time (by decide)
@[simp] theorem State.noteChange_freeCount (s : State) (key : Nat) : (s.noteChange key).freeCount = s.freeCount :=
  (State.noteChange_eff s key).frame .freeCount (by decide)
@[simp] theorem State.noteChange_pending (s : State) (key : Nat) : (s.noteChange key).pending = s.pending :=
  (State.noteChange_eff s key).good.pending
@[simp] theorem State.noteChange_doms (s : State) (key : Nat) : (s.noteChange key).doms = s.doms :=
  (State.noteChange_eff s key).frame .doms (by decide)
@[simp] theorem State.noteChange_pickups (s : State) (key : Nat) : (s.noteChange key).pickups = s.pickups :=
  (State.noteChange_eff s key).frame .pickups (by decide)
@[simp] theorem State.noteChange_channels (s : State) (key : Nat) : (s.noteChange key).channels = s.channels :=
  (State.noteChange_eff s key).frame .channels (by decide)
@[simp] theorem State.noteChange_decoding (s : State) (key : Nat) : (s.noteChange key).decoding = s.decoding :=
  (State.noteChange_eff s key).frame .decoding (by decide)
@[simp] theorem State.noteChange_sides (s : State) (key : Nat) : (s.noteChange key).sides = s.sides :=
  (State.noteChange_eff s key).frame .sides (by decide)
@[simp] theorem State.noteChange_spindles (s : State) (key : Nat) : (s.noteChange key).spindles = s.spindles :=
  (State.noteChange_eff s key).frame .spindles (by decide)
@[simp] theorem State.noteChange_axes (s : State) (key : Nat) : (s.noteChange key).axes = s.axes :=
  (State.noteChange_eff s key).frame .axes (by decide)
@[simp] theorem State.noteChange_host (s : State) (key : Nat) : (s.noteChange key).host = s.host :=
  (State.noteChange_eff s key).frame .host (by decide)
@[simp] theorem State.noteChange_ramps (s : State) (key : Nat) : (s.noteChange key).ramps = s.ramps :=
  (State.noteChange_eff s key).frame .ramps (by decide)
@[simp] theorem State.noteChange_signpost (s : State) (key : Nat) : (s.noteChange key).signpost = s.signpost :=
  (State.noteChange_eff s key).frame .signpost (by decide)
@[simp] theorem State.noteChange_staging (s : State) (key : Nat) : (s.noteChange key).staging = s.staging :=
  (State.noteChange_eff s key).frame .staging (by decide)
@[simp] theorem State.noteChange_mem (s : State) (key : Nat) : (s.noteChange key).mem = s.mem :=
  (State.noteChange_eff s key).frame .mem (by decide)
@[simp] theorem State.noteChange_cal (s : State) (key : Nat) : (s.noteChange key).cal = s.cal :=
  (State.noteChange_eff s key).frame .cal (by decide)
@[simp] theorem State.noteChange_milestone (s : State) (key : Nat) : (s.noteChange key).milestone = s.milestone :=
  (State.noteChange_eff s key).frame .milestone (by decide)
@[simp] theorem State.noteChange_traces (s : State) (key : Nat) : (s.noteChange key).traces = s.traces :=
  (State.noteChange_eff s key).frame .traces (by decide)
@[simp] theorem State.noteChange_xspAin (s : State) (key : Nat) : (s.noteChange key).xspAin = s.xspAin :=
  (State.noteChange_eff s key).frame .xspAin (by decide)
@[simp] theorem State.noteChange_xspDir (s : State) (key : Nat) : (s.noteChange key).xspDir = s.xspDir :=
  (State.noteChange_eff s key).frame .xspDir (by decide)
@[simp] theorem State.noteChange_verge (s : State) (key : Nat) : (s.noteChange key).verge = s.verge :=
  (State.noteChange_eff s key).frame .verge (by decide)
@[simp] theorem State.noteChange_power (s : State) (key : Nat) : (s.noteChange key).power = s.power :=
  (State.noteChange_eff s key).frame .power (by decide)
@[simp] theorem State.noteChange_otp (s : State) (key : Nat) : (s.noteChange key).otp = s.otp :=
  (State.noteChange_eff s key).frame .otp (by decide)

/-! `State.putKey`. -/

@[simp] theorem State.putKey_time (s : State) (key : Nat) (v : Int) : (s.putKey key v).time = s.time :=
  (State.putKey_eff s key v).frame .time (by decide)
@[simp] theorem State.putKey_freeCount (s : State) (key : Nat) (v : Int) : (s.putKey key v).freeCount = s.freeCount :=
  (State.putKey_eff s key v).frame .freeCount (by decide)
@[simp] theorem State.putKey_pending (s : State) (key : Nat) (v : Int) : (s.putKey key v).pending = s.pending :=
  (State.putKey_eff s key v).good.pending
@[simp] theorem State.putKey_doms (s : State) (key : Nat) (v : Int) : (s.putKey key v).doms = s.doms :=
  (State.putKey_eff s key v).frame .doms (by decide)
@[simp] theorem State.putKey_pickups (s : State) (key : Nat) (v : Int) : (s.putKey key v).pickups = s.pickups :=
  (State.putKey_eff s key v).frame .pickups (by decide)
@[simp] theorem State.putKey_channels (s : State) (key : Nat) (v : Int) : (s.putKey key v).channels = s.channels :=
  (State.putKey_eff s key v).frame .channels (by decide)
@[simp] theorem State.putKey_decoding (s : State) (key : Nat) (v : Int) : (s.putKey key v).decoding = s.decoding :=
  (State.putKey_eff s key v).frame .decoding (by decide)
@[simp] theorem State.putKey_sides (s : State) (key : Nat) (v : Int) : (s.putKey key v).sides = s.sides :=
  (State.putKey_eff s key v).frame .sides (by decide)
@[simp] theorem State.putKey_spindles (s : State) (key : Nat) (v : Int) : (s.putKey key v).spindles = s.spindles :=
  (State.putKey_eff s key v).frame .spindles (by decide)
@[simp] theorem State.putKey_axes (s : State) (key : Nat) (v : Int) : (s.putKey key v).axes = s.axes :=
  (State.putKey_eff s key v).frame .axes (by decide)
@[simp] theorem State.putKey_host (s : State) (key : Nat) (v : Int) : (s.putKey key v).host = s.host :=
  (State.putKey_eff s key v).frame .host (by decide)
@[simp] theorem State.putKey_ramps (s : State) (key : Nat) (v : Int) : (s.putKey key v).ramps = s.ramps :=
  (State.putKey_eff s key v).frame .ramps (by decide)
@[simp] theorem State.putKey_signpost (s : State) (key : Nat) (v : Int) : (s.putKey key v).signpost = s.signpost :=
  (State.putKey_eff s key v).frame .signpost (by decide)
@[simp] theorem State.putKey_staging (s : State) (key : Nat) (v : Int) : (s.putKey key v).staging = s.staging :=
  (State.putKey_eff s key v).frame .staging (by decide)
@[simp] theorem State.putKey_mem (s : State) (key : Nat) (v : Int) : (s.putKey key v).mem = s.mem :=
  (State.putKey_eff s key v).frame .mem (by decide)
@[simp] theorem State.putKey_cal (s : State) (key : Nat) (v : Int) : (s.putKey key v).cal = s.cal :=
  (State.putKey_eff s key v).frame .cal (by decide)
@[simp] theorem State.putKey_milestone (s : State) (key : Nat) (v : Int) : (s.putKey key v).milestone = s.milestone :=
  (State.putKey_eff s key v).frame .milestone (by decide)
@[simp] theorem State.putKey_traces (s : State) (key : Nat) (v : Int) : (s.putKey key v).traces = s.traces :=
  (State.putKey_eff s key v).frame .traces (by decide)
@[simp] theorem State.putKey_xspAin (s : State) (key : Nat) (v : Int) : (s.putKey key v).xspAin = s.xspAin :=
  (State.putKey_eff s key v).frame .xspAin (by decide)
@[simp] theorem State.putKey_xspDir (s : State) (key : Nat) (v : Int) : (s.putKey key v).xspDir = s.xspDir :=
  (State.putKey_eff s key v).frame .xspDir (by decide)
@[simp] theorem State.putKey_verge (s : State) (key : Nat) (v : Int) : (s.putKey key v).verge = s.verge :=
  (State.putKey_eff s key v).frame .verge (by decide)
@[simp] theorem State.putKey_power (s : State) (key : Nat) (v : Int) : (s.putKey key v).power = s.power :=
  (State.putKey_eff s key v).frame .power (by decide)
@[simp] theorem State.putKey_otp (s : State) (key : Nat) (v : Int) : (s.putKey key v).otp = s.otp :=
  (State.putKey_eff s key v).frame .otp (by decide)

/-! `State.updLoop`. -/

@[simp] theorem State.updLoop_time (s : State) (p : PickupId) (l : ServoLoop) (f : LoopState → LoopState) : (s.updLoop p l f).time = s.time :=
  (State.updLoop_eff s p l f).frame .time (by decide)
@[simp] theorem State.updLoop_freeCount (s : State) (p : PickupId) (l : ServoLoop) (f : LoopState → LoopState) : (s.updLoop p l f).freeCount = s.freeCount :=
  (State.updLoop_eff s p l f).frame .freeCount (by decide)
@[simp] theorem State.updLoop_pending (s : State) (p : PickupId) (l : ServoLoop) (f : LoopState → LoopState) : (s.updLoop p l f).pending = s.pending :=
  (State.updLoop_eff s p l f).good.pending
@[simp] theorem State.updLoop_objs (s : State) (p : PickupId) (l : ServoLoop) (f : LoopState → LoopState) : (s.updLoop p l f).objs = s.objs :=
  (State.updLoop_eff s p l f).frame .objs (by decide)
@[simp] theorem State.updLoop_doms (s : State) (p : PickupId) (l : ServoLoop) (f : LoopState → LoopState) : (s.updLoop p l f).doms = s.doms :=
  (State.updLoop_eff s p l f).frame .doms (by decide)
@[simp] theorem State.updLoop_channels (s : State) (p : PickupId) (l : ServoLoop) (f : LoopState → LoopState) : (s.updLoop p l f).channels = s.channels :=
  (State.updLoop_eff s p l f).frame .channels (by decide)
@[simp] theorem State.updLoop_decoding (s : State) (p : PickupId) (l : ServoLoop) (f : LoopState → LoopState) : (s.updLoop p l f).decoding = s.decoding :=
  (State.updLoop_eff s p l f).frame .decoding (by decide)
@[simp] theorem State.updLoop_sides (s : State) (p : PickupId) (l : ServoLoop) (f : LoopState → LoopState) : (s.updLoop p l f).sides = s.sides :=
  (State.updLoop_eff s p l f).frame .sides (by decide)
@[simp] theorem State.updLoop_spindles (s : State) (p : PickupId) (l : ServoLoop) (f : LoopState → LoopState) : (s.updLoop p l f).spindles = s.spindles :=
  (State.updLoop_eff s p l f).frame .spindles (by decide)
@[simp] theorem State.updLoop_axes (s : State) (p : PickupId) (l : ServoLoop) (f : LoopState → LoopState) : (s.updLoop p l f).axes = s.axes :=
  (State.updLoop_eff s p l f).frame .axes (by decide)
@[simp] theorem State.updLoop_host (s : State) (p : PickupId) (l : ServoLoop) (f : LoopState → LoopState) : (s.updLoop p l f).host = s.host :=
  (State.updLoop_eff s p l f).frame .host (by decide)
@[simp] theorem State.updLoop_ramps (s : State) (p : PickupId) (l : ServoLoop) (f : LoopState → LoopState) : (s.updLoop p l f).ramps = s.ramps :=
  (State.updLoop_eff s p l f).frame .ramps (by decide)
@[simp] theorem State.updLoop_signpost (s : State) (p : PickupId) (l : ServoLoop) (f : LoopState → LoopState) : (s.updLoop p l f).signpost = s.signpost :=
  (State.updLoop_eff s p l f).frame .signpost (by decide)
@[simp] theorem State.updLoop_staging (s : State) (p : PickupId) (l : ServoLoop) (f : LoopState → LoopState) : (s.updLoop p l f).staging = s.staging :=
  (State.updLoop_eff s p l f).frame .staging (by decide)
@[simp] theorem State.updLoop_mem (s : State) (p : PickupId) (l : ServoLoop) (f : LoopState → LoopState) : (s.updLoop p l f).mem = s.mem :=
  (State.updLoop_eff s p l f).frame .mem (by decide)
@[simp] theorem State.updLoop_cal (s : State) (p : PickupId) (l : ServoLoop) (f : LoopState → LoopState) : (s.updLoop p l f).cal = s.cal :=
  (State.updLoop_eff s p l f).frame .cal (by decide)
@[simp] theorem State.updLoop_recorder (s : State) (p : PickupId) (l : ServoLoop) (f : LoopState → LoopState) : (s.updLoop p l f).recorder = s.recorder :=
  (State.updLoop_eff s p l f).frame .recorder (by decide)
@[simp] theorem State.updLoop_milestone (s : State) (p : PickupId) (l : ServoLoop) (f : LoopState → LoopState) : (s.updLoop p l f).milestone = s.milestone :=
  (State.updLoop_eff s p l f).frame .milestone (by decide)
@[simp] theorem State.updLoop_traces (s : State) (p : PickupId) (l : ServoLoop) (f : LoopState → LoopState) : (s.updLoop p l f).traces = s.traces :=
  (State.updLoop_eff s p l f).frame .traces (by decide)
@[simp] theorem State.updLoop_xspAin (s : State) (p : PickupId) (l : ServoLoop) (f : LoopState → LoopState) : (s.updLoop p l f).xspAin = s.xspAin :=
  (State.updLoop_eff s p l f).frame .xspAin (by decide)
@[simp] theorem State.updLoop_xspDir (s : State) (p : PickupId) (l : ServoLoop) (f : LoopState → LoopState) : (s.updLoop p l f).xspDir = s.xspDir :=
  (State.updLoop_eff s p l f).frame .xspDir (by decide)
@[simp] theorem State.updLoop_verge (s : State) (p : PickupId) (l : ServoLoop) (f : LoopState → LoopState) : (s.updLoop p l f).verge = s.verge :=
  (State.updLoop_eff s p l f).frame .verge (by decide)
@[simp] theorem State.updLoop_power (s : State) (p : PickupId) (l : ServoLoop) (f : LoopState → LoopState) : (s.updLoop p l f).power = s.power :=
  (State.updLoop_eff s p l f).frame .power (by decide)
@[simp] theorem State.updLoop_otp (s : State) (p : PickupId) (l : ServoLoop) (f : LoopState → LoopState) : (s.updLoop p l f).otp = s.otp :=
  (State.updLoop_eff s p l f).frame .otp (by decide)

/-! `State.updChannels`. -/

@[simp] theorem State.updChannels_time (s : State) (p : PickupId) (f : Channel → Channel) : (s.updChannels p f).time = s.time :=
  (State.updChannels_eff s p f).frame .time (by decide)
@[simp] theorem State.updChannels_freeCount (s : State) (p : PickupId) (f : Channel → Channel) : (s.updChannels p f).freeCount = s.freeCount :=
  (State.updChannels_eff s p f).frame .freeCount (by decide)
@[simp] theorem State.updChannels_pending (s : State) (p : PickupId) (f : Channel → Channel) : (s.updChannels p f).pending = s.pending :=
  (State.updChannels_eff s p f).good.pending
@[simp] theorem State.updChannels_objs (s : State) (p : PickupId) (f : Channel → Channel) : (s.updChannels p f).objs = s.objs :=
  (State.updChannels_eff s p f).frame .objs (by decide)
@[simp] theorem State.updChannels_doms (s : State) (p : PickupId) (f : Channel → Channel) : (s.updChannels p f).doms = s.doms :=
  (State.updChannels_eff s p f).frame .doms (by decide)
@[simp] theorem State.updChannels_pickups (s : State) (p : PickupId) (f : Channel → Channel) : (s.updChannels p f).pickups = s.pickups :=
  (State.updChannels_eff s p f).frame .pickups (by decide)
@[simp] theorem State.updChannels_decoding (s : State) (p : PickupId) (f : Channel → Channel) : (s.updChannels p f).decoding = s.decoding :=
  (State.updChannels_eff s p f).frame .decoding (by decide)
@[simp] theorem State.updChannels_sides (s : State) (p : PickupId) (f : Channel → Channel) : (s.updChannels p f).sides = s.sides :=
  (State.updChannels_eff s p f).frame .sides (by decide)
@[simp] theorem State.updChannels_spindles (s : State) (p : PickupId) (f : Channel → Channel) : (s.updChannels p f).spindles = s.spindles :=
  (State.updChannels_eff s p f).frame .spindles (by decide)
@[simp] theorem State.updChannels_axes (s : State) (p : PickupId) (f : Channel → Channel) : (s.updChannels p f).axes = s.axes :=
  (State.updChannels_eff s p f).frame .axes (by decide)
@[simp] theorem State.updChannels_host (s : State) (p : PickupId) (f : Channel → Channel) : (s.updChannels p f).host = s.host :=
  (State.updChannels_eff s p f).frame .host (by decide)
@[simp] theorem State.updChannels_ramps (s : State) (p : PickupId) (f : Channel → Channel) : (s.updChannels p f).ramps = s.ramps :=
  (State.updChannels_eff s p f).frame .ramps (by decide)
@[simp] theorem State.updChannels_signpost (s : State) (p : PickupId) (f : Channel → Channel) : (s.updChannels p f).signpost = s.signpost :=
  (State.updChannels_eff s p f).frame .signpost (by decide)
@[simp] theorem State.updChannels_staging (s : State) (p : PickupId) (f : Channel → Channel) : (s.updChannels p f).staging = s.staging :=
  (State.updChannels_eff s p f).frame .staging (by decide)
@[simp] theorem State.updChannels_mem (s : State) (p : PickupId) (f : Channel → Channel) : (s.updChannels p f).mem = s.mem :=
  (State.updChannels_eff s p f).frame .mem (by decide)
@[simp] theorem State.updChannels_cal (s : State) (p : PickupId) (f : Channel → Channel) : (s.updChannels p f).cal = s.cal :=
  (State.updChannels_eff s p f).frame .cal (by decide)
@[simp] theorem State.updChannels_recorder (s : State) (p : PickupId) (f : Channel → Channel) : (s.updChannels p f).recorder = s.recorder :=
  (State.updChannels_eff s p f).frame .recorder (by decide)
@[simp] theorem State.updChannels_milestone (s : State) (p : PickupId) (f : Channel → Channel) : (s.updChannels p f).milestone = s.milestone :=
  (State.updChannels_eff s p f).frame .milestone (by decide)
@[simp] theorem State.updChannels_traces (s : State) (p : PickupId) (f : Channel → Channel) : (s.updChannels p f).traces = s.traces :=
  (State.updChannels_eff s p f).frame .traces (by decide)
@[simp] theorem State.updChannels_xspAin (s : State) (p : PickupId) (f : Channel → Channel) : (s.updChannels p f).xspAin = s.xspAin :=
  (State.updChannels_eff s p f).frame .xspAin (by decide)
@[simp] theorem State.updChannels_xspDir (s : State) (p : PickupId) (f : Channel → Channel) : (s.updChannels p f).xspDir = s.xspDir :=
  (State.updChannels_eff s p f).frame .xspDir (by decide)
@[simp] theorem State.updChannels_verge (s : State) (p : PickupId) (f : Channel → Channel) : (s.updChannels p f).verge = s.verge :=
  (State.updChannels_eff s p f).frame .verge (by decide)
@[simp] theorem State.updChannels_power (s : State) (p : PickupId) (f : Channel → Channel) : (s.updChannels p f).power = s.power :=
  (State.updChannels_eff s p f).frame .power (by decide)
@[simp] theorem State.updChannels_otp (s : State) (p : PickupId) (f : Channel → Channel) : (s.updChannels p f).otp = s.otp :=
  (State.updChannels_eff s p f).frame .otp (by decide)

/-! `State.openLoop`. -/

@[simp] theorem State.openLoop_time (s : State) (p : PickupId) (l : ServoLoop) (u : Int) : (s.openLoop p l u).time = s.time :=
  (State.openLoop_eff s p l u).frame .time (by decide)
@[simp] theorem State.openLoop_freeCount (s : State) (p : PickupId) (l : ServoLoop) (u : Int) : (s.openLoop p l u).freeCount = s.freeCount :=
  (State.openLoop_eff s p l u).frame .freeCount (by decide)
@[simp] theorem State.openLoop_pending (s : State) (p : PickupId) (l : ServoLoop) (u : Int) : (s.openLoop p l u).pending = s.pending :=
  (State.openLoop_eff s p l u).good.pending
@[simp] theorem State.openLoop_objs (s : State) (p : PickupId) (l : ServoLoop) (u : Int) : (s.openLoop p l u).objs = s.objs :=
  (State.openLoop_eff s p l u).frame .objs (by decide)
@[simp] theorem State.openLoop_doms (s : State) (p : PickupId) (l : ServoLoop) (u : Int) : (s.openLoop p l u).doms = s.doms :=
  (State.openLoop_eff s p l u).frame .doms (by decide)
@[simp] theorem State.openLoop_channels (s : State) (p : PickupId) (l : ServoLoop) (u : Int) : (s.openLoop p l u).channels = s.channels :=
  (State.openLoop_eff s p l u).frame .channels (by decide)
@[simp] theorem State.openLoop_decoding (s : State) (p : PickupId) (l : ServoLoop) (u : Int) : (s.openLoop p l u).decoding = s.decoding :=
  (State.openLoop_eff s p l u).frame .decoding (by decide)
@[simp] theorem State.openLoop_sides (s : State) (p : PickupId) (l : ServoLoop) (u : Int) : (s.openLoop p l u).sides = s.sides :=
  (State.openLoop_eff s p l u).frame .sides (by decide)
@[simp] theorem State.openLoop_spindles (s : State) (p : PickupId) (l : ServoLoop) (u : Int) : (s.openLoop p l u).spindles = s.spindles :=
  (State.openLoop_eff s p l u).frame .spindles (by decide)
@[simp] theorem State.openLoop_axes (s : State) (p : PickupId) (l : ServoLoop) (u : Int) : (s.openLoop p l u).axes = s.axes :=
  (State.openLoop_eff s p l u).frame .axes (by decide)
@[simp] theorem State.openLoop_host (s : State) (p : PickupId) (l : ServoLoop) (u : Int) : (s.openLoop p l u).host = s.host :=
  (State.openLoop_eff s p l u).frame .host (by decide)
@[simp] theorem State.openLoop_ramps (s : State) (p : PickupId) (l : ServoLoop) (u : Int) : (s.openLoop p l u).ramps = s.ramps :=
  (State.openLoop_eff s p l u).frame .ramps (by decide)
@[simp] theorem State.openLoop_signpost (s : State) (p : PickupId) (l : ServoLoop) (u : Int) : (s.openLoop p l u).signpost = s.signpost :=
  (State.openLoop_eff s p l u).frame .signpost (by decide)
@[simp] theorem State.openLoop_staging (s : State) (p : PickupId) (l : ServoLoop) (u : Int) : (s.openLoop p l u).staging = s.staging :=
  (State.openLoop_eff s p l u).frame .staging (by decide)
@[simp] theorem State.openLoop_mem (s : State) (p : PickupId) (l : ServoLoop) (u : Int) : (s.openLoop p l u).mem = s.mem :=
  (State.openLoop_eff s p l u).frame .mem (by decide)
@[simp] theorem State.openLoop_cal (s : State) (p : PickupId) (l : ServoLoop) (u : Int) : (s.openLoop p l u).cal = s.cal :=
  (State.openLoop_eff s p l u).frame .cal (by decide)
@[simp] theorem State.openLoop_recorder (s : State) (p : PickupId) (l : ServoLoop) (u : Int) : (s.openLoop p l u).recorder = s.recorder :=
  (State.openLoop_eff s p l u).frame .recorder (by decide)
@[simp] theorem State.openLoop_milestone (s : State) (p : PickupId) (l : ServoLoop) (u : Int) : (s.openLoop p l u).milestone = s.milestone :=
  (State.openLoop_eff s p l u).frame .milestone (by decide)
@[simp] theorem State.openLoop_traces (s : State) (p : PickupId) (l : ServoLoop) (u : Int) : (s.openLoop p l u).traces = s.traces :=
  (State.openLoop_eff s p l u).frame .traces (by decide)
@[simp] theorem State.openLoop_xspAin (s : State) (p : PickupId) (l : ServoLoop) (u : Int) : (s.openLoop p l u).xspAin = s.xspAin :=
  (State.openLoop_eff s p l u).frame .xspAin (by decide)
@[simp] theorem State.openLoop_xspDir (s : State) (p : PickupId) (l : ServoLoop) (u : Int) : (s.openLoop p l u).xspDir = s.xspDir :=
  (State.openLoop_eff s p l u).frame .xspDir (by decide)
@[simp] theorem State.openLoop_verge (s : State) (p : PickupId) (l : ServoLoop) (u : Int) : (s.openLoop p l u).verge = s.verge :=
  (State.openLoop_eff s p l u).frame .verge (by decide)
@[simp] theorem State.openLoop_power (s : State) (p : PickupId) (l : ServoLoop) (u : Int) : (s.openLoop p l u).power = s.power :=
  (State.openLoop_eff s p l u).frame .power (by decide)
@[simp] theorem State.openLoop_otp (s : State) (p : PickupId) (l : ServoLoop) (u : Int) : (s.openLoop p l u).otp = s.otp :=
  (State.openLoop_eff s p l u).frame .otp (by decide)

/-! `State.finishCmd`. -/

@[simp] theorem State.finishCmd_time (s : State) (k : CmdRef) (st : Status) : (s.finishCmd k st).time = s.time :=
  (State.finishCmd_eff s k st).frame .time (by decide)
@[simp] theorem State.finishCmd_freeCount (s : State) (k : CmdRef) (st : Status) : (s.finishCmd k st).freeCount = s.freeCount :=
  (State.finishCmd_eff s k st).frame .freeCount (by decide)
@[simp] theorem State.finishCmd_pending (s : State) (k : CmdRef) (st : Status) : (s.finishCmd k st).pending = s.pending :=
  (State.finishCmd_eff s k st).good.pending
@[simp] theorem State.finishCmd_objs (s : State) (k : CmdRef) (st : Status) : (s.finishCmd k st).objs = s.objs :=
  (State.finishCmd_eff s k st).frame .objs (by decide)
@[simp] theorem State.finishCmd_doms (s : State) (k : CmdRef) (st : Status) : (s.finishCmd k st).doms = s.doms :=
  (State.finishCmd_eff s k st).frame .doms (by decide)
@[simp] theorem State.finishCmd_pickups (s : State) (k : CmdRef) (st : Status) : (s.finishCmd k st).pickups = s.pickups :=
  (State.finishCmd_eff s k st).frame .pickups (by decide)
@[simp] theorem State.finishCmd_channels (s : State) (k : CmdRef) (st : Status) : (s.finishCmd k st).channels = s.channels :=
  (State.finishCmd_eff s k st).frame .channels (by decide)
@[simp] theorem State.finishCmd_decoding (s : State) (k : CmdRef) (st : Status) : (s.finishCmd k st).decoding = s.decoding :=
  (State.finishCmd_eff s k st).frame .decoding (by decide)
@[simp] theorem State.finishCmd_sides (s : State) (k : CmdRef) (st : Status) : (s.finishCmd k st).sides = s.sides :=
  (State.finishCmd_eff s k st).frame .sides (by decide)
@[simp] theorem State.finishCmd_spindles (s : State) (k : CmdRef) (st : Status) : (s.finishCmd k st).spindles = s.spindles :=
  (State.finishCmd_eff s k st).frame .spindles (by decide)
@[simp] theorem State.finishCmd_axes (s : State) (k : CmdRef) (st : Status) : (s.finishCmd k st).axes = s.axes :=
  (State.finishCmd_eff s k st).frame .axes (by decide)
@[simp] theorem State.finishCmd_ramps (s : State) (k : CmdRef) (st : Status) : (s.finishCmd k st).ramps = s.ramps :=
  (State.finishCmd_eff s k st).frame .ramps (by decide)
@[simp] theorem State.finishCmd_signpost (s : State) (k : CmdRef) (st : Status) : (s.finishCmd k st).signpost = s.signpost :=
  (State.finishCmd_eff s k st).frame .signpost (by decide)
@[simp] theorem State.finishCmd_staging (s : State) (k : CmdRef) (st : Status) : (s.finishCmd k st).staging = s.staging :=
  (State.finishCmd_eff s k st).frame .staging (by decide)
@[simp] theorem State.finishCmd_mem (s : State) (k : CmdRef) (st : Status) : (s.finishCmd k st).mem = s.mem :=
  (State.finishCmd_eff s k st).frame .mem (by decide)
@[simp] theorem State.finishCmd_cal (s : State) (k : CmdRef) (st : Status) : (s.finishCmd k st).cal = s.cal :=
  (State.finishCmd_eff s k st).frame .cal (by decide)
@[simp] theorem State.finishCmd_recorder (s : State) (k : CmdRef) (st : Status) : (s.finishCmd k st).recorder = s.recorder :=
  (State.finishCmd_eff s k st).frame .recorder (by decide)
@[simp] theorem State.finishCmd_milestone (s : State) (k : CmdRef) (st : Status) : (s.finishCmd k st).milestone = s.milestone :=
  (State.finishCmd_eff s k st).frame .milestone (by decide)
@[simp] theorem State.finishCmd_traces (s : State) (k : CmdRef) (st : Status) : (s.finishCmd k st).traces = s.traces :=
  (State.finishCmd_eff s k st).frame .traces (by decide)
@[simp] theorem State.finishCmd_xspAin (s : State) (k : CmdRef) (st : Status) : (s.finishCmd k st).xspAin = s.xspAin :=
  (State.finishCmd_eff s k st).frame .xspAin (by decide)
@[simp] theorem State.finishCmd_xspDir (s : State) (k : CmdRef) (st : Status) : (s.finishCmd k st).xspDir = s.xspDir :=
  (State.finishCmd_eff s k st).frame .xspDir (by decide)
@[simp] theorem State.finishCmd_verge (s : State) (k : CmdRef) (st : Status) : (s.finishCmd k st).verge = s.verge :=
  (State.finishCmd_eff s k st).frame .verge (by decide)
@[simp] theorem State.finishCmd_power (s : State) (k : CmdRef) (st : Status) : (s.finishCmd k st).power = s.power :=
  (State.finishCmd_eff s k st).frame .power (by decide)
@[simp] theorem State.finishCmd_otp (s : State) (k : CmdRef) (st : Status) : (s.finishCmd k st).otp = s.otp :=
  (State.finishCmd_eff s k st).frame .otp (by decide)

end Sys2Proof.Machine
end

