-- ==== Sys2Proof/Laws/Namespaces.lean ====
section
/-! SUPPORT. What each operation of Sys2Proof/Machine/Namespaces.lean may change: `x_eff` names the parts of the state that x may change and says that
x keeps every form of Sys2Proof/Safety.lean; `x_effs` says so of an operation with operations as arguments, under the same of each argument. -/

set_option Elab.async false

namespace Sys2Proof.Machine

theorem State.bufferWrite_eff (s : State) (p : PickupId) (c : Cmd) : Eff [.sides, .host] s (State.bufferWrite s p c) := by
  delta State.bufferWrite
  refine Eff.start fun h0 => ?_
  extract_lets -merge -underBinder +onlyGivenNames y0
  try clear_value y0
  refine Eff.after (State.updCmd_eff _ _ _) ?_
  refine Eff.after (State.updS_eff _ _ _) ?_
  assumption

theorem State.give_eff (s : State) (k : CmdRef) (lba : Nat) (b : Block) : Eff [.host] s (State.give s k lba b) := by
  delta State.give
  refine Eff.start fun h0 => ?_
  refine Eff.after (State.updCmd_eff _ _ _) ?_
  assumption

theorem State.noteStream_eff (s : State) (p : PickupId) (c : Cmd) : Eff [.sides] s (State.noteStream s p c) := by
  delta State.noteStream
  refine Eff.start fun h0 => ?_
  refine Eff.after (State.updS_eff _ _ _) ?_
  assumption

theorem State.onMedia_effs {l : List Part} {s0 : State} {s : State} {k : CmdRef} {mine : Cmd → Bool} {f : State → PickupId → Cmd → State} (h : Eff l s0 s) (h_f : ∀ u v w, Eff l s0 u → Eff l s0 (f u v w)) (hs : partsIn [] l = true := by decide) :
    OutEff l s0 (State.onMedia s k mine f) := by
  delta State.onMedia
  refine State.when_effs ?_ (fun _ _ => ?_)
  · assumption
  · split
    · assumption
    · split
      · assumption
      · refine Eff.ite ?_ ?_
        · refine h_f _ _ _ ?_
          assumption
        · assumption

theorem State.refuseAction_eff (s : State) (k : CmdRef) (action : Nat) : Eff [.host] s (State.refuseAction s k action) := by
  delta State.refuseAction
  refine Eff.start fun h0 => ?_
  split
  · assumption
  · split
    · assumption
    · refine Eff.ite ?_ ?_
      · split
        · refine Eff.after (State.finishCmd_eff _ _ _) ?_
          refine Eff.after (State.updCmd_eff _ _ _) ?_
          assumption
        · assumption
      · assumption

theorem State.serveRead_eff (s : State) (p : PickupId) (c : Cmd) :
    Eff [.objs, .pickups, .channels, .sides, .spindles, .axes, .host, .recorder] s (State.serveRead s p c) := by
  delta State.serveRead
  refine Eff.start fun h0 => ?_
  extract_lets -merge -underBinder +onlyGivenNames y0 y1 y2 y3 y4 y5 y6
  try clear_value y0 y1 y2 y3 y4 y5 y6
  extract_lets -merge -underBinder +onlyGivenNames y7
  refine h0.named (x := y7) ?_ fun _ => ?_
  · subst y7
    refine Eff.after (State.updCmd_eff _ _ _) ?_
    assumption
  clear_value y7
  extract_lets -merge -underBinder +onlyGivenNames y8
  refine h0.named (x := y8) ?_ fun _ => ?_
  · subst y8
    refine Eff.forEach ?_ fun _ _ _ => ?_
    · assumption
    · split
      · refine Eff.ite ?_ ?_
        · refine Eff.after (State.finishCmd_eff _ _ _) ?_
          assumption
        · refine Eff.after (State.give_eff _ _ _ _) ?_
          assumption
      · refine Eff.after (State.give_eff _ _ _ _) ?_
        assumption
      · refine Eff.after (State.finishCmd_eff _ _ _) ?_
        assumption
      · assumption
  clear_value y8
  extract_lets -merge -underBinder +onlyGivenNames y9
  refine h0.named (x := y9) ?_ fun _ => ?_
  · subst y9
    refine Eff.ite ?_ ?_
    · assumption
    · refine Eff.after (State.finishCmd_eff _ _ _) ?_
      assumption
  clear_value y9
  extract_lets -merge -underBinder +onlyGivenNames y10
  refine h0.named (x := y10) ?_ fun _ => ?_
  · subst y10
    refine Eff.forEach ?_ fun _ _ _ => ?_
    · assumption
    · refine Eff.after (State.wantCluster_eff _ _ _ _ _) ?_
      assumption
  clear_value y10
  refine Eff.ite ?_ ?_
  · refine Eff.after (State.finishCmd_eff _ _ _) ?_
    assumption
  · assumption

theorem execCloseZone_eff (k : CmdRef) (s : State) : OutEff [.sides, .host] s (execCloseZone k s) := by
  delta execCloseZone
  refine OutEff.start fun h0 => ?_
  refine State.onMedia_effs ?_ (fun _ _ _ _ => ?_)
  · assumption
  · refine Eff.ite ?_ ?_
    · assumption
    · extract_lets -merge -underBinder +onlyGivenNames y0
      refine h0.named (x := y0) ?_ fun _ => ?_
      · subst y0
        refine Eff.after (State.commit_eff _ _) ?_
        assumption
      clear_value y0
      refine Eff.after (State.finishCmd_eff _ _ _) ?_
      refine Eff.forEach ?_ fun _ _ _ => ?_
      · assumption
      · refine Eff.after (State.updZone_eff _ _ _ _) ?_
        assumption

theorem execDataReadCompletion_eff (k : CmdRef) (good : Bool) (s : State) : OutEff [.sides, .host] s (execDataReadCompletion k good s) := by
  delta execDataReadCompletion
  refine OutEff.start fun h0 => ?_
  refine State.when_effs ?_ (fun _ _ => ?_)
  · assumption
  · split
    · assumption
    · split
      · assumption
      · refine Eff.ite ?_ ?_
        · assumption
        · refine Eff.ite ?_ ?_
          · refine Eff.ite ?_ ?_
            · extract_lets -merge -underBinder +onlyGivenNames y0
              refine h0.named (x := y0) ?_ fun _ => ?_
              · subst y0
                refine Eff.after (State.updS_eff _ _ _) ?_
                assumption
              clear_value y0
              refine Eff.put ?_
              assumption
            · refine Eff.after (State.withdrawWrite_eff _ _ _) ?_
              refine Eff.after (State.finishCmd_eff _ _ _) ?_
              assumption
          · refine Eff.ite ?_ ?_
            · refine Eff.after (State.finishCmd_eff _ _ _) ?_
              assumption
            · assumption

theorem execFinishZone_eff (k : CmdRef) (s : State) : OutEff [.objs, .sides, .host, .recorder] s (execFinishZone k s) := by
  delta execFinishZone
  refine OutEff.start fun h0 => ?_
  refine State.onMedia_effs ?_ (fun _ _ _ _ => ?_)
  · assumption
  · extract_lets -merge -underBinder +onlyGivenNames y0
    try clear_value y0
    extract_lets -merge -underBinder +onlyGivenNames y1
    refine h0.named (x := y1) ?_ fun _ => ?_
    · subst y1
      refine Eff.forEach ?_ fun _ _ _ => ?_
      · assumption
      · refine Eff.after (State.zoneNotice_eff _ _ _ _) ?_
        refine Eff.after (State.updZone_eff _ _ _ _) ?_
        assumption
    clear_value y1
    extract_lets -merge -underBinder +onlyGivenNames y2
    refine h0.named (x := y2) ?_ fun _ => ?_
    · subst y2
      refine Eff.forEach ?_ fun _ _ _ => ?_
      · assumption
      · refine Eff.after (State.formAll_eff _ _ _) ?_
        assumption
    clear_value y2
    extract_lets -merge -underBinder +onlyGivenNames y3
    refine h0.named (x := y3) ?_ fun _ => ?_
    · subst y3
      refine Eff.after (State.updCmd_eff _ _ _) ?_
      assumption
    clear_value y3
    refine Eff.ite ?_ ?_
    · refine Eff.after (State.finishCmd_eff _ _ _) ?_
      assumption
    · assumption

theorem execFlush_eff (k : CmdRef) (s : State) : OutEff [.objs, .sides, .host, .recorder] s (execFlush k s) := by
  delta execFlush
  refine OutEff.start fun h0 => ?_
  refine State.when_effs ?_ (fun _ _ => ?_)
  · assumption
  · split
    · assumption
    · refine Eff.ite ?_ ?_
      · assumption
      · extract_lets -merge -underBinder +onlyGivenNames y0 y1
        try clear_value y0 y1
        extract_lets -merge -underBinder +onlyGivenNames y2
        refine h0.named (x := y2) ?_ fun _ => ?_
        · subst y2
          refine Eff.after (State.updCmd_eff _ _ _) ?_
          assumption
        clear_value y2
        refine Eff.forEach ?_ fun _ _ _ => ?_
        · assumption
        · refine Eff.after (State.formCovered_eff _ _ _) ?_
          assumption

theorem execOfflineZone_eff (k : CmdRef) (s : State) : OutEff [.host] s (execOfflineZone k s) := by
  delta execOfflineZone
  refine OutEff.start fun h0 => ?_
  refine State.when_effs ?_ (fun _ _ => ?_)
  · assumption
  · refine Eff.after (State.refuseAction_eff _ _ _) ?_
    assumption

theorem execOpenZone_eff (k : CmdRef) (s : State) : OutEff [.sides, .host] s (execOpenZone k s) := by
  delta execOpenZone
  refine OutEff.start fun h0 => ?_
  refine State.onMedia_effs ?_ (fun _ _ _ _ => ?_)
  · assumption
  · refine Eff.ite ?_ ?_
    · assumption
    · extract_lets -merge -underBinder +onlyGivenNames y0
      refine h0.named (x := y0) ?_ fun _ => ?_
      · subst y0
        refine Eff.after (State.commit_eff _ _) ?_
        assumption
      clear_value y0
      refine Eff.after (State.finishCmd_eff _ _ _) ?_
      refine Eff.forEach ?_ fun _ _ _ => ?_
      · assumption
      · refine Eff.after (State.updZone_eff _ _ _ _) ?_
        assumption

theorem execRead_eff (k : CmdRef) (s : State) : OutEff [.objs, .pickups, .channels, .sides, .spindles, .axes, .host, .recorder] s (execRead k s) := by
  delta execRead
  refine OutEff.start fun h0 => ?_
  refine State.onMedia_effs ?_ (fun _ _ _ _ => ?_)
  · assumption
  · refine Eff.ite ?_ ?_
    · refine Eff.after (State.serveRead_eff _ _ _) ?_
      refine Eff.after (State.noteStream_eff _ _ _) ?_
      assumption
    · refine Eff.after (State.finishCmd_eff _ _ _) ?_
      assumption

theorem execReportZones_eff (k : CmdRef) (s : State) : OutEff [.host] s (execReportZones k s) := by
  delta execReportZones
  refine OutEff.start fun h0 => ?_
  refine State.onCores_effs ?_ (fun _ _ _ => ?_)
  · assumption
  · split
    · assumption
    · extract_lets -merge -underBinder +onlyGivenNames y0 y1
      try clear_value y0 y1
      refine Eff.after (State.finishCmd_eff _ _ _) ?_
      refine Eff.after (State.giveData_eff _ _ _) ?_
      assumption

theorem execResetZone_eff (k : CmdRef) (s : State) : OutEff [.host] s (execResetZone k s) := by
  delta execResetZone
  refine OutEff.start fun h0 => ?_
  refine State.when_effs ?_ (fun _ _ => ?_)
  · assumption
  · refine Eff.after (State.refuseAction_eff _ _ _) ?_
    assumption

theorem execSetZoneDescriptorExtension_eff (k : CmdRef) (s : State) : OutEff [.host] s (execSetZoneDescriptorExtension k s) := by
  delta execSetZoneDescriptorExtension
  refine OutEff.start fun h0 => ?_
  refine State.when_effs ?_ (fun _ _ => ?_)
  · assumption
  · split
    · assumption
    · refine Eff.ite ?_ ?_
      · refine Eff.after (State.finishCmd_eff _ _ _) ?_
        refine Eff.after (State.updCmd_eff _ _ _) ?_
        assumption
      · assumption

theorem execVerify_eff (k : CmdRef) (s : State) :
    OutEff [.objs, .pickups, .channels, .sides, .spindles, .axes, .host, .recorder] s (execVerify k s) := by
  delta execVerify
  refine OutEff.start fun h0 => ?_
  refine State.onMedia_effs ?_ (fun _ _ _ _ => ?_)
  · assumption
  · refine Eff.ite ?_ ?_
    · refine Eff.after (State.serveRead_eff _ _ _) ?_
      assumption
    · refine Eff.after (State.finishCmd_eff _ _ _) ?_
      assumption

theorem execWrite_eff (k : CmdRef) (s : State) : OutEff [.sides, .host] s (execWrite k s) := by
  delta execWrite
  refine OutEff.start fun h0 => ?_
  refine State.onMedia_effs ?_ (fun _ _ _ _ => ?_)
  · assumption
  · refine Eff.after (State.bufferWrite_eff _ _ _) ?_
    assumption

theorem execZoneAppend_eff (k : CmdRef) (s : State) : OutEff [.sides, .host] s (execZoneAppend k s) := by
  delta execZoneAppend
  refine OutEff.start fun h0 => ?_
  refine State.onMedia_effs ?_ (fun _ _ _ _ => ?_)
  · assumption
  · refine Eff.after (State.bufferWrite_eff _ _ _) ?_
    assumption

end Sys2Proof.Machine
end

