-- ==== Sys2Proof/Laws/Signpost.lean ====
section
/-! SUPPORT. What each operation of Sys2Proof/Machine/Signpost.lean may change: `x_eff` names the parts of the state that x may change and says that
x keeps every form of Sys2Proof/Safety.lean; `x_effs` says so of an operation with operations as arguments, under the same of each argument. -/

set_option Elab.async false

namespace Sys2Proof.Machine

theorem State.objectReply_eff (s : State) (k : CmdRef) (r : Request) : Eff [.host] s (State.objectReply s k r) := by
  delta State.objectReply
  refine Eff.start fun h0 => ?_
  split
  · assumption
  · split
    · refine Eff.after (State.finishCmd_eff _ _ _) ?_
      refine Eff.after (State.setDw0_eff _ _ _) ?_
      assumption
    · refine Eff.after (State.finishCmd_eff _ _ _) ?_
      refine Eff.after (State.updCmd_eff _ _ _) ?_
      assumption

theorem execAuthChallengeRead_eff (cl : Client) (s : State) : OutEff [.freeCount, .objs, .signpost, .staging] s (execAuthChallengeRead cl s) := by
  delta execAuthChallengeRead
  refine OutEff.start fun h0 => ?_
  refine State.when_effs ?_ (fun _ _ => ?_)
  · assumption
  · split
    · rename_i heq
      have := Eff.after (b := [.freeCount, .objs, .signpost, .staging]) (s0 := s) (State.readObject_eff heq) (by
        assumption
        )
      refine Eff.after (State.answer_eff _ _ _ _) ?_
      assumption

theorem execAuthLockoutEnd_eff (s : State) : OutEff [.objs, .signpost] s (execAuthLockoutEnd s) := by
  delta execAuthLockoutEnd
  refine OutEff.start fun h0 => ?_
  refine State.when_effs ?_ (fun _ _ => ?_)
  · assumption
  · refine Eff.after (State.setOb_eff _ _ _ _ _) ?_
    refine Eff.put ?_
    assumption

theorem execEnumerate_eff (cl : Client) (r : Request) (s : State) :
    OutEff [.freeCount, .objs, .doms, .pickups, .channels, .decoding, .sides, .spindles, .axes, .host, .ramps, .signpost, .staging, .mem, .cal, .recorder, .milestone, .traces, .verge, .power, .otp] s (execEnumerate cl r s) := by
  delta execEnumerate
  refine OutEff.start fun h0 => ?_
  refine OutEff.after (State.serve_eff _ _ _ _) ?_
  assumption

theorem execGetObject_eff (k : CmdRef) (s : State) :
    OutEff [.freeCount, .objs, .doms, .pickups, .channels, .decoding, .sides, .spindles, .axes, .host, .ramps, .signpost, .staging, .mem, .cal, .recorder, .milestone, .traces, .verge, .power, .otp] s (execGetObject k s) := by
  delta execGetObject
  refine OutEff.start fun h0 => ?_
  refine State.admin_effs ?_ (fun _ _ _ => ?_)
  · assumption
  · extract_lets -merge -underBinder +onlyGivenNames y0
    try clear_value y0
    refine Eff.after (State.objectReply_eff _ _ _) ?_
    refine Eff.after (State.execRequest_eff _ _ _) ?_
    assumption

theorem execObjectWrite_eff (cl : Client) (index : Nat) (sub : Nat) (v : Int) (authorised : Option Bool) (s : State) :
    OutEff [.freeCount, .objs, .doms, .pickups, .channels, .decoding, .sides, .spindles, .axes, .host, .ramps, .signpost, .staging, .mem, .cal, .recorder, .milestone, .traces, .verge, .power, .otp] s (execObjectWrite cl index sub v authorised s) := by
  delta execObjectWrite
  refine OutEff.start fun h0 => ?_
  refine State.when_effs ?_ (fun _ _ => ?_)
  · assumption
  · extract_lets -merge -underBinder +onlyGivenNames y0
    try clear_value y0
    split
    · refine Eff.after (State.answer_eff _ _ _ _) ?_
      assumption
    · split
      · refine Eff.after (State.answer_eff _ _ _ _) ?_
        assumption
      · refine Eff.ite ?_ ?_
        · assumption
        · refine Eff.ite ?_ ?_
          · refine Eff.after (State.answer_eff _ _ _ _) ?_
            assumption
          · refine Eff.after (State.writeObject_eff _ _ _ _ _ _ _) ?_
            assumption

theorem execReadSegment_eff (cl : Client) (r : Request) (s : State) :
    OutEff [.freeCount, .objs, .doms, .pickups, .channels, .decoding, .sides, .spindles, .axes, .host, .ramps, .signpost, .staging, .mem, .cal, .recorder, .milestone, .traces, .verge, .power, .otp] s (execReadSegment cl r s) := by
  delta execReadSegment
  refine OutEff.start fun h0 => ?_
  refine OutEff.after (State.serve_eff _ _ _ _) ?_
  assumption

theorem execReadStart_eff (cl : Client) (r : Request) (s : State) :
    OutEff [.freeCount, .objs, .doms, .pickups, .channels, .decoding, .sides, .spindles, .axes, .host, .ramps, .signpost, .staging, .mem, .cal, .recorder, .milestone, .traces, .verge, .power, .otp] s (execReadStart cl r s) := by
  delta execReadStart
  refine OutEff.start fun h0 => ?_
  refine OutEff.after (State.serve_eff _ _ _ _) ?_
  assumption

theorem execSessionClose_eff (cl : Client) (r : Request) (s : State) :
    OutEff [.freeCount, .objs, .doms, .pickups, .channels, .decoding, .sides, .spindles, .axes, .host, .ramps, .signpost, .staging, .mem, .cal, .recorder, .milestone, .traces, .verge, .power, .otp] s (execSessionClose cl r s) := by
  delta execSessionClose
  refine OutEff.start fun h0 => ?_
  refine OutEff.after (State.serve_eff _ _ _ _) ?_
  assumption

theorem execSessionExpired_eff (n : Fin 8) (s : State) : OutEff [.objs, .signpost, .recorder] s (execSessionExpired n s) := by
  delta execSessionExpired
  refine OutEff.start fun h0 => ?_
  refine State.when_effs ?_ (fun _ _ => ?_)
  · assumption
  · split
    · assumption
    · refine Eff.ite ?_ ?_
      · refine Eff.after (State.expireSession_eff _ _ _) ?_
        assumption
      · assumption

theorem execSetObject_eff (k : CmdRef) (s : State) :
    OutEff [.freeCount, .objs, .doms, .pickups, .channels, .decoding, .sides, .spindles, .axes, .host, .ramps, .signpost, .staging, .mem, .cal, .recorder, .milestone, .traces, .verge, .power, .otp] s (execSetObject k s) := by
  delta execSetObject
  refine OutEff.start fun h0 => ?_
  refine State.admin_effs ?_ (fun _ _ _ => ?_)
  · assumption
  · extract_lets -merge -underBinder +onlyGivenNames y0
    try clear_value y0
    refine Eff.after (State.objectReply_eff _ _ _) ?_
    refine Eff.after (State.execRequest_eff _ _ _) ?_
    assumption

theorem execSignpostRead_eff (cl : Client) (r : Request) (s : State) :
    OutEff [.freeCount, .objs, .doms, .pickups, .channels, .decoding, .sides, .spindles, .axes, .host, .ramps, .signpost, .staging, .mem, .cal, .recorder, .milestone, .traces, .verge, .power, .otp] s (execSignpostRead cl r s) := by
  delta execSignpostRead
  refine OutEff.start fun h0 => ?_
  refine OutEff.after (State.serve_eff _ _ _ _) ?_
  assumption

theorem execSignpostWrite_eff (cl : Client) (r : Request) (s : State) :
    OutEff [.freeCount, .objs, .doms, .pickups, .channels, .decoding, .sides, .spindles, .axes, .host, .ramps, .signpost, .staging, .mem, .cal, .recorder, .milestone, .traces, .verge, .power, .otp] s (execSignpostWrite cl r s) := by
  delta execSignpostWrite
  refine OutEff.start fun h0 => ?_
  refine OutEff.after (State.serve_eff _ _ _ _) ?_
  assumption

theorem execWriteEnd_eff (cl : Client) (r : Request) (s : State) :
    OutEff [.freeCount, .objs, .doms, .pickups, .channels, .decoding, .sides, .spindles, .axes, .host, .ramps, .signpost, .staging, .mem, .cal, .recorder, .milestone, .traces, .verge, .power, .otp] s (execWriteEnd cl r s) := by
  delta execWriteEnd
  refine OutEff.start fun h0 => ?_
  refine OutEff.after (State.serve_eff _ _ _ _) ?_
  assumption

theorem execWriteSegment_eff (cl : Client) (r : Request) (s : State) :
    OutEff [.freeCount, .objs, .doms, .pickups, .channels, .decoding, .sides, .spindles, .axes, .host, .ramps, .signpost, .staging, .mem, .cal, .recorder, .milestone, .traces, .verge, .power, .otp] s (execWriteSegment cl r s) := by
  delta execWriteSegment
  refine OutEff.start fun h0 => ?_
  refine OutEff.after (State.serve_eff _ _ _ _) ?_
  assumption

theorem execWriteStart_eff (cl : Client) (r : Request) (s : State) :
    OutEff [.freeCount, .objs, .doms, .pickups, .channels, .decoding, .sides, .spindles, .axes, .host, .ramps, .signpost, .staging, .mem, .cal, .recorder, .milestone, .traces, .verge, .power, .otp] s (execWriteStart cl r s) := by
  delta execWriteStart
  refine OutEff.start fun h0 => ?_
  refine OutEff.after (State.serve_eff _ _ _ _) ?_
  assumption

end Sys2Proof.Machine
end

