-- ==== Sys2Proof/Laws/WritePath.lean ====
section
/-! SUPPORT. What each operation of Sys2Proof/Machine/WritePath.lean may change: `x_eff` names the parts of the state that x may change and says that
x keeps every form of Sys2Proof/Safety.lean; `x_effs` says so of an operation with operations as arguments, under the same of each argument. -/

set_option Elab.async false

namespace Sys2Proof.Machine

theorem State.setPair_eff (s : State) (p : PickupId) (homeLayer : Nat) (homeQ : Nat) (spareLayer : Nat) (spareQ : Nat) (zone : Nat) (cluster : Nat) (serial : Nat) :
    Eff [.sides] s (State.setPair s p homeLayer homeQ spareLayer spareQ zone cluster serial) := by
  delta State.setPair
  refine Eff.start fun h0 => ?_
  extract_lets -merge -underBinder +onlyGivenNames y0 y1
  try clear_value y0 y1
  extract_lets -merge -underBinder +onlyGivenNames y2
  refine h0.named (x := y2) ?_ fun _ => ?_
  · subst y2
    refine Eff.after (State.setEntry_eff _ _ _ _ _) ?_
    assumption
  clear_value y2
  refine Eff.after (State.setEntry_eff _ _ _ _ _) ?_
  assumption

theorem State.setUnusable_eff (s : State) (p : PickupId) (layer : Nat) (q : Nat) : Eff [.sides] s (State.setUnusable s p layer q) := by
  delta State.setUnusable
  refine Eff.start fun h0 => ?_
  refine Eff.after (State.setEntry_eff _ _ _ _ _) ?_
  assumption

theorem State.setWritten_eff (s : State) (p : PickupId) (layer : Nat) (q : Nat) : Eff [.sides] s (State.setWritten s p layer q) := by
  delta State.setWritten
  refine Eff.start fun h0 => ?_
  extract_lets -merge -underBinder +onlyGivenNames y0
  try clear_value y0
  refine Eff.ite ?_ ?_
  · refine Eff.after (State.setEntry_eff _ _ _ _ _) ?_
    assumption
  · assumption

theorem State.applyRecord_eff (s : State) (p : PickupId) (r : List Nat) : Eff [.sides] s (State.applyRecord s p r) := by
  delta State.applyRecord
  refine Eff.start fun h0 => ?_
  split
  · refine Eff.after (State.setPair_eff _ _ _ _ _ _ _ _ _) ?_
    assumption
  · refine Eff.after (State.updZone_eff _ _ _ _) ?_
    assumption
  · extract_lets -merge -underBinder +onlyGivenNames y0
    refine h0.named (x := y0) ?_ fun _ => ?_
    · subst y0
      refine Eff.forEach ?_ fun _ _ _ => ?_
      · assumption
      · refine Eff.after (State.setWritten_eff _ _ _ _) ?_
        assumption
    clear_value y0
    refine Eff.after (State.updZone_eff _ _ _ _) ?_
    assumption
  · refine Eff.after (State.updZone_eff _ _ _ _) ?_
    assumption
  · refine Eff.after (State.setUnusable_eff _ _ _ _) ?_
    assumption
  · assumption

theorem State.applySpare_eff (s : State) (p : PickupId) (x : Nat × Nat × Bool × Nat × Nat × Nat) : Eff [.sides] s (State.applySpare s p x) := by
  delta State.applySpare
  refine Eff.start fun h0 => ?_
  split
  · refine Eff.ite ?_ ?_
    · refine Eff.after (State.setUnusable_eff _ _ _ _) ?_
      assumption
    · extract_lets -merge -underBinder +onlyGivenNames y0 y1 y2
      try clear_value y0 y1 y2
      refine Eff.ite ?_ ?_
      · refine Eff.ite ?_ ?_
        · refine Eff.after (State.setPair_eff _ _ _ _ _ _ _ _ _) ?_
          refine Eff.after (State.setUnusable_eff _ _ _ _) ?_
          assumption
        · refine Eff.after (State.setUnusable_eff _ _ _ _) ?_
          assumption
      · refine Eff.after (State.setPair_eff _ _ _ _ _ _ _ _ _) ?_
        assumption

theorem State.applyTail_eff (s : State) (p : PickupId) (t : Nat × Nat × List Bool) : Eff [.sides] s (State.applyTail s p t) := by
  delta State.applyTail
  refine Eff.start fun h0 => ?_
  split
  · extract_lets -merge -underBinder +onlyGivenNames y0
    try clear_value y0
    extract_lets -merge -underBinder +onlyGivenNames y1
    refine h0.named (x := y1) ?_ fun _ => ?_
    · subst y1
      refine Eff.forEach ?_ fun _ _ _ => ?_
      · assumption
      · refine Eff.after (State.setWritten_eff _ _ _ _) ?_
        assumption
    clear_value y1
    refine Eff.forEach ?_ fun _ _ _ => ?_
    · assumption
    · extract_lets -merge -underBinder +onlyGivenNames y2 y3 y4
      try clear_value y2 y3 y4
      refine Eff.ite ?_ ?_
      · assumption
      · refine Eff.ite ?_ ?_
        · refine Eff.after (State.setEntry_eff _ _ _ _ _) ?_
          assumption
        · refine Eff.after (State.setUnusable_eff _ _ _ _) ?_
          assumption

theorem State.armed_eff (s : State) (p : PickupId) (r : Run) : Eff [.objs, .sides, .host, .recorder] s (State.armed s p r) := by
  delta State.armed
  refine Eff.start fun h0 => ?_
  split
  · refine Eff.after (State.checkJournal_eff _ _) ?_
    refine Eff.after (State.updS_eff _ _ _) ?_
    assumption
  · refine Eff.after (State.checkJournal_eff _ _) ?_
    refine Eff.after (State.updS_eff _ _ _) ?_
    assumption
  · refine Eff.after (State.updS_eff _ _ _) ?_
    assumption
  · assumption

theorem State.writeControl_eff (s : State) (p : PickupId) (copies : List Nat) : Eff [.sides] s (State.writeControl s p copies) := by
  delta State.writeControl
  refine Eff.start fun h0 => ?_
  extract_lets -merge -underBinder +onlyGivenNames y0 y1
  try clear_value y0 y1
  refine Eff.forEach ?_ fun _ _ _ => ?_
  · assumption
  · refine Eff.after (State.updS_eff _ _ _) ?_
    assumption

theorem State.controlAtMount_eff {s : State} {p : PickupId} {blank : List Bool} {reads : List Bool} {discId : BitVec 128} {t : State} {x : Bool}
    (heq : State.controlAtMount s p blank reads discId = (t, x)) : Eff [.objs, .sides, .recorder] s t := by
  suffices h : Eff [.objs, .sides, .recorder] s (State.controlAtMount s p blank reads discId).1 by rw [heq] at h; exact h
  delta State.controlAtMount
  refine Eff.start fun h0 => ?_
  extract_lets -merge -underBinder +onlyGivenNames y0 y1 y2 y3
  have h2 : Eff [.objs, .sides, .recorder] s y2 := (State.updS_eff _ _ _).mono
  have h3 : ∀ u, Eff [.objs, .sides, .recorder] s u → Eff [.objs, .sides, .recorder] s (y3 u) := fun _ h => (State.report_eff _ _ _ _).after h
  clear_value y0 y1 y2 y3
  split
  · refine (State.writeControl_eff _ _ _).after (h3 _ (Eff.ite ?_ ?_))
    · exact (State.updS_eff _ _ _).after ((State.updS_eff _ _ _).after h2)
    · exact (State.updS_eff _ _ _).after h2
  · split
    · extract_lets -merge -underBinder +onlyGivenNames y4 other
      have h4 : Eff [.objs, .sides, .recorder] s y4 := (State.updS_eff _ _ _).after h2
      clear_value y4 other
      split
      · exact h4
      · split
        · exact (State.writeControl_eff _ p _).after h4
        · exact (State.report_eff _ _ _ _).after h4
    · exact (State.report_eff _ _ _ _).after h2

theorem State.endRun_eff (s : State) (p : PickupId) :
    Eff [.objs, .pickups, .channels, .sides, .spindles, .axes, .host, .recorder] s (State.endRun s p) := by
  delta State.endRun
  refine Eff.start fun h0 => ?_
  extract_lets -merge -underBinder +onlyGivenNames y0
  try clear_value y0
  extract_lets -merge -underBinder +onlyGivenNames y1
  refine h0.named (x := y1) ?_ fun _ => ?_
  · subst y1
    refine Eff.ite ?_ ?_
    · assumption
    · refine Eff.after (State.setOb_eff _ _ _ _ _) ?_
      assumption
  clear_value y1
  extract_lets -merge -underBinder +onlyGivenNames y2
  refine h0.named (x := y2) ?_ fun _ => ?_
  · subst y2
    refine Eff.after (State.updS_eff _ _ _) ?_
    assumption
  clear_value y2
  refine Eff.after (State.readNext_eff _ _) ?_
  assumption

theorem State.inhibitGates_eff (s : State) (p : PickupId) (condition : Nat) :
    Eff [.objs, .channels, .sides, .host, .recorder] s (State.inhibitGates s p condition) := by
  delta State.inhibitGates
  refine Eff.start fun h0 => ?_
  extract_lets -merge -underBinder +onlyGivenNames y0
  try clear_value y0
  refine Eff.ite ?_ ?_
  · extract_lets -merge -underBinder +onlyGivenNames y1
    refine h0.named (x := y1) ?_ fun _ => ?_
    · subst y1
      refine Eff.after (State.report_eff _ _ _ _) ?_
      refine Eff.after (State.bump_eff _ _ _ _ _) ?_
      assumption
    clear_value y1
    refine Eff.after (State.interruptGates_eff _ _ _) ?_
    assumption
  · assumption

theorem State.rebuildChain_eff (s : State) (p : PickupId) (zone : Nat) (c : ChainCluster) : Eff [.sides] s (State.rebuildChain s p zone c) := by
  delta State.rebuildChain
  refine Eff.start fun h0 => ?_
  extract_lets -merge -underBinder +onlyGivenNames y0
  try clear_value y0
  refine Eff.ite ?_ ?_
  · assumption
  · extract_lets -merge -underBinder +onlyGivenNames y1 y2
    try clear_value y1 y2
    extract_lets -merge -underBinder +onlyGivenNames y3
    refine h0.named (x := y3) ?_ fun _ => ?_
    · subst y3
      refine Eff.after (State.updZone_eff _ _ _ _) ?_
      assumption
    clear_value y3
    refine Eff.ite ?_ ?_
    · refine Eff.after (State.setEntry_eff _ _ _ _ _) ?_
      assumption
    · assumption

theorem State.sealEntries_eff (s : State) (p : PickupId) (zone : Nat) : Eff [.sides] s (State.sealEntries s p zone) := by
  delta State.sealEntries
  refine Eff.start fun h0 => ?_
  refine Eff.forEach ?_ fun _ _ _ => ?_
  · assumption
  · extract_lets -merge -underBinder +onlyGivenNames y0 y1 y2
    try clear_value y0 y1 y2
    extract_lets -merge -underBinder +onlyGivenNames y3
    refine h0.named (x := y3) ?_ fun _ => ?_
    · subst y3
      refine Eff.after (State.setEntry_eff _ _ _ _ _) ?_
      assumption
    clear_value y3
    refine Eff.ite ?_ ?_
    · refine Eff.after (State.setEntry_eff _ _ _ _ _) ?_
      assumption
    · assumption

theorem State.recordCommitted_eff (s : State) (p : PickupId) (r : JournalRecord) :
    Eff [.objs, .sides, .recorder] s (State.recordCommitted s p r) := by
  delta State.recordCommitted
  refine Eff.start fun h0 => ?_
  split
  · extract_lets -merge -underBinder +onlyGivenNames y0
    refine h0.named (x := y0) ?_ fun _ => ?_
    · subst y0
      refine Eff.after (State.sealEntries_eff _ _ _) ?_
      assumption
    clear_value y0
    extract_lets -merge -underBinder +onlyGivenNames y1
    refine h0.named (x := y1) ?_ fun _ => ?_
    · subst y1
      refine Eff.after (State.updZone_eff _ _ _ _) ?_
      assumption
    clear_value y1
    refine Eff.after (State.push_eff _ _ _) ?_
    assumption
  · assumption

theorem State.refuseRun_eff (s : State) (p : PickupId) (r : Run) : Eff [.objs, .sides, .host, .recorder] s (State.refuseRun s p r) := by
  delta State.refuseRun
  refine Eff.start fun h0 => ?_
  extract_lets -merge -underBinder +onlyGivenNames y0
  try clear_value y0
  extract_lets -merge -underBinder +onlyGivenNames y1
  refine h0.named (x := y1) ?_ fun _ => ?_
  · subst y1
    refine Eff.forEach ?_ fun _ _ _ => ?_
    · assumption
    · refine Eff.after (State.report_eff _ _ _ _) ?_
      refine Eff.after (State.bump_eff _ _ _ _ _) ?_
      assumption
  clear_value y1
  split
  · extract_lets -merge -underBinder +onlyGivenNames y2
    refine h0.named (x := y2) ?_ fun _ => ?_
    · subst y2
      refine Eff.forEach ?_ fun _ _ _ => ?_
      · assumption
      · refine Eff.after (State.needSpare_eff _ _ _) ?_
        assumption
    clear_value y2
    extract_lets -merge -underBinder +onlyGivenNames y3
    try clear_value y3
    refine Eff.after (State.updS_eff _ _ _) ?_
    assumption
  · refine Eff.after (State.updS_eff _ _ _) ?_
    assumption
  · refine Eff.after (State.updS_eff _ _ _) ?_
    assumption
  · assumption

theorem State.zonesAtMount_eff (s : State) (p : PickupId) : Eff [.sides] s (State.zonesAtMount s p) := by
  delta State.zonesAtMount
  refine Eff.start fun h0 => ?_
  refine Eff.forEach ?_ fun _ _ _ => ?_
  · assumption
  · extract_lets -merge -underBinder +onlyGivenNames y0
    try clear_value y0
    refine Eff.ite ?_ ?_
    · assumption
    · refine Eff.ite ?_ ?_
      · refine Eff.after (State.sealEntries_eff _ _ _) ?_
        refine Eff.after (State.updZone_eff _ _ _ _) ?_
        assumption
      · extract_lets -merge -underBinder +onlyGivenNames y1
        try clear_value y1
        refine Eff.after (State.updZone_eff _ _ _ _) ?_
        assumption

theorem execGateInhibit_eff (p : PickupId) (s : State) : OutEff [.objs, .channels, .sides, .host, .recorder] s (execGateInhibit p s) := by
  delta execGateInhibit
  refine OutEff.start fun h0 => ?_
  refine State.when_effs ?_ (fun _ _ => ?_)
  · assumption
  · split
    · refine Eff.after (State.inhibitGates_eff _ _ _) ?_
      assumption
    · assumption

theorem execJournalPairCommit_eff (p : PickupId) (s : State) : OutEff [.objs, .sides, .host, .recorder] s (execJournalPairCommit p s) := by
  delta execJournalPairCommit
  refine OutEff.start fun h0 => ?_
  refine State.when_effs ?_ (fun _ _ => ?_)
  · assumption
  · split
    · assumption
    · refine Eff.ite ?_ ?_
      · assumption
      · extract_lets -merge -underBinder +onlyGivenNames y0
        refine h0.named (x := y0) ?_ fun _ => ?_
        · subst y0
          refine Eff.after (State.report_eff _ _ _ _) ?_
          assumption
        clear_value y0
        extract_lets -merge -underBinder +onlyGivenNames y1
        refine h0.named (x := y1) ?_ fun _ => ?_
        · subst y1
          refine Eff.after (State.updS_eff _ _ _) ?_
          assumption
        clear_value y1
        extract_lets -merge -underBinder +onlyGivenNames y2
        refine h0.named (x := y2) ?_ fun _ => ?_
        · subst y2
          refine Eff.forEach ?_ fun _ _ _ => ?_
          · assumption
          · refine Eff.after (State.recordCommitted_eff _ _ _) ?_
            assumption
        clear_value y2
        refine Eff.forEach ?_ fun _ _ _ => ?_
        · assumption
        · split
          · refine Eff.ite ?_ ?_
            · assumption
            · extract_lets -merge -underBinder +onlyGivenNames y3
              refine h0.named (x := y3) ?_ fun _ => ?_
              · subst y3
                refine Eff.after (State.updCmd_eff _ _ _) ?_
                assumption
              clear_value y3
              refine Eff.ite ?_ ?_
              · refine Eff.after (State.finishCmd_eff _ _ _) ?_
                assumption
              · assumption
          · assumption

theorem execJournalPairWrite_eff (p : PickupId) (s : State) : OutEff [.objs, .sides, .host, .recorder] s (execJournalPairWrite p s) := by
  delta execJournalPairWrite
  refine OutEff.start fun h0 => ?_
  refine State.when_effs ?_ (fun _ _ => ?_)
  · assumption
  · refine Eff.after (State.writePair_eff _ _) ?_
    assumption

theorem execMapBuild_eff (p : PickupId) (dcbBlank : List Bool) (dcbReads : List Bool) (discId : BitVec 128) (marks : List Nat) (records : List (List Nat)) (spares : List (Nat × Nat × Bool × Nat × Nat × Nat)) (tails : List (Nat × Nat × List Bool)) (highSerial : Nat) (s : State) :
    OutEff [.objs, .sides, .host, .recorder] s (execMapBuild p dcbBlank dcbReads discId marks records spares tails highSerial s) := by
  delta execMapBuild
  refine OutEff.start fun h0 => ?_
  extract_lets -merge -underBinder +onlyGivenNames y0
  try clear_value y0
  refine State.when_effs ?_ (fun _ _ => ?_)
  · assumption
  · extract_lets -merge -underBinder +onlyGivenNames y1
    refine h0.named (x := y1) ?_ fun _ => ?_
    · subst y1
      refine Eff.after (State.updS_eff _ _ _) ?_
      assumption
    clear_value y1
    split
    · rename_i heq
      have := Eff.after (b := [.objs, .sides, .host, .recorder]) (s0 := s) (State.controlAtMount_eff heq) (by
        assumption
        )
      refine Eff.ite ?_ ?_
      · refine Eff.after (State.updS_eff _ _ _) ?_
        assumption
      · extract_lets -merge -underBinder +onlyGivenNames y2
        refine h0.named (x := y2) ?_ fun _ => ?_
        · subst y2
          refine Eff.forEach ?_ fun _ _ _ => ?_
          · assumption
          · refine Eff.after (State.applyRecord_eff _ _ _) ?_
            assumption
        clear_value y2
        extract_lets -merge -underBinder +onlyGivenNames y3
        refine h0.named (x := y3) ?_ fun _ => ?_
        · subst y3
          refine Eff.forEach ?_ fun _ _ _ => ?_
          · assumption
          · refine Eff.after (State.applySpare_eff _ _ _) ?_
            assumption
        clear_value y3
        extract_lets -merge -underBinder +onlyGivenNames y4
        refine h0.named (x := y4) ?_ fun _ => ?_
        · subst y4
          refine Eff.forEach ?_ fun _ _ _ => ?_
          · assumption
          · refine Eff.after (State.applyTail_eff _ _ _) ?_
            assumption
        clear_value y4
        refine Eff.after (State.checkJournal_eff _ _) ?_
        refine Eff.after (State.zonesAtMount_eff _ _) ?_
        assumption

theorem execMapBuilt_eff (p : PickupId) (chains : List (Nat × List ChainCluster)) (s : State) :
    OutEff [.objs, .sides, .host, .recorder] s (execMapBuilt p chains s) := by
  delta execMapBuilt
  refine OutEff.start fun h0 => ?_
  refine State.when_effs ?_ (fun _ _ => ?_)
  · assumption
  · extract_lets -merge -underBinder +onlyGivenNames y0
    refine h0.named (x := y0) ?_ fun _ => ?_
    · subst y0
      refine Eff.forEach ?_ fun _ _ _ => ?_
      · assumption
      · refine Eff.ite ?_ ?_
        · refine Eff.forEach ?_ fun _ _ _ => ?_
          · assumption
          · refine Eff.after (State.rebuildChain_eff _ _ _ _) ?_
            assumption
        · assumption
    clear_value y0
    extract_lets -merge -underBinder +onlyGivenNames y1
    refine h0.named (x := y1) ?_ fun _ => ?_
    · subst y1
      refine Eff.forEach ?_ fun _ _ _ => ?_
      · assumption
      · refine Eff.ite ?_ ?_
        · refine Eff.after (State.updZone_eff _ _ _ _) ?_
          assumption
        · assumption
    clear_value y1
    extract_lets -merge -underBinder +onlyGivenNames y2 y3
    try clear_value y2 y3
    extract_lets -merge -underBinder +onlyGivenNames y4
    refine h0.named (x := y4) ?_ fun _ => ?_
    · subst y4
      refine Eff.after (State.updS_eff _ _ _) ?_
      assumption
    clear_value y4
    refine Eff.after (State.namespaceNotice_eff _ _) ?_
    refine Eff.after (State.report_eff _ _ _ _) ?_
    assumption

theorem execNotBlank_eff (p : PickupId) (s : State) : OutEff [.objs, .channels, .sides, .host, .recorder] s (execNotBlank p s) := by
  delta execNotBlank
  refine OutEff.start fun h0 => ?_
  extract_lets -merge -underBinder +onlyGivenNames y0
  try clear_value y0
  refine State.when_effs ?_ (fun _ _ => ?_)
  · assumption
  · split
    · assumption
    · split
      · assumption
      · extract_lets -merge -underBinder +onlyGivenNames y1
        refine h0.named (x := y1) ?_ fun _ => ?_
        · subst y1
          refine Eff.after (State.updS_eff _ _ _) ?_
          assumption
        clear_value y1
        extract_lets -merge -underBinder +onlyGivenNames y2
        refine h0.named (x := y2) ?_ fun _ => ?_
        · subst y2
          refine Eff.after (State.updRunCluster_eff _ _ _ _) ?_
          assumption
        clear_value y2
        extract_lets -merge -underBinder +onlyGivenNames y3
        refine h0.named (x := y3) ?_ fun _ => ?_
        · subst y3
          refine Eff.after (State.report_eff _ _ _ _) ?_
          refine Eff.after (State.bump_eff _ _ _ _ _) ?_
          assumption
        clear_value y3
        refine Eff.after (State.interruptGates_eff _ _ _) ?_
        refine Eff.after (State.clusterFails_eff _ _ _ _ _) ?_
        assumption

theorem execOpc_eff (p : PickupId) (pair : Fin 2) (errors : List (List Nat)) (s : State) :
    OutEff [.objs, .sides, .staging, .cal, .recorder] s (execOpc p pair errors s) := by
  delta execOpc
  refine OutEff.start fun h0 => ?_
  extract_lets -merge -underBinder +onlyGivenNames y0 y1
  try clear_value y0 y1
  refine State.when_effs ?_ (fun _ _ => ?_)
  · assumption
  · extract_lets -merge -underBinder +onlyGivenNames y2 y3 y4
    try clear_value y2 y3 y4
    extract_lets -merge -underBinder +onlyGivenNames y5
    refine h0.named (x := y5) ?_ fun _ => ?_
    · subst y5
      refine Eff.after (State.noteOpc_eff _ _ _) ?_
      assumption
    clear_value y5
    refine Eff.ite ?_ ?_
    · refine Eff.ite ?_ ?_
      · assumption
      · refine Eff.after (State.report_eff _ _ _ _) ?_
        refine Eff.after (State.updS_eff _ _ _) ?_
        assumption
    · extract_lets -merge -underBinder +onlyGivenNames y6
      try clear_value y6
      extract_lets -merge -underBinder +onlyGivenNames y7
      refine h0.named (x := y7) ?_ fun _ => ?_
      · subst y7
        refine Eff.after (State.reportOpc_eff _ _ _ _) ?_
        refine Eff.after (State.takeSegment_eff _ _ _) ?_
        assumption
      clear_value y7
      extract_lets -merge -underBinder +onlyGivenNames y8
      try clear_value y8
      refine Eff.after (State.placeInternal_eff _ _ _) ?_
      assumption

theorem execPowerMonitorRead_eff (g : BeamId) (monitorPeak : BitVec 16) (fault : BitVec 16) (s : State) :
    OutEff [.objs, .channels, .sides, .host, .recorder] s (execPowerMonitorRead g monitorPeak fault s) := by
  delta execPowerMonitorRead
  refine OutEff.start fun h0 => ?_
  extract_lets -merge -underBinder +onlyGivenNames y0
  try clear_value y0
  refine State.when_effs ?_ (fun _ _ => ?_)
  · assumption
  · extract_lets -merge -underBinder +onlyGivenNames y1 y2 y3 y4
    try clear_value y1 y2 y3 y4
    extract_lets -merge -underBinder +onlyGivenNames y5
    refine h0.named (x := y5) ?_ fun _ => ?_
    · subst y5
      refine Eff.after (State.updS_eff _ _ _) ?_
      assumption
    clear_value y5
    extract_lets -merge -underBinder +onlyGivenNames y6
    refine h0.named (x := y6) ?_ fun _ => ?_
    · subst y6
      refine Eff.ite ?_ ?_
      · refine Eff.after (State.report_eff _ _ _ _) ?_
        assumption
      · assumption
    clear_value y6
    refine Eff.ite ?_ ?_
    · refine Eff.after (State.inhibitGates_eff _ _ _) ?_
      assumption
    · assumption

theorem execRunArm_eff (p : PickupId) (s : State) :
    OutEff [.objs, .pickups, .channels, .sides, .spindles, .axes, .host, .recorder] s (execRunArm p s) := by
  delta execRunArm
  refine OutEff.start fun h0 => ?_
  refine State.when_effs ?_ (fun _ _ => ?_)
  · assumption
  · extract_lets -merge -underBinder +onlyGivenNames y0
    try clear_value y0
    split
    · extract_lets -merge -underBinder +onlyGivenNames y1
      try clear_value y1
      refine Eff.ite ?_ ?_
      · assumption
      · extract_lets -merge -underBinder +onlyGivenNames y2 y3
        refine h0.named (x := y3) ?_ fun _ => ?_
        · subst y3
          subst y2
          refine Eff.ite ?_ ?_
          · refine Eff.put ?_
            assumption
          · assumption
        clear_value y2 y3
        extract_lets -merge -underBinder +onlyGivenNames y4
        refine h0.named (x := y4) ?_ fun _ => ?_
        · subst y4
          refine Eff.after (State.updS_eff _ _ _) ?_
          assumption
        clear_value y4
        refine Eff.ite ?_ ?_
        · extract_lets -merge -underBinder +onlyGivenNames y5
          refine h0.named (x := y5) ?_ fun _ => ?_
          · subst y5
            refine Eff.after (State.armed_eff _ _ _) ?_
            assumption
          clear_value y5
          extract_lets -merge -underBinder +onlyGivenNames y6
          refine h0.named (x := y6) ?_ fun _ => ?_
          · subst y6
            refine Eff.after (State.updS_eff _ _ _) ?_
            assumption
          clear_value y6
          refine Eff.after (State.seekBefore_eff _ _ _ _ _) ?_
          assumption
        · refine Eff.after (State.refuseRun_eff _ _ _) ?_
          assumption
    · assumption

theorem execRunForm_eff (p : PickupId) (zone : Nat) (partialToo : Bool) (s : State) :
    OutEff [.objs, .sides, .host, .recorder] s (execRunForm p zone partialToo s) := by
  delta execRunForm
  refine OutEff.start fun h0 => ?_
  refine State.when_effs ?_ (fun _ _ => ?_)
  · assumption
  · extract_lets -merge -underBinder +onlyGivenNames y0 y1 y2 y3
    try clear_value y0 y1 y2 y3
    refine Eff.ite ?_ ?_
    · refine Eff.after (State.formRun_eff _ _ _ _) ?_
      assumption
    · refine Eff.after (State.formRunTo_eff _ _ _ _ _) ?_
      assumption

theorem execRunFormTimeout_eff (p : PickupId) (zone : Nat) (s : State) :
    OutEff [.objs, .sides, .host, .recorder] s (execRunFormTimeout p zone s) := by
  delta execRunFormTimeout
  refine OutEff.start fun h0 => ?_
  refine State.when_effs ?_ (fun _ _ => ?_)
  · assumption
  · extract_lets -merge -underBinder +onlyGivenNames y0
    try clear_value y0
    split
    · refine Eff.ite ?_ ?_
      · refine Eff.after (State.formRun_eff _ _ _ _) ?_
        assumption
      · assumption
    · assumption

theorem execSpareRun_eff (p : PickupId) (s : State) : OutEff [.objs, .sides, .host, .recorder] s (execSpareRun p s) := by
  delta execSpareRun
  refine OutEff.start fun h0 => ?_
  refine State.when_effs ?_ (fun _ _ => ?_)
  · assumption
  · refine Eff.after (State.spareRun_eff _ _) ?_
    assumption

theorem execWritePassEnd_eff (p : PickupId) (s : State) :
    OutEff [.objs, .pickups, .channels, .sides, .spindles, .axes, .host, .recorder] s (execWritePassEnd p s) := by
  delta execWritePassEnd
  refine OutEff.start fun h0 => ?_
  refine State.when_effs ?_ (fun _ _ => ?_)
  · assumption
  · extract_lets -merge -underBinder +onlyGivenNames y0
    try clear_value y0
    split
    · assumption
    · extract_lets -merge -underBinder +onlyGivenNames y1
      try clear_value y1
      refine Eff.ite ?_ ?_
      · assumption
      · refine Eff.ite ?_ ?_
        · extract_lets -merge -underBinder +onlyGivenNames y2
          refine h0.named (x := y2) ?_ fun _ => ?_
          · subst y2
            refine Eff.after (State.stopBeams_eff _ _) ?_
            assumption
          clear_value y2
          extract_lets -merge -underBinder +onlyGivenNames y3
          refine h0.named (x := y3) ?_ fun _ => ?_
          · subst y3
            refine Eff.after (State.updS_eff _ _ _) ?_
            assumption
          clear_value y3
          refine Eff.after (State.seekBefore_eff _ _ _ _ _) ?_
          assumption
        · refine Eff.ite ?_ ?_
          · assumption
          · extract_lets -merge -underBinder +onlyGivenNames y4
            refine h0.named (x := y4) ?_ fun _ => ?_
            · subst y4
              refine Eff.forEach ?_ fun _ _ _ => ?_
              · assumption
              · extract_lets -merge -underBinder +onlyGivenNames y5
                try clear_value y5
                refine Eff.after (State.verifyFails_eff _ _ _ _ _ _) ?_
                assumption
            clear_value y4
            refine Eff.after (State.endRun_eff _ _) ?_
            assumption

theorem execWritePassStart_eff (p : PickupId) (s : State) : OutEff [.objs, .channels, .sides, .host, .recorder] s (execWritePassStart p s) := by
  delta execWritePassStart
  refine OutEff.start fun h0 => ?_
  refine State.when_effs ?_ (fun _ _ => ?_)
  · assumption
  · extract_lets -merge -underBinder +onlyGivenNames y0 y1 y2
    try clear_value y0 y1 y2
    refine Eff.ite ?_ ?_
    · assumption
    · extract_lets -merge -underBinder +onlyGivenNames y3
      refine h0.named (x := y3) ?_ fun _ => ?_
      · subst y3
        refine Eff.after (State.updS_eff _ _ _) ?_
        assumption
      clear_value y3
      refine Eff.forEach ?_ fun _ _ _ => ?_
      · assumption
      · refine Eff.after (State.beamWriteStart_eff _ _) ?_
        assumption

theorem execZoneSeal_eff (p : PickupId) (zone : Nat) (s : State) : OutEff [.sides, .recorder, .verge] s (execZoneSeal p zone s) := by
  delta execZoneSeal
  refine OutEff.start fun h0 => ?_
  extract_lets -merge -underBinder +onlyGivenNames y0 y1 y2
  try clear_value y0 y1 y2
  refine State.when_effs ?_ (fun _ _ => ?_)
  · assumption
  · extract_lets -merge -underBinder +onlyGivenNames y3
    try clear_value y3
    extract_lets -merge -underBinder +onlyGivenNames y4
    refine h0.named (x := y4) ?_ fun _ => ?_
    · subst y4
      refine Eff.after (State.takeSeq_eff _ _) ?_
      assumption
    clear_value y4
    extract_lets -merge -underBinder +onlyGivenNames y5
    try clear_value y5
    refine Eff.after (State.formPair_eff _ _ _ _) ?_
    assumption

end Sys2Proof.Machine
end

