-- ==== Sys2Proof/WellFormed.lean ====
section
/-! DEFINITION. Which commands can reach the block: operands within the widths that the manual gives to what carries them. The meanings are
total and do not rest on this. -/

namespace Sys2Proof

/-- Values that a write can carry: at most 8 bytes, unsigned or two's complement (R364). -/
def valueFits (v : Int) : Bool := decide (-(2 ^ 63) ≤ v ∧ v < 2 ^ 64)

/-- A quadrant code: the front end gives 14 bits (R56). -/
def codeFits (c : Nat) : Bool := decide (c < 2 ^ 14)

/-- What a sampling edge delivers: quadrant codes, at most 63 pairs of 10-bit codes in the 625 ns at 100 MS/s, a wobble advance within a
revolution (R58), a 12-bit set-point code (R92). -/
def LoopInputs.wf (i : LoopInputs) : Bool :=
  codeFits i.qa && codeFits i.qb && codeFits i.qc && codeFits i.qd && decide (i.halves.length ≤ 63)
    && i.halves.all (fun h => decide (h.1 < 1024 ∧ h.2 < 1024)) && decide (i.wobbleAdvance < 73728 * 65536) && decide (i.xspAin < 4096)

/-- A Signpost header: each field within its bytes (R368). -/
def Request.wf (r : Request) : Bool :=
  decide (r.version < 2 ^ 8 ∧ r.service < 2 ^ 8 ∧ r.txid < 2 ^ 16 ∧ r.index < 2 ^ 16 ∧ r.sub < 2 ^ 8)
    && decide (r.flags < 2 ^ 8 ∧ r.offset < 2 ^ 32 ∧ r.length < 2 ^ 16 ∧ r.session < 2 ^ 16)

/-- A submission-queue entry: each field within its bits. -/
def Sqe.wf (e : Sqe) : Bool :=
  decide (e.opcode < 2 ^ 8 ∧ e.cid < 2 ^ 16 ∧ e.nsid < 2 ^ 32 ∧ e.slba < 2 ^ 64 ∧ e.nlb < 2 ^ 16)
    && decide (e.cdw10 < 2 ^ 32 ∧ e.cdw11 < 2 ^ 32 ∧ e.cdw12 < 2 ^ 32 ∧ e.cdw13 < 2 ^ 32)

/-- A frame on a CAN bus: 29 bits of identifier, 64 bytes (R379, R380). -/
def canFrameFits (identifier : Nat) (payload : List Byte) : Bool := decide (identifier < 2 ^ 29 ∧ payload.length ≤ 64)

/-- A 12-bit sample of a coil current (R293, R550). -/
def coilCode (c : Int) : Bool := decide (-2048 ≤ c ∧ c < 2048)

/-- Samples of the three phase currents: 12 bits each (R253). -/
def currentCodes (l : List Int) : Bool := decide (l.length = 3) && l.all fun c => decide (-2048 ≤ c ∧ c < 2048)

/-- A row of the shared SRAM: 16 banks of 1,024 rows and 16 spares (R411). -/
def rowFits (r : Nat × Nat) : Bool := decide (r.1 < 16 ∧ r.2 < 1040)

/-- A calibration item and its instance: items 1 to 11, item 11 of a spindle (R442). -/
def itemFits (item : Fin 12) (inst : Fin 8) : Bool := decide (1 ≤ item.val ∧ (item.val = 11 → inst.val < 4))

/-- Whether measurements are those of an item, in the numbers that R443 gives. -/
def rawFits (item : Fin 12) : CalRaw → Bool
  | .passages pp _ _ _ => item == 1 && pp != []
  | .sweep l => item == 2 && l != []
  | .amplitudes l => item == 3 && decide (l.length = 4) && l.all fun x => decide (x.length = 9)
  | .errors l => (item == 4 && decide (l.length = 9)) || (item == 5 && decide (l.length = 7))
  | .shifts _ _ => item == 6
  | .responses a b => item == 7 && decide (a.length = 64 ∧ b.length = 64)
  | .lags l => item == 8 && decide (l.length = 4) && l.all fun x => decide (x.length = 64)
  | .opc a b => item == 9 && decide (a.length = 2 ∧ b.length = 2) && (a ++ b).all fun x => decide (x.length = 8)
  | .skew l => item == 10 && l.all fun x => decide (0 < x.1)
  | .torques l => item == 11 && decide (l.length = 16)

/-- Whether a command's operands fit what carries them. -/
def Instr.wf : Instr → Bool
  | .loopSample _ i => i.wf
  | .agcUpdate _ l => decide (l.length = 16) && l.all fun x => decide (-128 ≤ x ∧ x ≤ 127)
  | .clusterDecodeStart _ _ q => decide (q < 282920)
  | .outerDecodeDone _ _ q => decide (q < 282920)
  | .runForm _ z _ => decide (z < 268)
  | .runFormTimeout _ z => decide (z < 268)
  | .zoneSeal _ z => decide (z < 268)
  | .opc _ _ errors => decide (errors.length = 2) && errors.all fun e => decide (e.length = 8)
  | .commandFetch _ _ e _ => e.wf
  | .doorbellWrite _ q _ v => decide (q < 4096 ∧ v < 2 ^ 32)
  | .signpostRead _ r => r.wf
  | .signpostWrite _ r => r.wf
  | .readStart _ r => r.wf
  | .readSegment _ r => r.wf
  | .writeStart _ r => r.wf
  | .writeSegment _ r => r.wf
  | .writeEnd _ r => r.wf
  | .sessionClose _ r => r.wf
  | .enumerate _ r => r.wf
  | .objectWrite _ index sub v _ => decide (index < 2 ^ 16 ∧ sub < 2 ^ 8) && valueFits v
  | .canFrame _ id _ b => canFrameFits id b
  | .udpDatagram a p d v6 _ b => decide (p < 2 ^ 16 ∧ d < 2 ^ 16 ∧ a < (if v6 then 2 ^ 128 else 2 ^ 32) ∧ b.length ≤ 65507)
  | .arpRequest mac a => decide (mac < 2 ^ 48 ∧ a < 2 ^ 32)
  | .commSettingsChange index => decide (0x1100 ≤ index ∧ index ≤ 0x1180)
  | .calItemStart item inst => itemFits item inst
  | .calStep item inst => itemFits item inst
  | .calRunEnd item inst raw => itemFits item inst && rawFits item raw
  | .calRetry item inst => itemFits item inst
  | .calDeferred item inst => itemFits item inst
  | .ledgerPoint code _ currents => decide (1 ≤ code ∧ code ≤ 11 ∧ currents.1 < 2 ^ 16 ∧ currents.2 < 2 ^ 16)
  | .startup _ rows trips => rows.all rowFits && decide (trips.length = 256)
  | .ringOscMeasurement l => decide (l.length = 48)
  | .dieTemperatureSample v => decide (-32768 < v ∧ v < 32768)
  | .pwmPeriod _ currents voltages _ => currentCodes currents && decide (voltages.length = 3) && voltages.all fun v => decide (v < 4096)
  | .dtcEvaluation _ currents => currentCodes currents
  | .profilePeriod _ _ coils vm _ =>
    decide (coils.length = 4 ∧ vm < 4096) && coils.all fun c => coilCode c.1 && coilCode c.2
  | .axisOvercurrent _ code => coilCode code
  | .vbusSample _ code => decide (code < 4096)
  | .supplyFail level _ => decide (level ≤ 1800)
  | .shockTrip level _ => decide (level ≤ 1800)
  | .cartridgeDoorTrip level _ => decide (level ≤ 1800)
  | .comparatorClear _ level _ => decide (level ≤ 1800)
  | .linkUp _ rate width => decide (rate < 256 ∧ width < 256)
  | _ => true

end Sys2Proof
end

