-- ==== Sys2Proof/Tests/Slice0.lean ====
section
/-! SUPPORT. The model's own tests: ill-formed commands that `Instr.wf` refuses, values that the manual gives, and for every statement of
Obligations.lean that has hypotheses a state and operands that meet them together, clause by clause. -/

set_option Elab.async false

open Sys2Proof Sys2Proof.Machine

namespace Sys2Proof.Tests

/-! ### States -/

/-- A powered chip whose islands run, with every object at its default. -/
def live : State :=
  { State.reset with verge := { powered := true }, power := { phase := .running, quietLocked := true, systemLocked := true } }

/-- Plain inputs of a sampling edge. -/
def ins : LoopInputs :=
  { qa := 0, qb := 0, qc := 0, qd := 0, halves := [], wobbleAdvance := 1, wobbleDetected := true, xspAin := 0, lateMask := 0, mapLate := 0 }

/-- A submission-queue entry with the given opcode, namespace and two of its dwords. -/
def entry (op nsid cdw10 cdw13 : Nat) : Sqe :=
  { opcode := op, cid := 0, nsid := nsid, slba := 0, nlb := 0, limitedRetry := false, fua := false, sgl := .prp,
    dataLength := 0, reservedZero := true, cdw10 := cdw10, cdw11 := 0, cdw12 := 0, cdw13 := cdw13, blocks := [], bytes := [],
    wellSigned := false }

/-- A fetched command in a stage. -/
def inFlight (q : Nat) (e : Sqe) (st : CmdStage) : Cmd :=
  { ref := ⟨0, q, 0⟩, sqe := e, cls := 0, fetchOrder := 0,
    dispatchOrder := 0, stage := st, result := none, dw0 := 0, dw1 := 0, tollgate := none,
    lba := 0, committed := true,
    dataIn := false, dataOut := [], covers := [], clustersLeft := 0, signpost := [] }

/-- The running chip with one command in flight. -/
def queued (q : Nat) (e : Sqe) (st : CmdStage) : State := { live with host := { live.host with cmds := [inFlight q e st] } }

/-- A Signpost request of a service, with every other field 0. -/
def req (n : Nat) : Request :=
  { version := 1, service := n, txid := 0, index := 0, sub := 0, flags := 0, offset := 0, length := 0, session := 0,
    data := [],
    wellSigned := false }

/-- The running chip with its CAN port on. -/
def canLive : State := live.updCan 0 fun x => { x with state := 1 }

/-- The running chip with Ethernet on and its link up. -/
def ethLive : State := (((live.setOb Obj.ethEnable 0 0 1).setOb Obj.ipv4Address 0 0 0x0A000001).setOb Obj.ipv6Enable 0 0 1).updEth fun x => { x with link := 3 }

/-- The running chip with the recorder running. -/
def recording : State := live.updR fun r => { r with running := true }

/-- The running chip with a nonce given to the first NVMe client. -/
def trusted : State := live.updClient (.nvme 0) fun c => { c with nonce := some (0, 0) }

/-- A disc without measured back-EMF is below the floor of R256. -/
theorem belowFloor_of {s : State} {i : SpindleId}
    (h : 1000 * (s.spindles[i]).amplitude < (2 * piDigits * s.ob Obj.polePairs i * 30000 * s.ob Obj.fluxLinkage i) / ((60000 * 10 ^ 30 : Nat) : Int)) :
    s.belowFloor i = true := decide_eq_true (lt_of_lt_of_le h (le_rnd _ _))

/-- The running chip with a pickup in defect hold. -/
def holding : State := live.updP 0 fun k => { k with engine := .defectHold, holdPending := Hold.sumDropout }
/-- The running chip with one command waiting. -/
def waiting : State := { live with pending := [.watchdog] }
/-- The running chip with split writes enabled. -/
def splitting : State := live.setOb Obj.splitWriteEnable 0 0 1
/-- The running chip with the run of one calibration item behind `voids` void runs. -/
def measuring (voids : Nat) : State :=
  { live with cal := { live.cal with items := upd live.cal.items 88 fun x => { x with state := .running, steps := 1, voids := voids, disturbance := 1 } } }
/-- The running chip with a full report queue of the core. -/
def flooded : State :=
  live.updR fun r => { r with queues := upd r.queues Isl.core fun q =>
    { q with reports := List.replicate 512 { code := 0, payload := [], reserved := none, errorEntry := none } } }

/-! ### Ill-formed commands are refused by the check -/

theorem test_wf_servo_and_channel :
    Instr.wf (.loopSample 0 ins) = true ∧ Instr.wf (.loopSample 0 { ins with qa := 16384 }) = false ∧
    Instr.wf (.loopSample 0 { ins with qb := 16384 }) = false ∧ Instr.wf (.loopSample 0 { ins with qc := 16384 }) = false ∧
    Instr.wf (.loopSample 0 { ins with qd := 16384 }) = false ∧ Instr.wf (.loopSample 0 { ins with wobbleAdvance := 73728 * 65536 }) = false ∧
    Instr.wf (.loopSample 0 { ins with halves := [(1024, 0)] }) = false ∧ Instr.wf (.loopSample 0 { ins with halves := List.replicate 64 (0, 0) }) = false ∧
    Instr.wf (.loopSample 0 { ins with xspAin := 4096 }) = false ∧ Instr.wf (.agcUpdate 0 [0]) = false ∧
    Instr.wf (.agcUpdate 0 (List.replicate 16 128)) = false := by decide

theorem test_wf_places :
    Instr.wf (.clusterDecodeStart 0 0 282919) = true ∧ Instr.wf (.clusterDecodeStart 0 0 282920) = false ∧
    Instr.wf (.outerDecodeDone 0 0 282920) = false ∧ Instr.wf (.opc 0 0 [[]]) = false ∧ Instr.wf (.opc 0 0 [[], []]) = false ∧
    Instr.wf (.runForm 0 268 false) = false ∧ Instr.wf (.runFormTimeout 0 268) = false ∧ Instr.wf (.zoneSeal 0 268) = false := by decide

theorem test_wf_host :
    Instr.wf (.commandFetch 0 0 (entry 256 0 0 0) 0) = false ∧ Instr.wf (.commandFetch 0 0 (entry 0 (2 ^ 32) 0 0) 0) = false ∧
    Instr.wf (.commandFetch 0 0 (entry 0 0 (2 ^ 32) 0) 0) = false ∧ Instr.wf (.commandFetch 0 0 (entry 0 0 0 (2 ^ 32)) 0) = false ∧
    Instr.wf (.doorbellWrite 0 4096 false 0) = false ∧ Instr.wf (.doorbellWrite 0 0 false (2 ^ 32)) = false ∧
    Instr.wf (.signpostRead (.nvme 0) { req 1 with sub := 256 }) = false ∧ Instr.wf (.signpostWrite (.nvme 0) (req 256)) = false ∧
    Instr.wf (.readStart (.nvme 0) { req 3 with offset := 2 ^ 32 }) = false ∧ Instr.wf (.readSegment (.nvme 0) (req 256)) = false ∧
    Instr.wf (.writeStart (.nvme 0) (req 256)) = false ∧ Instr.wf (.writeSegment (.nvme 0) (req 256)) = false ∧
    Instr.wf (.writeEnd (.nvme 0) (req 256)) = false ∧ Instr.wf (.sessionClose (.nvme 0) (req 256)) = false ∧
    Instr.wf (.enumerate (.nvme 0) (req 256)) = false ∧ Instr.wf (.objectWrite (.nvme 0) (2 ^ 16) 0 0 none) = false ∧
    Instr.wf (.objectWrite (.nvme 0) 0 256 0 none) = false ∧ Instr.wf (.objectWrite (.nvme 0) 0 0 (2 ^ 64) none) = false ∧
    Instr.wf (.linkUp 0 256 0) = false := by decide

theorem test_wf_carriers :
    Instr.wf (.canFrame 0 (2 ^ 29) false []) = false ∧ Instr.wf (.canFrame 0 0 false (List.replicate 65 0)) = false ∧
    Instr.wf (.udpDatagram (2 ^ 32) 0 0 false false []) = false ∧ Instr.wf (.udpDatagram (2 ^ 128 - 1) 0 0 true false []) = true ∧
    Instr.wf (.udpDatagram 0 (2 ^ 16) 0 true false []) = false ∧ Instr.wf (.arpRequest (2 ^ 48) 0) = false ∧
    Instr.wf (.arpRequest 0 (2 ^ 32)) = false ∧ Instr.wf (.commSettingsChange 0x1181) = false := by decide

theorem test_wf_services :
    Instr.wf (.calItemStart 0 0) = false ∧ Instr.wf (.calStep 11 4) = false ∧ Instr.wf (.calRunEnd 11 0 (.torques [])) = false ∧
    Instr.wf (.calRunEnd 1 0 (.shifts 0 0)) = false ∧
    Instr.wf (.calRetry 0 0) = false ∧ Instr.wf (.calDeferred 0 0) = false ∧ Instr.wf (.ledgerPoint 12 0 (0, 0)) = false ∧
    Instr.wf (.startup 0 [(16, 0)] (List.replicate 256 0)) = false ∧ Instr.wf (.startup 0 [] []) = false ∧
    Instr.wf (.ringOscMeasurement []) = false ∧ Instr.wf (.dieTemperatureSample 32768) = false ∧ Instr.wf (.vbusSample 0 4096) = false ∧
    Instr.wf (.pwmPeriod 0 [0, 0] [0, 0, 0] true) = false ∧ Instr.wf (.pwmPeriod 0 [0, 0, 0] [0, 0, 4096] true) = false ∧
    Instr.wf (.dtcEvaluation 0 [0, 0, 2048]) = false ∧ Instr.wf (.profilePeriod 0 0 [] 0 true) = false ∧
    Instr.wf (.axisOvercurrent 0 2048) = false := by decide

/-! ### Values that the manual gives -/

/-- No row of the table has bits, so no word spells a command (log entry 6). -/
theorem test_no_word_spells_a_command : Sys2Proof.decodeTableWord 8 1 = none := rfl

/-- R414, step 3: bit 17 inverted reads as CorrectedData with syndrome 0x32. -/
theorem test_split_one_bit :
    (flipBit (Cell.mk 0x0123456789ABCDEF (checkBits 0x0123456789ABCDEF 0x1FFF85)) 17).syndrome 0x1FFF85 = 0x32 ∧
    classify 0x32 = .correctedData 17 := by decide

/-- R414, step 4: bits 17 and 40 inverted read as Uncorrectable with syndrome 0xBE. -/
theorem test_split_two_bits :
    (flipBit (flipBit (Cell.mk 0x0123456789ABCDEF (checkBits 0x0123456789ABCDEF 0x1FFF85)) 17) 40).syndrome 0x1FFF85 = 0xBE ∧
    classify 0xBE = .uncorrectable := by decide

/-- R414, step 5: a check bit inverted reads as CorrectedCheck with syndrome 0x10. -/
theorem test_split_check_bit : classify 0x10 = .correctedCheck ∧ classify 0xFF = .poisoned := by decide

/-- R48: the first and last zones of the layers. -/
theorem test_zone_layers : [0, 66, 67, 133, 134, 200, 201, 267].map zoneLayer = [0, 0, 1, 1, 2, 2, 3, 3] := by decide

/-! ### Hypotheses of the statements about rules -/

theorem wit_StepRunsTheFrontCommand : ∃ (c : Instr) (rest : List Instr) (s : State), s.pending = c :: rest :=
  ⟨.watchdog, [], waiting, rfl⟩

theorem wit_EmptyQueueLetsOnePeriodPass : ∃ s : State, s.pending = [] := ⟨live, rfl⟩

/-- For StepConsumesExactlyTheFront and FusesOnlyBlow. -/
theorem wit_step : ∃ s t : State, s.pending ≠ [] ∧ step s = .next t := ⟨waiting, _, by decide, rfl⟩

theorem wit_OnlyMissingWordsFault :
    ∃ (memory place : Nat) (s : State) (f : Fault), placeExists memory place = false ∧ exec (.correctedRead memory place 0 false) s = .fault f :=
  ⟨0, 8 * sramWords, live, .noSuchAddress 0 (8 * sramWords), by decide, rfl⟩

theorem wit_EveryStepKeepsEveryForm : ∃ s t : State, s.Forms ∧ step s = .next t := by
  refine ⟨waiting, _, ⟨by constructor <;> rfl, ⟨rfl, rfl, by intro e h; cases h⟩, ⟨by decide, by decide⟩, Nat.le_refl _, ?_⟩, rfl⟩
  intro k
  fin_cases k <;> (unfold Ramp.Ok; decide)

theorem wit_CommandsChangeOnlyTheirParts : ∃ (c : Instr) (s t : State), mayChange c ≠ [] ∧ exec c s = .next t :=
  ⟨.defectHoldEntered 0, live, _, by decide, rfl⟩

set_option maxRecDepth 20000 in
theorem wit_FirmwareKeyRevocation :
    (∃ (cl : Client) (k : Nat) (verdict : Option Bool) (s : State), s.Takes cl Obj.firmwareKeyRevoke 0 0 k ∧
      (s.authorise cl (Obj.firmwareKeyRevoke.key 0 0) (leBytes Obj.firmwareKeyRevoke.type.size k) verdict).2 = none ∧
      ((s.slot? s.power.activeSlot).any fun m => m.keyIndex == k) = false ∧ s.otp.keyRevoked ||| BitVec.ofNat 4 (2 ^ k) ≠ 15#4) ∧
    (∃ (cl : Client) (k : Nat) (verdict : Option Bool) (s : State), s.Takes cl Obj.firmwareKeyRevoke 0 0 k ∧
      (s.authorise cl (Obj.firmwareKeyRevoke.key 0 0) (leBytes Obj.firmwareKeyRevoke.type.size k) verdict).2 = none ∧
      (((s.slot? s.power.activeSlot).any fun m => m.keyIndex == k) = true ∨ s.otp.keyRevoked ||| BitVec.ofNat 4 (2 ^ k) = 15#4)) ∧
    (∃ (s t : State) (k : Nat), step s = .next t ∧ s.otp.keyRevoked.getLsbD k = true) :=
  ⟨⟨.nvme 0, 3, some true, trusted, ⟨by decide, by decide, by decide, by decide⟩, by decide, by decide, by decide⟩,
    ⟨.nvme 0, 3, some true, { trusted with otp := { trusted.otp with keyRevoked := 7 } },
      ⟨by decide, by decide, by decide, by decide⟩, by decide, .inr (by decide)⟩,
    ⟨{ waiting with otp := { waiting.otp with keyRevoked := 8 } }, _, 3, rfl, by decide⟩⟩

theorem wit_ZonesLieOnOneLayer :
    (∃ z : Nat, z + 1 = zoneCount) ∧ (∃ z c z' c' : Nat, c + 1 = zoneClusters ∧ c' < zoneClusters ∧ zoneLayer z = zoneLayer z' ∧
      homeQ z c = homeQ z' c') :=
  ⟨⟨267, by decide⟩, ⟨267, zoneClusters - 1, 267, zoneClusters - 1, by decide, by decide, rfl, rfl⟩⟩

theorem wit_SledEncoderHasNoEffectInQ : ∃ (a : AxisId) (s : State), a.isSled = true ∧ s.otp.variant = .q := ⟨7, live, by decide, rfl⟩

theorem wit_InstancesAreIndependent :
    (∃ s t : State, exec (.lockLost 31) s = .next t) ∧ (∃ s t : State, exec (.vbusLow 3) s = .next t) ∧
    (∃ s t : State, exec (.homingEnd 15) s = .next t) ∧ (∃ s t : State, exec (.focusSettle 7) s = .next t) :=
  ⟨⟨live, _, rfl⟩, ⟨live, _, rfl⟩, ⟨live, _, rfl⟩, ⟨live, _, rfl⟩⟩

theorem wit_ObjectStoreReadsBack : ∃ s : State, s.ObjectsOk := ⟨live, rfl, rfl⟩

set_option maxRecDepth 20000 in
theorem wit_ObjectWriteChecksInOrder :
    (∃ s : State, s.coreUp = false) ∧
    (∃ (s : State) (cl : Client) (r : Row), s.coreUp = true ∧ s.carrierMayWrite cl (r.key 0 0) = false) ∧
    (∃ (s : State) (cl : Client) (r : Row) (v : Int), s.coreUp = true ∧ s.carrierMayWrite cl (r.key 0 0) = true ∧
      (r.type.holds v && r.range.admits v) = false) ∧
    (∃ (s : State) (cl : Client) (r : Row) (v : Int), s.Takes cl r 0 0 v) :=
  ⟨⟨State.reset, by decide⟩, ⟨live.setOb Obj.carrierWriteMask 0 0 0, .nvme 0, Obj.splitCommand, by decide, by decide⟩,
    ⟨live, .nvme 0, Obj.splitCommand, -1, by decide, by decide, by decide⟩,
    ⟨live, .nvme 0, Obj.splitCommand, 1, by decide, by decide, by decide, by decide⟩⟩

set_option maxRecDepth 20000 in
theorem wit_CarrierWriteMaskDecides :
    (∃ (cl : Client) (b : Nat), cl.carrierBit = some b) ∧
    (∃ (s : State) (cl : Client) (r : Row) (b : Nat), s.coreUp = true ∧ cl.carrierBit = some b ∧
      (s.obN Obj.carrierWriteMask).testBit b = false ∧ r.key 0 0 ≠ Obj.carrierWriteMask.key 0 0) :=
  ⟨⟨.nvme 0, 3, rfl⟩, ⟨live.setOb Obj.carrierWriteMask 0 0 0, .nvme 0, Obj.splitCommand, 3, by decide, rfl, by decide, by decide⟩⟩

set_option maxRecDepth 20000 in
theorem wit_HoldCausesAccumulate :
    ∃ (p : PickupId) (s : State), s.svUp p = true ∧ (s.pickups[p]).engine = .defectHold ∧ (s.pickups[p]).seq ≠ .park ∧
      (s.pickups[p]).holdPending ≠ 0 ∧ hasAny (s.pickups[p]).holdPending Hold.aborting = false :=
  ⟨0, holding, by decide, by decide, by decide, by decide, by decide⟩

theorem wit_OneLoopFaultPerRun :
    (∃ (p : PickupId) (l : ServoLoop) (s : State), (s.pickups[p]).loops[l.idx].faultRaised = true) ∧
    (∃ (p : PickupId) (l : ServoLoop) (s : State), (s.pickups[p]).loops[l.idx].lateRun = 2) ∧ (∃ l : ServoLoop, l = .sledOuter) :=
  ⟨⟨0, .focus, live.updLoop 0 .focus fun v => { v with lateRun := 3, faultRaised := true }, by decide⟩,
    ⟨0, .focus, live.updLoop 0 .focus fun v => { v with lateRun := 2 }, by decide⟩, ⟨.sledOuter, rfl⟩⟩

set_option maxRecDepth 20000 in
theorem wit_LawMissLimitEndsFollowing :
    (∃ (p : PickupId) (s : State), s.svUp p = true ∧ (s.pickups[p]).engine = .following ∧
      s.obN Obj.lawMissLimit p = (s.pickups[p]).lawDiscardRun) ∧
    (∃ (p : PickupId) (s : State), s.svUp p = true ∧ (s.pickups[p]).engine = .following ∧
      (s.pickups[p]).lawDiscardRun + 1 = s.obN Obj.lawMissLimit p) :=
  ⟨⟨0, live.updP 0 fun k => { k with engine := .following, lawDiscardRun := 16 }, by decide, by decide, by decide⟩,
    ⟨0, live.updP 0 fun k => { k with engine := .following, lawDiscardRun := 15 }, by decide, by decide, by decide⟩⟩

set_option maxRecDepth 20000 in
theorem wit_LawWithOneWrongBitIsDiscarded : ∃ w : BitVec 32, lawGood w = true := ⟨7, by decide⟩

theorem wit_CheckerCorrectsOneAndSeesTwo : ∃ i j : Fin 72, i ≠ j := ⟨0, 71, by decide⟩

theorem wit_MemoryStoreReadsBack : ∃ (m : Mem) (ddr ddr' : Bool) (word word' : Nat), m.wf ∧ (ddr', word') ≠ (ddr, word) :=
  ⟨live.mem, false, true, 0, 0, ⟨rfl, rfl, by intro e h; cases h⟩, by decide⟩

set_option maxRecDepth 20000 in
theorem wit_SplitWritesStoreOneWord :
    ∃ (cl : Client) (s : State), s.mem.wf ∧ s.ObjectsOk ∧ s.ob Obj.splitWriteEnable = 1 ∧ s.Takes cl Obj.splitCommand 0 0 1 ∧
      s.Takes cl Obj.splitCommand 0 0 2 ∧ s.Takes cl Obj.splitCommand 0 0 3 :=
  ⟨.nvme 0, splitting, ⟨rfl, rfl, by intro e h; cases h⟩, ⟨rfl, rfl⟩, by decide, ⟨by decide, by decide, by decide, by decide⟩,
    ⟨by decide, by decide, by decide, by decide⟩, ⟨by decide, by decide, by decide, by decide⟩⟩

set_option maxRecDepth 20000 in
theorem wit_ThirdVoidRunFails :
    ∀ voids : Nat, voids = 1 ∨ voids = 2 → ∃ (item : Fin 12) (inst : Fin 8) (ix : Fin 92), itemIx item inst = some ix ∧
      (measuring voids).coreUp = true ∧ ((measuring voids).cal.items[ix]).state = .running ∧
      0 < ((measuring voids).cal.items[ix]).steps ∧ (measuring voids).disturbance item.val inst.val ≠ ((measuring voids).cal.items[ix]).disturbance ∧
      ((measuring voids).cal.items[ix]).voids = voids := by
  rintro voids (rfl | rfl) <;> exact ⟨11, 0, 88, by decide, by decide, by decide, by decide, by decide, by decide⟩

set_option maxRecDepth 20000 in
theorem wit_FullReportQueueLosesAndCounts :
    (∃ (s : State) (i : IslandId), (s.recorder.queues[i]).reports.length < 512) ∧
    (∃ (s : State) (i : IslandId), (s.recorder.queues[i]).reports.length = 512) :=
  ⟨⟨live, Isl.core, by decide⟩, ⟨flooded, Isl.core, by decide⟩⟩

set_option maxRecDepth 20000 in
theorem wit_MilestoneDuringCaptureLatchesNothing :
    ∃ s : State, s.svUp 0 = true ∧ s.milestone.pendingSources ≠ 0 ∧ s.milestone.state ≠ .idle :=
  ⟨{ live with milestone := { live.milestone with state := .held, pendingSources := 1 } }, by decide, by decide, by decide⟩

set_option maxRecDepth 20000 in
theorem wit_WakeRaisesTheSupplyRequest :
    ∃ (cause : Fin 6) (s : State), cause = 3 ∧ s.power.phase = .ps3 ∧ (∀ k : Fin 4, k.val = cause.val →
      s.ob Obj.compWakeEnable k.val = 1 ∧ (s.verge.comps[k]).tripped = decide (k.val < 3)) :=
  ⟨3, { live with power := { live.power with phase := .ps3 } }.setOb Obj.compWakeEnable 3 0 1, rfl, by decide, by decide⟩

theorem wit_IslandsDownIgnoreTheirCommands :
    ∃ s : State, s.svUp 0 = false ∧ s.chUp 0 = false ∧ s.mtUp 0 = false ∧ s.axisUp 0 = false ∧ s.memUp = false ∧ s.coreUp = false :=
  ⟨State.reset, by decide, by decide, by decide, by decide, by decide, by decide⟩

/-! ### Hypotheses of the statements about codes, pulses, gates and queues -/

/-- For EveryCodewordMeetsEveryCheck and DecodeEndsByItsSyndrome. -/
theorem wit_codes : (∃ row x : Nat, row + 1 = 4 ∧ x + 1 = lifting) ∧ (∃ limit : Nat, 1 ≤ limit) := ⟨⟨3, 511, rfl, rfl⟩, 1, by decide⟩

/-- A mark at the end of a frame and one before another space. -/
theorem wit_WritePulsesFollowTheStrategy :
    (∃ (before after : List Bool) (s n : Nat), 1 ≤ s ∧ 1 ≤ n ∧ before.getLast? ≠ some false ∧ after.head? ≠ some true) ∧
    framePulses { topStart := [], endShift := [0, 5], coolLength := [0, 64] } [false, false, true, true, true, false, false, true, true] =
      [⟨64, 133, 197⟩, ⟨224, 256, 256⟩] :=
  ⟨⟨[true], [false], 2, 3, by decide, by decide, by decide, by decide⟩, by decide⟩

theorem wit_GatesOfAPhaseAreNeverOnTogether : ∃ (l : Leg) (dead : Int), 0 ≤ dead ∧ ∀ t, l.level t ≠ (true, true) :=
  ⟨{}, 100, by decide, fun _ => by simp [Leg.level]⟩

/-- A controller under the weighted arbitration with entries in the queues given. -/
def arbitrating (weighted : Bool) (queues : List (Nat × Nat)) : Controller :=
  { (live.host.ctrls[0]) with
    weighted := weighted
    sqs := queues.map fun q => { id := q.1, cq := 0, size := 8, prio := q.2, head := 0, tail := 1, deleting := none } }

theorem wit_AdminAndUrgentQueuesComeFirst :
    (∃ x : Controller, x.weighted = true ∧ (x.sqs.any fun q => q.id == 0 && q.waits) = true) ∧
    (∃ x : Controller, x.weighted = true ∧ (x.sqs.any fun q => q.id == 0 && q.waits) = false ∧ x.inGroup 1 ≠ []) ∧
    (∃ x : Controller, x.weighted = true ∧ (x.sqs.any fun q => q.id == 0 && q.waits) = false ∧ x.inGroup 1 = [] ∧
      ∃ g, g ∈ [2, 3, 4] ∧ x.inGroup g ≠ []) ∧
    (∃ x : Controller, x.weighted = false ∧ x.inGroup 0 ≠ []) :=
  ⟨⟨arbitrating true [(0, 0), (1, 0)], by decide, by decide⟩, ⟨arbitrating true [(1, 0), (2, 3)], by decide, by decide, by decide⟩,
    ⟨arbitrating true [(2, 3)], by decide, by decide, by decide, 4, by decide, by decide⟩, ⟨arbitrating false [(1, 2)], by decide, by decide⟩⟩

theorem wit_SizesOfTheBlock : (∃ x : Controller, x.features = []) ∧ (∃ z c : Nat, z + 1 = zoneCount ∧ c + 1 = zoneClusters) :=
  ⟨⟨live.host.ctrls[0], by decide⟩, 267, 4095, by decide, by decide⟩

/-! ### Hypotheses of the completion statements, clause by clause -/

set_option linter.unusedVariables false

set_option maxRecDepth 20000 in
/-- Hypotheses of `ServoLoopCommandsComplete`. -/
theorem wit_ServoLoop :
    (∃ (p : PickupId) (i : LoopInputs) (s : State), s.svUp p = true) ∧
    (∃ (p : PickupId) (l : ServoLoop) (s : State), s.svUp p = true ∧ 1024 ≤ (s.pickups[p]).loops[l.idx].saturatedRun) ∧
    (∃ (p : PickupId) (l : ServoLoop) (s : State),
      s.svUp p = true ∧ ((l == .tracking || l == .focus)) = true ∧ 3 ≤ (s.pickups[p]).loops[l.idx].lateRun ∧
      (s.pickups[p]).loops[l.idx].faultRaised = false) ∧
    (∃ (p : PickupId) (s : State), s.svUp p = true) ∧
    (∃ (cl : Client) (p : PickupId) (v : Int) (s : State), s.svUp p = true ∧ s.Takes cl Obj.defectHoldRequest p 0 v) ∧
    (∃ (cl : Client) (p : PickupId) (v : Int) (s : State), s.svUp p = true ∧ s.Takes cl Obj.holdRelease p 0 v) ∧
    (∃ (p : PickupId) (s : State),
      s.svUp p = true ∧ s.pickups[p].engine = .defectHold ∧ s.obN Obj.holdExitCount p ≤ s.pickups[p].exitRun) ∧
    (∃ (p : PickupId) (s : State),
      s.svUp p = true ∧ s.pickups[p].engine = .defectHold ∧
      hasAny s.pickups[p].holdCause (Hold.hostRequest ||| Hold.spindleObserverLoss) = false ∧
      usTicks (s.obN Obj.holdTimeout p) ≤ s.time - s.pickups[p].holdEnteredAt) ∧
    (∃ (cl : Client) (p : PickupId) (v : Int) (s : State), s.svUp p = true ∧ s.Takes cl Obj.servoOverrunStatus p 0 v) ∧
    (∃ (p : PickupId) (loops : BitVec 5) (s : State), s.svUp p = true ∧ s.staging.edge ≤ s.gridN + 1) ∧
    (∃ (dirHigh : Bool) (s : State), s.running = true) :=
  ⟨⟨0, ins, live, by decide⟩,
    ⟨0, .focus, live.updLoop 0 .focus fun v => { v with saturatedRun := 1024 }, by decide, by decide⟩,
    ⟨0, .focus, live.updLoop 0 .focus fun v => { v with lateRun := 3 }, by decide, by decide, by decide, by decide⟩,
    ⟨0, live.updP 0 fun k => { k with engine := .following, holdPending := 1 }, by decide⟩,
    ⟨.nvme 0, 0, 1, live, by decide, ⟨by decide, by decide, by decide, by decide⟩⟩,
    ⟨.nvme 0, 0, 1, live, by decide, ⟨by decide, by decide, by decide, by decide⟩⟩,
    ⟨0, live.updP 0 fun k => { k with engine := .defectHold, exitRun := 100000 }, by decide, by decide, by decide⟩,
    ⟨0, { live.updP 0 fun k => { k with engine := .defectHold } with time := 10 ^ 9 }, by decide, by decide, by decide,
      by decide⟩,
    ⟨.nvme 0, 0, 1, live, by decide, ⟨by decide, by decide, by decide, by decide⟩⟩,
    ⟨0, 4, { live with staging := { mode := .committed, entries := [⟨0x301100, 0, false⟩] } }, by decide, by decide⟩,
    ⟨true, live, by decide⟩⟩

set_option maxRecDepth 20000 in
/-- Hypotheses of `MountAndFocusCommandsComplete`. -/
theorem wit_MountAndFocus :
    (∃ (cl : Client) (v : Int) (s : State),
      s.Takes cl Obj.mountRequest 0 0 v ∧ s.running = true ∧ ¬ 2 ^ s.otp.variant.spindles ≤ v) ∧
    (∃ (p : PickupId) (deviceId fault : BitVec 16) (s : State),
      s.svUp p = true ∧ s.pickups[p].seq = .mount ∧ s.pickups[p].phase = .idle ∧ s.pickups[p].idle = true) ∧
    (∃ (p : PickupId) (s : State),
      s.svUp p = true ∧ s.pickups[p].phase = .focusSearch ∧ s.pickups[p].feCross = 1 ∧
      2 * s.ob Obj.layerSumMin p ≤ s.pickups[p].curvePeak) ∧
    (∃ (p : PickupId) (s : State),
      s.svUp p = true ∧
      (((s.pickups[p].phase == .focusSearch && s.sweepOver p) || (s.pickups[p].phase == .focusSettle && s.stepOver p (msTicks 5)))) = true) ∧
    (∃ (p : PickupId) (s : State),
      s.svUp p = true ∧
      ((s.pickups[p].phase == .focusSettle || (s.pickups[p].phase == .layerJump && decide (s.pickups[p].jumpStage = 4)))) = true ∧
      256 ≤ s.pickups[p].settleF) ∧
    (∃ (p : PickupId) (s : State),
      s.svUp p = true ∧ s.pickups[p].ppCross ≠ 0 ∧ s.ob Obj.crossWobbleLevel p < s.pickups[p].wobbleLevel) ∧
    (∃ (p : PickupId) (s : State),
      s.svUp p = true ∧
      (s.pickups[p].phase == .trackCapture || s.pickups[p].phase == .shortSeek || (s.pickups[p].phase == .longSeek && decide (s.pickups[p].jumpStage = 1)) || (s.pickups[p].phase == .layerJump && decide (s.pickups[p].jumpStage = 5))) = true ∧
      s.pickups[p].loops[ServoLoop.tracking.idx].mode = .closed ∧ 256 ≤ s.pickups[p].settleT) ∧
    (∃ (p : PickupId) (s : State),
      s.svUp p = true ∧ s.pickups[p].phase = .trackCapture ∧ s.stepOver p (msTicks (s.obN Obj.captureTimeout p)) = true) ∧
    (∃ (p : PickupId) (s : State), s.svUp p = true ∧ s.pickups[p].phase = .sledSearch ∧ (s.axes[p.sled]).mode ≠ .moving) :=
  ⟨⟨.nvme 0, 1, live, ⟨by decide, by decide, by decide, by decide⟩, by decide, by decide⟩,
    ⟨0, 0x5645, 0, live.updP 0 fun k => { k with seq := .mount }, by decide, by decide, by decide, by decide⟩,
    ⟨0, live.updP 0 fun k => { k with phase := .focusSearch, feCross := 1, curvePeak := 1000000 }, by decide, by decide,
      by decide, by decide⟩,
    ⟨0, { live.updP 0 fun k => { k with phase := .focusSettle } with time := 10 ^ 9 }, by decide, by decide⟩,
    ⟨0, live.updP 0 fun k => { k with phase := .focusSettle, settleF := 256 }, by decide, by decide, by decide⟩,
    ⟨0, live.updP 0 fun k => { k with phase := .trackCapture, ppCross := 1, wobbleLevel := 1000000000 }, by decide, by decide,
      by decide⟩,
    ⟨0,
      (live.updP 0 fun k => { k with phase := .trackCapture, settleT := 256 }).updLoop 0 .tracking fun v => { v with mode := .closed },
      by decide, by decide, by decide, by decide⟩,
    ⟨0, { live.updP 0 fun k => { k with phase := .trackCapture } with time := 10 ^ 9 }, by decide, by decide, by decide⟩,
    ⟨0, live.updP 0 fun k => { k with phase := .sledSearch }, by decide, by decide, by decide⟩⟩

set_option maxRecDepth 20000 in
/-- Hypotheses of `LaneAddressAndMapCommandsComplete`. -/
theorem wit_LaneAddressAndMap :
    (∃ (p : PickupId) (w : BitVec 32) (s : State), s.svUp p = true ∧ s.pickups[p].idle = false ∧ s.pickups[p].seq ≠ .park) ∧
    (∃ (p : PickupId) (s : State),
      s.svUp p = true ∧ s.pickups[p].engine = .following ∧ s.obN Obj.lawMissLimit p ≤ s.pickups[p].lawDiscardRun) ∧
    (∃ (p : PickupId) (s : State), s.svUp p = true ∧ (s.pickups[p]).phase = .arrayAlign ∧ 40 ≤ (s.pickups[p]).lockRun) ∧
    (∃ (p : PickupId) (s : State), s.svUp p = true ∧ (s.pickups[p]).phase = .arrayAlign ∧ s.stepOver p (msTicks 10) = true) ∧
    (∃ (p : PickupId) (s : State), s.svUp p = true ∧ s.pickups[p].phase = .mapLearn ∧ s.pickups[p].revolution.isSome = true) ∧
    (∃ (p : PickupId) (s : State),
      s.svUp p = true ∧ s.pickups[p].engine = .following ∧ (s.obN Obj.mapTrackShift p) ≠ 0 ∧ s.pickups[p].layer.isSome = true ∧
      s.pickups[p].revolution.isSome = true) :=
  ⟨⟨0, 7, live.updP 0 fun k => { k with engine := .following }, by decide, by decide, by decide⟩,
    ⟨0, live.updP 0 fun k => { k with engine := .following, lawDiscardRun := 1000 }, by decide, by decide, by decide⟩,
    ⟨0, live.updP 0 fun k => { k with phase := .arrayAlign, lockRun := 40 }, by decide, by decide, by decide⟩,
    ⟨0, { live.updP 0 fun k => { k with phase := .arrayAlign } with time := 10 ^ 9 }, by decide, by decide, by decide⟩,
    ⟨0, live.updP 0 fun k => { k with phase := .mapLearn, revolution := some ⟨[], false⟩ }, by decide, by decide, by decide⟩,
    ⟨0,
      (live.setOb Obj.mapTrackShift 0 0 1).updP 0 fun k => { k with engine := .following, layer := some 1, revolution := some ⟨[], true⟩ },
      by decide, by decide, by decide, by decide, by decide⟩⟩

set_option maxRecDepth 20000 in
/-- Hypotheses of `JumpSeekRecoveryParkCommandsComplete`. -/
theorem wit_JumpSeekRecoveryPark :
    (∃ (cl : Client) (p : PickupId) (v : Int) (s : State),
      s.svUp p = true ∧ s.Takes cl Obj.seekRequest p 0 v ∧ ¬ lanes ≤ v.toNat % 65536 ∧ ¬ (262144 : Int) ≤ v ∧
      (s.pickups[p]).seekBusy = false ∧ (s.pickups[p]).engine = .following ∧ (s.pickups[p]).seq = .none) ∧
    (∃ (cl : Client) (p : PickupId) (v : Int) (s : State),
      s.svUp p = true ∧ s.Takes cl Obj.seekRequest p 0 v ∧ ¬ lanes ≤ v.toNat % 65536 ∧ ¬ (262144 : Int) ≤ v ∧
      (s.pickups[p]).seekBusy = true) ∧
    (∃ (p : PickupId) (s : State), s.svUp p = true ∧ s.pickups[p].phase = .layerJump ∧ s.pickups[p].jumpStage = 0) ∧
    (∃ (p : PickupId) (s : State),
      s.svUp p = true ∧ s.pickups[p].phase = .layerJump ∧ s.pickups[p].jumpStage = 1 ∧
      s.stepOver p (usTicks (s.obN Obj.jumpKickTime p)) = true) ∧
    (∃ (p : PickupId) (s : State),
      s.svUp p = true ∧ s.pickups[p].phase = .layerJump ∧ s.pickups[p].jumpStage = 2 ∧ s.pickups[p].feTurned = true) ∧
    (∃ (p : PickupId) (s : State),
      s.svUp p = true ∧ s.pickups[p].phase = .layerJump ∧ s.pickups[p].jumpStage = 3 ∧
      (s.pickups[p].feCross = if s.pickups[p].layer.getD 0 < s.pickups[p].jumpTo then 1 else -1)) ∧
    (∃ (p : PickupId) (s : State),
      s.svUp p = true ∧ s.pickups[p].phase = .layerJump ∧ 1 ≤ s.pickups[p].jumpStage ∧ s.jumpLate p = true) ∧
    (∃ (p : PickupId) (s : State),
      s.svUp p = true ∧ s.pickups[p].phase = .longSeek ∧ s.pickups[p].jumpStage = 0 ∧ (s.axes[p.sled]).mode ≠ .moving ∧
      msTicks 2 ≤ s.time - (s.axes[p.sled]).moveEndedAt) ∧
    (∃ (p : PickupId) (s : State),
      s.svUp p = true ∧ ((s.pickups[p].seq == .seek || s.pickups[p].seq == .recovery)) = true ∧
      (((s.pickups[p].phase == .shortSeek && decide (msTicks (s.obN Obj.shortSeekTimeout p) ≤ (s.time - s.pickups[p].passFrom))) || (s.pickups[p].phase == .longSeek && decide (msTicks (s.obN Obj.longSeekTimeout p) ≤ (s.time - s.pickups[p].passFrom))))) = true) ∧
    (∃ (p : PickupId) (s : State),
      s.svUp p = true ∧ s.pickups[p].seq = .recovery ∧
      ((s.pickups[p].recovered || decide (s.attemptBound p ≤ s.time - s.pickups[p].attemptFrom))) = true) ∧
    (∃ (cl : Client) (p : PickupId) (v : Int) (s : State), s.svUp p = true ∧ s.Takes cl Obj.parkRequest p 0 v) ∧
    (∃ (p : PickupId) (s : State),
      s.svUp p = true ∧ (s.pickups[p]).seq = .park ∧ (((s.pickups[p]).ramped || s.stepOver p (msTicks 1))) = true) :=
  ⟨⟨.nvme 0, 0, 1, live.updP 0 fun k => { k with engine := .following }, by decide,
      ⟨by decide, by decide, by decide, by decide⟩, by decide, by decide, by decide, by decide, by decide⟩,
    ⟨.nvme 0, 0, 1, live.updP 0 fun k => { k with seq := .mount }, by decide, ⟨by decide, by decide, by decide, by decide⟩,
      by decide, by decide, by decide⟩,
    ⟨0, live.updP 0 fun k => { k with phase := .layerJump }, by decide, by decide, by decide⟩,
    ⟨0, { live.updP 0 fun k => { k with phase := .layerJump, jumpStage := 1 } with time := 10 ^ 9 }, by decide, by decide,
      by decide, by decide⟩,
    ⟨0, live.updP 0 fun k => { k with phase := .layerJump, jumpStage := 2, fePrev := 2, fe := 1 }, by decide, by decide,
      by decide, by decide⟩,
    ⟨0, live.updP 0 fun k => { k with phase := .layerJump, jumpStage := 3, feCross := -1 }, by decide, by decide, by decide,
      by decide⟩,
    ⟨0, { live.updP 0 fun k => { k with phase := .layerJump, jumpStage := 1 } with time := 10 ^ 9 }, by decide, by decide,
      by decide, by decide⟩,
    ⟨0, { live.updP 0 fun k => { k with phase := .longSeek } with time := 10 ^ 9 }, by decide, by decide, by decide, by decide,
      by decide⟩,
    ⟨0, { live.updP 0 fun k => { k with seq := .seek, phase := .longSeek } with time := 10 ^ 9 }, by decide, by decide,
      by decide⟩,
    ⟨0, { live.updP 0 fun k => { k with seq := .recovery } with time := 10 ^ 9 }, by decide, by decide, by decide⟩,
    ⟨.nvme 0, 0, 1, live, by decide, ⟨by decide, by decide, by decide, by decide⟩⟩,
    ⟨0, live.updP 0 fun k => { k with seq := .park }, by decide, by decide, by decide⟩⟩

set_option maxRecDepth 20000 in
/-- Hypotheses of `ReadChannelCommandsComplete`. -/
theorem wit_ReadChannel :
    (∃ (g : BeamId) (row : Nat) (wanted : Bool) (s : State), s.chUp g = true ∧ (s.channels[g]).mode ≠ .off) ∧
    (∃ (g : BeamId) (s : State),
      s.chUp g = true ∧ ((s.channels[g].mode == .acquiring || s.channels[g].mode == .locked)) = true ∧
      s.channels[g].searched = false ∧
      (s.channels[g].stream * slotBits : Nat) + s.channels[g].expected + (if s.channels[g].wideWindow then 32 else (s.chOb Obj.waymarkWindow g).toNat) + 48 + 384 ≤ s.channels[g].softTo) ∧
    (∃ (g : BeamId) (s : State),
      s.chUp g = true ∧ ((s.channels[g].mode == .acquiring || s.channels[g].mode == .locked)) = true ∧
      s.chOb Obj.waymarkMissLimit g ≤ s.channels[g].misses) ∧
    (∃ (g : BeamId) (half : Fin 2) (s : State), s.chUp g = true) ∧
    (∃ (g : BeamId) (slot : Fin 3) (s : State),
      s.chUp g = true ∧
      (s.decoding.queue.any (fun j => j.uses g slot) || (allFin 24).any fun d => match s.decoding.decoders[d] with | some j => j.uses g slot | none => false) = false) ∧
    (∃ (g : BeamId) (s : State), s.chUp g = true ∧ s.channels[g].mode ≠ .off ∧ s.channels[g].mode ≠ .writing) ∧
    (∃ (g : BeamId) (s : State), s.chUp g = true ∧ s.channels[g].mode ≠ .off ∧ s.channels[g].mode ≠ .writing) ∧
    (∃ (g : BeamId) (codes : List Int) (s : State),
      s.chUp g = true ∧ ((s.channels[g].mode == .acquiring || s.channels[g].mode == .locked)) = true ∧ codes.length = 16) ∧
    (∃ (g : BeamId) (s : State), s.chUp g = true ∧ 65536 ≤ (s.channels[g]).limitRun ∧ (s.channels[g]).agcLimited = false) ∧
    (∃ (g : BeamId) (j : Fin 4) (s : State), s.chUp g = true ∧ j ≠ g.inPickup ∧ 65536 ≤ (s.channels[g]).fracSums[j].count) ∧
    (∃ (g : BeamId) (j : Fin 4) (s : State),
      s.chUp g = true ∧ j ≠ g.inPickup ∧ s.channels[g].itiRecorded = false ∧
      s.chOb Obj.itiLimit g * fine ≤ ((s.channels[g].coupling.getD j.val 0).natAbs : Int)) ∧
    (∃ (g : BeamId) (s : State),
      s.chUp g = true ∧ s.channels[g].acquiringLoops = true ∧ s.chOb Obj.timingAcqBits g ≤ s.channels[g].acqSamples) ∧
    (∃ (g : BeamId) (s : State),
      s.chUp g = true ∧ ((s.channels[g].mode == .acquiring || s.channels[g].mode == .locked)) = true ∧
      s.channels[g].relockDue = true) ∧
    (∃ (g : BeamId) (s : State),
      s.chUp g = true ∧ ((s.channels[g].mode == .acquiring || s.channels[g].mode == .locked)) = true ∧
      s.channels[g].pendingAcquire = false ∧ s.chOb Obj.timingPullRange g < (s.channels[g].ppm.natAbs : Int)) ∧
    (∃ (p : PickupId) (s : State), s.svUp p = true ∧ s.gridN % 8 = 0) :=
  ⟨⟨0, 0, false, live.updC 0 fun c => { c with mode := .idle }, by decide, by decide⟩,
    ⟨0, live.updC 0 fun c => { c with mode := .locked, place := 100000000 }, by decide, by decide, by decide, by decide⟩,
    ⟨0, live.updC 0 fun c => { c with mode := .locked, misses := 100000 }, by decide, by decide, by decide⟩,
    ⟨0, 0, live, by decide⟩,
    ⟨0, 0, live, by decide, by decide⟩,
    ⟨0, live.updC 0 fun c => { c with mode := .locked, envDue := [(true, 5)] }, by decide, by decide, by decide⟩,
    ⟨0, live.updC 0 fun c => { c with mode := .locked, guideDue := [(true, 5)] }, by decide, by decide, by decide⟩,
    ⟨0, List.replicate 16 0, live.updC 0 fun c => { c with mode := .locked }, by decide, by decide, by decide⟩,
    ⟨0, live.updC 0 fun c => { c with limitRun := 65536, agcLimited := false }, by decide, by decide, by decide⟩,
    ⟨0, 1, live.updC 0 fun c => { c with mode := .locked, fracSums := upd c.fracSums 1 fun f => { f with count := 65536 } },
      by decide, by decide, by decide⟩,
    ⟨0, 1, live.updC 0 fun c => { c with coupling := List.replicate 4 (2 ^ 60) }, by decide, by decide, by decide, by decide⟩,
    ⟨0, live.updC 0 fun c => { c with acquiringLoops := true, acqSamples := 1000000 }, by decide, by decide, by decide⟩,
    ⟨0, live.updC 0 fun c => { c with mode := .locked, relockDue := true }, by decide, by decide, by decide⟩,
    ⟨0, live.updC 0 fun c => { c with mode := .locked, freq := 2 ^ 60 }, by decide, by decide, by decide, by decide⟩,
    ⟨0, live, by decide, by decide⟩⟩

set_option maxRecDepth 20000 in
/-- Hypotheses of `DecodingCommandsComplete`. -/
theorem wit_Decoding :
    (∃ (d : DecoderId) (s : State), s.memUp = true ∧ (s.decoding.decoders[d]).isNone = true) ∧
    (∃ (d : DecoderId) (s : State), s.memUp = true) ∧
    (∃ (p : PickupId) (s : State), s.memUp = true ∧ (s.sides[p]).workspaceStopped = true ∧ (s.sides[p]).workspace < 2) ∧
    (∃ (p : PickupId) (s : State), s.memUp = true ∧ s.svUp p = true) ∧
    (∃ (p : PickupId) (layer : LayerId) (q : Nat) (s : State), s.memUp = true) ∧
    (∃ (p : PickupId) (layer : LayerId) (q : Nat) (s : State), s.memUp = true) ∧
    (∃ (p : PickupId) (s : State), s.memUp = true ∧ s.svUp p = true) ∧
    (∃ (p : PickupId) (s : State), s.memUp = true ∧ s.svUp p = true) ∧
    (∃ (p : PickupId) (s : State), s.memUp = true) :=
  ⟨⟨0, live, by decide, by decide⟩,
    ⟨0, live, by decide⟩,
    ⟨0, live.updS 0 fun x => { x with workspaceStopped := true }, by decide, by decide, by decide⟩,
    ⟨0, live, by decide, by decide⟩,
    ⟨0, 0, 0, live, by decide⟩,
    ⟨0, 0, 0, live, by decide⟩,
    ⟨0, live, by decide, by decide⟩,
    ⟨0, live, by decide, by decide⟩,
    ⟨0, live, by decide⟩⟩

set_option maxRecDepth 20000 in
/-- Hypotheses of `WritePathCommandsComplete`. -/
theorem wit_WritePath :
    (∃ (p : PickupId) (zone : Nat) (partialToo : Bool) (s : State),
      s.memUp = true ∧ s.pickupOn p = true ∧ zone < zoneCount ∧ s.mayRun p = true ∧
      ((s.host.activation.isNone || !(s.sides[p]).runs.any fun r => r.area == .user)) = true) ∧
    (∃ (p : PickupId) (zone : Nat) (s : State),
      s.memUp = true ∧ s.pickupOn p = true ∧ zone < zoneCount ∧ s.host.activation.isNone = true) ∧
    (∃ (p : PickupId) (s : State), s.memUp = true ∧ s.svUp p = true) ∧
    (∃ (p : PickupId) (s : State), s.svUp p = true) ∧
    (∃ (p : PickupId) (s : State), s.svUp p = true) ∧
    (∃ (g : BeamId) (monitorPeak fault : BitVec 16) (s : State),
      s.svUp g.pickup = true ∧ (s.channels[g]).mode = .writing ∧
      (s.sides[g.pickup]).settings.monitorFrames ≤ (s.sides[g.pickup]).writtenFrames[g.inPickup]) ∧
    (∃ (p : PickupId) (s : State), s.svUp p = true ∧ (s.sides[p]).current.isSome = true) ∧
    (∃ (p : PickupId) (s : State), s.svUp p = true ∧ s.sides[p].writeState = .pass1 ∧ s.sides[p].pass = 1) ∧
    (∃ (p : PickupId) (s : State), s.memUp = true ∧ s.pickupOn p = true) ∧
    (∃ (p : PickupId) (zone : Nat) (s : State),
      s.memUp = true ∧ s.pickupOn p = true ∧ s.sides[p].built = true ∧ zone < zoneCount ∧
      ((decide ((s.zone p zone).committed = zoneBlocks) || ((s.zone p zone).sealRequested && !(s.sides[p].buffer.any fun b => b.lba / zoneBlocks == zone)))) = true ∧
      (s.zone p zone).digestState ≠ .sealed ∧ s.sides[p].sealing zone = false ∧ (s.zone p zone).state ≠ .readOnly) ∧
    (∃ (p : PickupId) (s : State), s.memUp = true ∧ s.pickupOn p = true) ∧
    (∃ (p : PickupId) (s : State), s.memUp = true ∧ s.pickupOn p = true) ∧
    (∃ (p : PickupId) (pair : Fin 2) (errors : List (List Nat)) (s : State),
      s.svUp p = true ∧ s.pickups[p].engine = .following ∧ s.pickups[p].seq = .none ∧ s.sides[p].writeState = .idle ∧
      s.pickups[p].layer.isSome = true ∧ errors.length = 2) ∧
    (∃ (p : PickupId) (dcbBlank dcbReads : List Bool) (discId : BitVec 128) (marks : List Nat) (records : List (List Nat)) (spares : List (Nat × Nat × Bool × Nat × Nat × Nat)) (tails : List (Nat × Nat × List Bool)) (highSerial : Nat) (s : State),
      s.memUp = true ∧ s.svUp p = true ∧ (s.pickups[p]).mountResult = .mounted ∧ s.sides[p].built = false ∧
      s.sides[p].building = false) ∧
    (∃ (p : PickupId) (chains : List (Nat × List ChainCluster)) (s : State), s.memUp = true ∧ (s.sides[p]).building = true) :=
  ⟨⟨0, 0, false, live, by decide, by decide, by decide, by decide, by decide⟩,
    ⟨0, 0, live, by decide, by decide, by decide, by decide⟩,
    ⟨0, live, by decide, by decide⟩,
    ⟨0, live, by decide⟩,
    ⟨0, live, by decide⟩,
    ⟨0, 0, 0,
      (live.updC 0 fun c => { c with mode := .writing }).updS 0 fun x => { x with writtenFrames := upd x.writtenFrames 0 fun _ => 1000000 },
      by decide, by decide, by decide⟩,
    ⟨0, live.updS 0 fun x => { x with current := some ⟨.user, 0, [], [], false⟩ }, by decide, by decide⟩,
    ⟨0, live.updS 0 fun x => { x with writeState := .pass1, pass := 1 }, by decide, by decide, by decide⟩,
    ⟨0, live, by decide, by decide⟩,
    ⟨0, 0,
      (live.updS 0 fun x => { x with built := true }).updZone 0 0 fun z => { z with sealRequested := true, digestState := .running },
      by decide, by decide, by decide, by decide, by decide, by decide, by decide, by decide⟩,
    ⟨0, live, by decide, by decide⟩,
    ⟨0, live, by decide, by decide⟩,
    ⟨0, 0, [[], []], (live.updP 0 fun k => { k with engine := .following, layer := some 0 }), by decide, by decide, by decide,
      by decide, by decide, by decide⟩,
    ⟨0, [], [], 0, [], [], [], [], 0, live.updP 0 fun k => { k with mountResult := .mounted }, by decide, by decide, by decide,
      by decide, by decide⟩,
    ⟨0, [], live.updS 0 fun x => { x with building := true }, by decide, by decide⟩⟩

set_option maxRecDepth 20000 in
/-- Hypotheses of `SpindleStartCommandsComplete`. -/
theorem wit_SpindleStart :
    (∃ (cl : Client) (i : SpindleId) (s : State),
      s.mtUp i = true ∧ s.Takes cl Obj.spindleCommand i 0 1 ∧ ((s.spindles[i]).mode == .fault && !s.faultClearable i) = false) ∧
    (∃ (cl : Client) (i : SpindleId) (s : State), s.mtUp i = true ∧ s.Takes cl Obj.spindleCommand i 0 2) ∧
    (∃ (cl : Client) (i : SpindleId) (s : State), s.mtUp i = true ∧ s.Takes cl Obj.spindleCommand i 0 3) ∧
    (∃ (cl : Client) (i : SpindleId) (s : State),
      s.mtUp i = true ∧ s.Takes cl Obj.spindleCommand i 0 4 ∧
      (!((i.pickups.all fun p => (s.pickups[p]).idle && (s.pickups[p]).mountResult != .mounting)) || ((s.spindles[i]).mode == .fault && !s.faultClearable i)) = false) ∧
    (∃ (i : SpindleId) (s : State),
      s.mtUp i = true ∧ s.spindles[i].mode = .sensing ∧ s.spindles[i].gatesDriven = false ∧ 1000 ≤ s.spindles[i].sensedCount) ∧
    (∃ (i : SpindleId) (s : State),
      s.mtUp i = true ∧ s.spindles[i].mode = .aligning ∧ s.obN Obj.alignTime i * 1600 ≤ s.time - s.spindles[i].phaseAt) ∧
    (∃ (i : SpindleId) (s : State), s.mtUp i = true ∧ s.spindles[i].mode = .ramping ∧ s.handoverPasses i = true) ∧
    (∃ (i : SpindleId) (s : State),
      s.mtUp i = true ∧ (s.spindles[i]).mode = .ramping ∧ s.rpm Obj.rampLimitSpeed i ≤ (s.forcedSpeed i).natAbs ∧
      s.handoverPasses i = false) ∧
    (∃ (i : SpindleId) (s : State),
      s.mtUp i = true ∧
      ((s.spindles[i].startWaits || (s.spindles[i].mode == .braking && s.spindles[i].afterBrake == .retry))) = true ∧
      msTicks 500 ≤ s.time - s.spindles[i].failedAt) ∧
    (∃ (i : SpindleId) (s : State),
      s.mtUp i = true ∧ s.spindles[i].mode = .sensing ∧ s.spindles[i].gatesDriven = true ∧ 32 ≤ s.spindles[i].plausibleRun) :=
  ⟨⟨.nvme 0, 0, live, by decide, ⟨by decide, by decide, by decide, by decide⟩, by decide⟩,
    ⟨.nvme 0, 0, live, by decide, ⟨by decide, by decide, by decide, by decide⟩⟩,
    ⟨.nvme 0, 0, live, by decide, ⟨by decide, by decide, by decide, by decide⟩⟩,
    ⟨.nvme 0, 0, live, by decide, ⟨by decide, by decide, by decide, by decide⟩, by decide⟩,
    ⟨0, live.updM 0 fun m => { m with mode := .sensing, sensedCount := 1000 }, by decide, by decide, by decide, by decide⟩,
    ⟨0, { live.updM 0 fun m => { m with mode := .aligning } with time := 10 ^ 9 }, by decide, by decide, by decide⟩,
    ⟨0,
      { live.updM 0 fun m => { m with mode := .ramping, plausibleRun := 32, observed := (live.rpm Obj.handoverSpeed 0) } with time := 480000 },
      by decide, by decide, by decide⟩,
    ⟨0, { live.updM 0 fun m => { m with mode := .ramping } with time := 10 ^ 9 }, by decide, by decide, by decide, by decide⟩,
    ⟨0, { live.updM 0 fun m => { m with startWaits := true } with time := 10 ^ 9 }, by decide, by decide, by decide⟩,
    ⟨0, live.updM 0 fun m => { m with mode := .sensing, gatesDriven := true, plausibleRun := 32 }, by decide, by decide,
      by decide, by decide⟩⟩

set_option maxRecDepth 20000 in
/-- Hypotheses of `SpindleControlAndEventCommandsComplete`. -/
theorem wit_SpindleControlAndEvent :
    (∃ (i : SpindleId) (currents : List Int) (voltages : List Nat) (fltHigh : Bool) (s : State), s.mtUp i = true) ∧
    (∃ (i : SpindleId) (currents : List Int) (s : State), s.mtUp i = true ∧ (s.spindles[i]).gatesDriven = true) ∧
    (∃ (i : SpindleId) (s : State),
      s.mtUp i = true ∧
      (((s.spindles[i]).mode == .running || (s.spindles[i]).mode == .braking || (s.spindles[i]).mode == .ramping || (s.spindles[i]).mode == .coasting || (s.spindles[i]).mode == .reacquiring)) = true) ∧
    (∃ (i : SpindleId) (s : State),
      s.mtUp i = true ∧ s.spindles[i].mode = .running ∧
      (s.spindles[i].settledSince.any fun t => decide (s.obN Obj.speedSettleTime i * 1600 ≤ s.time - t)) = true ∧
      s.spindles[i].reference = s.spindleReference i) ∧
    (∃ (i : SpindleId) (code : Nat) (s : State), s.mtUp i = true) ∧
    (∃ (i : SpindleId) (s : State), s.mtUp i = true ∧ 200 ≤ s.spindles[i].lowRun ∧ s.spindles[i].lowRecorded = false) ∧
    (∃ (i : SpindleId) (s : State),
      s.mtUp i = true ∧ ((s.spindles[i].mode == .running || s.spindles[i].mode == .braking)) = true ∧
      3 ≤ s.spindles[i].implausibleRun) ∧
    (∃ (i : SpindleId) (s : State),
      s.mtUp i = true ∧
      ((((s.spindles[i].mode == .reacquiring && s.spindles[i].gatesDriven && decide (64 ≤ s.spindles[i].plausibleRun)) || ((s.spindles[i].mode == .reacquiring && (decide (msTicks 50 ≤ (s.time - s.spindles[i].attemptAt)) || ((s.spindles[i].found.any fun n => decide ((n.natAbs : Int) < s.rpm Obj.handoverSpeed i)) && !s.spindles[i].gatesDriven))) || (s.spindles[i].mode == .sensing && s.spindles[i].gatesDriven && decide (msTicks 20 ≤ (s.time - s.spindles[i].attemptAt) ∧ s.spindles[i].plausibleRun < 32))))) = true)) ∧
    (∃ (i : SpindleId) (s : State), s.mtUp i = true) ∧
    (∃ (i : SpindleId) (s : State),
      s.mtUp i = true ∧ ((s.spindles[i].mode == .coasting || s.zeroBraking i)) = true ∧ s.belowFloor i = true) ∧
    (∃ (i : SpindleId) (s : State), s.mtUp i = true) ∧
    (∃ (p : PickupId) (s : State),
      s.mtUp p.spindle = true ∧
      ((s.spindles[p.spindle].floorSince.getD p.side none).any fun t => decide (sTicks 1 ≤ s.time - t)) = true ∧
      (s.spindles[p.spindle].floorRecorded.getD p.side false) = false) ∧
    (∃ (i : SpindleId) (s : State),
      s.mtUp i = true ∧ s.spindles[i].mode = .stopped ∧ s.spindles[i].pendingFriction.isSome = true) :=
  ⟨⟨0, [0, 0, 0], [0, 0, 0], true, live.updM 0 fun m => { m with enabled := true }, by decide⟩,
    ⟨0, [0, 0, 0], live.updM 0 fun m => { m with mode := .running, dtc := true, gatesDriven := true }, by decide, by decide⟩,
    ⟨0, live.updM 0 fun m => { m with mode := .running }, by decide, by decide⟩,
    ⟨0,
      { live.updM 0 fun m => { m with mode := .running, reference := live.spindleReference 0, settledSince := some 0 } with time := 10 ^ 9 },
      by decide, by decide, by decide, by decide⟩,
    ⟨0, 0, live, by decide⟩,
    ⟨0, live.updM 0 fun m => { m with lowRun := 200 }, by decide, by decide, by decide⟩,
    ⟨0, live.updM 0 fun m => { m with mode := .running, implausibleRun := 3 }, by decide, by decide, by decide⟩,
    ⟨0, live.updM 0 fun m => { m with mode := .reacquiring, gatesDriven := true, plausibleRun := 64 }, by decide, by decide⟩,
    ⟨0, live, by decide⟩,
    ⟨0, live.updM 0 fun m => { m with mode := .coasting }, by decide, by decide, by exact belowFloor_of (by decide +kernel)⟩,
    ⟨0, live, by decide⟩,
    ⟨0, { live.updM 0 fun m => { m with floorSince := [some 0, some 0] } with time := 10 ^ 9 }, by decide, by decide, by decide⟩,
    ⟨0, live.updM 0 fun m => { m with pendingFriction := some 0 }, by decide, by decide, by decide⟩⟩

set_option maxRecDepth 20000 in
/-- Hypotheses of `AxisCommandsComplete`. -/
theorem wit_Axis :
    (∃ (a : AxisId) (encoderDelta : Int) (coils : List (Int × Int)) (vm : Nat) (fltHigh : Bool) (s : State),
      s.axisUp a = true ∧ ((!a.isSled || decide (s.gridN % 64 = 0))) = true) ∧
    (∃ (cl : Client) (a : AxisId) (s : State), s.axisUp a = true ∧ s.Takes cl Obj.axisCommand a.inst 0 1) ∧
    (∃ (cl : Client) (a : AxisId) (s : State), s.axisUp a = true ∧ s.Takes cl Obj.axisCommand a.inst 0 2) ∧
    (∃ (cl : Client) (a : AxisId) (s : State), s.axisUp a = true ∧ s.Takes cl Obj.axisCommand a.inst 0 3) ∧
    (∃ (cl : Client) (a : AxisId) (s : State), s.axisUp a = true ∧ s.Takes cl Obj.axisCommand a.inst 0 4) ∧
    (∃ (cl : Client) (a : AxisId) (s : State), s.axisUp a = true ∧ s.Takes cl Obj.axisCommand a.inst 0 5) ∧
    (∃ (cl : Client) (a : AxisId) (s : State), s.axisUp a = true ∧ s.Takes cl Obj.axisCommand a.inst 0 6) ∧
    (∃ (cl : Client) (a : AxisId) (s : State), s.axisUp a = true ∧ s.Takes cl Obj.axisCommand a.inst 0 7) ∧
    (∃ (a : AxisId) (s : State), s.axisUp a = true ∧ s.obN Obj.stallCountLimit a.inst ≤ (s.axes[a]).stallRun) ∧
    (∃ (a : AxisId) (s : State),
      s.axisUp a = true ∧ a.isSled = true ∧ s.axes[a].mode = .standstill ∧ s.axes[a].frozen = true ∧
      s.axes[a].positionValid = false ∧
      (s.axes[a].stallTimes.head?.any fun t => decide (msTicks (s.obN Obj.stallRetryDelay a.inst) ≤ s.time - t)) = true) ∧
    (∃ (a : AxisId) (s : State),
      s.axisUp a = true ∧ (s.axes[a]).mode = .standstill ∧
      msTicks (s.obN Obj.holdDelay a.inst) ≤ s.time - (s.axes[a]).moveEndedAt) ∧
    (∃ (a : AxisId) (high : Bool) (s : State), s.axisUp a = true ∧ a.isSled = false) ∧
    (∃ (a : AxisId) (s : State),
      s.axisUp a = true ∧ s.axes[a].mode = .homing ∧ s.axes[a].homeFound = true ∧ s.axes[a].speed = 0 ∧
      msTicks (s.obN Obj.homeLockout a.aux) ≤ s.time - s.axes[a].homeAt) ∧
    (∃ (a : AxisId) (positive high : Bool) (s : State), s.axisUp a = true ∧ a.isSled = false) ∧
    (∃ (a : AxisId) (s : State), s.axisUp a = true ∧ s.encoderUsed a = true) ∧
    (∃ (a : AxisId) (s : State), s.axisUp a = true) ∧
    (∃ (a : AxisId) (code : Int) (s : State),
      s.axisUp a = true ∧ s.ob Obj.coilCurrentTrip a.inst < (rnd (code * s.ob Obj.axisSenseScale a.inst) 2048).natAbs) :=
  ⟨⟨0, 0, [], 0, true, live, by decide, by decide⟩,
    ⟨.nvme 0, 0, live, by decide, ⟨by decide, by decide, by decide, by decide⟩⟩,
    ⟨.nvme 0, 0, live, by decide, ⟨by decide, by decide, by decide, by decide⟩⟩,
    ⟨.nvme 0, 0, live, by decide, ⟨by decide, by decide, by decide, by decide⟩⟩,
    ⟨.nvme 0, 0, live, by decide, ⟨by decide, by decide, by decide, by decide⟩⟩,
    ⟨.nvme 0, 0, live, by decide, ⟨by decide, by decide, by decide, by decide⟩⟩,
    ⟨.nvme 0, 0, live, by decide, ⟨by decide, by decide, by decide, by decide⟩⟩,
    ⟨.nvme 0, 0, live, by decide, ⟨by decide, by decide, by decide, by decide⟩⟩,
    ⟨0, live.updA 0 fun x => { x with stallRun := 100000 }, by decide, by decide⟩,
    ⟨0, { live.updA 0 fun x => { x with mode := .standstill, frozen := true, stallTimes := [0] } with time := 10 ^ 9 },
      by decide, by decide, by decide, by decide, by decide, by decide⟩,
    ⟨0, { live.updA 0 fun x => { x with mode := .standstill } with time := 10 ^ 9 }, by decide, by decide, by decide⟩,
    ⟨8, 0, live, by decide, by decide⟩,
    ⟨8, { (live.updA 8 fun x => { x with mode := .homing, homeFound := true }) with time := 10 ^ 15 }, by decide, by decide,
      by decide, by decide, by decide⟩,
    ⟨8, true, true, live, by decide, by decide⟩,
    ⟨8, live.setOb Obj.encoderEnable (AxisId.inst 8) 0 1, by decide, by decide⟩,
    ⟨0, live, by decide⟩,
    ⟨0, (-2048), live, by decide, by decide⟩⟩

set_option maxRecDepth 20000 in
/-- Hypotheses of `QueueCommandsComplete`. -/
theorem wit_Queue :
    (∃ (c : CtrlId) (queue : Nat) (completion : Bool) (value : Nat) (s : State), s.ctrlUp c = true) ∧
    (∃ (c : CtrlId) (sq : Nat) (e : Sqe) (roundTripNs : Nat) (s : State),
      s.hostUp = true ∧ s.host.ctrls[c].mode = .ready ∧ s.host.ctrls[c].processingPaused = false ∧
      s.host.activation.isNone = true) ∧
    (∃ (c : CtrlId) (sq : Nat) (latencyNs : Nat) (s : State),
      s.hostUp = true ∧ s.memUp = true ∧ (s.host.ctrls[c]).mode ≠ .disabled) ∧
    (∃ (k : CmdRef) (latencyNs : Nat) (s : State), s.hostUp = true ∧ s.memUp = true) ∧
    (∃ (k : CmdRef) (s : State), s.hostUp = true) ∧
    (∃ (k : CmdRef) (dataNs wholeNs : Nat) (s : State), s.hostUp = true ∧ (s.host.ctrls[k.ctrl]).mode ≠ .resetting) ∧
    (∃ (k : CmdRef) (c : Cmd) (s : State), s.Waits k c ∧ k.sq = 0 ∧ c.sqe.opcode = 0x00) ∧
    (∃ (k : CmdRef) (c : Cmd) (s : State), s.Waits k c ∧ k.sq = 0 ∧ c.sqe.opcode = 0x01) ∧
    (∃ (k : CmdRef) (c : Cmd) (s : State), s.Waits k c ∧ k.sq = 0 ∧ c.sqe.opcode = 0x04) ∧
    (∃ (k : CmdRef) (c : Cmd) (s : State), s.Waits k c ∧ k.sq = 0 ∧ c.sqe.opcode = 0x05) :=
  ⟨⟨0, 0, false, 0, live.updCtrl 0 fun x => { x with mode := .ready }, by decide⟩,
    ⟨0, 0, entry 0 0 0 0, 0, live.updCtrl 0 fun x => { x with mode := .ready }, by decide, by decide, by decide, by decide⟩,
    ⟨0, 0, 0, live.updCtrl 0 fun x => { x with mode := .ready }, by decide, by decide, by decide⟩,
    ⟨⟨0, 0, 0⟩, 0, live, by decide, by decide⟩,
    ⟨⟨0, 0, 0⟩, live, by decide⟩,
    ⟨⟨0, 0, 0⟩, 0, 0, live, by decide, by decide⟩,
    ⟨⟨0, 0, 0⟩, inFlight 0 (entry 0x00 0 1 0) .fetched, queued 0 (entry 0x00 0 1 0) .fetched,
      ⟨by decide, by decide, by decide, by decide, by decide⟩, by decide, by decide⟩,
    ⟨⟨0, 0, 0⟩, inFlight 0 (entry 0x01 0 1 0) .fetched, queued 0 (entry 0x01 0 1 0) .fetched,
      ⟨by decide, by decide, by decide, by decide, by decide⟩, by decide, by decide⟩,
    ⟨⟨0, 0, 0⟩, inFlight 0 (entry 0x04 0 1 0) .fetched, queued 0 (entry 0x04 0 1 0) .fetched,
      ⟨by decide, by decide, by decide, by decide, by decide⟩, by decide, by decide⟩,
    ⟨⟨0, 0, 0⟩, inFlight 0 (entry 0x05 0 1 0) .fetched, queued 0 (entry 0x05 0 1 0) .fetched,
      ⟨by decide, by decide, by decide, by decide, by decide⟩, by decide, by decide⟩⟩

set_option maxRecDepth 20000 in
/-- Hypotheses of `AdminCommandsComplete`. -/
theorem wit_Admin :
    (∃ (k : CmdRef) (c : Cmd) (s : State), s.Waits k c ∧ k.sq = 0 ∧ c.sqe.opcode = 0x02) ∧
    (∃ (k : CmdRef) (c : Cmd) (s : State), s.Waits k c ∧ k.sq = 0 ∧ c.sqe.opcode = 0x06) ∧
    (∃ (k : CmdRef) (targetWaits : Bool) (c : Cmd) (s : State), s.Waits k c ∧ k.sq = 0 ∧ c.sqe.opcode = 0x08) ∧
    (∃ (k : CmdRef) (c : Cmd) (s : State),
      s.Waits k c ∧ k.sq = 0 ∧ c.sqe.opcode = 0x09 ∧ c.sqe.fid ≠ 0x02 ∧ c.sqe.fid ≠ 0x0E ∧ c.sqe.saves = false) ∧
    (∃ (k : CmdRef) (c : Cmd) (s : State),
      s.host.powerEntry = none ∧ s.Waits k c ∧ k.sq = 0 ∧ c.sqe.opcode = 0x09 ∧ c.sqe.fid = 0x02 ∧ c.sqe.saves = false) ∧
    (∃ (k : CmdRef) (c : Cmd) (s : State),
      s.Waits k c ∧ k.sq = 0 ∧ c.sqe.opcode = 0x09 ∧ c.sqe.fid = 0x0E ∧ c.sqe.saves = false) ∧
    (∃ (k : CmdRef) (c : Cmd) (s : State), s.Waits k c ∧ k.sq = 0 ∧ c.sqe.opcode = 0x0A) ∧
    (∃ (k : CmdRef) (s : State), s.coreUp = true) ∧
    (∃ (k : CmdRef) (c : Cmd) (s : State), s.Waits k c ∧ k.sq = 0 ∧ c.sqe.opcode = 0x14 ∧ c.sqe.cdw10 % 16 = 1) ∧
    (∃ (k : CmdRef) (c : Cmd) (s : State), s.Waits k c ∧ k.sq = 0 ∧ c.sqe.opcode = 0x14 ∧ c.sqe.cdw10 % 16 = 2) ∧
    (∃ (k : CmdRef) (c : Cmd) (s : State), s.Waits k c ∧ k.sq = 0 ∧ c.sqe.opcode = 0x14 ∧ c.sqe.cdw10 % 16 = 0xF) ∧
    (∃ (segmentEnds passes : Bool) (s : State), s.coreUp = true) :=
  ⟨⟨⟨0, 0, 0⟩, inFlight 0 (entry 0x02 0 4 0) .fetched, queued 0 (entry 0x02 0 4 0) .fetched,
      ⟨by decide, by decide, by decide, by decide, by decide⟩, by decide, by decide⟩,
    ⟨⟨0, 0, 0⟩, inFlight 0 (entry 0x06 0 1 0) .fetched, queued 0 (entry 0x06 0 1 0) .fetched,
      ⟨by decide, by decide, by decide, by decide, by decide⟩, by decide, by decide⟩,
    ⟨⟨0, 0, 0⟩, false, inFlight 0 (entry 0x08 0 1 0) .fetched, queued 0 (entry 0x08 0 1 0) .fetched,
      ⟨by decide, by decide, by decide, by decide, by decide⟩, by decide, by decide⟩,
    ⟨⟨0, 0, 0⟩, inFlight 0 (entry 0x09 0 5 0) .fetched, queued 0 (entry 0x09 0 5 0) .fetched,
      ⟨by decide, by decide, by decide, by decide, by decide⟩, by decide, by decide, by decide, by decide, by decide⟩,
    ⟨⟨0, 0, 0⟩, inFlight 0 (entry 0x09 0 2 0) .fetched, queued 0 (entry 0x09 0 2 0) .fetched, by decide,
      ⟨by decide, by decide, by decide, by decide, by decide⟩, by decide, by decide, by decide, by decide⟩,
    ⟨⟨0, 0, 0⟩, inFlight 0 (entry 0x09 0 14 0) .fetched, queued 0 (entry 0x09 0 14 0) .fetched,
      ⟨by decide, by decide, by decide, by decide, by decide⟩, by decide, by decide, by decide, by decide⟩,
    ⟨⟨0, 0, 0⟩, inFlight 0 (entry 0x0A 0 5 0) .fetched, queued 0 (entry 0x0A 0 5 0) .fetched,
      ⟨by decide, by decide, by decide, by decide, by decide⟩, by decide, by decide⟩,
    ⟨⟨0, 0, 0⟩, live, by decide⟩,
    ⟨⟨0, 0, 0⟩, inFlight 0 (entry 0x14 0 1 0) .fetched, queued 0 (entry 0x14 0 1 0) .fetched,
      ⟨by decide, by decide, by decide, by decide, by decide⟩, by decide, by decide, by decide⟩,
    ⟨⟨0, 0, 0⟩, inFlight 0 (entry 0x14 0 2 0) .fetched, queued 0 (entry 0x14 0 2 0) .fetched,
      ⟨by decide, by decide, by decide, by decide, by decide⟩, by decide, by decide, by decide⟩,
    ⟨⟨0, 0, 0⟩, inFlight 0 (entry 0x14 0 15 0) .fetched, queued 0 (entry 0x14 0 15 0) .fetched,
      ⟨by decide, by decide, by decide, by decide, by decide⟩, by decide, by decide, by decide⟩,
    ⟨true, true, live, by decide⟩⟩

set_option maxRecDepth 20000 in
/-- Hypotheses of `FirmwareCommandsComplete`. -/
theorem wit_Firmware :
    (∃ (k : CmdRef) (c : Cmd) (s : State), s.Waits k c ∧ k.sq = 0 ∧ c.sqe.opcode = 0x11) ∧
    (∃ (k : CmdRef) (c : Cmd) (s : State),
      s.Waits k c ∧ k.sq = 0 ∧ c.sqe.opcode = 0x10 ∧ c.sqe.commitAction = 0 ∧ s.host.activation = none) ∧
    (∃ (k : CmdRef) (c : Cmd) (s : State),
      s.Waits k c ∧ k.sq = 0 ∧ c.sqe.opcode = 0x10 ∧ c.sqe.commitAction = 1 ∧ s.host.activation = none) ∧
    (∃ (k : CmdRef) (c : Cmd) (s : State),
      s.Waits k c ∧ k.sq = 0 ∧ c.sqe.opcode = 0x10 ∧ c.sqe.commitAction = 2 ∧ s.host.activation = none) ∧
    (∃ (k : CmdRef) (c : Cmd) (s : State),
      s.Waits k c ∧ k.sq = 0 ∧ c.sqe.opcode = 0x10 ∧ c.sqe.commitAction = 3 ∧ s.host.activation = none) ∧
    (∃ (s : State), s.running = true) ∧
    (∃ (s : State), s.running = true) :=
  ⟨⟨⟨0, 0, 0⟩, inFlight 0 (entry 0x11 0 0 0) .fetched, queued 0 (entry 0x11 0 0 0) .fetched,
      ⟨by decide, by decide, by decide, by decide, by decide⟩, by decide, by decide⟩,
    ⟨⟨0, 0, 0⟩, inFlight 0 (entry 0x10 0 1 0) .fetched, queued 0 (entry 0x10 0 1 0) .fetched,
      ⟨by decide, by decide, by decide, by decide, by decide⟩, by decide, by decide, by decide, by decide⟩,
    ⟨⟨0, 0, 0⟩, inFlight 0 (entry 0x10 0 9 0) .fetched, queued 0 (entry 0x10 0 9 0) .fetched,
      ⟨by decide, by decide, by decide, by decide, by decide⟩, by decide, by decide, by decide, by decide⟩,
    ⟨⟨0, 0, 0⟩, inFlight 0 (entry 0x10 0 17 0) .fetched, queued 0 (entry 0x10 0 17 0) .fetched,
      ⟨by decide, by decide, by decide, by decide, by decide⟩, by decide, by decide, by decide, by decide⟩,
    ⟨⟨0, 0, 0⟩, inFlight 0 (entry 0x10 0 25 0) .fetched, queued 0 (entry 0x10 0 25 0) .fetched,
      ⟨by decide, by decide, by decide, by decide, by decide⟩, by decide, by decide, by decide, by decide⟩,
    ⟨live, by decide⟩,
    ⟨live, by decide⟩⟩

set_option maxRecDepth 20000 in
/-- Hypotheses of `SignpostCommandsComplete`. -/
theorem wit_Signpost :
    (∃ (k : CmdRef) (c : Cmd) (s : State), s.Waits k c ∧ k.sq = 0 ∧ c.sqe.opcode = 0xC0 ∧ s.signpost.queue.isEmpty = true) ∧
    (∃ (k : CmdRef) (c : Cmd) (s : State), s.Waits k c ∧ k.sq = 0 ∧ c.sqe.opcode = 0xC1 ∧ s.signpost.queue.isEmpty = true) ∧
    (∃ (cl : Client) (r : Request) (s : State),
      s.coreUp = true ∧ r.service = 1 ∧ s.signpost.queue = [] ∧ s.storedReply cl r = none) ∧
    (∃ (cl : Client) (r : Request) (s : State),
      s.coreUp = true ∧ r.service = 2 ∧ s.signpost.queue = [] ∧ s.storedReply cl r = none) ∧
    (∃ (cl : Client) (r : Request) (s : State),
      s.coreUp = true ∧ r.service = 3 ∧ s.signpost.queue = [] ∧ s.storedReply cl r = none) ∧
    (∃ (cl : Client) (r : Request) (s : State),
      s.coreUp = true ∧ r.service = 4 ∧ s.signpost.queue = [] ∧ s.storedReply cl r = none) ∧
    (∃ (cl : Client) (r : Request) (s : State),
      s.coreUp = true ∧ r.service = 5 ∧ s.signpost.queue = [] ∧ s.storedReply cl r = none) ∧
    (∃ (cl : Client) (r : Request) (s : State),
      s.coreUp = true ∧ r.service = 6 ∧ s.signpost.queue = [] ∧ s.storedReply cl r = none) ∧
    (∃ (cl : Client) (r : Request) (s : State),
      s.coreUp = true ∧ r.service = 7 ∧ s.signpost.queue = [] ∧ s.storedReply cl r = none) ∧
    (∃ (cl : Client) (r : Request) (s : State),
      s.coreUp = true ∧ r.service = 8 ∧ s.signpost.queue = [] ∧ s.storedReply cl r = none) ∧
    (∃ (cl : Client) (r : Request) (s : State),
      s.coreUp = true ∧ r.service = 9 ∧ s.signpost.queue = [] ∧ s.storedReply cl r = none) ∧
    (∃ (cl : Client) (index sub : Nat) (v : Int) (authorised : Option Bool) (row : Row) (i k : Nat) (s : State),
      s.coreUp = true ∧
      s.accessCheck cl { version := 1, service := 2, txid := 0, index := index, sub := sub, flags := 0, offset := 0, length := 0, session := 0, data := [], wellSigned := false } = none ∧
      s.lookup index sub = some (row, i, k) ∧ s.command cl row i v authorised = none ∧ row.type.holds v = true) ∧
    (∃ (n : Fin 8) (s : State), s.coreUp = true) ∧
    (∃ (cl : Client) (s : State), s.coreUp = true) ∧
    (∃ (s : State),
      s.coreUp = true ∧ s.signpost.locked = true ∧ s.signpost.lockedAt + sTicks (s.obN Obj.authLockoutTime) ≤ s.time) :=
  ⟨⟨⟨0, 0, 0⟩, inFlight 0 (entry 0xC0 0 0 0) .fetched, queued 0 (entry 0xC0 0 0 0) .fetched,
      ⟨by decide, by decide, by decide, by decide, by decide⟩, by decide, by decide, by decide⟩,
    ⟨⟨0, 0, 0⟩, inFlight 0 (entry 0xC1 0 0 0) .fetched, queued 0 (entry 0xC1 0 0 0) .fetched,
      ⟨by decide, by decide, by decide, by decide, by decide⟩, by decide, by decide, by decide⟩,
    ⟨.can 0, req 1, live, by decide, by decide, by decide, by decide⟩,
    ⟨.can 0, req 2, live, by decide, by decide, by decide, by decide⟩,
    ⟨.can 0, req 3, live, by decide, by decide, by decide, by decide⟩,
    ⟨.can 0, req 4, live, by decide, by decide, by decide, by decide⟩,
    ⟨.can 0, req 5, live, by decide, by decide, by decide, by decide⟩,
    ⟨.can 0, req 6, live, by decide, by decide, by decide, by decide⟩,
    ⟨.can 0, req 7, live, by decide, by decide, by decide, by decide⟩,
    ⟨.can 0, req 8, live, by decide, by decide, by decide, by decide⟩,
    ⟨.can 0, req 9, live, by decide, by decide, by decide, by decide⟩,
    ⟨.nvme 0, Obj.captureVelocity.base, 0, 100, none, Obj.captureVelocity, 0, 0, live, by decide, by decide, by decide,
      by decide, by decide⟩,
    ⟨0, live, by decide⟩,
    ⟨.can 0, live, by decide⟩,
    ⟨{ live with signpost := { live.signpost with locked := true }, time := 10 ^ 12 }, by decide, by decide, by decide⟩⟩

set_option maxRecDepth 20000 in
/-- Hypotheses of `NamespaceCommandsComplete`. -/
theorem wit_Namespace :
    (∃ (k : CmdRef) (s : State), s.hostUp = true ∧ s.memUp = true) ∧
    (∃ (k : CmdRef) (p : PickupId) (c : Cmd) (s : State), s.WaitsForMedia k p c ∧ c.io opWrite = true) ∧
    (∃ (k : CmdRef) (p : PickupId) (c : Cmd) (s : State), s.WaitsForMedia k p c ∧ c.io opRead = true) ∧
    (∃ (k : CmdRef) (p : PickupId) (c : Cmd) (s : State), s.WaitsForMedia k p c ∧ c.io opVerify = true) ∧
    (∃ (k : CmdRef) (p : PickupId) (c : Cmd) (s : State), s.WaitsForMedia k p c ∧ c.io opZoneAppend = true) ∧
    (∃ (k : CmdRef) (c : Cmd) (s : State), s.Waits k c ∧ c.io opZoneReceive = true) ∧
    (∃ (k : CmdRef) (p : PickupId) (c : Cmd) (s : State), s.WaitsForMedia k p c ∧ c.zoneSend 1 = true) ∧
    (∃ (k : CmdRef) (p : PickupId) (c : Cmd) (s : State), s.WaitsForMedia k p c ∧ c.zoneSend 2 = true) ∧
    (∃ (k : CmdRef) (p : PickupId) (c : Cmd) (s : State), s.WaitsForMedia k p c ∧ c.zoneSend 3 = true) ∧
    (∃ (k : CmdRef) (s : State), s.hostUp = true) ∧
    (∃ (k : CmdRef) (s : State), s.hostUp = true) ∧
    (∃ (k : CmdRef) (s : State), s.hostUp = true) ∧
    (∃ (k : CmdRef) (good : Bool) (s : State), s.hostUp = true ∧ s.memUp = true) :=
  ⟨⟨⟨0, 1, 0⟩, live, by decide, by decide⟩,
    ⟨⟨0, 1, 0⟩, 0, inFlight 1 (entry 0x01 1 0 0) .taken, queued 1 (entry 0x01 1 0 0) .taken,
      ⟨by decide, by decide, by decide, by decide, by decide, by decide⟩, by decide⟩,
    ⟨⟨0, 1, 0⟩, 0, inFlight 1 (entry 0x02 1 0 0) .taken, queued 1 (entry 0x02 1 0 0) .taken,
      ⟨by decide, by decide, by decide, by decide, by decide, by decide⟩, by decide⟩,
    ⟨⟨0, 1, 0⟩, 0, inFlight 1 (entry opVerify 1 0 0) .taken, queued 1 (entry opVerify 1 0 0) .taken,
      ⟨by decide, by decide, by decide, by decide, by decide, by decide⟩, by decide⟩,
    ⟨⟨0, 1, 0⟩, 0, inFlight 1 (entry 0x7D 1 0 0) .taken, queued 1 (entry 0x7D 1 0 0) .taken,
      ⟨by decide, by decide, by decide, by decide, by decide, by decide⟩, by decide⟩,
    ⟨⟨0, 1, 0⟩, inFlight 1 (entry opZoneReceive 1 0 0) .fetched, queued 1 (entry opZoneReceive 1 0 0) .fetched,
      ⟨by decide, by decide, by decide, by decide, by decide⟩, by decide⟩,
    ⟨⟨0, 1, 0⟩, 0, inFlight 1 (entry opZoneSend 1 0 1) .taken, queued 1 (entry opZoneSend 1 0 1) .taken,
      ⟨by decide, by decide, by decide, by decide, by decide, by decide⟩, by decide⟩,
    ⟨⟨0, 1, 0⟩, 0, inFlight 1 (entry opZoneSend 1 0 2) .taken, queued 1 (entry opZoneSend 1 0 2) .taken,
      ⟨by decide, by decide, by decide, by decide, by decide, by decide⟩, by decide⟩,
    ⟨⟨0, 1, 0⟩, 0, inFlight 1 (entry opZoneSend 1 0 3) .taken, queued 1 (entry opZoneSend 1 0 3) .taken,
      ⟨by decide, by decide, by decide, by decide, by decide, by decide⟩, by decide⟩,
    ⟨⟨0, 1, 0⟩, live, by decide⟩,
    ⟨⟨0, 1, 0⟩, live, by decide⟩,
    ⟨⟨0, 1, 0⟩, live, by decide⟩,
    ⟨⟨0, 1, 0⟩, true, live, by decide, by decide⟩⟩

set_option maxRecDepth 20000 in
/-- Hypotheses of `ControllerAndLinkCommandsComplete`. -/
theorem wit_ControllerAndLink :
    (∃ (c : CtrlId) (weighted : Bool) (sqSize cqSize : Nat) (s : State),
      s.hostUp = true ∧ s.coreUp = true ∧ (s.host.ctrls[c]).mode = .disabled ∧ (2 ≤ sqSize ∧ sqSize ≤ queueEntries) ∧
      (2 ≤ cqSize ∧ cqSize ≤ queueEntries)) ∧
    (∃ (c : CtrlId) (kind : Fin 4) (s : State),
      s.hostUp = true ∧ s.power.phase ≠ .ps3 ∧ ((s.host.ctrls[c]).mode ≠ .disabled ∨ 1 ≤ kind.val)) ∧
    (∃ (c : CtrlId) (s : State), s.hostUp = true ∧ (s.host.ctrls[c]).mode = .ready) ∧
    (∃ (c : CtrlId) (s : State), s.hostUp = true ∧ (s.host.ctrls[c]).mode ≠ .disabled) ∧
    (∃ (s : State), s.hostUp = true) ∧
    (∃ (s : State), s.hostUp = true) ∧
    (∃ (c : CtrlId) (rate width : Nat) (s : State), (s.running || s.power.phase == .failed) = true) ∧
    (∃ (c : CtrlId) (s : State), (s.host.ctrls[c]).link ≠ 0) ∧
    (∃ (cl : Client) (v : Int) (s : State), s.Takes cl Obj.latencyReset 0 0 v) :=
  ⟨⟨0, false, 2, 2, live, by decide, by decide, by decide, by decide, by decide⟩,
    ⟨0, 1, live, by decide, by decide, by decide⟩,
    ⟨0, live.updCtrl 0 fun x => { x with mode := .ready }, by decide, by decide⟩,
    ⟨0, live.updCtrl 0 fun x => { x with mode := .ready }, by decide, by decide⟩,
    ⟨live, by decide⟩,
    ⟨live, by decide⟩,
    ⟨0, 3, 4, live, by decide⟩,
    ⟨0, live.updCtrl 0 fun x => { x with link := 2 }, by decide⟩,
    ⟨.nvme 0, 1, live, ⟨by decide, by decide, by decide, by decide⟩⟩⟩

set_option maxRecDepth 20000 in
/-- Hypotheses of `CarrierCommandsComplete`. -/
theorem wit_Carrier :
    (∃ (port : Fin 2) (identifier : Nat) (classical : Bool) (payload : List Byte) (s : State),
      s.canUp port = true ∧ (identifier : Int) = s.commOb Obj.canRequestId port) ∧
    (∃ (port : Fin 2) (s : State), s.canUp port = true) ∧
    (∃ (port : Fin 2) (s : State), s.canUp port = true) ∧
    (∃ (port : Fin 2) (s : State), s.running = true ∧ (s.signpost.can[port]).state = 3) ∧
    (∃ (sourceAddress sourcePort destPort : Nat) (v6 checksumZero : Bool) (payload : List Byte) (s : State),
      s.ipUp v6 = true) ∧
    (∃ (sourceMac targetAddress : Nat) (s : State), s.ipUp false = true ∧ (targetAddress : Int) = s.commOb Obj.ipv4Address) ∧
    (∃ (v6 : Bool) (source target : Nat) (payload : List Byte) (s : State),
      s.ipUp v6 = true ∧ (v6 = true → s.ownV6 target = true) ∧ (v6 = false → (target : Int) = s.commOb Obj.ipv4Address)) ∧
    (∃ (source target : Nat) (s : State), s.ipUp true = true ∧ s.ownV6 target = true) ∧
    (∃ (_slot : Fin 4) (s : State), s.ethUp = true) ∧
    (∃ (index : Nat) (s : State), s.running = true) :=
  ⟨⟨0, (live.commOb Obj.canRequestId 0).toNat, true, [], canLive, by decide, by decide⟩,
    ⟨0, canLive, by decide⟩,
    ⟨0, canLive, by decide⟩,
    ⟨0, live.updCan 0 fun x => { x with state := 3 }, by decide, by decide⟩,
    ⟨0, 0, 0, false, false, [], ethLive, by decide⟩,
    ⟨0, (ethLive.commOb Obj.ipv4Address).toNat, ethLive, by decide, by decide⟩,
    ⟨false, 0, (ethLive.commOb Obj.ipv4Address).toNat, [], ethLive, by decide, by decide, by decide⟩,
    ⟨0, ethLive.linkLocal, ethLive, by decide, by decide⟩,
    ⟨0, ethLive, by decide⟩,
    ⟨0, live, by decide⟩⟩

set_option maxRecDepth 20000 in
/-- Hypotheses of `SwitchoverCommandsComplete`. -/
theorem wit_Switchover :
    (∃ (cl : Client) (s : State),
      s.coreUp = true ∧ s.carrierMayWrite cl (Obj.switchoverRequest.key 0 0) = true ∧ s.staging.mode ≠ .committed ∧
      s.staging.mode ≠ .checking ∧ (s.staging.owner.any fun o => o != cl) = false) ∧
    (∃ (cl : Client) (s : State),
      s.coreUp = true ∧ s.carrierMayWrite cl (Obj.switchoverRequest.key 0 0) = true ∧ s.staging.mode ≠ .committed ∧
      s.staging.mode ≠ .checking ∧ (s.staging.owner.any fun o => o != cl) = false) ∧
    (∃ (cl : Client) (s : State),
      s.coreUp = true ∧ s.carrierMayWrite cl (Obj.switchoverRequest.key 0 0) = true ∧ s.staging.mode ≠ .committed ∧
      s.staging.mode ≠ .checking ∧ (s.staging.owner.any fun o => o != cl) = false) ∧
    (∃ (s : State), s.running = true ∧ s.staging.mode = .committed ∧ s.staging.edge ≤ s.gridN + 1) ∧
    (∃ (s : State),
      s.coreUp = true ∧ s.staging.mode = .staging ∧ s.staging.lastAt + sTicks (s.obN Obj.stagingIdleTimeout) ≤ s.time) :=
  ⟨⟨.nvme 0, { live with staging := { live.staging with mode := .staging, owner := some (.nvme 0) } }, by decide, by decide,
      by decide, by decide, by decide⟩,
    ⟨.nvme 0, { live with staging := { live.staging with mode := .staging, owner := some (.nvme 0) } }, by decide, by decide,
      by decide, by decide, by decide⟩,
    ⟨.nvme 0, { live with staging := { live.staging with mode := .staging, owner := some (.nvme 0) } }, by decide, by decide,
      by decide, by decide, by decide⟩,
    ⟨{ live with staging := { live.staging with mode := .committed } }, by decide, by decide, by decide⟩,
    ⟨{ live with staging := { live.staging with mode := .staging }, time := 10 ^ 12 }, by decide, by decide, by decide⟩⟩

set_option maxRecDepth 20000 in
/-- Hypotheses of `MemoryCommandsComplete`. -/
theorem wit_Memory :
    (∃ (ddr : Bool) (span : Nat) (s : State), s.memUp = true) ∧
    (∃ (ddr : Bool) (span : Nat) (s : State), s.memUp = true) ∧
    (∃ (memory place : Nat) (syndrome : BitVec 8) (scrub : Bool) (s : State),
      placeExists memory place = true ∧ s.memUp = true ∧ (classify syndrome).corrected = true ∧
      (memory = 0 → inWindow (place / 8) = false)) ∧
    (∃ (memory place : Nat) (syndrome : BitVec 8) (scrub : Bool) (holds : WordHolds) (s : State),
      placeExists memory place = true ∧ s.memUp = true ∧ (classify syndrome).lost = true ∧
      (memory = 0 → inWindow (place / 8) = false)) ∧
    (∃ (cl : Client) (s : State), s.Takes cl Obj.splitCommand 0 0 1 ∧ s.splitBusy = false) ∧
    (∃ (cl : Client) (s : State), s.Takes cl Obj.splitCommand 0 0 2 ∧ s.splitBusy = false) ∧
    (∃ (cl : Client) (s : State), s.Takes cl Obj.splitCommand 0 0 3 ∧ s.splitBusy = false) ∧
    (∃ (cl : Client) (s : State),
      s.Takes cl Obj.scrubCommand 0 0 1 ∧ (decide (0xFFFC00 < s.scrubEnd)) = false ∧ s.mem.scrub.isSome = false) ∧
    (∃ (cl : Client) (s : State), s.Takes cl Obj.scrubCommand 0 0 2) ∧
    (∃ (wordsRead : Nat) (s : State), s.memUp = true) ∧
    (∃ (cl : Client) (s : State), s.Takes cl Obj.cacheEnable 0 0 0) ∧
    (∃ (cl : Client) (s : State), s.Takes cl Obj.cacheEnable 0 0 1 ∧ s.mem.cacheDisabling = false) ∧
    (∃ (requester : Fin 4) (line : Nat) (s : State),
      s.memUp = true ∧ s.mem.cacheOn = true ∧ s.mem.cacheDisabling = false ∧ ddrExists (64 * line) = true) ∧
    (∃ (cl : Client) (fillInFlight : Bool) (s : State),
      s.Takes cl Obj.maintenanceCommand 0 0 1 ∧ s.mem.cacheDisabling = false ∧ (fillInFlight && s.mem.cacheOn) = false) ∧
    (∃ (cl : Client) (fillInFlight : Bool) (s : State),
      s.Takes cl Obj.maintenanceCommand 0 0 2 ∧ s.mem.cacheDisabling = false ∧ (fillInFlight && s.mem.cacheOn) = false) ∧
    (∃ (cl : Client) (fillInFlight : Bool) (s : State),
      s.Takes cl Obj.maintenanceCommand 0 0 3 ∧ s.mem.cacheDisabling = false ∧ (fillInFlight && s.mem.cacheOn) = false) ∧
    (∃ (cl : Client) (fillInFlight : Bool) (s : State),
      s.Takes cl Obj.maintenanceCommand 0 0 4 ∧ s.mem.cacheDisabling = false ∧ (fillInFlight && s.mem.cacheOn) = false) ∧
    (∃ (cl : Client) (fillInFlight : Bool) (s : State),
      s.Takes cl Obj.maintenanceCommand 0 0 5 ∧ s.mem.cacheDisabling = false ∧ (fillInFlight && s.mem.cacheOn) = false) ∧
    (∃ (cl : Client) (fillInFlight : Bool) (s : State),
      s.Takes cl Obj.maintenanceCommand 0 0 6 ∧ s.mem.cacheDisabling = false ∧ (fillInFlight && s.mem.cacheOn) = false) ∧
    (∃ (cl : Client) (fillInFlight : Bool) (s : State),
      s.Takes cl Obj.maintenanceCommand 0 0 7 ∧ s.mem.cacheDisabling = false ∧ (fillInFlight && s.mem.cacheOn) = false) ∧
    (∃ (k : RampId) (s : State), s.memUp = true) ∧
    (∃ (k : RampId) (s : State),
      s.memUp = true ∧ (s.ramps[k]).timer = true ∧ (s.ramps[k]).timerFrom + usTicks (s.obN Obj.onRampIdleTimeout k) ≤ s.time) :=
  ⟨⟨false, 0, live, by decide⟩,
    ⟨false, 0, live, by decide⟩,
    ⟨8, 0, 1, false, live, by decide, by decide, by decide, by decide⟩,
    ⟨8, 0, 3, false, .nothing, live, by decide, by decide, by decide, by decide⟩,
    ⟨.nvme 0, live.setOb Obj.splitWriteEnable 0 0 1, ⟨by decide, by decide, by decide, by decide⟩, by decide⟩,
    ⟨.nvme 0, live.setOb Obj.splitWriteEnable 0 0 1, ⟨by decide, by decide, by decide, by decide⟩, by decide⟩,
    ⟨.nvme 0, live.setOb Obj.splitWriteEnable 0 0 1, ⟨by decide, by decide, by decide, by decide⟩, by decide⟩,
    ⟨.nvme 0, live, ⟨by decide, by decide, by decide, by decide⟩, by decide, by decide⟩,
    ⟨.nvme 0, live, ⟨by decide, by decide, by decide, by decide⟩⟩,
    ⟨0, live, by decide⟩,
    ⟨.nvme 0, live, ⟨by decide, by decide, by decide, by decide⟩⟩,
    ⟨.nvme 0, live, ⟨by decide, by decide, by decide, by decide⟩, by decide⟩,
    ⟨0, 0, { live with mem := { live.mem with cacheOn := true } }, by decide, by decide, by decide, by decide⟩,
    ⟨.nvme 0, false, live, ⟨by decide, by decide, by decide, by decide⟩, by decide, by decide⟩,
    ⟨.nvme 0, false, live, ⟨by decide, by decide, by decide, by decide⟩, by decide, by decide⟩,
    ⟨.nvme 0, false, live, ⟨by decide, by decide, by decide, by decide⟩, by decide, by decide⟩,
    ⟨.nvme 0, false, live, ⟨by decide, by decide, by decide, by decide⟩, by decide, by decide⟩,
    ⟨.nvme 0, false, live, ⟨by decide, by decide, by decide, by decide⟩, by decide, by decide⟩,
    ⟨.nvme 0, false, live, ⟨by decide, by decide, by decide, by decide⟩, by decide, by decide⟩,
    ⟨.nvme 0, false, live, ⟨by decide, by decide, by decide, by decide⟩, by decide, by decide⟩,
    ⟨0, live, by decide⟩,
    ⟨0, { live with time := 10 ^ 12, ramps := upd live.ramps 0 fun r => { r with timer := true } }, by decide, by decide,
      by decide⟩⟩

set_option maxRecDepth 20000 in
/-- Hypotheses of `CalibrationAndPlanCommandsComplete`. -/
theorem wit_CalibrationAndPlan :
    (∃ (centi : Int) (s : State), s.running = true) ∧
    (∃ (cl : Client) (v : Int) (s : State),
      s.Takes cl Obj.calRequest 0 0 v ∧
      (allFin 92).any (fun ix => s.itemOn ix && decide ((ixItem ix).1 = (v % 256).toNat) && ((v / 256).toNat == 0xFF || decide ((ixItem ix).2 = (v / 256).toNat))) = true) ∧
    (∃ (item : Fin 12) (inst : Fin 8) (ix : Fin 92) (s : State),
      itemIx item inst = some ix ∧ s.coreUp = true ∧ s.itemOn ix = true ∧ s.ob Obj.calEnable = 1 ∧ s.host.activation = none ∧
      s.calBusy ix = false ∧ ((s.cal.items[ix]).state = .due ∨ (s.cal.items[ix]).state = .neverRun) ∧
      (s.cal.items[ix]).retryWaits = false) ∧
    (∃ (item : Fin 12) (inst : Fin 8) (ix : Fin 92) (s : State),
      itemIx item inst = some ix ∧ s.coreUp = true ∧ s.cal.items[ix].state = .running ∧
      (item.val == 11 || s.pickupFree inst) = true ∧
      ((s.cal.items[ix].deferredRecorded || (itemPickups item.val inst.val).all s.quiet)) = true) ∧
    (∃ (item : Fin 12) (inst : Fin 8) (raw : CalRaw) (ix : Fin 92) (results : List Int) (s : State),
      itemIx item inst = some ix ∧ s.runResults inst raw = some results ∧ s.coreUp = true ∧ s.cal.items[ix].state = .running ∧
      0 < s.cal.items[ix].steps) ∧
    (∃ (item : Fin 12) (inst : Fin 8) (ix : Fin 92) (s : State),
      itemIx item inst = some ix ∧ s.coreUp = true ∧ (s.cal.items[ix]).failedAt + sTicks (s.obN Obj.calRetryDelay) ≤ s.time) ∧
    (∃ (item : Fin 12) (inst : Fin 8) (ix : Fin 92) (s : State),
      itemIx item inst = some ix ∧ s.coreUp = true ∧ s.itemOn ix = true ∧
      ((s.cal.items[ix].state == .due || s.cal.items[ix].state == .running)) = true ∧ s.cal.items[ix].deferredRecorded = false ∧
      s.cal.items[ix].dueSince + sTicks (s.obN Obj.calMaxDefer) < s.time) ∧
    (∃ (s : State), s.running = true ∧ s.host.powerState < 2) ∧
    (∃ (code instance_ : Nat) (currents : Nat × Nat) (s : State), s.coreUp = true ∧ instance_ < s.ledgerInstances code) ∧
    (∃ (s : State),
      s.coreUp = true ∧ s.cal.planDue = true ∧ s.host.powerState < 2 ∧ s.host.activation.isNone = true ∧ s.planRuns = false) ∧
    (∃ (cl : Client) (v : Int) (s : State), s.Takes cl Obj.marginPlanRequest 0 0 v) ∧
    (∃ (p : PickupId) (s : State),
      s.coreUp = true ∧ (s.pickups[p]).engine ≠ .acquiring ∧ (s.pickups[p]).engine ≠ .defectHold) :=
  ⟨⟨2500, live, by decide⟩,
    ⟨.nvme 0, 1, live, ⟨by decide, by decide, by decide, by decide⟩, by decide⟩,
    ⟨1, 0, 0, (live.setOb Obj.calEnable 0 0 1).updP 0 fun k => { k with engine := .following }, by decide, by decide,
      by decide, by decide, by decide, by decide, by decide, by decide⟩,
    ⟨11, 0, 88,
      { live with cal := { live.cal with items := upd live.cal.items 88 fun x => { x with state := .running, deferredRecorded := true } } },
      by decide, by decide, by decide, by decide, by decide⟩,
    ⟨11, 0, .torques [2500], 88, [2500],
      { live with cal := { live.cal with items := upd live.cal.items 88 fun x => { x with state := .running, steps := 1 } } },
      by decide, by decide, by decide, by decide, by decide⟩,
    ⟨11, 0, 88, { live with time := 10 ^ 12 }, by decide, by decide, by decide⟩,
    ⟨11, 0, 88,
      { live with time := 10 ^ 12, cal := { live.cal with items := upd live.cal.items 88 fun x => { x with state := .due } } },
      by decide, by decide, by decide, by decide, by decide, by decide⟩,
    ⟨live, by decide, by decide⟩,
    ⟨1, 0, (0, 0), live, by decide, by decide⟩,
    ⟨{ live with cal := { live.cal with planDue := true } }, by decide, by decide, by decide, by decide, by decide⟩,
    ⟨.nvme 0, 1, live, ⟨by decide, by decide, by decide, by decide⟩⟩,
    ⟨0, live, by decide, by decide, by decide⟩⟩

set_option maxRecDepth 20000 in
/-- Hypotheses of `RecorderCommandsComplete`. -/
theorem wit_Recorder :
    (∃ (island : IslandId) (s : State), s.recUp = true) ∧
    (∃ (island : IslandId) (s : State),
      s.recUp = true ∧ 0 < s.recorder.queues[island].overflow ∧ s.recorder.queues[island].reports.length < reportQueueDepth) ∧
    (∃ (code : Nat) (s : State), s.recUp = true) ∧
    (∃ (s : State), s.recUp = true ∧ s.recorder.tickMarkAt + sTicks (s.obN Obj.tickMarkInterval) ≤ s.time) ∧
    (∃ (s : State), s.recUp = true ∧ s.recorder.page = [] ∧ s.recorder.storeForeign = false) ∧
    (∃ (failed : Bool) (s : State), s.recUp = true) ∧
    (∃ (cl : Client) (v : Int) (s : State), s.Takes cl Obj.flushRequest 0 0 v) ∧
    (∃ (s : State), s.recUp = true ∧ s.recorder.page = []) ∧
    (∃ (cl : Client) (v : Int) (authorised : Option Bool) (s : State),
      s.Takes cl Obj.runningAreaClear 0 0 v ∧
      (s.authorise cl (Obj.runningAreaClear.key 0 0) (leBytes Obj.runningAreaClear.type.size v) authorised).2 = none ∧
      s.recorder.storeForeign = false ∧ (s.recorder.runningArea == []) = false ∧
      ((s.recorder.lowest : Int) ≤ v ∧ v ≤ (s.recorder.runningArea.map fun x => (x.seq : Int)).max?.getD 0) ∧
      s.recorder.clearing = none ∧ s.recorder.clearWaits = none) ∧
    (∃ (cl : Client) (v : Int) (authorised : Option Bool) (s : State),
      s.Takes cl Obj.eventStoreInit 0 0 v ∧
      (s.authorise cl (Obj.eventStoreInit.key 0 0) (leBytes Obj.eventStoreInit.type.size v) authorised).2 = none ∧
      (!s.recorder.storeForeign) = false) :=
  ⟨⟨0, recording, by decide⟩,
    ⟨0, recording.updR fun r => { r with queues := upd r.queues 0 fun q => { q with overflow := 1 } }, by decide, by decide,
      by decide⟩,
    ⟨0, recording, by decide⟩,
    ⟨{ recording with time := 10 ^ 12 }, by decide, by decide⟩,
    ⟨recording, by decide, by decide, by decide⟩,
    ⟨false, recording, by decide⟩,
    ⟨.nvme 0, 1, live, ⟨by decide, by decide, by decide, by decide⟩⟩,
    ⟨recording, by decide, by decide⟩,
    ⟨.nvme 0, 1, some true, trusted.updR fun r => { r with runningArea := [⟨1, 0, 0, false, false, false, []⟩] },
      ⟨by decide, by decide, by decide, by decide⟩, by decide, by decide, by decide, by decide, by decide, by decide⟩,
    ⟨.nvme 0, 1, some true, trusted.updR fun r => { r with storeForeign := true },
      ⟨by decide, by decide, by decide, by decide⟩, by decide, by decide⟩⟩

set_option maxRecDepth 20000 in
/-- Hypotheses of `MilestoneAndTraceCommandsComplete`. -/
theorem wit_MilestoneAndTrace :
    (∃ (cl : Client) (v : Int) (s : State), s.Takes cl Obj.milestoneRequest 0 0 v) ∧
    (∃ (s : State), s.svUp 0 = true) ∧
    (∃ (cycle : Nat) (s : State), s.svUp 0 = true ∧ s.milestone.pendingSources ≠ 0) ∧
    (∃ (island : IslandId) (latencyNs : Nat) (s : State),
      s.milestone.state = .capturing ∧ s.islandUp island = true ∧ (s.milestone.blocks[island]).valid = false) ∧
    (∃ (cl : Client) (v : Int) (s : State), s.Takes cl Obj.milestoneRelease 0 0 v) ∧
    (∃ (cl : Client) (ch : Fin 8) (s : State), s.Takes cl Obj.traceCommand ch 0 1) ∧
    (∃ (cl : Client) (ch : Fin 8) (s : State), s.Takes cl Obj.traceCommand ch 0 2) ∧
    (∃ (ch : Fin 8) (s : State),
      s.traces[ch].state = .armed ∧
      ((((s.obN Obj.traceMode ch) == 1 && decide (traceDepth ≤ s.traces[ch].samples.length)) || ((s.obN Obj.traceMode ch) == 2 && s.traces[ch].postLeft == some 0))) = true) :=
  ⟨⟨.nvme 0, 1, live, ⟨by decide, by decide, by decide, by decide⟩⟩,
    ⟨live, by decide⟩,
    ⟨0, { live with milestone := { live.milestone with pendingSources := 1 } }, by decide, by decide⟩,
    ⟨0, 0, { live with milestone := { live.milestone with state := .capturing } }, by decide, by decide, by decide⟩,
    ⟨.nvme 0, 1, live, ⟨by decide, by decide, by decide, by decide⟩⟩,
    ⟨.nvme 0, 0, live, ⟨by decide, by decide, by decide, by decide⟩⟩,
    ⟨.nvme 0, 0, live, ⟨by decide, by decide, by decide, by decide⟩⟩,
    ⟨0,
      { (live.setOb Obj.traceMode 0 0 2) with traces := upd live.traces 0 fun t => { t with state := .armed, postLeft := some 0 } },
      by decide, by decide⟩⟩

set_option maxRecDepth 20000 in
/-- Hypotheses of `StartResetAndSupplyCommandsComplete`. -/
theorem wit_StartResetAndSupply :
    (∃ (failure : Fin 5) (failingRows : List (Nat × Nat)) (roundTrips : List Nat) (s : State),
      s.verge.powered = true ∧ ((s.power.phase == .held || s.power.phase == .unpowered)) = true) ∧
    (∃ (s : State), s.verge.powered = false) ∧
    (∃ (s : State), (s.running || s.power.phase == .failed) = true) ∧
    (∃ (s : State), s.coreUp = true) ∧
    (∃ (s : State), s.running = true ∧ s.power.coreDown = true ∧ (s.host.activation.any fun a => a.loaded) = false) ∧
    (∃ (cl : Client) (v : Int) (authorised : Option Bool) (s : State),
      s.Takes cl Obj.islandResetRequest 0 0 v ∧
      (s.authorise cl (Obj.islandResetRequest.key 0 0) (leBytes Obj.islandResetRequest.type.size v) authorised).2 = none ∧
      (!s.resettable v) = false) ∧
    (∃ (s : State), s.running = true ∧ s.power.quietLocked = true) ∧
    (∃ (s : State), s.running = true ∧ s.power.quietLocked = false) ∧
    (∃ (s : State), s.running = true ∧ s.power.systemLocked = true) ∧
    (∃ (level heldUs : Nat) (s : State),
      s.verge.powered = true ∧ (s.verge.comps[(0 : Fin 4)]).tripped = false ∧ s.exceeds 0 level = true ∧
      s.obN Obj.compFilter 0 ≤ heldUs) ∧
    (∃ (level heldUs : Nat) (s : State),
      s.verge.powered = true ∧ (s.verge.comps[(1 : Fin 4)]).tripped = false ∧ s.exceeds 1 level = true ∧
      s.obN Obj.compFilter 1 ≤ heldUs) ∧
    (∃ (level heldUs : Nat) (s : State),
      s.verge.powered = true ∧ (s.verge.comps[(2 : Fin 4)]).tripped = false ∧ s.exceeds 2 level = true ∧
      s.obN Obj.compFilter 2 ≤ heldUs) ∧
    (∃ (heldUs : Nat) (s : State),
      s.verge.powered = true ∧ (s.verge.comps[(3 : Fin 4)]).tripped = false ∧ s.exceeds 3 0 = true ∧
      s.obN Obj.compFilter 3 ≤ heldUs) ∧
    (∃ (k : Fin 4) (level heldUs : Nat) (s : State),
      s.verge.powered = true ∧ s.absent k level = true ∧ s.obN Obj.compFilter k ≤ heldUs) ∧
    (∃ (cause : Fin 6) (s : State), s.power.phase = .ps3 ∧ s.mayWake cause = true) ∧
    (∃ (s : State), s.verge.powered = true) ∧
    (∃ (s : State), s.power.phase ≠ .ps3) :=
  ⟨⟨0, [], [], { State.reset with verge := { powered := true } }, by decide, by decide⟩,
    ⟨State.reset, by decide⟩,
    ⟨live, by decide⟩,
    ⟨live, by decide⟩,
    ⟨{ live with power := { live.power with coreDown := true } }, by decide, by decide, by decide⟩,
    ⟨.nvme 0, 0, some true, trusted, ⟨by decide, by decide, by decide, by decide⟩, by decide, by decide⟩,
    ⟨live, by decide, by decide⟩,
    ⟨{ live with power := { live.power with quietLocked := false } }, by decide, by decide⟩,
    ⟨live, by decide, by decide⟩,
    ⟨0, 1000, live, by decide, by decide, by decide, by decide⟩,
    ⟨1000, 1000, live, by decide, by decide, by decide, by decide⟩,
    ⟨1000, 1000, live, by decide, by decide, by decide, by decide⟩,
    ⟨1000, live.putKey (Obj.dieTemperature.key 0 0) 11000, by decide, by decide, by decide, by decide⟩,
    ⟨0, 1800, 1000, live, by decide, by decide, by decide⟩,
    ⟨4, { live with power := { live.power with phase := .ps3 } }, by decide, by decide⟩,
    ⟨live, by decide⟩,
    ⟨live, by decide⟩⟩

set_option maxRecDepth 20000 in
/-- Hypotheses of `ServiceCommandsComplete`. -/
theorem wit_Service :
    (∃ (cl : Client) (v : Int) (s : State), s.Takes cl Obj.timeOfDay 0 0 v) ∧
    (∃ (cl : Client) (v : Int) (authorised : Option Bool) (s : State),
      s.Takes cl Obj.firmwareKeyRevoke 0 0 v ∧
      (s.authorise cl (Obj.firmwareKeyRevoke.key 0 0) (leBytes Obj.firmwareKeyRevoke.type.size v) authorised).2 = none ∧
      ((s.slot? s.power.activeSlot).any fun m => m.keyIndex == v.toNat) = false ∧
      s.otp.keyRevoked ||| BitVec.ofNat 4 (2 ^ v.toNat) ≠ 15#4) ∧
    (∃ (c : CtrlId) (s : State), (s.host.ctrls[c]).link = 2) ∧
    (∃ (speed : Fin 4) (s : State), s.running = true) ∧
    (∃ (port : Fin 2) (transmit receive : Int) (s : State),
      s.running = true ∧ (((s.signpost.can[port]).state == 1 || (s.signpost.can[port]).state == 2)) = true) ∧
    (∃ (s : State), s.memUp = true ∧ s.host.powerState = 2) ∧
    (∃ (delays : List Nat) (s : State), s.running = true) ∧
    (∃ (kind : Fin 4) (arg : Nat) (data : List Byte) (s : State), (s.running || s.power.phase == .failed) = true) ∧
    (∃ (c : CtrlId) (s : State), s.hostUp = true) :=
  ⟨⟨.nvme 0, 0, live, ⟨by decide, by decide, by decide, by decide⟩⟩,
    ⟨.nvme 0, 3, some true, trusted, ⟨by decide, by decide, by decide, by decide⟩, by decide, by decide, by decide⟩,
    ⟨0, live.updCtrl 0 fun x => { x with link := 2 }, by decide⟩,
    ⟨3, live, by decide⟩,
    ⟨0, 1, 0, canLive, by decide, by decide⟩,
    ⟨{ live with host := { live.host with powerState := 2 } }, by decide, by decide⟩,
    ⟨[], live, by decide⟩,
    ⟨0, 0, [], live, by decide⟩,
    ⟨0, live, by decide⟩⟩

end Sys2Proof.Tests
end

section
/-! PROOFS. The scope of the block (family 00): a command of one channel, spindle, axis or pickup leaves the others as they were, how pickups, sides and
beams are numbered, the sled encoder in the VP6480-Q, the sizes of R9. -/

namespace Sys2Proof.Machine

/-! ### All entries of a table but one -/

section KeptBut

variable {α : Type} {n : Nat} {i : Fin n} {v w : Vector α n}

@[simp] theorem KeptBut.refl (i : Fin n) (v : Vector α n) : KeptBut i v v := fun _ _ => rfl

theorem KeptBut.of_eq (h : w = v) : KeptBut i v w := h ▸ .refl i v

/-- A change of the entry left out is not seen. -/
@[simp] theorem keptBut_upd_iff {f : α → α} : KeptBut i v (upd w i f) ↔ KeptBut i v w :=
  forall₂_congr fun _ hj => by rw [getElem_upd_other w f (Ne.symm hj)]

end KeptBut

/-- A part that an operation does not name is as it was. -/
theorem Eff.same {l : List Part} {s t : State} (h : Eff l s t) (q : Part) (hq : q ∉ l := by decide) : q.same s t := h.frame q hq

/-- An outcome leaves every entry of a table but entry `i` as it was. -/
def OthersKept {α : Type} {n : Nat} (table : State → Vector α n) (i : Fin n) (s : State) (o : Out) : Prop :=
  ∀ t, o = .next t → KeptBut i (table s) (table t)

/-- A guarded command: its effect decides. -/
theorem State.when_othersKept {α : Type} {n : Nat} {table : State → Vector α n} {i : Fin n} {s : State} {c : Bool} {f : State → State}
    (h : KeptBut i (table s) (table (f s))) : OthersKept table i s (s.when c f) := by
  rintro t ⟨⟩
  cases c
  · exact .refl i _
  · exact h

/-! ### Commands of a channel -/

theorem execAgcUpdate_othersKept (g : BeamId) (codes : List Int) (s : State) :
    OthersKept State.channels g s (execAgcUpdate g codes s) := by
  unfold execAgcUpdate
  exact State.when_othersKept (by simp)

theorem execFrameSlotRelease_othersKept (g : BeamId) (slot : Fin 3) (s : State) :
    OthersKept State.channels g s (execFrameSlotRelease g slot s) := by
  unfold execFrameSlotRelease
  exact State.when_othersKept (by simp)

theorem execEnvelopeFlag_othersKept (g : BeamId) (s : State) : OthersKept State.channels g s (execEnvelopeFlag g s) := by
  unfold execEnvelopeFlag
  exact State.when_othersKept (by split <;> simp)

theorem execGuideFlag_othersKept (g : BeamId) (s : State) : OthersKept State.channels g s (execGuideFlag g s) := by
  unfold execGuideFlag
  exact State.when_othersKept (by split <;> simp)

theorem execLockLost_othersKept (g : BeamId) (s : State) : OthersKept State.channels g s (execLockLost g s) := by
  unfold execLockLost
  exact State.when_othersKept (by simp)

theorem execItiFracDelayStep_othersKept (g : BeamId) (j : Fin 4) (s : State) :
    OthersKept State.channels g s (execItiFracDelayStep g j s) := by
  unfold execItiFracDelayStep
  exact State.when_othersKept (by simp)

theorem execItiLimit_othersKept (g : BeamId) (j : Fin 4) (s : State) : OthersKept State.channels g s (execItiLimit g j s) := by
  unfold execItiLimit
  exact State.when_othersKept (by simp)

theorem execTimingAcqEnd_othersKept (g : BeamId) (s : State) : OthersKept State.channels g s (execTimingAcqEnd g s) := by
  unfold execTimingAcqEnd
  exact State.when_othersKept (by simp)

theorem execTimingRelock_othersKept (g : BeamId) (s : State) : OthersKept State.channels g s (execTimingRelock g s) := by
  unfold execTimingRelock
  exact State.when_othersKept (by simp)

theorem execTimingUnlock_othersKept (g : BeamId) (s : State) : OthersKept State.channels g s (execTimingUnlock g s) := by
  unfold execTimingUnlock
  exact State.when_othersKept (by simp)

/-! ### Commands of a spindle -/

/-- A report of a spindle changes no spindle. -/
@[simp] theorem State.spinReport_spindles (s : State) (i : SpindleId) (code : Nat) (rest : List Int) :
    (s.spinReport i code rest).spindles = s.spindles := (State.spinReport_eff s i code rest).same .spindles

@[simp] theorem State.seed_keptBut_iff {i : SpindleId} {v : Vector Spindle 4} {s : State} {angle : Nat} {n : Int} :
    KeptBut i v (s.seed i angle n).spindles ↔ KeptBut i v s.spindles := keptBut_upd_iff

@[simp] theorem State.enterRunning_keptBut_iff {i : SpindleId} {v : Vector Spindle 4} {s : State} :
    KeptBut i v (s.enterRunning i).spindles ↔ KeptBut i v s.spindles := by
  simp [State.enterRunning]

@[simp] theorem State.integrateFlux_keptBut_iff {i : SpindleId} {v : Vector Spindle 4} {s : State} {ia ib : Int} :
    KeptBut i v (s.integrateFlux i ia ib).spindles ↔ KeptBut i v s.spindles := keptBut_upd_iff

@[simp] theorem State.switchVector_keptBut_iff {i : SpindleId} {v : Vector Spindle 4} {s : State} {ia ib : Int} :
    KeptBut i v (s.switchVector i ia ib).spindles ↔ KeptBut i v s.spindles := keptBut_upd_iff

theorem execSensingEnd_othersKept (i : SpindleId) (s : State) : OthersKept State.spindles i s (execSensingEnd i s) := by
  unfold execSensingEnd
  extract_lets m
  refine State.when_othersKept ?_
  extract_lets found n angle
  split
  · simp
  · split <;> simp

theorem execAlignEnd_othersKept (i : SpindleId) (s : State) : OthersKept State.spindles i s (execAlignEnd i s) := by
  unfold execAlignEnd
  exact State.when_othersKept (by simp)

theorem execHandover_othersKept (i : SpindleId) (s : State) : OthersKept State.spindles i s (execHandover i s) := by
  unfold execHandover
  exact State.when_othersKept (by simp)

theorem execStartAttemptFail_othersKept (i : SpindleId) (s : State) :
    OthersKept State.spindles i s (execStartAttemptFail i s) := by
  unfold execStartAttemptFail
  exact State.when_othersKept (by simp)

theorem execCatchSpinLock_othersKept (i : SpindleId) (s : State) : OthersKept State.spindles i s (execCatchSpinLock i s) := by
  unfold execCatchSpinLock
  exact State.when_othersKept (by simp)

theorem execDtcEvaluation_othersKept (i : SpindleId) (currents : List Int) (s : State) :
    OthersKept State.spindles i s (execDtcEvaluation i currents s) := by
  unfold execDtcEvaluation
  exact State.when_othersKept (by dsimp only; split <;> simp)

/-- Nor does a report that is made under a condition. -/
theorem State.spinReport_if_spindles (s : State) (i : SpindleId) (code : Nat) (rest : List Int) (c : Prop) [Decidable c] :
    (if c then s.spinReport i code rest else s).spindles = s.spindles := by
  split
  · exact s.spinReport_spindles i code rest
  · rfl

theorem execSpeedSample_othersKept (i : SpindleId) (s : State) : OthersKept State.spindles i s (execSpeedSample i s) := by
  unfold execSpeedSample
  refine State.when_othersKept ?_
  extract_lets m src milliRpm count changed u goal ref meas phRef ph e integ raw brake drive t dtc wraps acc tgt near v w
  have hu : u.spindles = s.spindles := State.spinReport_if_spindles ..
  have hw : KeptBut i u.spindles w.spindles := keptBut_upd_iff.2 (.refl i _)
  rw [State.spinReport_if_spindles, ← hu]
  exact hw

theorem execVbusLow_othersKept (i : SpindleId) (s : State) : OthersKept State.spindles i s (execVbusLow i s) := by
  unfold execVbusLow
  exact State.when_othersKept (by simp)

/-- A change of sides, one by one, leaves the spindles. -/
theorem State.forEach_updS_spindles (s : State) (l : List PickupId) (f : State → PickupId → Side → Side) :
    (s.forEach l fun s p => s.updS p (f s p)).spindles = s.spindles :=
  (Eff.forEach (.refl [.sides] s) fun u p hu => (State.updS_eff u p (f u p)).after hu).same .spindles

theorem execRateMatchEvaluation_othersKept (i : SpindleId) (s : State) :
    OthersKept State.spindles i s (execRateMatchEvaluation i s) := by
  unfold execRateMatchEvaluation
  refine State.when_othersKept ?_
  extract_lets en writes one l rates best u
  rw [State.forEach_updS_spindles]
  exact keptBut_upd_iff.2 (.refl i _)

theorem execFrictionTorqueApply_othersKept (i : SpindleId) (s : State) :
    OthersKept State.spindles i s (execFrictionTorqueApply i s) := by
  unfold execFrictionTorqueApply
  exact State.when_othersKept (by simp)

/-! ### Commands of an axis -/

theorem execStallRetry_othersKept (a : AxisId) (s : State) : OthersKept State.axes a s (execStallRetry a s) := by
  unfold execStallRetry
  exact State.when_othersKept (by simp)

theorem execHoldDelayExpiry_othersKept (a : AxisId) (s : State) : OthersKept State.axes a s (execHoldDelayExpiry a s) := by
  unfold execHoldDelayExpiry
  exact State.when_othersKept (by simp)

theorem execHomingEnd_othersKept (a : AxisId) (s : State) : OthersKept State.axes a s (execHomingEnd a s) := by
  unfold execHomingEnd
  exact State.when_othersKept (by simp)

/-! ### Commands of a pickup -/

@[simp] theorem State.updLoop_keptBut_iff {p : PickupId} {v : Vector Pickup 8} {s : State} {l : ServoLoop} {f : LoopState → LoopState} :
    KeptBut p v (s.updLoop p l f).pickups ↔ KeptBut p v s.pickups := keptBut_upd_iff

@[simp] theorem State.closeLoop_keptBut_iff {p : PickupId} {v : Vector Pickup 8} {s : State} {l : ServoLoop} :
    KeptBut p v (s.closeLoop p l).pickups ↔ KeptBut p v s.pickups := State.updLoop_keptBut_iff

@[simp] theorem State.startCapture_keptBut_iff {p : PickupId} {v : Vector Pickup 8} {s : State} :
    KeptBut p v (s.startCapture p).pickups ↔ KeptBut p v s.pickups := by
  simp [State.startCapture, State.openHere, State.openLoop]

theorem execFocusClose_othersKept (p : PickupId) (s : State) : OthersKept State.pickups p s (execFocusClose p s) := by
  unfold execFocusClose
  exact State.when_othersKept (by simp)

theorem execFocusSettle_othersKept (p : PickupId) (s : State) : OthersKept State.pickups p s (execFocusSettle p s) := by
  unfold execFocusSettle
  exact State.when_othersKept (by split <;> simp)

theorem execCaptureSettle_othersKept (p : PickupId) (s : State) : OthersKept State.pickups p s (execCaptureSettle p s) := by
  unfold execCaptureSettle
  exact State.when_othersKept (by simp)

theorem execGuidePassage_othersKept (p : PickupId) (s : State) : OthersKept State.pickups p s (execGuidePassage p s) := by
  unfold execGuidePassage
  refine State.when_othersKept ?_
  dsimp only
  split
  · split
    · split <;> simp
    · simp
  · split
    · split <;> simp
    · simp

theorem execMapAdaptRevolution_othersKept (p : PickupId) (s : State) :
    OthersKept State.pickups p s (execMapAdaptRevolution p s) := by
  unfold execMapAdaptRevolution
  exact State.when_othersKept (by simp)

theorem execJumpKickEnd_othersKept (p : PickupId) (s : State) : OthersKept State.pickups p s (execJumpKickEnd p s) := by
  unfold execJumpKickEnd
  exact State.when_othersKept (by simp)

/-- Settles O13: each command ends in changes of its own entry of a table, and its reports and counters lie outside the tables. -/
theorem instancesAreIndependent : Obligations.InstancesAreIndependent := by
  refine ⟨fun g c hc s => ?_, fun i c hc s => ?_, fun a c hc s => ?_, fun p c hc s => ?_⟩
  · obtain ⟨codes, rfl⟩ | ⟨slot, rfl⟩ | rfl | rfl | rfl | ⟨j, rfl⟩ | ⟨j, rfl⟩ | rfl | rfl | rfl := hc
    · exact execAgcUpdate_othersKept g codes s
    · exact execFrameSlotRelease_othersKept g slot s
    · exact execEnvelopeFlag_othersKept g s
    · exact execGuideFlag_othersKept g s
    · exact execLockLost_othersKept g s
    · exact execItiFracDelayStep_othersKept g j s
    · exact execItiLimit_othersKept g j s
    · exact execTimingAcqEnd_othersKept g s
    · exact execTimingRelock_othersKept g s
    · exact execTimingUnlock_othersKept g s
  · obtain rfl | rfl | rfl | rfl | rfl | ⟨currents, rfl⟩ | rfl | rfl | rfl | rfl := hc
    · exact execSensingEnd_othersKept i s
    · exact execAlignEnd_othersKept i s
    · exact execHandover_othersKept i s
    · exact execStartAttemptFail_othersKept i s
    · exact execCatchSpinLock_othersKept i s
    · exact execDtcEvaluation_othersKept i currents s
    · exact execSpeedSample_othersKept i s
    · exact execVbusLow_othersKept i s
    · exact execRateMatchEvaluation_othersKept i s
    · exact execFrictionTorqueApply_othersKept i s
  · obtain rfl | rfl | rfl := hc
    · exact execStallRetry_othersKept a s
    · exact execHoldDelayExpiry_othersKept a s
    · exact execHomingEnd_othersKept a s
  · obtain rfl | rfl | rfl | rfl | rfl | rfl := hc
    · exact execFocusClose_othersKept p s
    · exact execFocusSettle_othersKept p s
    · exact execCaptureSettle_othersKept p s
    · exact execGuidePassage_othersKept p s
    · exact execMapAdaptRevolution_othersKept p s
    · exact execJumpKickEnd_othersKept p s

/-! ### Numbers of pickups, sides and beams (R10) -/

/-- Pickup p is side p mod 2 of spindle p / 2. -/
theorem PickupId.val_eq (p : PickupId) : p.val = 2 * p.spindle.val + p.side := (Nat.div_add_mod p.val 2).symm

theorem PickupId.side_lt (p : PickupId) : p.side < 2 := Nat.mod_lt _ (by decide)

/-- Beam g is beam g mod 4 of pickup g / 4. -/
theorem BeamId.val_eq (g : BeamId) : g.val = 4 * g.pickup.val + g.inPickup.val := (Nat.div_add_mod g.val 4).symm

theorem PickupId.beam_pickup (p : PickupId) (b : Fin 4) : (p.beam b).pickup = p :=
  Fin.ext (by simp only [PickupId.beam, BeamId.pickup]; omega)

theorem PickupId.beam_inPickup (p : PickupId) (b : Fin 4) : (p.beam b).inPickup = b :=
  Fin.ext (by simp only [PickupId.beam, BeamId.inPickup]; omega)

theorem SpindleId.pickup_spindle (i : SpindleId) (side : Fin 2) : (i.pickup side).spindle = i :=
  Fin.ext (by simp only [SpindleId.pickup, PickupId.spindle]; omega)

/-- Settles O10: quotient and remainder by 2 and by 4. -/
theorem instanceNumbering : Obligations.InstanceNumbering :=
  ⟨fun p => ⟨PickupId.val_eq p, PickupId.side_lt p⟩, fun p b => ⟨rfl, PickupId.beam_pickup p b, PickupId.beam_inPickup p b⟩,
    BeamId.val_eq, fun i side => ⟨rfl, SpindleId.pickup_spindle i side⟩⟩

/-! ### The sled encoder in the VP6480-Q (R5) -/

section SledInQ

variable {a : AxisId} {s : State}

/-- The variant Q does not use the encoder of a sled. -/
theorem State.encoderUsed_of_sled_of_q (ha : a.isSled = true) (hq : s.otp.variant = .q) : s.encoderUsed a = false := by
  simp [State.encoderUsed, ha, hq]

/-- An encoder that is not used counts nothing. -/
theorem State.axisEncoder_of_unused (h : s.encoderUsed a = false) (delta before : Int) : s.axisEncoder a delta before = s := by
  simp [State.axisEncoder, h]

/-- What a guarded command does rests on its effect alone. -/
theorem State.when_congr {c : Bool} {f f' : State → State} (h : f s = f' s) : s.when c f = s.when c f' := by
  simp only [State.when, h]

theorem execProfilePeriod_of_sled_of_q (ha : a.isSled = true) (hq : s.otp.variant = .q) (d d' : Int) (coils : List (Int × Int))
    (vm : Nat) (flt : Bool) : execProfilePeriod a d coils vm flt s = execProfilePeriod a d' coils vm flt s := by
  refine State.when_congr ?_
  extract_lets u before w
  have hw : w.otp = s.otp := ((State.axisMotion_eff u a).same .otp).trans ((State.axisLimits_eff _ a).same .otp)
  rcases hc : w.coilPeriods a coils (supplyOf a vm) before with ⟨x, ea, eb⟩
  have hx : x.otp = s.otp := ((State.coilPeriods_eff hc).same .otp).trans hw
  have unused : x.encoderUsed a = false := State.encoderUsed_of_sled_of_q ha (hx ▸ hq)
  simp only [ha, if_true, State.axisEncoder_of_unused unused]

theorem execEncoderError_of_sled_of_q (ha : a.isSled = true) (hq : s.otp.variant = .q) : execEncoderError a s = .next s := by
  simp [execEncoderError, State.when, State.encoderUsed_of_sled_of_q ha hq]

end SledInQ

/-- Settles O12: a sled's encoder is not in use, and no part of PROFILE_PERIOD before the encoder changes the variant fuses. -/
theorem sledEncoderHasNoEffectInQ : Obligations.SledEncoderHasNoEffectInQ :=
  ⟨fun _ d d' coils vm flt _ ha hq => execProfilePeriod_of_sled_of_q ha hq d d' coils vm flt,
    fun _ _ ha hq => execEncoderError_of_sled_of_q ha hq⟩

/-! ### Sizes (R9) -/

/-- Before Number of Queues is set, 4,095 I/O submission queues are allocated beside the admin queue: the model's choice (log entry 77). -/
theorem Controller.sqAllocated_of_unset {x : Controller} (h : x.features = []) : x.sqAllocated = 4095 := by
  rw [Controller.sqAllocated, h]; rfl

/-- The same for completion queues. -/
theorem Controller.cqAllocated_of_unset {x : Controller} (h : x.features = []) : x.cqAllocated = 4095 := by
  rw [Controller.cqAllocated, h]; rfl

/-- The shared SRAM has 16 MiB. -/
theorem placeExists_sram_iff (place : Nat) : placeExists 0 place = true ↔ place < 16 * 2 ^ 20 :=
  decide_eq_true_iff

/-- Home positions lie below the spare pool (R45): 67 zones of a layer, 4,096 clusters each. -/
theorem homeQ_lt_spareFrom (z : Nat) {c : Nat} (hc : c < zoneClusters) : homeQ z c < spareFrom := by
  have hz : z % 67 < 67 := Nat.mod_lt _ (by decide)
  simp only [homeQ, zoneClusters, spareFrom] at hc ⊢
  omega

/-- Settles O35: the constants of the model, the home position of a cluster, and the unset Number of Queues, whose value is the model's own
choice (log entry 77). -/
theorem sizesOfTheBlock : Obligations.SizesOfTheBlock := by
  refine ⟨Fintype.card_fin 48, fun x hx => ?_, placeExists_sram_iff, by decide, by decide, ?_, fun z c _ hc => homeQ_lt_spareFrom z hc,
    by decide, by decide⟩
  · rw [Controller.sqAllocated_of_unset hx, Controller.cqAllocated_of_unset hx]
    exact ⟨rfl, rfl⟩
  · rw [Fintype.card_fin]

end Sys2Proof.Machine
end

section
/-! PROOFS. The medium (family 01): the check of a lane address word, the spare that an allocation takes, zones and their positions. -/

namespace Sys2Proof.Machine

/-! ### A cyclic redundancy check sees one wrong bit (R30) -/

/-- One bit of a check: the register doubles, and takes the generator in where its top bit differs from the bit. -/
def crcBit (width poly c : Nat) (b : Bool) : Nat :=
  if Nat.testBit c (width - 1) != b then Nat.xor (c * 2 % 2 ^ width) poly else c * 2 % 2 ^ width

theorem crcBits_eq_foldl (width poly init : Nat) (bits : List Bool) :
    crcBits width poly init bits = bits.foldl (crcBit width poly) init := rfl

theorem crcBits_append (width poly init : Nat) (as bs : List Bool) :
    crcBits width poly init (as ++ bs) = crcBits width poly (crcBits width poly init as) bs := by
  simp only [crcBits_eq_foldl, List.foldl_append]

theorem crcBits_cons (width poly init : Nat) (b : Bool) (bs : List Bool) :
    crcBits width poly init (b :: bs) = crcBits width poly (crcBit width poly init b) bs := rfl

section Generator

variable {width poly : Nat}

theorem crcBit_testBit (c : Nat) (b : Bool) (i : Nat) : (crcBit width poly c b).testBit i =
    ((decide (i < width) && (decide (1 ≤ i) && c.testBit (i - 1))) ^^ ((c.testBit (width - 1) != b) && poly.testBit i)) := by
  have shifted : (c * 2 % 2 ^ width).testBit i = (decide (i < width) && (decide (1 ≤ i) && c.testBit (i - 1))) := by
    rw [Nat.testBit_mod_two_pow]
    exact congrArg _ (Nat.testBit_mul_two_pow c i 1)
  cases h : c.testBit (width - 1) != b
  · simp [crcBit, h, shifted]
  · rw [← shifted, crcBit, if_pos h]
    exact (Nat.testBit_xor ..).trans (by simp)

/-- Bit 0 of the next register is the feedback, since the generator has a constant term. -/
theorem crcBit_testBit_zero (odd : poly.testBit 0 = true) (c : Nat) (b : Bool) :
    (crcBit width poly c b).testBit 0 = (c.testBit (width - 1) != b) := by
  rw [crcBit_testBit, odd]
  simp

theorem crcBit_testBit_succ (c : Nat) (b : Bool) {i : Nat} (hi : i + 1 < width) :
    (crcBit width poly c b).testBit (i + 1) = (c.testBit i ^^ ((c.testBit (width - 1) != b) && poly.testBit (i + 1))) := by
  simp [crcBit_testBit, hi]

/-- Two registers that agree in all `width` bits. -/
def SameRegister (width c c' : Nat) : Prop := ∀ i, i < width → c.testBit i = c'.testBit i

/-- The same bit taken in never makes two registers one. -/
theorem SameRegister.of_crcBit (odd : poly.testBit 0 = true) {c c' : Nat} {b : Bool}
    (h : SameRegister width (crcBit width poly c b) (crcBit width poly c' b)) : SameRegister width c c' := by
  intro i hi
  have top : c.testBit (width - 1) = c'.testBit (width - 1) := by
    have h0 := h 0 (by omega)
    simpa [crcBit_testBit_zero odd] using h0
  obtain rfl | below : i = width - 1 ∨ i + 1 < width := by omega
  · exact top
  · have hs := h (i + 1) below
    simpa [crcBit_testBit_succ _ _ below, top] using hs

theorem SameRegister.of_crcBits (odd : poly.testBit 0 = true) {c c' : Nat} {bits : List Bool}
    (h : SameRegister width (crcBits width poly c bits) (crcBits width poly c' bits)) : SameRegister width c c' := by
  induction bits generalizing c c' with
  | nil => exact h
  | cons b bs ih => exact .of_crcBit odd (ih h)

/-- One inverted bit changes the check, for every generator with a constant term. -/
theorem crcBits_modify_not_ne (hw : 0 < width) (odd : poly.testBit 0 = true) (init : Nat) {bits : List Bool} {k : Nat}
    (hk : k < bits.length) : crcBits width poly init (bits.modify k not) ≠ crcBits width poly init bits := by
  obtain ⟨as, b, bs, split, -, flipped⟩ := List.exists_of_modify not hk
  rw [flipped, split, crcBits_append, crcBits_append, crcBits_cons, crcBits_cons]
  intro same
  have before : SameRegister width (crcBit width poly (crcBits width poly init as) (!b))
      (crcBit width poly (crcBits width poly init as) b) :=
    .of_crcBits odd (bits := bs) fun i _ => by rw [same]
  have feedback := before 0 hw
  simp [crcBit_testBit_zero odd] at feedback

end Generator

/-- Inverting bit j of a number inverts item n - 1 - j of its bits. -/
theorem msbBits_xor_two_pow {n j : Nat} (v : Nat) (hj : j < n) :
    msbBits n (v ^^^ 2 ^ j) = (msbBits n v).modify (n - 1 - j) not := by
  refine List.ext_getElem (by simp [msbBits]) fun i hi _ => ?_
  have hi : i < n := by simpa [msbBits] using hi
  have place : j = n - 1 - i ↔ n - 1 - j = i := by omega
  by_cases h : n - 1 - j = i <;> simp [msbBits, Nat.testBit_xor, Nat.testBit_two_pow, place, h]

/-! ### A LAW with one wrong bit -/

theorem toNat_xor_ofNat_two_pow (w : BitVec 32) {i : Nat} (hi : i < 32) :
    (w ^^^ BitVec.ofNat 32 (2 ^ i)).toNat = w.toNat ^^^ 2 ^ i := by
  rw [BitVec.toNat_xor, BitVec.toNat_ofNat, Nat.mod_eq_of_lt (Nat.pow_lt_pow_right (by decide) hi)]

theorem lawCheck_eq_mod (w : BitVec 32) : lawCheck w = w.toNat % 2 ^ 5 := by
  rw [lawCheck, BitVec.extractLsb'_toNat, Nat.shiftRight_zero]

section WrongBit

variable (w : BitVec 32) {i : Nat}

theorem lawCheck_wrongBit (hi : i < 32) : lawCheck (w ^^^ BitVec.ofNat 32 (2 ^ i)) = lawCheck w ^^^ 2 ^ i % 2 ^ 5 := by
  rw [lawCheck_eq_mod, lawCheck_eq_mod, toNat_xor_ofNat_two_pow w hi, Nat.xor_mod_two_pow]

theorem lawCrc_wrongBit (hi : i < 32) :
    lawCrc (w ^^^ BitVec.ofNat 32 (2 ^ i)) = crcBits 5 0b00101 0b11111 (msbBits 27 (w.toNat / 32 ^^^ 2 ^ i / 32)) := by
  have cut : (w.toNat ^^^ 2 ^ i) / 32 = w.toNat / 32 ^^^ 2 ^ i / 32 := Nat.xor_div_two_pow (n := 5)
  rw [lawCrc, toNat_xor_ofNat_two_pow w hi, cut]

/-- A wrong bit of the Check field changes the field and leaves the check of the rest. -/
theorem lawCheck_ne_lawCrc_of_low (hi : i < 5) (good : lawCheck w = lawCrc w) :
    lawCheck (w ^^^ BitVec.ofNat 32 (2 ^ i)) ≠ lawCrc (w ^^^ BitVec.ofNat 32 (2 ^ i)) := by
  have small : 2 ^ i < 2 ^ 5 := Nat.pow_lt_pow_right (by decide) hi
  have crc : lawCrc (w ^^^ BitVec.ofNat 32 (2 ^ i)) = lawCheck w := by
    rw [lawCrc_wrongBit w (by omega), Nat.div_eq_of_lt (b := 32) small, Nat.xor_zero, good, lawCrc]
  rw [crc, lawCheck_wrongBit w (by omega), Nat.mod_eq_of_lt small]
  simp

/-- A wrong bit above the Check field leaves the field and changes the check of the rest. -/
theorem lawCheck_ne_lawCrc_of_high (low : 5 ≤ i) (hi : i < 32) (good : lawCheck w = lawCrc w) :
    lawCheck (w ^^^ BitVec.ofNat 32 (2 ^ i)) ≠ lawCrc (w ^^^ BitVec.ofNat 32 (2 ^ i)) := by
  have check : lawCheck (w ^^^ BitVec.ofNat 32 (2 ^ i)) = lawCrc w := by
    rw [lawCheck_wrongBit w hi, Nat.mod_eq_zero_of_dvd (Nat.pow_dvd_pow 2 low), Nat.xor_zero, good]
  have body : 2 ^ i / 32 = 2 ^ (i - 5) := Nat.pow_div low (by decide)
  rw [check, lawCrc_wrongBit w hi, body, msbBits_xor_two_pow _ (by omega)]
  exact (crcBits_modify_not_ne (by decide) (by decide) _ (by simp [msbBits]; omega)).symm

end WrongBit

theorem lawGood_iff (w : BitVec 32) : lawGood w = true ↔ lawCheck w = lawCrc w ∧ lawLane w < lanes := by
  rw [lawGood, Bool.and_eq_true, decide_eq_true_eq, decide_eq_true_eq]

/-- Settles O20: the wrong bit lies in the Check field or in what the CRC covers, and one of the two alone changes. -/
theorem lawWithOneWrongBitIsDiscarded : Obligations.LawWithOneWrongBitIsDiscarded := by
  intro w i hw
  obtain ⟨good, -⟩ := (lawGood_iff w).mp hw
  refine Bool.eq_false_iff.mpr fun still => ?_
  obtain ⟨good', -⟩ := (lawGood_iff _).mp still
  rcases Nat.lt_or_ge i.val 5 with low | high
  · exact lawCheck_ne_lawCrc_of_low w low good good'
  · exact lawCheck_ne_lawCrc_of_high w high i.isLt good good'

/-! ### The spare of an allocation (R45, R46) -/

/-- A position that an allocation may take. That a poisoned entry is passed over is the model's choice (log entry 145). -/
def State.SpareAt (s : State) (p : PickupId) (l q : Nat) : Prop :=
  (s.entry p l q).state = .spareFree ∧ (s.entry p l q).poisoned = false ∧ (s.sides[p]).inRuns l q = false

theorem State.freeSpare_eq_some_iff (s : State) (p : PickupId) (l q : Nat) : s.freeSpare p l = some q ↔
    spareFrom ≤ q ∧ q < positions ∧ s.SpareAt p l q ∧ ∀ q', spareFrom ≤ q' → q' < q → ¬ s.SpareAt p l q' := by
  have fits : ∀ q, ((s.entry p l q).state == .spareFree && !(s.entry p l q).poisoned && !(s.sides[p]).inRuns l q) = true ↔
      s.SpareAt p l q := fun q => by simp [State.SpareAt, and_assoc]
  have pool : spareFrom + (positions - spareFrom) = positions := by decide
  rw [State.freeSpare, ← List.range'_eq_map_range, List.find?_range'_eq_some, List.mem_range'_1, pool, fits]
  simp only [Bool.not_eq_true', ← Bool.not_eq_true, fits]
  tauto

/-- The first item of an ascending list for which g has a value, with that value. -/
theorem findSome?_ascending_eq_some_iff {β : Type} (g : Nat → Option β) {ls : List Nat} (ascending : ls.Pairwise (· < ·)) (l : Nat) (b : β) :
    ls.findSome? (fun l => (g l).map fun b => (l, b)) = some (l, b) ↔
      l ∈ ls ∧ g l = some b ∧ ∀ l' ∈ ls, l' < l → g l' = none := by
  induction ls with
  | nil => simp
  | cons a ls ih =>
    obtain ⟨least, rest⟩ := List.pairwise_cons.mp ascending
    rw [List.findSome?_cons]
    cases ha : g a with
    | none =>
      have skip : l = a → g l ≠ some b := by rintro rfl; simp [ha]
      simp only [Option.map_none, ih rest, List.mem_cons, forall_eq_or_imp, ha, implies_true, true_and]
      tauto
    | some c =>
      simp only [Option.map_some, Option.some.injEq, Prod.mk.injEq, List.mem_cons, forall_eq_or_imp, ha, reduceCtorEq, imp_false]
      constructor
      · rintro ⟨rfl, rfl⟩
        exact ⟨.inl rfl, ha, lt_irrefl a, fun l' hl' below => absurd below (least l' hl').not_gt⟩
      · rintro ⟨rfl | hl, hb, notAbove, -⟩
        · exact ⟨rfl, Option.some.inj (ha.symm.trans hb)⟩
        · exact absurd (least l hl) notAbove

theorem State.nextSpare_of_own {s : State} {p : PickupId} {layer q : Nat} (h : s.freeSpare p layer = some q) :
    s.nextSpare p layer = some (layer, q) := by
  rw [State.nextSpare, spareLayers, List.findSome?_cons, h, Option.map_some]

theorem State.nextSpare_of_none {s : State} {p : PickupId} {layer : Nat} (h : s.freeSpare p layer = none) :
    s.nextSpare p layer = ((List.range 4).filter (· ≠ layer)).findSome? fun l => (s.freeSpare p l).map fun q => (l, q) := by
  rw [State.nextSpare, spareLayers, List.findSome?_cons, h, Option.map_none]

theorem State.nextSpare_eq_some_iff (s : State) (p : PickupId) (layer l q : Nat) : s.nextSpare p layer = some (l, q) ↔
    s.freeSpare p l = some q ∧ (l = layer ∨ l < 4 ∧ s.freeSpare p layer = none ∧ ∀ l', l' < l → s.freeSpare p l' = none) := by
  cases own : s.freeSpare p layer with
  | some q₀ =>
    rw [State.nextSpare_of_own own]
    constructor
    · rintro ⟨⟩
      exact ⟨own, .inl rfl⟩
    · rintro ⟨hq, rfl | ⟨-, ⟨⟩, -⟩⟩
      rw [own] at hq
      rw [Option.some.inj hq]
  | none =>
    have notOwn : s.freeSpare p l = some q → l ≠ layer := by rintro hq rfl; simp [own] at hq
    rw [State.nextSpare_of_none own, findSome?_ascending_eq_some_iff _ (List.pairwise_lt_range.filter _)]
    simp only [List.mem_filter, List.mem_range, decide_eq_true_eq]
    constructor
    · rintro ⟨⟨hl, -⟩, hq, first⟩
      refine ⟨hq, .inr ⟨hl, trivial, fun l' below => ?_⟩⟩
      by_cases hl' : l' = layer
      · exact hl' ▸ own
      · exact first l' ⟨below.trans hl, hl'⟩ below
    · rintro ⟨hq, hl | ⟨hl, -, first⟩⟩
      · exact absurd hl (notOwn hq)
      · exact ⟨⟨hl, notOwn hq⟩, hq, fun l' _ below => first l' below⟩

theorem State.nextSpare_eq_none_iff (s : State) (p : PickupId) (layer : Nat) : s.nextSpare p layer = none ↔
    s.freeSpare p layer = none ∧ ∀ l', l' < 4 → s.freeSpare p l' = none := by
  simp only [State.nextSpare, spareLayers, List.findSome?_eq_none_iff, Option.map_eq_none_iff, List.mem_cons, forall_eq_or_imp,
    List.mem_filter, List.mem_range, decide_eq_true_eq]
  refine and_congr_right fun own => forall_congr' fun l' => ?_
  by_cases hl' : l' = layer
  · simp [hl', own]
  · simp [hl']

/-- Settles O33: the pool is searched upward from its first position, and the layers in the order of R46. -/
theorem sparesComeLowestFirst : Obligations.SparesComeLowestFirst := fun s p layer l q =>
  ⟨s.freeSpare_eq_some_iff p l q, s.nextSpare_eq_some_iff p layer l q, s.nextSpare_eq_none_iff p layer⟩

/-! ### Zones and positions (R48) -/

theorem homeQ_succ (z c : Nat) : homeQ z (c + 1) = homeQ z c + 1 := by
  rw [homeQ, homeQ, Nat.add_assoc]

theorem zoneLayer_eq_ite {z : Nat} (hz : z < zoneCount) :
    zoneLayer z = if z ≤ 66 then 0 else if z ≤ 133 then 1 else if z ≤ 200 then 2 else 3 := by
  simp only [zoneLayer, zoneCount] at hz ⊢
  split_ifs <;> omega

/-- A home position gives back the zone's place on its layer and the cluster. -/
theorem homeQ_inj {z c z' c' : Nat} (hc : c < zoneClusters) (hc' : c' < zoneClusters) (layer : zoneLayer z = zoneLayer z')
    (same : homeQ z c = homeQ z' c') : z = z' ∧ c = c' := by
  simp only [homeQ, zoneClusters, zoneLayer] at *
  omega

/-- Settles O11: a layer holds 67 zones, and a home position is the zone's place on the layer and the cluster in base 4,096. -/
theorem zonesLieOnOneLayer : Obligations.ZonesLieOnOneLayer :=
  ⟨fun _ => rfl, fun _ => zoneLayer_eq_ite, homeQ_succ, fun _ _ _ _ => homeQ_inj⟩

end Sys2Proof.Machine
end

section
/-! PROOFS. The loops of an optical head (family 02): a loop fault is raised once per run of overruns, causes accumulate in a defect hold, and the
commands of the servo loops complete. -/

namespace Sys2Proof.Machine

/-! ### Commands under a guard -/

theorem State.when_of_true {s : State} {c : Bool} {f : State → State} (h : c = true) : s.when c f = .next (f s) := by
  rw [State.when, if_pos h]

theorem State.when_of_false {s : State} {c : Bool} {f : State → State} (h : c = false) : s.when c f = .next s := by
  rw [State.when, if_neg (Bool.eq_false_iff.mp h)]

/-- A host write under a guard that holds, when CORE takes it. -/
theorem State.when_hostWrite_taken {s : State} {c : Bool} {cl : Client} {r : Row} {i k : Nat} {v : Int} (hc : c = true)
    (taken : s.Takes cl r i k v) (effect : State → State) :
    s.when c (fun s => s.hostWrite cl r i k v false false effect) = .next (s.wrote cl r i k effect) := by
  rw [State.when_of_true hc, State.hostWrite_taken taken]

/-! ### Loop faults (R89, R90) -/

section LoopFault

variable {p : PickupId} {l : ServoLoop} {s : State}

theorem execLoopFault_of_raised (h : (s.pickups[p]).loops[l.idx].faultRaised = true) : execLoopFault p l s = .next s := by
  unfold execLoopFault
  refine State.when_of_false ?_
  rw [h, Bool.not_true, Bool.and_false]

theorem execLoopFault_of_short (h : (s.pickups[p]).loops[l.idx].lateRun < 3) : execLoopFault p l s = .next s := by
  unfold execLoopFault
  refine State.when_of_false ?_
  rw [decide_eq_false (Nat.not_le.mpr h), Bool.and_false, Bool.false_and]

/-- A loop fault is one of tracking or of focus. -/
theorem execLoopFault_of_outer (h : (l == .tracking || l == .focus) = false) : execLoopFault p l s = .next s := by
  unfold execLoopFault
  refine State.when_of_false ?_
  rw [h, Bool.and_false, Bool.false_and, Bool.false_and]

end LoopFault

/-- Settles O18: each of the hypotheses shuts the guard of LOOP_FAULT. -/
theorem oneLoopFaultPerRun : Obligations.OneLoopFaultPerRun := by
  refine ⟨fun p l s h => ?_, fun p l s h => ?_⟩
  · obtain raised | short := h
    · exact execLoopFault_of_raised raised
    · exact execLoopFault_of_short short
  · obtain rfl | rfl | rfl := h <;> exact execLoopFault_of_outer rfl

/-! ### Causes of a defect hold (R85) -/

/-- Causes that miss a mask miss every part of it. -/
theorem hasAny_eq_false_of_part {c m part : BitVec 16} (h : hasAny c m = false) (hp : part = m &&& part) : hasAny c part = false := by
  have missed : c &&& m = 0#16 := not_not.mp (of_decide_eq_false h)
  refine decide_eq_false (not_not.mpr ?_)
  rw [hp, ← BitVec.and_assoc, missed, BitVec.zero_and]
  rfl

/-- In a hold outside a park, causes that abort no sequence are added to those of the hold, and the exit run starts again. HostRequest and
SpindleObserverLoss abort, so what the exit has of them stays. -/
theorem State.enterHold_of_defectHold {s : State} {p : PickupId} {causes : BitVec 16} {skipT skipF : Nat}
    (held : (s.pickups[p]).engine = .defectHold) (noPark : (s.pickups[p]).seq ≠ .park) (come : causes ≠ 0#16)
    (mild : hasAny causes Hold.aborting = false) :
    s.enterHold p causes skipT skipF = s.updP p fun k => { k with holdCause := k.holdCause ||| causes, exitRun := 0 } := by
  have noHost : hasAny causes Hold.hostRequest = false := hasAny_eq_false_of_part mild (by decide)
  have noLoss : hasAny causes Hold.spindleObserverLoss = false := hasAny_eq_false_of_part mild (by decide)
  have admitted : ¬ ((s.pickups[p]).idle || ((s.pickups[p]).seq == .park && !hasAny causes Hold.aborting) || causes = 0) = true := by
    simp [Pickup.idle, held, noPark, come, -Fin.getElem_fin]
  have inHold : ((s.pickups[p]).engine == .defectHold) = true := by rw [held]; rfl
  rw [State.enterHold, if_neg admitted, if_pos inHold]
  simp only [mild, noHost, noLoss, Bool.false_eq_true, if_false]

theorem execDefectHoldEntered_of_up {p : PickupId} {s : State} (up : s.svUp p = true) :
    let k := s.pickups[p]
    let skips := k.skips ((k.lastEdge.getD s.time) - s.power.gridBase)
    execDefectHoldEntered p s = .next (s.enterHold p k.holdPending skips.1 skips.2) := by
  unfold execDefectHoldEntered
  exact State.when_of_true up

/-- Settles O17: the command is one change of its pickup. That the causes met wait as pending ones is the model's choice (log entry 22). -/
theorem holdCausesAccumulate : Obligations.HoldCausesAccumulate := by
  intro p s up held noPark come mild
  refine ⟨_, (execDefectHoldEntered_of_up up).trans (congrArg _ (State.enterHold_of_defectHold held noPark come mild)), ?_, ?_, rfl,
    (State.updP_eff s p _).frame, keptBut_upd_iff.mpr (.refl p _)⟩
  · rw [State.updP_pickups, getElem_upd_self]
  · rw [State.updP_pickups, getElem_upd_self, held]

/-! ### Completion of the servo loops' commands -/

/-- Settles O36: under the hypotheses of its clause each command's guard holds, and its effect is the one stated; CORE takes the host writes.
The pending causes of DEFECT_HOLD_ENTERED and the recovery after a loop fault of DEFECT_HOLD_LEFT are choices of the model (log entries 22 and 123). -/
theorem servoLoopCommandsComplete : Obligations.ServoLoopCommandsComplete := by
  refine ⟨?loopSample, ?outputSaturated, ?loopFault, ?defectHoldEntered, ?defectHoldRequest, ?holdRelease, ?defectHoldLeft, ?holdTimeout,
    ?overrunStatusClear, ?bankActivation, ?xspStepEdge⟩
  case loopSample =>
    intro p i s up
    unfold exec execLoopSample
    exact State.when_of_true up
  case outputSaturated =>
    intro p l s up saturated
    unfold exec execOutputSaturated
    refine State.when_of_true ?_
    rw [up, decide_eq_true saturated]; rfl
  case loopFault =>
    intro p l s up loop late fresh
    unfold exec execLoopFault
    refine State.when_of_true ?_
    rw [up, loop, decide_eq_true late, fresh]; rfl
  case defectHoldEntered =>
    intro p s up
    exact execDefectHoldEntered_of_up up
  case defectHoldRequest =>
    intro cl p v s up taken
    exact State.when_hostWrite_taken up taken _
  case holdRelease =>
    intro cl p v s up taken
    exact State.when_hostWrite_taken up taken _
  case defectHoldLeft =>
    intro p s up held run
    unfold exec execDefectHoldLeft
    refine State.when_of_true ?_
    rw [up, held, decide_eq_true run]; rfl
  case holdTimeout =>
    intro p s up held limited elapsed
    unfold exec execHoldTimeout
    refine State.when_of_true ?_
    rw [up, held, limited, decide_eq_true elapsed]; rfl
  case overrunStatusClear =>
    intro cl p v s up taken
    exact State.when_hostWrite_taken up taken _
  case bankActivation =>
    intro p loops s up edge
    unfold exec execBankActivation
    refine State.when_of_true ?_
    rw [up, decide_eq_true edge]; rfl
  case xspStepEdge =>
    intro dirHigh s running
    unfold exec execXspStepEdge
    exact State.when_of_true running

end Sys2Proof.Machine
end

section
/-! PROOFS. Acquisition, jumps and seeks of an optical head (family 03): track following ends at the limit of discarded LAWs, and the commands of
mounts, lane addresses, maps, seeks, recoveries and parks complete. -/

namespace Sys2Proof.Machine

/-! ### The miss limit of a LAW (R123) -/

section LawLost

variable {p : PickupId} {s : State}

/-- A following pickup whose run of discarded LAWs has reached the limit goes into recovery. -/
theorem execLawLost_of_limit (up : s.svUp p = true) (following : (s.pickups[p]).engine = .following)
    (missed : s.obN Obj.lawMissLimit p ≤ (s.pickups[p]).lawDiscardRun) :
    execLawLost p s = .next ((s.report (Isl.sv p) Ev.acqLawLost [(p.val : Int)]).startRecovery p none) := by
  unfold execLawLost
  refine State.when_of_true ?_
  rw [up, following, decide_eq_true missed]; rfl

/-- Below the limit LAW_LOST changes nothing. -/
theorem execLawLost_of_short (short : (s.pickups[p]).lawDiscardRun < s.obN Obj.lawMissLimit p) : execLawLost p s = .next s := by
  unfold execLawLost
  refine State.when_of_false ?_
  rw [decide_eq_false (Nat.not_le.mpr short), Bool.and_false]

end LawLost

/-- `LawMissLimit` is 16 by default on every pickup (R133). -/
theorem lawMissLimit_default (i k : Nat) : Obj.lawMissLimit.default i k = 16 := by
  rw [Row.default, show Obj.lawMissLimit.dflt = [16] from rfl, List.length_singleton, Nat.mod_one, List.getD_cons_zero]

/-- Settles O19: the limit is the guard of LAW_LOST. -/
theorem lawMissLimitEndsFollowing : Obligations.LawMissLimitEndsFollowing := fun p _ up following =>
  ⟨execLawLost_of_limit up following, execLawLost_of_short, lawMissLimit_default p 0⟩

/-! ### Writes with conditions of their own (R371) -/

section HostWriteOr

variable {s : State} {cl : Client} {r : Row} {i k : Nat} {v : Int} {bad busy : Bool}

/-- A write that CORE takes, in the range and the state that its owner asks for, has its effect. -/
theorem State.hostWriteOr_taken (taken : s.Takes cl r i k v) (inRange : bad = false) (free : busy = false) (onBusy effect : State → State) :
    s.hostWriteOr cl r i k v bad busy onBusy effect = s.wrote cl r i k effect := by
  simp [State.hostWriteOr, State.wrote, taken.up, taken.mayWrite, taken.holds, taken.admits, inRange, free]

/-- A write that CORE would take is refused with ObjectBusy when its owner is busy. -/
theorem State.hostWriteOr_busy (taken : s.Takes cl r i k v) (inRange : bad = false) (isBusy : busy = true) (onBusy effect : State → State) :
    s.hostWriteOr cl r i k v bad busy onBusy effect = onBusy (s.answer (some Abort.objectBusy)) := by
  simp [State.hostWriteOr, taken.up, taken.mayWrite, taken.holds, taken.admits, inRange, isBusy]

/-- The effect of a write counts only in the state that it starts from. -/
theorem State.wrote_congr {f g : State → State} (h : ∀ u, f u = g u) : s.wrote cl r i k f = s.wrote cl r i k g :=
  congrArg _ (funext h)

end HostWriteOr

/-! ### Completion of the commands of mounts and focus -/

/-- Settles O37: under the hypotheses of its clause each command's guard holds, and its effect is the one stated; CORE takes the write of
MountRequest. What follows a capture that times out, and from where the steps are timed, are choices of the model (log entries 28 and 166). -/
theorem mountAndFocusCommandsComplete : Obligations.MountAndFocusCommandsComplete := by
  refine ⟨?mountRequest, ?mountSequenceStart, ?focusClose, ?focusSweepEnd, ?focusSettle, ?guidePassage, ?captureSettle, ?captureTimeout,
    ?sledSearchMoveEnd⟩
  case mountRequest =>
    intro cl v s taken running enabled
    change execMountRequest cl v s = _
    rw [execMountRequest, State.when_of_true running, decide_eq_false enabled, State.hostWrite_taken taken]
  case mountSequenceStart =>
    intro p deviceId fault s up seq phase idle
    unfold exec execMountSequenceStart
    refine State.when_of_true ?_
    rw [up, seq, phase, idle]; rfl
  case focusClose =>
    intro p s up phase crossed peak
    unfold exec execFocusClose
    refine State.when_of_true ?_
    rw [up, phase, decide_eq_true crossed, decide_eq_true peak]; rfl
  case focusSweepEnd =>
    intro p s up ended
    unfold exec execFocusSweepEnd
    refine State.when_of_true ?_
    rw [up, ended]; rfl
  case focusSettle =>
    intro p s up phase settled
    unfold exec execFocusSettle
    refine State.when_of_true ?_
    rw [up, phase, decide_eq_true settled]; rfl
  case guidePassage =>
    intro p s up crossed wobble
    unfold exec execGuidePassage
    refine State.when_of_true ?_
    rw [up, decide_eq_true crossed, decide_eq_true wobble]; rfl
  case captureSettle =>
    intro p s up phase closed settled
    unfold exec execCaptureSettle
    refine State.when_of_true ?_
    rw [up, phase, closed, decide_eq_true settled]; rfl
  case captureTimeout =>
    intro p s up phase elapsed
    unfold exec execCaptureTimeout
    refine State.when_of_true ?_
    rw [up, phase, elapsed]; rfl
  case sledSearchMoveEnd =>
    intro p s up phase stands
    unfold exec execSledSearchMoveEnd
    refine State.when_of_true ?_
    rw [up, phase, bne_iff_ne.mpr stands]; rfl

/-! ### Completion of the commands of lane addresses, the array and maps -/

/-- Settles O38: under the hypotheses of its clause each command's guard holds, and its effect is the one stated. The recovery that a LAW of
another side starts, and the held focus noted with a learned map, are choices of the model (log entries 31 and 198). -/
theorem laneAddressAndMapCommandsComplete : Obligations.LaneAddressAndMapCommandsComplete := by
  refine ⟨?lawReceived, fun _ _ => execLawLost_of_limit, ?arrayLock, ?arraySlow, ?mapLearnRevolution, ?mapAdaptRevolution⟩
  case lawReceived =>
    intro p w s up awake noPark
    unfold exec execLawReceived
    refine State.when_of_true ?_
    rw [up, awake, bne_iff_ne.mpr noPark]; rfl
  case arrayLock =>
    intro p s up phase locked
    unfold exec execArrayLock
    refine State.when_of_true ?_
    rw [up, phase, decide_eq_true locked]; rfl
  case arraySlow =>
    intro p s up phase elapsed
    unfold exec execArraySlow
    refine State.when_of_true ?_
    rw [up, phase, elapsed]; rfl
  case mapLearnRevolution =>
    intro p s up phase revolution
    unfold exec execMapLearnRevolution
    refine State.when_of_true ?_
    rw [up, phase, revolution]; rfl
  case mapAdaptRevolution =>
    intro p s up following shift layer revolution
    unfold exec execMapAdaptRevolution
    refine State.when_of_true ?_
    rw [up, following, decide_eq_true shift, layer, revolution]; rfl

/-! ### Completion of the commands of seeks, jumps, recoveries and parks -/

section SeekRequest

variable {s : State} {cl : Client} {p : PickupId} {v : Int}

/-- The range condition of SeekRequest: a lane and a layer that exist. -/
theorem seekTarget_inRange (lane : ¬ lanes ≤ v.toNat % 65536) (layer : ¬ (262144 : Int) ≤ v) :
    (decide (lanes ≤ v.toNat % 65536) || decide (2 ^ 18 ≤ v)) = false := by
  rw [decide_eq_false lane, Bool.false_or]
  exact decide_eq_false layer

/-- A pickup that follows with no sequence running starts the seek at once. -/
theorem execSeekRequest_of_following (up : s.svUp p = true) (taken : s.Takes cl Obj.seekRequest p 0 v) (lane : ¬ lanes ≤ v.toNat % 65536)
    (layer : ¬ (262144 : Int) ≤ v) (free : (s.pickups[p]).seekBusy = false) (following : (s.pickups[p]).engine = .following)
    (noSeq : (s.pickups[p]).seq = .none) :
    execSeekRequest cl p v s =
      .next (s.wrote cl Obj.seekRequest p 0 fun u => u.startSeek p { layer := v.toNat / 65536 % 4, lane := v.toNat % 65536 }) := by
  have atOnce : ((s.pickups[p]).engine == .following && (s.pickups[p]).seq == .none) = true := by rw [following, noSeq]; rfl
  unfold execSeekRequest
  rw [State.when_of_true up, State.hostWriteOr_taken taken (seekTarget_inRange lane layer) free]
  exact congrArg _ (State.wrote_congr fun u => if_pos atOnce)

/-- A pickup that is idle, mounts or parks refuses the seek. -/
theorem execSeekRequest_of_busy (up : s.svUp p = true) (taken : s.Takes cl Obj.seekRequest p 0 v) (lane : ¬ lanes ≤ v.toNat % 65536)
    (layer : ¬ (262144 : Int) ≤ v) (busy : (s.pickups[p]).seekBusy = true) :
    execSeekRequest cl p v s =
      .next ((s.answer (some Abort.objectBusy)).report (Isl.sv p) Ev.acqRequestIgnored [(p.val : Int)]) := by
  unfold execSeekRequest
  rw [State.when_of_true up, State.hostWriteOr_busy taken (seekTarget_inRange lane layer) busy]

end SeekRequest

/-- Settles O39: under the hypotheses of its clause each command's guard holds, and its effect is the one stated; CORE takes the host writes, or
refuses a seek of a busy pickup. The direction of a kick and the mount that a recovery resumes are choices of the model (log entries 29 and
31). -/
theorem jumpSeekRecoveryParkCommandsComplete : Obligations.JumpSeekRecoveryParkCommandsComplete := by
  refine ⟨fun _ _ _ _ => execSeekRequest_of_following, fun _ _ _ _ => execSeekRequest_of_busy, ?layerJumpStart, ?jumpKickEnd, ?jumpBrake,
    ?jumpFocusClose, ?layerJumpFail, ?longSeekSledStop, ?seekFail, ?recoveryAttemptEnd, ?parkRequest, ?parkComplete⟩
  case layerJumpStart =>
    intro p s up phase stage
    unfold exec execLayerJumpStart
    refine State.when_of_true ?_
    rw [up, phase, decide_eq_true stage]; rfl
  case jumpKickEnd =>
    intro p s up phase stage elapsed
    unfold exec execJumpKickEnd
    refine State.when_of_true ?_
    rw [up, phase, decide_eq_true stage, elapsed]; rfl
  case jumpBrake =>
    intro p s up phase stage turned
    unfold exec execJumpBrake
    refine State.when_of_true ?_
    rw [up, phase, decide_eq_true stage, turned]; rfl
  case jumpFocusClose =>
    intro p s up phase stage crossed
    unfold exec execJumpFocusClose
    refine State.when_of_true ?_
    rw [up, phase, decide_eq_true stage, decide_eq_true crossed]; rfl
  case layerJumpFail =>
    intro p s up phase begun late
    unfold exec execLayerJumpFail
    refine State.when_of_true ?_
    rw [up, phase, decide_eq_true begun, late]; rfl
  case longSeekSledStop =>
    intro p s up phase stage stands rested
    unfold exec execLongSeekSledStop
    refine State.when_of_true ?_
    rw [up, phase, decide_eq_true stage, bne_iff_ne.mpr stands, decide_eq_true rested]; rfl
  case seekFail =>
    intro p s up seq late
    unfold exec execSeekFail
    refine State.when_of_true ?_
    rw [up, seq, late]; rfl
  case recoveryAttemptEnd =>
    intro p s up seq ended
    unfold exec execRecoveryAttemptEnd
    refine State.when_of_true ?_
    rw [up, seq, ended]; rfl
  case parkRequest =>
    intro cl p v s up taken
    exact State.when_hostWrite_taken up taken _
  case parkComplete =>
    intro p s up seq ended
    unfold exec execParkComplete
    refine State.when_of_true ?_
    rw [up, seq, ended]; rfl

end Sys2Proof.Machine
end

section
/-! PROOFS. The read channel (family 04): the commands of frames, codewords, erasure flags, gain, interference, timing and wobble amplitudes complete. -/

namespace Sys2Proof.Machine

/-! ### Completion of the read channel's commands -/

/-- A guard that asks for `up` and against `busy` holds. It takes the two facts up to unfolding, so a `busy` that holds a `match` may be written out
again in another file. -/
theorem and_not_eq_true {up busy : Bool} (isUp : up = true) (free : busy = false) : (up && !busy) = true := by
  rw [isUp, free]; rfl

/-- Settles O40: under the hypotheses of its clause each command's guard holds, and its effect is the one stated. The gain held over a window with a
flagged sample, the lock that goes with FrameLock and the rate reported at each frame start out of range, the delay kept on equal errors, the row and
the area of a frame start, the flags set and ended by their events and the limit recorded once a stay are choices of the model (log entries 44, 45, 46,
48, 129 and 173). -/
theorem readChannelCommandsComplete : Obligations.ReadChannelCommandsComplete := by
  refine ⟨?frameStart, ?waymarkSearch, ?lockLost, ?codewordOffer, ?frameSlotRelease, ?envelopeFlag, ?guideFlag, ?agcUpdate, ?agcLimit,
    ?itiFracDelayStep, ?itiLimit, ?timingAcqEnd, ?timingRelock, ?timingUnlock, ?wobbleAmplitudePost⟩
  case frameStart =>
    intro g row wanted s up on
    unfold exec execFrameStart
    refine State.when_of_true ?_
    rw [up, bne_iff_ne.mpr on]; rfl
  case waymarkSearch =>
    intro g s up reads first inHand
    unfold exec execWaymarkSearch
    refine State.when_of_true ?_
    rw [up, reads, first, decide_eq_true inHand]; rfl
  case lockLost =>
    intro g s up reads missed
    unfold exec execLockLost
    refine State.when_of_true ?_
    rw [up, reads, decide_eq_true missed]; rfl
  case codewordOffer =>
    intro g half s up
    unfold exec execCodewordOffer
    exact State.when_of_true up
  case frameSlotRelease =>
    intro g slot s up unused
    unfold exec execFrameSlotRelease
    exact State.when_of_true (and_not_eq_true up unused)
  case envelopeFlag =>
    intro g s up on noWrite
    unfold exec execEnvelopeFlag
    refine State.when_of_true ?_
    rw [up, bne_iff_ne.mpr on, bne_iff_ne.mpr noWrite]; rfl
  case guideFlag =>
    intro g s up on noWrite
    unfold exec execGuideFlag
    refine State.when_of_true ?_
    rw [up, bne_iff_ne.mpr on, bne_iff_ne.mpr noWrite]; rfl
  case agcUpdate =>
    intro g codes s up reads sixteen
    unfold exec execAgcUpdate
    refine State.when_of_true ?_
    rw [up, reads, decide_eq_true sixteen]; rfl
  case agcLimit =>
    intro g s up stayed unrecorded
    unfold exec execAgcLimit
    refine State.when_of_true ?_
    rw [up, decide_eq_true stayed, unrecorded]; rfl
  case itiFracDelayStep =>
    intro g j s up neighbour counted
    unfold exec execItiFracDelayStep
    refine State.when_of_true ?_
    rw [up, decide_eq_true neighbour, decide_eq_true counted]; rfl
  case itiLimit =>
    intro g j s up neighbour unrecorded limited
    unfold exec execItiLimit
    refine State.when_of_true ?_
    rw [up, decide_eq_true neighbour, unrecorded, decide_eq_true limited]; rfl
  case timingAcqEnd =>
    intro g s up acquiring elapsed
    unfold exec execTimingAcqEnd
    refine State.when_of_true ?_
    rw [up, acquiring, decide_eq_true elapsed]; rfl
  case timingRelock =>
    intro g s up reads due
    unfold exec execTimingRelock
    refine State.when_of_true ?_
    rw [up, reads, due]; rfl
  case timingUnlock =>
    intro g s up reads settled departed
    unfold exec execTimingUnlock
    refine State.when_of_true ?_
    rw [up, reads, settled, decide_eq_true departed]; rfl
  case wobbleAmplitudePost =>
    intro p s up edge
    unfold exec execWobbleAmplitudePost
    refine State.when_of_true ?_
    rw [up, decide_eq_true edge]; rfl

end Sys2Proof.Machine
end

section
/-! PROOFS. Decoding and detours (family 05): every encoded codeword meets every check of the inner code, a decode ends by its syndrome or at its
limit, and the commands of decoding, of the cluster workspace and of the detour ladder complete. -/

namespace Sys2Proof.Machine

/-! ### Parity of a count -/

/-- An odd number of the items of a list satisfy p. -/
def oddlyMany {α : Type} (p : α → Bool) (l : List α) : Bool := (l.filter p).length % 2 == 1

section OddlyMany

variable {α β : Type} (p : α → Bool)

@[simp] theorem oddlyMany_nil : oddlyMany p [] = false := rfl

@[simp] theorem oddlyMany_cons (a : α) (l : List α) : oddlyMany p (a :: l) = (p a ^^ oddlyMany p l) := by
  cases h : p a <;> rw [Bool.eq_iff_iff] <;> simp [oddlyMany, h]
  omega

theorem oddlyMany_append (l l' : List α) : oddlyMany p (l ++ l') = (oddlyMany p l ^^ oddlyMany p l') := by
  induction l with
  | nil => simp
  | cons a l ih => simp [ih]

theorem oddlyMany_map (f : β → α) (l : List β) : oddlyMany p (l.map f) = oddlyMany (fun b => p (f b)) l := by
  rw [oddlyMany, List.filter_map, List.length_map]; rfl

theorem oddlyMany_congr {p' : α → Bool} {l : List α} (h : ∀ a ∈ l, p a = p' a) : oddlyMany p l = oddlyMany p' l := by
  rw [oddlyMany, List.filter_congr h, oddlyMany]

theorem even_of_oddlyMany_eq_false {l : List α} (h : oddlyMany p l = false) : (l.filter p).length % 2 = 0 := by
  rw [oddlyMany, beq_eq_false_iff_ne] at h
  omega

end OddlyMany

/-- Bit x of a sum over GF(2) is set where an odd number of the words set it. -/
theorem getLsbD_foldl_xor {n : Nat} (l : List (BitVec n)) (acc : BitVec n) (x : Nat) :
    (l.foldl (· ^^^ ·) acc).getLsbD x = (acc.getLsbD x ^^ oddlyMany (·.getLsbD x) l) := by
  induction l generalizing acc with
  | nil => simp
  | cons b l ih => simp [ih]

/-! ### Lists of bits as words (R40) -/

/-- The word whose bit `place i` is item i of a list. -/
def wordOfBits (n : Nat) (place : Nat → Nat) (l : List Bool) : BitVec n :=
  l.zipIdx.foldl (fun acc p => if p.1 then acc ||| (1#n).shiftLeft (place p.2) else acc) 0

theorem blockOfBits_eq (l : List Bool) : blockOfBits l = wordOfBits 512 id l := rfl

/-- The place of information bit i in its half; the same map leads back (R40). -/
def bitPlace (i : Nat) : Nat := 8 * (i / 8) + 7 - i % 8

theorem halfOfBits_eq (l : List Bool) : halfOfBits l = wordOfBits 16384 bitPlace l := rfl

theorem bitPlace_involutive : Function.Involutive bitPlace := by
  intro i
  unfold bitPlace
  omega

theorem bitPlace_lt {i : Nat} (h : i < infoBits) : bitPlace i < infoBits := by
  unfold bitPlace infoBits at *
  omega

theorem getLsbD_or_one_shiftLeft {n j : Nat} (hj : j < n) (w : BitVec n) (k : Nat) :
    (w ||| (1#n).shiftLeft k).getLsbD j = (w.getLsbD j || k == j) := by
  have single : ((1#n).shiftLeft k).getLsbD j = (k == j) := by
    rw [BitVec.shiftLeft_eq, BitVec.getLsbD_shiftLeft, BitVec.getLsbD_one, Bool.eq_iff_iff]
    simp
    omega
  rw [BitVec.getLsbD_or, single]

theorem getLsbD_foldl_or {n j : Nat} (hj : j < n) (place : Nat → Nat) (l : List (Bool × Nat)) (acc : BitVec n) :
    (l.foldl (fun acc p => if p.1 then acc ||| (1#n).shiftLeft (place p.2) else acc) acc).getLsbD j =
      (acc.getLsbD j || l.any fun p => p.1 && place p.2 == j) := by
  induction l generalizing acc with
  | nil => simp
  | cons p l ih =>
    rw [List.foldl_cons, ih, List.any_cons]
    by_cases h : p.1 = true
    · rw [if_pos h, getLsbD_or_one_shiftLeft hj, h, Bool.true_and, Bool.or_assoc]
    · simp [h]

theorem any_zipIdx_place {place : Nat → Nat} (inj : place.Injective) (l : List Bool) (i : Nat) :
    (l.zipIdx.any fun p => p.1 && place p.2 == place i) = l.getD i false := by
  rw [Bool.eq_iff_iff, List.any_eq_true]
  simp only [Prod.exists, List.mem_zipIdx_iff_getElem?, Bool.and_eq_true, beq_iff_eq, inj.eq_iff, List.getD_eq_getElem?_getD]
  constructor
  · rintro ⟨b, i, found, rfl, rfl⟩
    rw [found, Option.getD_some]
  · intro h
    exact ⟨true, i, (Option.getD_eq_iff.mp h).resolve_right (by simp), rfl, rfl⟩

theorem getLsbD_wordOfBits {n i : Nat} {place : Nat → Nat} (inj : place.Injective) (l : List Bool) (hi : place i < n) :
    (wordOfBits n place l).getLsbD (place i) = l.getD i false := by
  rw [wordOfBits, getLsbD_foldl_or hi, any_zipIdx_place inj, BitVec.ofNat_eq_ofNat, BitVec.getLsbD_zero, Bool.false_or]

theorem getLsbD_blockOfBits (l : List Bool) {x : Nat} (hx : x < lifting) : (blockOfBits l).getLsbD x = l.getD x false :=
  getLsbD_wordOfBits Function.injective_id l hx

@[simp] theorem length_bitsOfHalf (v : HalfBlock) : (bitsOfHalf v).length = infoBits := by
  rw [bitsOfHalf, List.length_map, List.length_range]

theorem getD_bitsOfHalf (v : HalfBlock) {i : Nat} (hi : i < infoBits) : (bitsOfHalf v).getD i false = v.getLsbD (bitPlace i) := by
  rw [bitsOfHalf, List.getD_eq_getElem?_getD, List.getElem?_map, List.getElem?_range hi]; rfl

theorem halfOfBits_bitsOfHalf (v : HalfBlock) : halfOfBits (bitsOfHalf v) = v := by
  refine BitVec.eq_of_getLsbD_eq fun j hj => ?_
  have back : bitPlace (bitPlace j) = j := bitPlace_involutive j
  calc (halfOfBits (bitsOfHalf v)).getLsbD j
      _ = (wordOfBits 16384 bitPlace (bitsOfHalf v)).getLsbD (bitPlace (bitPlace j)) := by rw [halfOfBits_eq, back]
      _ = (bitsOfHalf v).getD (bitPlace j) false := getLsbD_wordOfBits bitPlace_involutive.injective _ (by rw [back]; exact hj)
      _ = v.getLsbD j := by rw [getD_bitsOfHalf v (bitPlace_lt hj), back]

/-! ### The parity blocks (R178) -/

/-- Block c of 512 information bits. -/
def infoBlock (v : HalfBlock) (c : Nat) : BitVec 512 := blockOfBits (((bitsOfHalf v).drop (lifting * c)).take lifting)

/-- Shift of a block row's circulant in information block column c. -/
def infoShift (row c : Nat) : Nat := (ldpcEntry row c).toNat

/-- s_i: the sum of the circulant products of block row i over the information blocks. -/
def rowSum (info : List (BitVec 512)) (i : Nat) : BitVec 512 :=
  (info.mapIdx fun c (b : BitVec 512) => b.rotateRight (infoShift i c)).foldl (· ^^^ ·) 0

/-- p_i: the sum s_i, and p_(i-1) where there is one. -/
def parityBlock (info : List (BitVec 512)) : Nat → BitVec 512
  | 0 => rowSum info 0
  | i + 1 => rowSum info (i + 1) ^^^ parityBlock info i

theorem ldpcParity_eq (info : List (BitVec 512)) : ldpcParity info = (List.range 4).map (parityBlock info) := rfl

/-- The information blocks of a half. -/
def infoBlocks (v : HalfBlock) : List (BitVec 512) := (List.range 32).map (infoBlock v)

/-- The parity bits of a codeword, block by block. -/
def parityBits (info : List (BitVec 512)) : List Bool :=
  (List.range 4).flatMap fun i => (List.range lifting).map (parityBlock info i).getLsbD

theorem ldpcEncode_eq (v : HalfBlock) : ldpcEncode v = bitsOfHalf v ++ parityBits (infoBlocks v) := by
  rw [parityBits, ← List.flatMap_map (parityBlock (infoBlocks v)) fun p : BitVec 512 => (List.range lifting).map p.getLsbD, ← ldpcParity_eq]
  rfl

theorem length_flatMap_blocks {α : Type} (f : Nat → Nat → α) (k n : Nat) :
    ((List.range k).flatMap fun i => (List.range n).map (f i)).length = k * n := by
  simp [List.length_flatMap]

/-- Item x of block i, where every block has n items. -/
theorem getElem?_flatMap_blocks {α : Type} (f : Nat → Nat → α) {k n i x : Nat} (hi : i < k) (hx : x < n) :
    ((List.range k).flatMap fun i => (List.range n).map (f i))[n * i + x]? = some (f i x) := by
  induction k with
  | zero => omega
  | succ k ih =>
    rw [List.range_succ, List.flatMap_append, List.flatMap_singleton]
    obtain below | rfl : i < k ∨ i = k := by omega
    · have inside : n * i + x < k * n := by nlinarith
      rw [List.getElem?_append_left (by rwa [length_flatMap_blocks]), ih below]
    · have last : n * i + x - i * n = x := by rw [Nat.mul_comm n i]; omega
      rw [List.getElem?_append_right (by rw [length_flatMap_blocks, Nat.mul_comm]; omega), length_flatMap_blocks, last, List.getElem?_map,
        List.getElem?_range hx, Option.map_some]

theorem length_ldpcEncode (v : HalfBlock) : (ldpcEncode v).length = codeBits := by
  rw [ldpcEncode_eq, List.length_append, length_bitsOfHalf, parityBits, length_flatMap_blocks]; rfl

theorem take_ldpcEncode (v : HalfBlock) : (ldpcEncode v).take infoBits = bitsOfHalf v := by
  rw [ldpcEncode_eq, List.take_left' (length_bitsOfHalf v)]

theorem getD_ldpcEncode_info (v : HalfBlock) {c x : Nat} (hc : c < 32) (hx : x < lifting) :
    (ldpcEncode v).getD (lifting * c + x) false = (infoBlock v c).getLsbD x := by
  have inside : lifting * c + x < (bitsOfHalf v).length := by
    rw [length_bitsOfHalf, infoBits]; rw [lifting] at *; omega
  rw [infoBlock, getLsbD_blockOfBits _ hx, ldpcEncode_eq]
  simp only [List.getD_eq_getElem?_getD, List.getElem?_append_left inside, List.getElem?_take_of_lt hx, List.getElem?_drop]

theorem getD_ldpcEncode_parity (v : HalfBlock) {i x : Nat} (hi : i < 4) (hx : x < lifting) :
    (ldpcEncode v).getD (lifting * (32 + i) + x) false = (parityBlock (infoBlocks v) i).getLsbD x := by
  have place : lifting * (32 + i) + x = infoBits + (lifting * i + x) := by rw [lifting, infoBits]; omega
  rw [ldpcEncode_eq, place, List.getD_eq_getElem?_getD, List.getElem?_append_right (by rw [length_bitsOfHalf]; omega), length_bitsOfHalf,
    Nat.add_sub_cancel_left, parityBits, getElem?_flatMap_blocks _ hi hx, Option.getD_some]

/-! ### The checks (R176, R177) -/

/-- The circulants of a block row in the parity columns, as block columns: the row's own and, from row 1, the one before it. -/
def parityColumns : Nat → List Nat
  | 0 => [32]
  | i + 1 => [32 + i, 32 + (i + 1)]

theorem ldpcEntry_info (row : Nat) {c : Nat} (hc : c < 32) : ¬ ldpcEntry row c < 0 := by
  rw [ldpcEntry, if_pos hc]
  omega

theorem circulants_parity {row : Nat} (h : row < 4) :
    ([32, 33, 34, 35].filterMap fun c => if ldpcEntry row c < 0 then none else some (c, (ldpcEntry row c).toNat)) =
      (parityColumns row).map fun c => (c, 0) := by
  interval_cases row <;> simp [ldpcEntry, parityColumns]

theorem circulants_info (row : Nat) :
    ((List.range 32).filterMap fun c => if ldpcEntry row c < 0 then none else some (c, (ldpcEntry row c).toNat)) =
      (List.range 32).map fun c => (c, infoShift row c) := by
  rw [← List.filterMap_eq_map']
  refine List.filterMap_congr fun c hc => ?_
  rw [if_neg (ldpcEntry_info row (List.mem_range.mp hc)), infoShift]

theorem circulants_eq {row : Nat} (h : row < 4) :
    circulants row = ((List.range 32).map fun c => (c, infoShift row c)) ++ (parityColumns row).map fun c => (c, 0) := by
  have columns : List.range 36 = List.range 32 ++ [32, 33, 34, 35] := rfl
  rw [circulants, columns, List.filterMap_append, circulants_info, circulants_parity h]

theorem ldpcCheck_eq {row x : Nat} (h : row < 4) (hx : x < lifting) : ldpcCheck row x =
    ((List.range 32).map fun c => lifting * c + (x + infoShift row c) % lifting) ++ (parityColumns row).map fun c => lifting * c + x := by
  simp only [ldpcCheck, circulants_eq h, List.map_append, List.map_map, Function.comp_def, Nat.add_zero, Nat.mod_eq_of_lt hx]

theorem getLsbD_rotateRight_of_lt (b : BitVec 512) (v : Nat) {x : Nat} (hx : x < lifting) :
    (b.rotateRight v).getLsbD x = b.getLsbD ((x + v) % lifting) := by
  rw [lifting] at *
  rw [BitVec.getLsbD_rotateRight, Bool.cond_eq_ite]
  split_ifs with wraps
  · rw [decide_eq_true_eq] at wraps
    exact congrArg _ (by omega)
  · rw [decide_eq_true_eq] at wraps
    rw [decide_eq_true hx, Bool.true_and]
    exact congrArg _ (by omega)

theorem mapIdx_map_range {α β : Type} (f : Nat → α) (g : Nat → α → β) (n : Nat) :
    ((List.range n).map f).mapIdx g = (List.range n).map fun c => g c (f c) :=
  List.ext_getElem (by simp) fun i _ _ => by simp

theorem getLsbD_rowSum (v : HalfBlock) (row : Nat) {x : Nat} (hx : x < lifting) : (rowSum (infoBlocks v) row).getLsbD x =
    oddlyMany (fun c => (infoBlock v c).getLsbD ((x + infoShift row c) % lifting)) (List.range 32) := by
  rw [rowSum, getLsbD_foldl_xor, infoBlocks, mapIdx_map_range, oddlyMany_map, BitVec.ofNat_eq_ofNat, BitVec.getLsbD_zero, Bool.false_xor]
  exact oddlyMany_congr _ fun c _ => getLsbD_rotateRight_of_lt _ _ hx

/-- The information bits of a check sum to bit x of s_i. -/
theorem oddlyMany_info (v : HalfBlock) (row : Nat) {x : Nat} (hx : x < lifting) :
    oddlyMany (fun b => (ldpcEncode v).getD b false) ((List.range 32).map fun c => lifting * c + (x + infoShift row c) % lifting) =
      (rowSum (infoBlocks v) row).getLsbD x := by
  rw [oddlyMany_map, getLsbD_rowSum v row hx]
  exact oddlyMany_congr _ fun c hc => getD_ldpcEncode_info v (List.mem_range.mp hc) (Nat.mod_lt _ (by decide))

/-- The parity bits of a check sum to bit x of s_i as well: p_i and p_(i-1) differ by s_i. -/
theorem oddlyMany_parity (v : HalfBlock) {row x : Nat} (h : row < 4) (hx : x < lifting) :
    oddlyMany (fun b => (ldpcEncode v).getD b false) ((parityColumns row).map fun c => lifting * c + x) =
      (rowSum (infoBlocks v) row).getLsbD x := by
  cases row with
  | zero =>
    have own := getD_ldpcEncode_parity v h hx
    rw [Nat.add_zero, parityBlock] at own
    simp only [parityColumns, List.map_cons, List.map_nil, oddlyMany_cons, oddlyMany_nil, own, Bool.xor_false]
  | succ i =>
    have own := getD_ldpcEncode_parity v h hx
    have before := getD_ldpcEncode_parity v (i := i) (by omega) hx
    rw [parityBlock, BitVec.getLsbD_xor] at own
    simp only [parityColumns, List.map_cons, List.map_nil, oddlyMany_cons, oddlyMany_nil, own, before, Bool.xor_false]
    rw [Bool.xor_left_comm, Bool.xor_self, Bool.xor_false]

/-- Settles O29: in each check the information bits and the parity bits sum to the same bit of s_i, whatever the shifts are. -/
theorem everyCodewordMeetsEveryCheck : Obligations.EveryCodewordMeetsEveryCheck := by
  refine fun v => ⟨length_ldpcEncode v, take_ldpcEncode v, halfOfBits_bitsOfHalf v, fun row x h hx => ?_⟩
  refine even_of_oddlyMany_eq_false _ ?_
  rw [ldpcCheck_eq h hx, oddlyMany_append, oddlyMany_info v row hx, oddlyMany_parity v h hx, Bool.xor_self]

/-! ### A decode to its end (R180) -/

/-- A decode that has run k of at most `limit` iterations, of which the n-th leaves `left n` unsatisfied checks, ends as R180 says. -/
structure EndsBySyndrome (left : Nat → Nat) (limit k : Nat) (r : DecodeResult) : Prop where
  atMost : k ≤ limit
  unsatisfied_eq : r.unsatisfied = left k
  converged_iff : r.converged = true ↔ r.unsatisfied = 0
  failed_at_limit : r.converged = false → k = limit
  left_before : ∀ n, 1 ≤ n → n < k → left n ≠ 0

/-- The checks that n iterations on m leave unsatisfied. -/
def leftAfter (offset : Nat) (m : MinSum) (n : Nat) : Nat :=
  unsatisfied (Nat.iterate (fun m : MinSum => m.iterate offset) n m).posterior

theorem leftAfter_zero (offset : Nat) (m : MinSum) : leftAfter offset m 0 = unsatisfied m.posterior := by
  rw [leftAfter, Function.iterate_zero_apply]

theorem leftAfter_succ (offset : Nat) (m : MinSum) (n : Nat) : leftAfter offset m (n + 1) = leftAfter offset (m.iterate offset) n := by
  rw [leftAfter, leftAfter, Function.iterate_succ_apply]

theorem leftAfter_one (offset : Nat) (m : MinSum) : leftAfter offset m 1 = unsatisfied (m.iterate offset).posterior := by
  rw [leftAfter_succ, leftAfter_zero]

/-- One more iteration in front, when it leaves checks unsatisfied. -/
theorem EndsBySyndrome.succ {left : Nat → Nat} {limit k : Nat} {r : DecodeResult} (going : left 1 ≠ 0)
    (h : EndsBySyndrome (fun n => left (n + 1)) limit k r) : EndsBySyndrome left (limit + 1) (k + 1) r where
  atMost := Nat.succ_le_succ h.atMost
  unsatisfied_eq := h.unsatisfied_eq
  converged_iff := h.converged_iff
  failed_at_limit failed := congrArg (· + 1) (h.failed_at_limit failed)
  left_before := by
    rintro (_ | _ | n) first before
    · omega
    · exact going
    · exact h.left_before (n + 1) (by omega) (by omega)

/-- A run with no iteration left ends as Failed, so the checks have to be unsatisfied there already. -/
theorem minSumRun_ends (offset limit done : Nat) (m : MinSum) (spent : limit = 0 → leftAfter offset m 0 ≠ 0) :
    ∃ k, (minSumRun offset limit done m).iterations = done + k ∧ (1 ≤ limit → 1 ≤ k) ∧
      EndsBySyndrome (leftAfter offset m) limit k (minSumRun offset limit done m) := by
  induction limit generalizing done m with
  | zero =>
    have unmet := spent rfl
    rw [leftAfter_zero] at unmet
    rw [minSumRun]
    exact ⟨0, rfl, id, le_rfl, by rw [leftAfter_zero], by simpa using unmet, fun _ => rfl, by omega⟩
  | succ limit ih =>
    have one := leftAfter_one offset m
    rw [minSumRun]
    split
    next met => exact ⟨1, rfl, fun _ => le_rfl, by omega, (one.trans met).symm, by simp, nofun, by omega⟩
    next unmet =>
      obtain ⟨k, iterations, -, ends⟩ := ih (done + 1) (m.iterate offset) fun _ => by rwa [leftAfter_zero]
      have shift : leftAfter offset (m.iterate offset) = fun n => leftAfter offset m (n + 1) :=
        funext fun n => (leftAfter_succ offset m n).symm
      rw [shift] at ends
      exact ⟨k + 1, by omega, by omega, ends.succ (by rwa [one])⟩

/-- Settles O30, by induction on the iterations left. -/
theorem decodeEndsByItsSyndrome : Obligations.DecodeEndsByItsSyndrome := by
  intro llrs offset limit atLeastOne start left r
  obtain ⟨k, iterations, ran, ends⟩ := minSumRun_ends offset limit 0 start (by omega)
  have same : r.iterations = k := iterations.trans (Nat.zero_add k)
  rw [same]
  exact ⟨ran atLeastOne, ends.atMost, ends.unsatisfied_eq, ends.converged_iff, ends.failed_at_limit, ends.left_before⟩

/-! ### Completion of the commands of decoding -/

/-- Settles O41: under the hypotheses of its clause each command's guard holds, and its effect is the one stated. The record of a rung and the end of
its ladder, the second pass of BeamReassign, the LLRs of a third cluster that wait for a place of the workspace, the decoder's saturation, the LLRs kept
on a tie and the budget of a rung are choices of the model (log entries 51, 53, 158, 170, 172 and 174). -/
theorem decodingCommandsComplete : Obligations.DecodingCommandsComplete := by
  refine ⟨?decoderDispatch, ?codewordDecodeDone, ?workspaceResume, ?overflowReread, ?clusterDecodeStart, ?outerDecodeDone, ?rungStart,
    ?rereadPassEnd, ?rungEnd⟩
  case decoderDispatch =>
    intro d s up idle
    unfold exec execDecoderDispatch
    exact State.when_of_true (Bool.and_eq_true_iff.mpr ⟨up, idle⟩)
  case codewordDecodeDone =>
    intro d s up
    unfold exec execCodewordDecodeDone
    exact State.when_of_true up
  case workspaceResume =>
    intro p s up stopped free
    unfold exec execWorkspaceResume
    exact State.when_of_true (Bool.and_eq_true_iff.mpr ⟨Bool.and_eq_true_iff.mpr ⟨up, stopped⟩, decide_eq_true free⟩)
  case overflowReread =>
    intro p s up svUp
    unfold exec execOverflowReread
    exact State.when_of_true (Bool.and_eq_true_iff.mpr ⟨up, svUp⟩)
  case clusterDecodeStart =>
    intro p layer q s up
    unfold exec execClusterDecodeStart
    exact State.when_of_true up
  case outerDecodeDone =>
    intro p layer q s up
    unfold exec execOuterDecodeDone
    exact State.when_of_true up
  case rungStart =>
    intro p s up svUp
    unfold exec execRungStart
    exact State.when_of_true (Bool.and_eq_true_iff.mpr ⟨up, svUp⟩)
  case rereadPassEnd =>
    intro p s up svUp
    unfold exec execRereadPassEnd
    exact State.when_of_true (Bool.and_eq_true_iff.mpr ⟨up, svUp⟩)
  case rungEnd =>
    intro p s up
    unfold exec execRungEnd
    exact State.when_of_true up

end Sys2Proof.Machine
end

section
/-! PROOFS. The write path (family 06): the laser gates of a mark follow the write strategy, and the commands of runs, write passes, spares, seals,
journal pairs, power calibration and map builds complete. -/

namespace Sys2Proof.Machine

/-! ### Runs of equal levels -/

/-- The first run of a list has the level that the list begins with. -/
theorem exists_levelRuns_cons (b : Bool) (l : List Bool) : ∃ n r, levelRuns (b :: l) = (b, n) :: r := by
  rw [levelRuns]
  split
  next c n r _ =>
    by_cases same : (b == c) = true
    · rw [if_pos same, eq_of_beq same]; exact ⟨_, _, rfl⟩
    · rw [if_neg same]; exact ⟨_, _, rfl⟩
  next => exact ⟨_, _, rfl⟩

/-- A level that does not go on is a run of its own. -/
theorem levelRuns_cons_of_ne {b : Bool} {l : List Bool} (h : l.head? ≠ some b) : levelRuns (b :: l) = (b, 1) :: levelRuns l := by
  cases l with
  | nil => rfl
  | cons c l =>
    obtain ⟨n, r, runs⟩ := exists_levelRuns_cons c l
    rw [levelRuns, runs]
    exact if_neg fun same => h (congrArg some (eq_of_beq same).symm)

/-- A level that goes on lengthens the first run. -/
theorem levelRuns_cons_of_run {b : Bool} {n : Nat} {l : List Bool} {r : List (Bool × Nat)} (h : levelRuns l = (b, n) :: r) :
    levelRuns (b :: l) = (b, n + 1) :: r := by
  rw [levelRuns, h]
  exact if_pos (beq_self_eq_true b)

theorem levelRuns_replicate_append {b : Bool} {l : List Bool} (n : Nat) (h : l.head? ≠ some b) :
    levelRuns (List.replicate (n + 1) b ++ l) = (b, n + 1) :: levelRuns l := by
  induction n with
  | zero => exact levelRuns_cons_of_ne h
  | succ n ih => exact levelRuns_cons_of_run ih

/-- Where the level changes between two lists, no run spans both. -/
theorem levelRuns_append {l l' : List Bool} (h : ∀ b ∈ l.getLast?, l'.head? ≠ some b) :
    levelRuns (l ++ l') = levelRuns l ++ levelRuns l' := by
  induction l with
  | nil => rfl
  | cons a l ih =>
    cases l with
    | nil => exact levelRuns_cons_of_ne (h a rfl)
    | cons c l =>
      have ih := ih fun b hb => h b (by rwa [List.getLast?_cons_cons])
      by_cases same : c = a
      · subst same
        obtain ⟨n, r, runs⟩ := exists_levelRuns_cons c l
        rw [runs] at ih
        rw [levelRuns_cons_of_run runs]
        exact levelRuns_cons_of_run ih
      · have changes : some c ≠ some a := fun e => same (Option.some.inj e)
        have whole : levelRuns (a :: (c :: l ++ l')) = (a, 1) :: levelRuns (c :: l ++ l') := levelRuns_cons_of_ne changes
        rw [List.cons_append, whole, ih, levelRuns_cons_of_ne (l := c :: l) changes, List.cons_append]

/-- Channel bits of a list of runs. -/
def runBits (r : List (Bool × Nat)) : Nat := (r.map Prod.snd).sum

theorem runBits_cons (x : Bool × Nat) (r : List (Bool × Nat)) : runBits (x :: r) = x.2 + runBits r := by
  rw [runBits, List.map_cons, List.sum_cons, runBits]

theorem runBits_levelRuns (l : List Bool) : runBits (levelRuns l) = l.length := by
  induction l with
  | nil => rfl
  | cons b l ih =>
    rw [levelRuns, List.length_cons, ← ih]
    split
    next c n r runs =>
      rw [runs]
      split <;> simp only [runBits_cons] <;> omega
    next runs => rw [runs]; rfl

/-! ### Marks and their pulses (R215) -/

/-- After a space, the marks of the runs that follow depend on it and on the place that they start at alone. -/
theorem marksOf_append_space (g : RunSettings) (k : Nat) (rest : List (Bool × Nat)) (r : List (Bool × Nat)) (t s : Nat) :
    marksOf g t s (r ++ (false, k) :: rest) = marksOf g t s r ++ marksOf g (t + runBits r + k) k rest := by
  induction r generalizing t s with
  | nil => rfl
  | cons x r ih =>
    obtain ⟨level, n⟩ := x
    have place : t + n + runBits r + k = t + runBits ((level, n) :: r) + k := by rw [runBits_cons]; omega
    cases level <;> simp only [List.cons_append, marksOf, ih, place] <;> rfl

/-- The pulse of a mark: its peak gate as the strategy has it, its cool gate up to `CoolLength` or to the next rise. -/
def pulseOf (x : Int × Int × Int) (next : Option (Int × Int × Int)) : Pulse :=
  { rise := x.1, fall := x.2.1, cool := (next.map fun y => min (x.2.1 + x.2.2) y.1).getD (x.2.1 + x.2.2) }

theorem getElem?_pulsesOf (l : List (Int × Int × Int)) (i : Nat) : (pulsesOf l)[i]? = l[i]?.map fun x => pulseOf x l[i + 1]? := by
  induction l generalizing i with
  | nil => rfl
  | cons x l ih =>
    cases i with
    | zero => simp [pulsesOf, pulseOf, List.head?_eq_getElem?]
    | succ i => simpa [pulsesOf] using ih i

/-- The pulse of the first mark after a list of marks. -/
theorem getElem?_pulsesOf_append (l m : List (Int × Int × Int)) (x : Int × Int × Int) :
    (pulsesOf (l ++ x :: m))[l.length]? = some (pulseOf x m.head?) := by
  simp [getElem?_pulsesOf, List.getElem?_append_right, List.head?_eq_getElem?]

/-- A pulse cools until `CoolLength` has passed since its fall, or until the next pulse of the list rises. -/
theorem pulseOf_cool (l m : List (Int × Int × Int)) (x : Int × Int × Int) :
    (pulseOf x m.head?).cool = match (pulsesOf (l ++ x :: m))[l.length + 1]? with
      | some y => min (x.2.1 + x.2.2) y.rise
      | none => x.2.1 + x.2.2 := by
  cases m <;> simp [getElem?_pulsesOf, pulseOf]

/-- The runs about a mark of n + 1 bits after a space of s + 1 bits. -/
theorem levelRuns_about_mark {before after : List Bool} (s n : Nat) (hb : before.getLast? ≠ some false) (ha : after.head? ≠ some true) :
    levelRuns (before ++ List.replicate (s + 1) false ++ List.replicate (n + 1) true ++ after) =
      levelRuns before ++ (false, s + 1) :: (true, n + 1) :: levelRuns after := by
  rw [List.append_assoc, List.append_assoc, levelRuns_append, levelRuns_replicate_append, levelRuns_replicate_append n ha]
  · simp [List.replicate_succ]
  · rintro b hlast ⟨⟩
    exact hb hlast

/-- Settles O31: the runs about the mark stand in the list of runs, so its entry stands in the list of marks, and each mark has its pulse. For marks
and spaces of one bit R215 gives no class; that they take the class of two bits is the model's choice. -/
theorem writePulsesFollowTheStrategy : Obligations.WritePulsesFollowTheStrategy := by
  intro g before after s n hs hn hb ha
  obtain ⟨s, rfl⟩ := Nat.exists_eq_add_of_le' hs
  obtain ⟨n, rfl⟩ := Nat.exists_eq_add_of_le' hn
  dsimp only
  rw [framePulses, levelRuns_about_mark s n hb ha, marksOf_append_space, runBits_levelRuns, Nat.zero_add, marksOf, if_pos rfl]
  refine ⟨_, _, getElem?_pulsesOf_append _ _ _, ?rise, ?fall, pulseOf_cool _ _ _⟩
  case rise =>
    have start : ((before.length + (s + 1) : Nat) : Int) = before.length + (s + 1 : Nat) := Nat.cast_add _ _
    exact congrArg (32 * · + g.topStart.getD (3 * markClass (n + 1) + spaceClass (s + 1)) 0) start
  case fall =>
    have lastBit : ((before.length + (s + 1) + (n + 1) - 1 : Nat) : Int) = before.length + (s + 1 : Nat) + (n + 1 : Nat) - 1 := by omega
    exact congrArg (32 * · + g.endShift.getD (markClass (n + 1)) 0) lastBit

/-! ### Completion of the commands of the write path -/

/-- Settles O42: under the hypotheses of its clause each command's guard holds, and its effect is the one stated. Choices of the model are the wait of
RUN_FORM_TIMEOUT and the data that a Flush needs (log entries 190 and 142), what RUN_ARM waits for and what becomes of a refused user run (57, 130 and
58), the power loop's target, its event on a bound and the inhibit between passes that does nothing (56 and 131), the numbers of the gates' conditions
(189), when a slot holds marks (187), the powers that OPC applies (57), what the operands of MAP_BUILD and MAP_BUILT bring (59, 60 and 132), and the
islands that the events come from (140). -/
theorem writePathCommandsComplete : Obligations.WritePathCommandsComplete := by
  refine ⟨?runForm, ?runFormTimeout, ?runArm, ?writePassStart, ?writePassEnd, ?powerMonitorRead, ?gateInhibit, ?notBlank, ?spareRun, ?zoneSeal,
    ?journalPairWrite, ?journalPairCommit, ?opc, ?mapBuild, ?mapBuilt⟩
  case runForm =>
    intro p zone partialToo s up on zoneExists may noneStarts
    unfold exec execRunForm
    refine State.when_of_true ?_
    rw [up, on, decide_eq_true zoneExists, may, noneStarts]; rfl
  case runFormTimeout =>
    intro p zone s up on zoneExists noneStarts
    unfold exec execRunFormTimeout
    refine State.when_of_true ?_
    rw [up, on, decide_eq_true zoneExists, noneStarts]; rfl
  case runArm =>
    intro p s up svUp
    unfold exec execRunArm
    exact State.when_of_true (Bool.and_eq_true_iff.mpr ⟨up, svUp⟩)
  case writePassStart =>
    intro p s up
    unfold exec execWritePassStart
    exact State.when_of_true up
  case writePassEnd =>
    intro p s up
    unfold exec execWritePassEnd
    exact State.when_of_true up
  case powerMonitorRead =>
    intro g monitorPeak fault s up writing counted
    unfold exec execPowerMonitorRead
    refine State.when_of_true ?_
    rw [up, writing, decide_eq_true counted]; rfl
  case gateInhibit =>
    intro p s up inProgress
    unfold exec execGateInhibit
    exact State.when_of_true (Bool.and_eq_true_iff.mpr ⟨up, inProgress⟩)
  case notBlank =>
    intro p s up writing first
    unfold exec execNotBlank
    refine State.when_of_true ?_
    rw [up, writing, decide_eq_true first]; rfl
  case spareRun =>
    intro p s up on
    unfold exec execSpareRun
    exact State.when_of_true (Bool.and_eq_true_iff.mpr ⟨up, on⟩)
  case zoneSeal =>
    intro p zone s up on built zoneExists due unsealed noneWaits writable
    unfold exec execZoneSeal
    refine State.when_of_true ?_
    rw [up, on, built, decide_eq_true zoneExists, due, bne_iff_ne.mpr unsealed, noneWaits, bne_iff_ne.mpr writable]; rfl
  case journalPairWrite =>
    intro p s up on
    unfold exec execJournalPairWrite
    exact State.when_of_true (Bool.and_eq_true_iff.mpr ⟨up, on⟩)
  case journalPairCommit =>
    intro p s up on
    unfold exec execJournalPairCommit
    exact State.when_of_true (Bool.and_eq_true_iff.mpr ⟨up, on⟩)
  case opc =>
    intro p pair errors s up following seq idle layer both
    unfold exec execOpc
    refine State.when_of_true ?_
    rw [up, following, seq, idle, layer, decide_eq_true both]; rfl
  case mapBuild =>
    intro p dcbBlank dcbReads discId marks records spares tails highSerial s up svUp mounted unbuilt idle
    unfold exec execMapBuild
    refine State.when_of_true ?_
    rw [up, svUp, mounted, unbuilt, idle]; rfl
  case mapBuilt =>
    intro p chains s up building
    unfold exec execMapBuilt
    exact State.when_of_true (Bool.and_eq_true_iff.mpr ⟨up, building⟩)

end Sys2Proof.Machine
end

section
/-! PROOFS. The spindle drive and rate matching (family 07): the gates of a phase are never on together, and the commands of starts, stops, control,
bus samples, faults, rest and rate matching complete. -/

namespace Sys2Proof.Machine

/-! ### The instant of a gate's edge (R252) -/

/-- An edge moves later only. -/
theorem le_clearOfEdge (t : Int) : t ≤ clearOfEdge t := by
  unfold clearOfEdge
  dsimp only
  split_ifs <;> omega

/-- An edge that was moved stands at the end of the interval, outside of it. -/
theorem nearEdge_clearOfEdge (t : Int) : nearEdge (clearOfEdge t) = false := by
  unfold clearOfEdge nearEdge
  dsimp only
  refine decide_eq_false ?_
  split_ifs <;> omega

/-- The gate that goes on in a change-over follows the one that goes off. -/
theorem clearOfEdge_le_afterDead (t : Int) {dead : Int} (nonneg : 0 ≤ dead) : clearOfEdge t ≤ clearOfEdge (clearOfEdge t + dead) :=
  (le_add_of_nonneg_right nonneg).trans (le_clearOfEdge _)

/-! ### The levels of a leg -/

/-- The levels of both gates after an edge, seen at an instant: an edge still to come changes nothing. -/
def GateEdge.apply (t : Int) (now : Bool × Bool) (e : GateEdge) : Bool × Bool :=
  if e.ns ≤ t then (if e.high then (e.on, now.2) else (now.1, e.on)) else now

theorem GateEdge.apply_of_le {t : Int} {now : Bool × Bool} {e : GateEdge} (h : e.ns ≤ t) :
    e.apply t now = if e.high then (e.on, now.2) else (now.1, e.on) := if_pos h

theorem GateEdge.apply_of_lt {t : Int} {now : Bool × Bool} {e : GateEdge} (h : t < e.ns) : e.apply t now = now :=
  if_neg (not_le.mpr h)

section Level

variable {l : Leg} {t u : Int}

theorem Leg.level_eq_foldl (l : Leg) (t : Int) : l.level t = l.edges.foldl (GateEdge.apply t) (l.high, l.low) := rfl

theorem Leg.level_append (l : Leg) (es : List GateEdge) (t : Int) :
    { l with edges := l.edges ++ es }.level t = es.foldl (GateEdge.apply t) (l.level t) := by
  simp only [Leg.level_eq_foldl, List.foldl_append]

theorem Leg.edges_next (l : Leg) (ns : Int) : (l.next ns).edges = [] := rfl

/-- Once its last edge has come, a leg keeps its levels. -/
theorem Leg.level_eq_of_edges_le (past : ∀ e ∈ l.edges, e.ns ≤ t) (later : t ≤ u) : l.level u = l.level t :=
  List.foldl_ext _ _ _ fun now e he => by
    change e.apply u now = e.apply t now
    rw [GateEdge.apply_of_le (past e he), GateEdge.apply_of_le ((past e he).trans later)]

/-- The ways of a change-over to one side: that gate is on already, or the other one gives way to it, or both were off. -/
theorem Leg.turn_cases (l : Leg) (high : Bool) (t dead : Int) :
    l.turn high t dead = l ∨
    (l.level t = (!high, high) ∧ l.turn high t dead =
      { l with edges := l.edges ++ [⟨clearOfEdge t, !high, false⟩, ⟨clearOfEdge (clearOfEdge t + dead), high, true⟩] }) ∨
    (l.level t = (false, false) ∧ l.turn high t dead = { l with edges := l.edges ++ [⟨clearOfEdge t, high, true⟩] }) := by
  by_cases on : (if high then (l.level t).1 else (l.level t).2) = true
  · exact .inl (if_pos on)
  by_cases other : ((l.level t).1 || (l.level t).2) = true
  · refine .inr (.inl ⟨?_, (if_neg on).trans (if_pos other)⟩)
    cases high <;> simp_all [Prod.ext_iff]
  · refine .inr (.inr ⟨?_, (if_neg on).trans (if_neg other)⟩)
    simp_all [Prod.ext_iff]

/-- Edges that are still to come change no level. -/
theorem GateEdge.foldl_apply_of_future {es : List GateEdge} (future : ∀ e ∈ es, t < e.ns) (now : Bool × Bool) :
    es.foldl (GateEdge.apply t) now = now :=
  (List.foldl_ext _ (fun now _ => now) now fun _ e he => GateEdge.apply_of_lt (future e he)).trans (List.foldl_fixed es)

/-- Gates that only go off do not come to be on together. -/
theorem GateEdge.foldl_apply_of_goOff {es : List GateEdge} {now : Bool × Bool} (goOff : ∀ e ∈ es, e.on = false) (apart : now ≠ (true, true)) :
    es.foldl (GateEdge.apply t) now ≠ (true, true) := by
  induction es generalizing now with
  | nil => exact apart
  | cons e es ih =>
    refine ih (fun e he => goOff e (List.mem_cons_of_mem _ he)) ?_
    rw [GateEdge.apply, goOff e List.mem_cons_self]
    split_ifs
    · simp
    · simp
    · exact apart

end Level

/-! ### What R252 asks of a pattern -/

/-- An edge by which a gate goes off and the next edge, by which the other gate goes on, lie a dead time apart. -/
def GateEdge.DeadTime (dead : Int) (e e' : GateEdge) : Prop := e.on = false → e'.on = true → e.high ≠ e'.high → e.ns + dead ≤ e'.ns

/-- A pattern as R252 asks for it. -/
structure Leg.Safe (dead : Int) (l : Leg) : Prop where
  apart : ∀ t, l.level t ≠ (true, true)
  clear : ∀ e ∈ l.edges, nearEdge e.ns = false
  spaced : l.edges.IsChain (GateEdge.DeadTime dead)

/-- A safe pattern that has come to rest by an instant with a gate on, or has no edge at all: a change-over may follow it. -/
structure Leg.Settled (dead t : Int) (l : Leg) : Prop extends Leg.Safe dead l where
  past : ∀ e ∈ l.edges, e.ns ≤ t
  endsOn : ∀ e ∈ l.edges.getLast?, e.on = true

section Patterns

variable {l : Leg} {dead t u : Int}

theorem Leg.Safe.withCarry (h : l.Safe dead) (c : Int) : { l with carry := c }.Safe dead := ⟨h.apart, h.clear, h.spaced⟩

theorem Leg.Settled.mono (h : l.Settled dead t) (later : t ≤ u) : l.Settled dead u :=
  { h with past := fun e he => (h.past e he).trans later }

/-- The next pattern of a leg starts from its levels with no edge. -/
theorem Leg.next_settled (apart : ∀ t, l.level t ≠ (true, true)) (ns t : Int) : (l.next ns).Settled dead t where
  apart _ := apart ns
  clear := by simp [Leg.edges_next]
  spaced := by simp [Leg.edges_next]
  past := by simp [Leg.edges_next]
  endsOn := by simp [Leg.edges_next]

/-- Edges from an instant of rest on keep a leg settled when they do so from the levels at rest. -/
theorem Leg.Settled.append (h : l.Settled dead t) {es : List GateEdge} (future : ∀ e ∈ es, t ≤ e.ns) (later : t ≤ u)
    (rest : Leg.Settled dead u { high := (l.level t).1, low := (l.level t).2, edges := es }) :
    { l with edges := l.edges ++ es }.Settled dead u where
  apart v := by
    rw [Leg.level_append]
    obtain before | since := lt_or_ge v t
    · rw [GateEdge.foldl_apply_of_future fun e he => before.trans_le (future e he)]
      exact h.apart v
    · rw [Leg.level_eq_of_edges_le h.past since]
      exact rest.apart v
  clear := List.forall_mem_append.mpr ⟨h.clear, rest.clear⟩
  spaced := List.isChain_append.mpr ⟨h.spaced, rest.spaced, fun e he _ _ off => absurd (h.endsOn e he) (by rw [off]; decide)⟩
  past := List.forall_mem_append.mpr ⟨fun e he => (h.past e he).trans later, rest.past⟩
  endsOn e he := by
    rw [List.getLast?_append, Option.mem_def, Option.or_eq_some_iff] at he
    obtain last | ⟨-, last⟩ := he
    · exact rest.endsOn e last
    · exact h.endsOn e last

/-- From both gates off, one of them goes on. -/
theorem Leg.settled_on (high : Bool) (t dead : Int) :
    Leg.Settled dead (clearOfEdge t) { high := false, low := false, edges := [⟨clearOfEdge t, high, true⟩] } where
  apart u := by
    simp only [Leg.level_eq_foldl, List.foldl_cons, List.foldl_nil, GateEdge.apply]
    cases high <;> split <;> simp
  clear := by simp [nearEdge_clearOfEdge]
  spaced := List.isChain_singleton _
  past := by simp
  endsOn := by simp

/-- One gate gives way to the other. -/
theorem Leg.settled_changeOver (high : Bool) (t : Int) (nonneg : 0 ≤ dead) :
    Leg.Settled dead (clearOfEdge (clearOfEdge t + dead))
      { high := !high, low := high, edges := [⟨clearOfEdge t, !high, false⟩, ⟨clearOfEdge (clearOfEdge t + dead), high, true⟩] } where
  apart u := by
    obtain before | since := lt_or_ge u (clearOfEdge t)
    · rw [Leg.level_eq_foldl, GateEdge.foldl_apply_of_future (by simpa using ⟨before, before.trans_le (clearOfEdge_le_afterDead t nonneg)⟩)]
      cases high <;> simp
    · rw [Leg.level_eq_foldl, List.foldl_cons, GateEdge.apply_of_le (e := ⟨clearOfEdge t, !high, false⟩) since]
      simp only [List.foldl_cons, List.foldl_nil, GateEdge.apply]
      cases high <;> split <;> simp
  clear := by simp [nearEdge_clearOfEdge]
  spaced := List.isChain_pair.mpr fun _ _ _ => le_clearOfEdge _
  past := by simpa using clearOfEdge_le_afterDead t nonneg
  endsOn := by simp

/-- A change-over of a leg at rest settles by the end of its dead time. -/
theorem Leg.Settled.turn (h : l.Settled dead t) (nonneg : 0 ≤ dead) (high : Bool) :
    (l.turn high t dead).Settled dead (clearOfEdge (clearOfEdge t + dead)) := by
  have off := le_clearOfEdge t
  have on := clearOfEdge_le_afterDead t nonneg
  obtain same | ⟨now, change⟩ | ⟨now, fresh⟩ := l.turn_cases high t dead
  · rw [same]
    exact h.mono (off.trans on)
  · rw [change]
    refine h.append (by simpa using ⟨off, off.trans on⟩) (off.trans on) ?_
    rw [now]
    exact Leg.settled_changeOver high t nonneg
  · rw [fresh]
    refine (h.append (u := clearOfEdge t) (by simpa using off) off ?_).mono on
    rw [now]
    exact Leg.settled_on high t dead

/-- When both gates are told to go off, each edge comes at the first clear instant and puts none on. -/
theorem Leg.edges_off {e : GateEdge} {ns : Int} (he : e ∈ (l.off ns).edges) : e.ns = clearOfEdge 0 ∧ e.on = false := by
  obtain high | low := List.mem_append.mp he
  · split at high
    · rw [List.mem_singleton.mp high]; exact ⟨rfl, rfl⟩
    · cases high
  · split at low
    · rw [List.mem_singleton.mp low]; exact ⟨rfl, rfl⟩
    · cases low

theorem Leg.off_safe (apart : ∀ t, l.level t ≠ (true, true)) (ns dead : Int) : (l.off ns).Safe dead where
  apart _ := GateEdge.foldl_apply_of_goOff (fun _ he => (Leg.edges_off he).2) (apart ns)
  clear e he := by rw [(Leg.edges_off he).1, nearEdge_clearOfEdge]
  spaced := (List.pairwise_of_forall_mem_list fun _ _ e he _ on => absurd on (by rw [(Leg.edges_off he).2]; decide)).isChain

/-- A PWM period is a change-over to low, one to high and one back, each after the last has settled. -/
theorem Leg.pwm_safe (apart : ∀ t, l.level t ≠ (true, true)) (duty : Int) (nonneg : 0 ≤ dead) : (l.pwm duty dead).Safe dead := by
  have start (high : Bool) := (Leg.next_settled apart 20000 0).turn nonneg high
  unfold Leg.pwm
  dsimp only
  split_ifs with noPulse noRoom
  · exact (start false).withCarry _
  · exact (start true).withCarry _
  · push Not at noPulse noRoom
    exact ((((start false).mono noRoom.2.le).turn nonneg true).mono noPulse.le |>.turn nonneg false).withCarry _

/-- Successive edges of a safe pattern, as the list has them. -/
theorem Leg.Safe.deadTime (h : l.Safe dead) {n : Nat} {e e' : GateEdge} (he : l.edges[n]? = some e) (he' : l.edges[n + 1]? = some e') :
    e.DeadTime dead e' := by
  obtain ⟨_, rfl⟩ := List.getElem?_eq_some_iff.mp he
  obtain ⟨next, rfl⟩ := List.getElem?_eq_some_iff.mp he'
  exact List.isChain_iff_getElem.mp h.spaced n next

end Patterns

/-- Settles O32: each pattern is safe, and a safe pattern has the three properties. That a pulse without room for its dead times is left out is the
model's choice (log entry 176). -/
theorem gatesOfAPhaseAreNeverOnTogether : Obligations.GatesOfAPhaseAreNeverOnTogether := by
  intro l duty dead ns high nonneg apart p hp
  have safe : p.Safe dead := by
    simp only [List.mem_cons, List.not_mem_nil, or_false] at hp
    obtain rfl | rfl | rfl | rfl := hp
    · exact (Leg.next_settled apart ns 0).toSafe
    · exact Leg.off_safe apart ns dead
    · exact ((Leg.next_settled apart ns 0).turn nonneg high).toSafe
    · exact Leg.pwm_safe apart duty nonneg
  exact ⟨safe.apart, safe.clear, fun _ _ _ => safe.deadTime⟩

/-! ### Completion of the spindle's start and stop commands -/

/-- A write of `SpindleCommand` that carries the command of its row has its effect when CORE takes it and the spindle is not busy. -/
theorem State.spindleCommand_taken {s : State} {cl : Client} {i : SpindleId} {v : Int} {busy : Bool} (taken : s.Takes cl Obj.spindleCommand i 0 v)
    (free : busy = false) (effect : State → State) :
    s.spindleCommand cl i v v busy effect = s.wrote cl Obj.spindleCommand i 0 effect := by
  rw [State.spindleCommand, if_neg (not_not.mpr rfl), free, State.hostWrite_taken taken]

/-- Settles O43: under the hypotheses of its clause each command's guard holds, and its effect is the one stated; CORE takes the writes of
SpindleCommand. That a start in Fault goes by the last sample of SPs_FLT_N, what a catch-spin and a start that waits show, where a seed puts the
rotor and its back-EMF, and the current and the forced speed of the handover are choices of the model (log entries 34, 39, 178, 181 and 182). -/
theorem spindleStartCommandsComplete : Obligations.SpindleStartCommandsComplete := by
  refine ⟨?start, ?stop, ?coast, ?startReverse, ?sensingEnd, ?alignEnd, ?handover, ?startAttemptFail, ?startRetry, ?catchSpinLock⟩
  case start =>
    intro cl i s up taken clearable
    change execSpindleStart cl i 1 s = _
    rw [execSpindleStart, State.when_of_true up, State.spindleCommand_taken taken clearable]
  case stop =>
    intro cl i s up taken
    change execSpindleStop cl i 2 s = _
    rw [execSpindleStop, State.when_of_true up, State.spindleCommand_taken taken rfl]
  case coast =>
    intro cl i s up taken
    change execSpindleCoast cl i 3 s = _
    rw [execSpindleCoast, State.when_of_true up, State.spindleCommand_taken taken rfl]
  case startReverse =>
    intro cl i s up taken free
    change execSpindleStartReverse cl i 4 s = _
    rw [execSpindleStartReverse, State.when_of_true up, State.spindleCommand_taken taken free]
  case sensingEnd =>
    intro i s up sensing undriven sensed
    unfold exec execSensingEnd
    refine State.when_of_true ?_
    rw [up, sensing, undriven, decide_eq_true sensed]; rfl
  case alignEnd =>
    intro i s up aligning elapsed
    unfold exec execAlignEnd
    refine State.when_of_true ?_
    rw [up, aligning, decide_eq_true elapsed]; rfl
  case handover =>
    intro i s up ramping passes
    unfold exec execHandover
    refine State.when_of_true ?_
    rw [up, ramping, passes]; rfl
  case startAttemptFail =>
    intro i s up ramping limit fails
    unfold exec execStartAttemptFail
    refine State.when_of_true ?_
    rw [up, ramping, decide_eq_true limit, fails]; rfl
  case startRetry =>
    intro i s up waits elapsed
    unfold exec execStartRetry
    refine State.when_of_true ?_
    rw [up, waits, decide_eq_true elapsed]; rfl
  case catchSpinLock =>
    intro i s up sensing driven plausible
    unfold exec execCatchSpinLock
    refine State.when_of_true ?_
    rw [up, sensing, driven, decide_eq_true plausible]; rfl

/-! ### Completion of the spindle's running commands -/

/-- Settles O44: under the hypotheses of its clause each command's guard holds, and its effect is the one stated. Choices of the model are when a
regeneration fold-back is recorded (log entry 40), the host rates of a stream (41), the trace points of a period (42), what ends a catch-spin and from
when a reacquisition is timed (39 and 184), that a trip acts once while its fault bit is set (185), and the reference that AT_SPEED asks for (186). -/
theorem spindleControlAndEventCommandsComplete : Obligations.SpindleControlAndEventCommandsComplete := by
  refine ⟨?pwmPeriod, ?dtcEvaluation, ?speedSample, ?atSpeed, ?vbusSample, ?vbusLow, ?observerLost, ?reacquisitionAttemptEnd, ?gateFault, ?atRest,
    ?rateMatchEvaluation, ?rateFloor, ?frictionTorqueApply⟩
  case pwmPeriod =>
    intro i currents voltages fltHigh s up
    unfold exec execPwmPeriod
    exact State.when_of_true up
  case dtcEvaluation =>
    intro i currents s up driven
    unfold exec execDtcEvaluation
    exact State.when_of_true (Bool.and_eq_true_iff.mpr ⟨up, driven⟩)
  case speedSample =>
    intro i s up turns
    unfold exec execSpeedSample
    exact State.when_of_true (Bool.and_eq_true_iff.mpr ⟨up, turns⟩)
  case atSpeed =>
    intro i s up running settled reached
    unfold exec execAtSpeed
    refine State.when_of_true ?_
    rw [up, running, settled, decide_eq_true reached]; rfl
  case vbusSample =>
    intro i code s up
    unfold exec execVbusSample
    exact State.when_of_true up
  case vbusLow =>
    intro i s up low fresh
    unfold exec execVbusLow
    refine State.when_of_true ?_
    rw [up, decide_eq_true low, fresh]; rfl
  case observerLost =>
    intro i s up turns implausible
    unfold exec execObserverLost
    refine State.when_of_true ?_
    rw [up, turns, decide_eq_true implausible]; rfl
  case reacquisitionAttemptEnd =>
    intro i s up ends
    unfold exec execReacquisitionAttemptEnd
    exact State.when_of_true (Bool.and_eq_true_iff.mpr ⟨up, ends⟩)
  case gateFault =>
    intro i s up
    unfold exec execGateFault
    exact State.when_of_true up
  case atRest =>
    intro i s up brakes below
    unfold exec execAtRest
    refine State.when_of_true ?_
    rw [up, brakes, below]; rfl
  case rateMatchEvaluation =>
    intro i s up
    unfold exec execRateMatchEvaluation
    exact State.when_of_true up
  case rateFloor =>
    intro p s up elapsed fresh
    unfold exec execRateFloor
    refine State.when_of_true ?_
    rw [up, elapsed, fresh]; rfl
  case frictionTorqueApply =>
    intro i s up stopped pending
    unfold exec execFrictionTorqueApply
    refine State.when_of_true ?_
    rw [up, stopped, pending]; rfl

end Sys2Proof.Machine
end

section
/-! PROOFS. The sled and the axes (family 08): command words, profile periods, inputs, stalls and faults of an axis complete. -/

namespace Sys2Proof.Machine

/-! ### Command words (R301) -/

/-- The command word of an axis that is up, when CORE takes it, is answered with its result, and has its effect when the result is Accepted. -/
theorem State.when_axisCommand_taken {s : State} {cl : Client} {a : AxisId} {v : Int} (up : s.axisUp a = true)
    (taken : s.Takes cl Obj.axisCommand a.inst 0 v) (result : State → AxisResult) (effect : State → State) :
    (s.when (s.axisUp a) fun s => s.axisCommand cl a v v result effect) = .next (s.wrote cl Obj.axisCommand a.inst 0 fun s =>
      let r := result s
      let s := s.axisAnswer a v r
      if r == .accepted then effect s else s) := by
  rw [State.when_of_true up, State.axisCommand, if_neg (not_not.mpr rfl), State.hostWrite_taken taken]

/-! ### Completion of the commands of an axis -/

/-- Settles O45: CORE takes the command words, and under the hypotheses of its clause each other command's guard holds; the effect is the one
stated. The order in which results are decided, the Busy of a Move that an external source holds, the units of positions and speeds, how a profile
period samples, meets a limit and treats a frozen axis, and the position at an input's edge are choices of the model (log entries 35 to 38, 135 and
191). -/
theorem axisCommandsComplete : Obligations.AxisCommandsComplete := by
  refine ⟨?profilePeriod, ?axisMove, ?axisHalt, ?axisStop, ?axisHome, ?axisEnable, ?axisDisable, ?clearFault, ?stall, ?stallRetry,
    ?holdDelayExpiry, ?homeInput, ?homingEnd, ?limitInput, ?encoderError, ?axisDriverFault, ?axisOvercurrent⟩
  case axisMove | axisHalt | axisStop | axisHome | axisEnable | axisDisable | clearFault =>
    intro cl a s up taken
    exact State.when_axisCommand_taken up taken _ _
  case profilePeriod =>
    intro a encoderDelta coils vm fltHigh s up starts
    unfold exec execProfilePeriod
    exact State.when_of_true (Bool.and_eq_true_iff.mpr ⟨up, starts⟩)
  case stall =>
    intro a s up counted
    unfold exec execStall
    exact State.when_of_true (Bool.and_eq_true_iff.mpr ⟨up, decide_eq_true counted⟩)
  case stallRetry =>
    intro a s up sled standing frozen lost elapsed
    unfold exec execStallRetry
    refine State.when_of_true ?_
    rw [up, sled, standing, frozen, lost, elapsed]; rfl
  case holdDelayExpiry =>
    intro a s up standing elapsed
    unfold exec execHoldDelayExpiry
    refine State.when_of_true ?_
    rw [up, standing, decide_eq_true elapsed]; rfl
  case homeInput =>
    intro a high s up auxiliary
    unfold exec execHomeInput
    exact State.when_of_true (and_not_eq_true up auxiliary)
  case homingEnd =>
    intro a s up homing found stopped elapsed
    unfold exec execHomingEnd
    refine State.when_of_true ?_
    rw [up, homing, found, decide_eq_true stopped, decide_eq_true elapsed]; rfl
  case limitInput =>
    intro a positive high s up auxiliary
    unfold exec execLimitInput
    exact State.when_of_true (and_not_eq_true up auxiliary)
  case encoderError =>
    intro a s up used
    unfold exec execEncoderError
    exact State.when_of_true (Bool.and_eq_true_iff.mpr ⟨up, used⟩)
  case axisDriverFault =>
    intro a s up
    unfold exec execAxisDriverFault
    exact State.when_of_true up
  case axisOvercurrent =>
    intro a code s up above
    unfold exec execAxisOvercurrent
    exact State.when_of_true (Bool.and_eq_true_iff.mpr ⟨up, decide_eq_true above⟩)

end Sys2Proof.Machine
end

section
/-! PROOFS. The host interface (family 09): an object reads back what was stored, the order in which a controller serves its queues, and the commands
of queues, of administration, of the zoned namespaces and of controllers and links complete. -/

namespace Sys2Proof.Machine

/-! ### The object store (R363, R366, R367) -/

/-- Settles O14: the store lists its keys rising, so a write is found under its own key and under no other. -/
theorem objectStoreReadsBack : Obligations.ObjectStoreReadsBack := fun s r i k v ⟨rising, _⟩ =>
  ⟨s.ob_setOb_self r i k v rising, fun r' i' k' => s.ob_setOb_other r r' i k i' k' v rising, (s.setOb_eff r i k v).frame⟩

/-! ### A turn among queues (R324) -/

/-- Where a queue waits, the turn comes to one of those that wait. -/
theorem exists_nextInTurn {ids : List Nat} (waiting : ids ≠ []) (last : Nat) : ∃ i, nextInTurn ids last = some i ∧ i ∈ ids := by
  obtain ⟨lowest, hlowest⟩ := Option.isSome_iff_exists.mp (List.isSome_min?_of_ne_nil waiting)
  rw [nextInTurn, hlowest]
  rcases after : (ids.filter fun i => decide (last < i)).min? with _ | i
  · exact ⟨lowest, rfl, List.min?_mem hlowest⟩
  · exact ⟨i, rfl, (List.mem_filter.mp (List.min?_mem after)).1⟩

section ServeNext

variable {x : Controller} {a : Arbiter} {g k : Nat}

/-- A group with entries has one of its queues served: the one whose burst goes on, or the next in turn. -/
theorem Controller.exists_serveGroup (a : Arbiter) (waiting : x.inGroup g ≠ []) : ∃ i b, x.serveGroup g a = some (i, b) ∧ i ∈ x.inGroup g := by
  unfold Controller.serveGroup
  extract_lets ids last n more
  by_cases goesOn : more = true
  · rw [if_pos goesOn]
    exact ⟨last, _, rfl, List.contains_iff_mem.mp (Bool.and_eq_true_iff.mp goesOn).1⟩
  · obtain ⟨i, next, mem⟩ := exists_nextInTurn waiting last
    rw [if_neg goesOn, next]
    exact ⟨i, _, rfl, mem⟩

/-- A group without entries has nothing to serve. -/
theorem Controller.serveGroup_of_empty (a : Arbiter) (empty : x.inGroup g = []) : x.serveGroup g a = none := by
  simp [Controller.serveGroup, nextInTurn, empty]

/-! ### High, Medium and Low -/

/-- The highest of High, Medium and Low (0 to 2) with entries and with something left in the round. -/
def Controller.readyClass (x : Controller) (a : Arbiter) : Option Nat :=
  [0, 1, 2].find? fun k => !(x.inGroup (k + 2)).isEmpty && decide (0 < a.left.toList.getD k 0)

/-- The arbitration at the start of a round. -/
def Controller.newRound (x : Controller) (a : Arbiter) : Arbiter := { a with left := Vector.ofFn fun k => x.weight k }

/-- High, Medium or Low is served once in the round. -/
def Controller.serveClass (x : Controller) (a : Arbiter) (k : Nat) : Option (Nat × Arbiter) :=
  x.serveGroup (k + 2) { a with left := a.left.setIfInBounds k (a.left.toList.getD k 0 - 1) }

theorem Controller.serveWeighted_of_ready (ready : x.readyClass a = some k) : x.serveWeighted a = x.serveClass a k := by
  unfold Controller.readyClass at ready
  simp only [Controller.serveWeighted, ready]
  rfl

theorem Controller.serveWeighted_of_spent (spent : x.readyClass a = none) :
    x.serveWeighted a = (x.readyClass (x.newRound a)).bind (x.serveClass (x.newRound a)) := by
  unfold Controller.readyClass at spent
  simp only [Controller.serveWeighted, spent]
  rfl

/-- A class that is ready is one of the three, and has entries. -/
theorem Controller.waiting_of_ready (ready : x.readyClass a = some k) : k + 2 ∈ [2, 3, 4] ∧ x.inGroup (k + 2) ≠ [] := by
  have mem : k ∈ [0, 1, 2] := List.mem_of_find?_eq_some ready
  unfold Controller.readyClass at ready
  have waits := List.find?_some ready
  refine ⟨?_, fun empty => ?_⟩
  · simpa using mem
  · rw [empty] at waits
    exact Bool.noConfusion waits

/-- In a new round each of the three classes has something left: its 0-based weight and one more. -/
theorem Controller.newRound_left_pos (x : Controller) (a : Arbiter) : ∀ k ∈ [0, 1, 2], 0 < (x.newRound a).left.toList.getD k 0 := by
  simp [Controller.newRound, Controller.weight, Vector.toList_ofFn]

/-- In a new round a class is ready where one has entries. -/
theorem Controller.exists_ready_newRound (a : Arbiter) (mem : g ∈ [2, 3, 4]) (waiting : x.inGroup g ≠ []) :
    ∃ k, x.readyClass (x.newRound a) = some k := by
  obtain ⟨k, hk, rfl⟩ : ∃ k ∈ [0, 1, 2], k + 2 = g := by simpa [eq_comm] using mem
  refine Option.isSome_iff_exists.mp (List.find?_isSome.mpr ⟨k, hk, ?_⟩)
  rw [List.isEmpty_eq_false_iff.mpr waiting, decide_eq_true (x.newRound_left_pos a k hk)]; rfl

/-- A class that is ready has one of its queues served. -/
theorem Controller.exists_serveClass {b : Arbiter} (ready : x.readyClass b = some k) :
    ∃ g i c, g ∈ [2, 3, 4] ∧ x.serveClass b k = some (i, c) ∧ i ∈ x.inGroup g := by
  obtain ⟨mem, waiting⟩ := Controller.waiting_of_ready ready
  obtain ⟨i, c, served, hi⟩ := Controller.exists_serveGroup _ waiting
  exact ⟨k + 2, i, c, mem, served, hi⟩

/-- Where High, Medium or Low has entries, one of their queues is served, in this round or in a new one. -/
theorem Controller.exists_serveWeighted (a : Arbiter) (mem : g ∈ [2, 3, 4]) (waiting : x.inGroup g ≠ []) :
    ∃ g i c, g ∈ [2, 3, 4] ∧ x.serveWeighted a = some (i, c) ∧ i ∈ x.inGroup g := by
  rcases ready : x.readyClass a with _ | k
  · obtain ⟨k, fresh⟩ := Controller.exists_ready_newRound a mem waiting
    rw [Controller.serveWeighted_of_spent ready, fresh]
    exact Controller.exists_serveClass fresh
  · rw [Controller.serveWeighted_of_ready ready]
    exact Controller.exists_serveClass ready

/-! ### The queue that a controller serves next -/

theorem Controller.serveNext_of_roundRobin (roundRobin : x.weighted = false) : x.serveNext = x.serveGroup 0 x.arbiter := by
  rw [Controller.serveNext, roundRobin]; rfl

theorem Controller.serveNext_of_admin (weighted : x.weighted = true) (admin : (x.sqs.any fun q => q.id == 0 && q.waits) = true) :
    x.serveNext = some (0, x.arbiter) := by
  rw [Controller.serveNext, weighted, admin]; rfl

theorem Controller.serveNext_of_noAdmin (weighted : x.weighted = true) (noAdmin : (x.sqs.any fun q => q.id == 0 && q.waits) = false) :
    x.serveNext = (x.serveGroup 1 x.arbiter).or (x.serveWeighted x.arbiter) := by
  rw [Controller.serveNext, weighted, noAdmin]; rfl

end ServeNext

/-- Settles O34: the admin queue, then the Urgent group, then the classes of weights, each where those before it have no entries; round robin serves the
group of all queues. The turn inside a class and the use of the weights are choices of the model (log entry 160). -/
theorem adminAndUrgentQueuesComeFirst : Obligations.AdminAndUrgentQueuesComeFirst := by
  refine ⟨fun x weighted admin => ⟨_, Controller.serveNext_of_admin weighted admin⟩, ?urgent, ?byWeight, ?roundRobin⟩
  case urgent =>
    intro x weighted noAdmin urgent
    obtain ⟨i, b, served, mem⟩ := Controller.exists_serveGroup x.arbiter urgent
    rw [Controller.serveNext_of_noAdmin weighted noAdmin, served]
    exact ⟨i, b, rfl, mem⟩
  case byWeight =>
    intro x weighted noAdmin noUrgent ⟨g, mem, waiting⟩
    rw [Controller.serveNext_of_noAdmin weighted noAdmin, Controller.serveGroup_of_empty x.arbiter noUrgent, Option.none_or]
    exact Controller.exists_serveWeighted x.arbiter mem waiting
  case roundRobin =>
    intro x roundRobin waiting
    rw [Controller.serveNext_of_roundRobin roundRobin]
    exact Controller.exists_serveGroup x.arbiter waiting

/-! ### Completion of the commands of queues, dispatch and completion -/

theorem Cmd.op_of_opcode {c : Cmd} {n : Nat} (h : c.sqe.opcode = n) : c.op n = true := beq_iff_eq.mpr h

/-- Settles O46: under the hypotheses of its clause each command's guard holds, and its effect is the one stated; a command of the admin queue that waits
is taken. The queue that COMMAND_FETCH serves, and checks 8 to 12 and the write pointer at each attempt to dispatch, are choices of the model (log
entries 160 and 79). -/
theorem queueCommandsComplete : Obligations.QueueCommandsComplete := by
  refine ⟨?doorbellWrite, ?commandFetch, ?dispatch, ?tollgateStallRelease, ?commitPoint, ?completionPost, ?deleteIoSubmissionQueue,
    ?createIoSubmissionQueue, ?deleteIoCompletionQueue, ?createIoCompletionQueue⟩
  case doorbellWrite =>
    intro c queue completion value s up
    unfold exec execDoorbellWrite
    exact State.when_of_true up
  case commandFetch =>
    intro c sq e roundTripNs s up ready unpaused noActivation
    unfold exec execCommandFetch
    refine State.when_of_true ?_
    rw [up, ready, unpaused, noActivation]; rfl
  case dispatch =>
    intro c sq latencyNs s up memUp enabled
    unfold exec execDispatch
    refine State.when_of_true ?_
    rw [up, memUp, bne_iff_ne.mpr enabled]; rfl
  case tollgateStallRelease =>
    intro k latencyNs s up memUp
    unfold exec execTollgateStallRelease
    exact State.when_of_true (Bool.and_eq_true_iff.mpr ⟨up, memUp⟩)
  case commitPoint =>
    intro k s up
    unfold exec execCommitPoint
    exact State.when_of_true up
  case completionPost =>
    intro k dataNs wholeNs s up settled
    unfold exec execCompletionPost
    exact State.when_of_true (Bool.and_eq_true_iff.mpr ⟨up, bne_iff_ne.mpr settled⟩)
  case deleteIoSubmissionQueue =>
    intro k c s waits admin opcode
    unfold exec execDeleteIoSubmissionQueue
    exact State.admin_taken waits admin (Cmd.op_of_opcode opcode) _
  case createIoSubmissionQueue =>
    intro k c s waits admin opcode
    unfold exec execCreateIoSubmissionQueue
    exact State.admin_taken waits admin (Cmd.op_of_opcode opcode) _
  case deleteIoCompletionQueue =>
    intro k c s waits admin opcode
    unfold exec execDeleteIoCompletionQueue
    exact State.admin_taken waits admin (Cmd.op_of_opcode opcode) _
  case createIoCompletionQueue =>
    intro k c s waits admin opcode
    unfold exec execCreateIoCompletionQueue
    exact State.admin_taken waits admin (Cmd.op_of_opcode opcode) _

/-! ### Completion of the admin commands -/

/-- A Device Self-test that waits is taken by the row of its action. -/
theorem State.selfTest_taken {s : State} {k : CmdRef} {c : Cmd} {action : Nat} (waits : s.Waits k c) (admin : k.sq = 0)
    (opcode : c.sqe.opcode = 0x14) (same : c.sqe.cdw10 % 16 = action) (f : State → Cmd → State) :
    s.admin k (fun c => c.op 0x14 && c.sqe.cdw10 % 16 == action) f = .next (f (s.taken k) c) :=
  State.admin_taken waits admin (Bool.and_eq_true_iff.mpr ⟨Cmd.op_of_opcode opcode, beq_iff_eq.mpr same⟩) f

/-- Settles O47: an admin command that waits is taken, and its effect is the one stated; ASYNCHRONOUS_EVENT_REQUEST and SELF_TEST_STEP run while CORE
does. Choices of the model are the features that nothing has set and the logs that reading clears (log entry 77), the NSIDs that commands take (159),
the fields that data are kept as (85), and a power-state request of the present state or while an entry runs (88). -/
theorem adminCommandsComplete : Obligations.AdminCommandsComplete := by
  refine ⟨?getLogPage, ?identify, ?abort, ?setFeatures, ?powerManagement, ?timestamp, ?getFeatures, ?asynchronousEventRequest,
    ?deviceSelfTestShort, ?deviceSelfTestExtended, ?deviceSelfTestAbort, ?selfTestStep⟩
  case getLogPage =>
    intro k c s waits admin opcode
    unfold exec execGetLogPage
    exact State.admin_taken waits admin (Cmd.op_of_opcode opcode) _
  case identify =>
    intro k c s waits admin opcode
    unfold exec execIdentify
    exact State.admin_taken waits admin (Cmd.op_of_opcode opcode) _
  case abort =>
    intro k targetWaits c s waits admin opcode
    unfold exec execAbort
    exact State.admin_taken waits admin (Cmd.op_of_opcode opcode) _
  case getFeatures =>
    intro k c s waits admin opcode
    unfold exec execGetFeatures
    exact State.admin_taken waits admin (Cmd.op_of_opcode opcode) _
  case setFeatures =>
    intro k c s waits admin opcode noPower noTime unsaved
    unfold exec execSetFeatures
    refine State.setFeatures_taken waits admin opcode ?_ unsaved _
    rw [bne_iff_ne.mpr noPower, bne_iff_ne.mpr noTime]; rfl
  case powerManagement =>
    intro k c s noEntry waits admin opcode power unsaved
    change execSetFeaturesPowerManagement k s = _
    rw [execSetFeaturesPowerManagement, if_neg (Option.not_isSome_iff_eq_none.mpr noEntry)]
    -- The two effects are compared as they are written: nothing of `State.forEach` over the pickups is to be evaluated.
    with_reducible refine State.setFeatures_taken waits admin opcode ?_ unsaved _
    exact beq_iff_eq.mpr power
  case timestamp =>
    intro k c s waits admin opcode time unsaved
    unfold exec execSetFeaturesTimestamp
    refine State.setFeatures_taken waits admin opcode ?_ unsaved _
    exact beq_iff_eq.mpr time
  case asynchronousEventRequest =>
    intro k s up
    unfold exec execAsynchronousEventRequest
    exact State.when_of_true up
  case deviceSelfTestShort =>
    intro k c s waits admin opcode action
    unfold exec execDeviceSelfTestShort
    exact State.selfTest_taken waits admin opcode action _
  case deviceSelfTestExtended =>
    intro k c s waits admin opcode action
    unfold exec execDeviceSelfTestExtended
    exact State.selfTest_taken waits admin opcode action _
  case deviceSelfTestAbort =>
    intro k c s waits admin opcode action
    unfold exec execDeviceSelfTestAbort
    exact State.selfTest_taken waits admin opcode action _
  case selfTestStep =>
    intro segmentEnds passes s up
    unfold exec execSelfTestStep
    exact State.when_of_true up

/-! ### Completion of the commands of the zoned namespaces -/

/-- Settles O50: a dispatched command that waits for media work begins it, REPORT_ZONES that waits is taken, and the other commands' guards hold; the
effect is the one stated. What a Write puts into the buffer and when a Read may complete, the runs that a Flush forms, and blocks that are nowhere are
choices of the model (log entries 82, 142 and 86). -/
theorem namespaceCommandsComplete : Obligations.NamespaceCommandsComplete := by
  refine ⟨?flush, ?write, ?read, ?verify, ?zoneAppend, ?reportZones, ?closeZone, ?finishZone, ?openZone, ?resetZone, ?offlineZone,
    ?zoneDescriptorExtension, ?dataReadCompletion⟩
  case flush =>
    intro k s up memUp
    unfold exec execFlush
    exact State.when_of_true (Bool.and_eq_true_iff.mpr ⟨up, memUp⟩)
  case write =>
    intro k p c s waits mine
    unfold exec execWrite
    exact State.onMedia_waits waits mine _
  case read =>
    intro k p c s waits mine
    unfold exec execRead
    exact State.onMedia_waits waits mine _
  case verify =>
    intro k p c s waits mine
    unfold exec execVerify
    exact State.onMedia_waits waits mine _
  case zoneAppend =>
    intro k p c s waits mine
    unfold exec execZoneAppend
    exact State.onMedia_waits waits mine _
  case reportZones =>
    intro k c s waits mine
    unfold exec execReportZones
    exact State.onCores_taken waits mine _
  case closeZone =>
    intro k p c s waits mine
    unfold exec execCloseZone
    exact State.onMedia_waits waits mine _
  case finishZone =>
    intro k p c s waits mine
    unfold exec execFinishZone
    exact State.onMedia_waits waits mine _
  case openZone =>
    intro k p c s waits mine
    unfold exec execOpenZone
    exact State.onMedia_waits waits mine _
  case resetZone =>
    intro k s up
    unfold exec execResetZone
    exact State.when_of_true up
  case offlineZone =>
    intro k s up
    unfold exec execOfflineZone
    exact State.when_of_true up
  case zoneDescriptorExtension =>
    intro k s up
    unfold exec execSetZoneDescriptorExtension
    exact State.when_of_true up
  case dataReadCompletion =>
    intro k good s up memUp
    unfold exec execDataReadCompletion
    exact State.when_of_true (Bool.and_eq_true_iff.mpr ⟨up, memUp⟩)

/-! ### Completion of the commands of controllers, power states and links -/

/-- Settles O51: under the hypotheses of its clause each command's guard holds, and its effect is the one stated; CORE takes the write of LatencyReset.
The exit from PS2, the kinds of a controller reset, the controller number of EV_HOST_POWER_STATE, and the end of a normal shutdown are choices of the
model (log entries 84, 89, 136 and 143). -/
theorem controllerAndLinkCommandsComplete : Obligations.ControllerAndLinkCommandsComplete := by
  refine ⟨?controllerEnable, ?controllerReset, ?normalShutdown, ?abruptShutdown, ?powerStateEntry, ?powerStateEntryEnd, ?linkUp, ?linkDown,
    ?latencyReset⟩
  case controllerEnable =>
    intro c weighted sqSize cqSize s up coreUp disabled sqFits cqFits
    unfold exec execControllerEnable
    refine State.when_of_true ?_
    beta_reduce
    rw [up, coreUp, disabled, decide_eq_true sqFits, decide_eq_true cqFits]; rfl
  case controllerReset =>
    intro c kind s up awake resets
    change execControllerReset c kind s = _
    rw [execControllerReset, if_neg (mt beq_iff_eq.mp awake)]
    refine State.when_of_true ?_
    simpa [up] using resets
  case normalShutdown =>
    intro c s up ready
    unfold exec execNormalShutdown
    exact State.when_of_true (Bool.and_eq_true_iff.mpr ⟨up, beq_iff_eq.mpr ready⟩)
  case abruptShutdown =>
    intro c s up enabled
    unfold exec execAbruptShutdown
    exact State.when_of_true (Bool.and_eq_true_iff.mpr ⟨up, bne_iff_ne.mpr enabled⟩)
  case powerStateEntry =>
    intro s up
    unfold exec execPowerStateEntry
    exact State.when_of_true up
  case powerStateEntryEnd =>
    intro s up
    unfold exec execPowerStateEntryEnd
    exact State.when_of_true up
  case linkUp =>
    intro c rate width s powered
    unfold exec execLinkUp
    exact State.when_of_true powered
  case linkDown =>
    intro c s linked
    unfold exec execLinkDown
    exact State.when_of_true (bne_iff_ne.mpr linked)
  case latencyReset =>
    intro cl v s taken
    exact congrArg _ (State.hostWrite_taken taken _)

end Sys2Proof.Machine
end

section
/-! PROOFS. The object dictionary (family 10): the order of the checks of a write, the mask of the carriers that may write, and the commands of the
Signpost server, of its carriers and of the switchover unit complete. -/

namespace Sys2Proof.Machine

/-! ### The checks of a write (R371) -/

section HostWriteOr

variable {s : State} {cl : Client} {r : Row} {i k : Nat} {v : Int} {bad : Bool}

/-- While CORE is down nobody takes a write. -/
theorem State.hostWriteOr_coreDown (down : s.coreUp = false) (busy : Bool) (onBusy effect : State → State) :
    s.hostWriteOr cl r i k v bad busy onBusy effect = s := by
  simp [State.hostWriteOr, down]

/-- Check 10 comes before the others. -/
theorem State.hostWriteOr_disabled (up : s.coreUp = true) (disabled : s.carrierMayWrite cl (r.key i k) = false) (busy : Bool)
    (onBusy effect : State → State) :
    s.hostWriteOr cl r i k v bad busy onBusy effect = s.answer (some Abort.carrierWriteDisabled) := by
  simp [State.hostWriteOr, up, disabled]

/-- Check 13 comes before check 15. -/
theorem State.hostWriteOr_outOfRange (up : s.coreUp = true) (mayWrite : s.carrierMayWrite cl (r.key i k) = true)
    (outside : (r.type.holds v && r.range.admits v) = false ∨ bad = true) (busy : Bool) (onBusy effect : State → State) :
    s.hostWriteOr cl r i k v bad busy onBusy effect = s.answer (some Abort.valueOutOfRange) := by
  have refused : (!(r.type.holds v && r.range.admits v) || bad) = true := by
    rcases outside with outside | outside
    · rw [outside]; rfl
    · rw [outside, Bool.or_true]
  rw [State.hostWriteOr, up, mayWrite, if_pos refused]; rfl

end HostWriteOr

/-- Settles O15: the write is one chain of checks, and a refusal ends it. -/
theorem objectWriteChecksInOrder : Obligations.ObjectWriteChecksInOrder := fun _ _ _ _ _ _ _ busy f =>
  ⟨fun down => State.hostWriteOr_coreDown down busy _ f,
    fun up disabled => State.hostWriteOr_disabled up disabled busy _ f,
    fun up mayWrite outside => State.hostWriteOr_outOfRange up mayWrite outside busy _ f,
    fun taken inRange isBusy => State.hostWriteOr_busy taken inRange isBusy _ f,
    fun taken inRange free => State.hostWriteOr_taken taken inRange free _ f⟩

/-! ### `CarrierWriteMask` (R386) -/

/-- A carrier with a bit may write where its bit is set, and `CarrierWriteMask` itself. -/
theorem State.carrierMayWrite_iff {s : State} {cl : Client} {b key : Nat} (bit : cl.carrierBit = some b) :
    s.carrierMayWrite cl key = true ↔ (s.obN Obj.carrierWriteMask).testBit b = true ∨ key = Obj.carrierWriteMask.key 0 0 := by
  rw [State.carrierMayWrite, bit, Bool.or_eq_true, beq_iff_eq]

/-- No client is locked out from the mask: its carrier has no bit, or the key is the mask's. -/
theorem State.carrierMayWrite_carrierWriteMask (s : State) (cl : Client) :
    s.carrierMayWrite cl (Obj.carrierWriteMask.key 0 0) = true := by
  rcases bit : cl.carrierBit with _ | b
  · rw [State.carrierMayWrite, bit]
  · exact (State.carrierMayWrite_iff bit).mpr (.inr rfl)

/-- A carrier whose bit is clear may write nothing else. -/
theorem State.carrierMayWrite_eq_false {s : State} {cl : Client} {b key : Nat} (bit : cl.carrierBit = some b)
    (clear : (s.obN Obj.carrierWriteMask).testBit b = false) (other : key ≠ Obj.carrierWriteMask.key 0 0) :
    s.carrierMayWrite cl key = false :=
  Bool.eq_false_iff.mpr fun may => ((State.carrierMayWrite_iff bit).mp may).elim (Bool.eq_false_iff.mp clear) other

/-- Settles O16: check 10 asks for the carrier's bit of the mask, except for the mask itself, and a refused write is answered there. -/
theorem carrierWriteMaskDecides : Obligations.CarrierWriteMaskDecides :=
  ⟨fun _ _ _ _ bit => State.carrierMayWrite_iff bit, State.carrierMayWrite_carrierWriteMask,
    fun _ _ _ _ _ _ _ _ busy f up bit clear other =>
      State.hostWriteOr_disabled up (State.carrierMayWrite_eq_false bit clear other) busy _ f⟩

/-! ### Completion of the services of the server -/

/-- A request that comes to an empty queue, and to which no reply is stored, is executed: its reply leaves, or its client waits for it. -/
theorem State.serve_fresh {s : State} {cl : Client} {r : Request} {mine : Bool} (up : s.coreUp = true) (isMine : mine = true)
    (idle : s.signpost.queue = []) (fresh : s.storedReply cl r = none) :
    s.serve cl r mine = .next (
      let u := s.clearSent.execRequest cl r
      if u.signpost.lastReply.isSome then u.stampReply cl r else u.updClient cl fun c => { c with serving := some r }) := by
  rw [State.serve, State.when_of_true (Bool.and_eq_true_iff.mpr ⟨up, isMine⟩)]
  simp only [idle, fresh]

/-- An NVMe command of the server that waits is taken while the server's queue is empty. -/
theorem State.objectCommand_taken {s : State} {k : CmdRef} {c : Cmd} {n : Nat} (waits : s.Waits k c) (admin : k.sq = 0)
    (opcode : c.sqe.opcode = n) (idle : s.signpost.queue.isEmpty = true) (f : State → Cmd → State) :
    s.admin k (fun c => c.op n && s.signpost.queue.isEmpty) f = .next (f (s.taken k) c) :=
  State.admin_taken waits admin (Bool.and_eq_true_iff.mpr ⟨Cmd.op_of_opcode opcode, idle⟩) f

/-- Settles O49: the two NVMe commands are taken while the queue is empty, a service is executed when it comes to an empty queue, and each other
command's guard holds; the effect is the one stated. Choices of the model are when a service is executed (log entry 108), the numbers of sessions and
those kept of expired ones (111), the counter set to 0 at the end of a lockout (117), the nonces (119), and the sessions that expire before a request
is served (193). -/
theorem signpostCommandsComplete : Obligations.SignpostCommandsComplete := by
  refine ⟨?getObject, ?setObject, ?signpostRead, ?signpostWrite, ?readStart, ?readSegment, ?writeStart, ?writeSegment, ?writeEnd,
    ?sessionClose, ?enumerate, ?objectWrite, ?sessionExpired, ?authChallengeRead, ?authLockoutEnd⟩
  case getObject =>
    intro k c s waits admin opcode idle
    unfold exec execGetObject
    exact State.objectCommand_taken waits admin opcode idle _
  case setObject =>
    intro k c s waits admin opcode idle
    unfold exec execSetObject
    exact State.objectCommand_taken waits admin opcode idle _
  case signpostRead =>
    intro cl r s up service idle fresh
    exact State.serve_fresh up (Bool.or_eq_true_iff.mpr (.inl (beq_iff_eq.mpr service))) idle fresh
  case signpostWrite | readStart | readSegment | writeStart | writeSegment | writeEnd | sessionClose | enumerate =>
    intro cl r s up service idle fresh
    exact State.serve_fresh up (beq_iff_eq.mpr service) idle fresh
  case objectWrite =>
    intro cl index sub v authorised row i k s up allowed found noCommand holds
    change execObjectWrite cl index sub v authorised s = _
    rw [execObjectWrite, State.when_of_true up]
    simp [allowed, found, noCommand, holds]
  case sessionExpired =>
    intro n s up
    unfold exec execSessionExpired
    exact State.when_of_true up
  case authChallengeRead =>
    intro cl s up
    unfold exec execAuthChallengeRead
    exact State.when_of_true up
  case authLockoutEnd =>
    intro s up locked elapsed
    unfold exec execAuthLockoutEnd
    refine State.when_of_true ?_
    rw [up, locked, decide_eq_true elapsed]; rfl

/-! ### Completion of the carriers' commands -/

/-- An echo request names an address of the block when it names one under its version of IP. -/
theorem State.ownAddress_of_version {s : State} {v6 : Bool} {target : Nat} (ours6 : v6 = true → s.ownV6 target = true)
    (ours4 : v6 = false → (target : Int) = s.commOb Obj.ipv4Address) :
    (if v6 then s.ownV6 target else (target : Int) == s.commOb Obj.ipv4Address) = true := by
  cases v6
  · exact beq_iff_eq.mpr (ours4 rfl)
  · exact ours6 rfl

/-- Settles O52: under the hypotheses of its clause each command's guard holds, and its effect is the one stated. Choices of the model are a port's
return from bus-off with counters at 0 (log entry 106), a UDP slot that is taken over (112), datagrams that arrive whole and the count of a
reassembly that times out (113), the frames of a transfer on CAN and its bounds (114 and 194), when a communication setting takes effect (115), and
how long what a carrier sends is kept (121). -/
theorem carrierCommandsComplete : Obligations.CarrierCommandsComplete := by
  refine ⟨?canFrame, ?isoTpTimeout, ?canBusOff, ?canBusOffRecovery, ?udpDatagram, ?arpRequest, ?icmpEcho, ?neighbourSolicitation,
    ?reassemblyTimeout, ?commSettingsChange⟩
  case canFrame =>
    intro port identifier classical payload s up ours
    unfold exec execCanFrame
    exact State.when_of_true (Bool.and_eq_true_iff.mpr ⟨up, beq_iff_eq.mpr ours⟩)
  case isoTpTimeout =>
    intro port s up
    unfold exec execIsoTpTimeout
    exact State.when_of_true up
  case canBusOff =>
    intro port s up
    unfold exec execCanBusOff
    exact State.when_of_true up
  case canBusOffRecovery =>
    intro port s runs busOff
    unfold exec execCanBusOffRecovery
    exact State.when_of_true (Bool.and_eq_true_iff.mpr ⟨runs, beq_iff_eq.mpr busOff⟩)
  case udpDatagram =>
    intro sourceAddress sourcePort destPort v6 checksumZero payload s up
    unfold exec execUdpDatagram
    exact State.when_of_true up
  case arpRequest =>
    intro sourceMac targetAddress s up ours
    unfold exec execArpRequest
    exact State.when_of_true (Bool.and_eq_true_iff.mpr ⟨up, beq_iff_eq.mpr ours⟩)
  case icmpEcho =>
    intro v6 source target payload s up ours6 ours4
    unfold exec execIcmpEcho
    exact State.when_of_true (Bool.and_eq_true_iff.mpr ⟨up, State.ownAddress_of_version ours6 ours4⟩)
  case neighbourSolicitation =>
    intro source target s up ours
    unfold exec execNeighbourSolicitation
    exact State.when_of_true (Bool.and_eq_true_iff.mpr ⟨up, ours⟩)
  case reassemblyTimeout =>
    intro slot s up
    unfold exec execReassemblyTimeout
    exact State.when_of_true up
  case commSettingsChange =>
    intro index s runs
    unfold exec execCommSettingsChange
    exact State.when_of_true runs

/-! ### Completion of the commands of staging and switchover -/

/-- A write of `SwitchoverRequest` goes on when no set is on its way and the area is nobody else's. -/
theorem State.switchWrite_taken {s : State} {cl : Client} {v : Int} (up : s.coreUp = true)
    (mayWrite : s.carrierMayWrite cl (Obj.switchoverRequest.key 0 0) = true) (notCommitted : s.staging.mode ≠ .committed)
    (notChecking : s.staging.mode ≠ .checking) (unowned : (s.staging.owner.any fun o => o != cl) = false) (f : State → State) :
    s.switchWrite cl v v f = f ((s.areaTouched cl).recordWrite cl (Obj.switchoverRequest.key 0 0)) := by
  simp [State.switchWrite, up, mayWrite, notCommitted, notChecking, unowned]

/-- Settles O53: SwitchoverRequest is taken, and under the hypotheses of its clause each other command's guard holds; the effect is the one stated.
The numbers of the reasons in EV_SWITCHOVER_DISCARDED and what counts as a request to the staging area are choices of the model (log entries 105
and 193). -/
theorem switchoverCommandsComplete : Obligations.SwitchoverCommandsComplete := by
  refine ⟨?apply, ?discard, ?check, ?applyEdge, ?idleTimeout⟩
  case apply | discard | check =>
    intro cl s up mayWrite notCommitted notChecking unowned
    exact congrArg _ (State.switchWrite_taken up mayWrite notCommitted notChecking unowned _)
  case applyEdge =>
    intro s runs committed near
    unfold exec execSwitchoverApplyEdge
    refine State.when_of_true ?_
    rw [runs, committed, decide_eq_true near]; rfl
  case idleTimeout =>
    intro s up staging elapsed
    unfold exec execStagingIdleTimeout
    refine State.when_of_true ?_
    rw [up, staging, decide_eq_true elapsed]; rfl

end Sys2Proof.Machine
end

section
/-! PROOFS. Every command and every step: what a command may change, where it has no next state, and what a step keeps. -/

namespace Sys2Proof.Machine

/-! ### What a command changes -/

/-- The row of every command changes what is named for it and keeps the forms. -/
theorem exec_eff (c : Instr) (s : State) : OutEff (mayChange c) s (exec c s) :=
  match c with
  | .loopSample p inputs => execLoopSample_eff p inputs s
  | .outputSaturated p l => execOutputSaturated_eff p l s
  | .loopFault p l => execLoopFault_eff p l s
  | .defectHoldEntered p => execDefectHoldEntered_eff p s
  | .defectHoldRequest cl p v => execDefectHoldRequest_eff cl p v s
  | .holdRelease cl p v => execHoldRelease_eff cl p v s
  | .defectHoldLeft p => execDefectHoldLeft_eff p s
  | .holdTimeout p => execHoldTimeout_eff p s
  | .servoOverrunStatusClear cl p v => execServoOverrunStatusClear_eff cl p v s
  | .bankActivation p loops => execBankActivation_eff p loops s
  | .xspStepEdge dirHigh => execXspStepEdge_eff dirHigh s
  | .mountRequest cl v => execMountRequest_eff cl v s
  | .mountSequenceStart p deviceId fault => execMountSequenceStart_eff p deviceId fault s
  | .focusClose p => execFocusClose_eff p s
  | .focusSweepEnd p => execFocusSweepEnd_eff p s
  | .focusSettle p => execFocusSettle_eff p s
  | .guidePassage p => execGuidePassage_eff p s
  | .captureSettle p => execCaptureSettle_eff p s
  | .captureTimeout p => execCaptureTimeout_eff p s
  | .sledSearchMoveEnd p => execSledSearchMoveEnd_eff p s
  | .lawReceived p law => execLawReceived_eff p law s
  | .lawLost p => execLawLost_eff p s
  | .arrayLock p => execArrayLock_eff p s
  | .arraySlow p => execArraySlow_eff p s
  | .mapLearnRevolution p => execMapLearnRevolution_eff p s
  | .mapAdaptRevolution p => execMapAdaptRevolution_eff p s
  | .seekRequest cl p v => execSeekRequest_eff cl p v s
  | .layerJumpStart p => execLayerJumpStart_eff p s
  | .jumpKickEnd p => execJumpKickEnd_eff p s
  | .jumpBrake p => execJumpBrake_eff p s
  | .jumpFocusClose p => execJumpFocusClose_eff p s
  | .layerJumpFail p => execLayerJumpFail_eff p s
  | .longSeekSledStop p => execLongSeekSledStop_eff p s
  | .seekFail p => execSeekFail_eff p s
  | .recoveryAttemptEnd p => execRecoveryAttemptEnd_eff p s
  | .parkRequest cl p v => execParkRequest_eff cl p v s
  | .parkComplete p => execParkComplete_eff p s
  | .frameStart g row wanted => execFrameStart_eff g row wanted s
  | .waymarkSearch g => execWaymarkSearch_eff g s
  | .lockLost g => execLockLost_eff g s
  | .codewordOffer g half => execCodewordOffer_eff g half s
  | .frameSlotRelease g slot => execFrameSlotRelease_eff g slot s
  | .envelopeFlag g => execEnvelopeFlag_eff g s
  | .guideFlag g => execGuideFlag_eff g s
  | .agcUpdate g samples => execAgcUpdate_eff g samples s
  | .agcLimit g => execAgcLimit_eff g s
  | .itiFracDelayStep g j => execItiFracDelayStep_eff g j s
  | .itiLimit g j => execItiLimit_eff g j s
  | .timingAcqEnd g => execTimingAcqEnd_eff g s
  | .timingRelock g => execTimingRelock_eff g s
  | .timingUnlock g => execTimingUnlock_eff g s
  | .wobbleAmplitudePost p => execWobbleAmplitudePost_eff p s
  | .decoderDispatch d => execDecoderDispatch_eff d s
  | .codewordDecodeDone d => execCodewordDecodeDone_eff d s
  | .workspaceResume p => execWorkspaceResume_eff p s
  | .overflowReread p => execOverflowReread_eff p s
  | .clusterDecodeStart p layer q => execClusterDecodeStart_eff p layer q s
  | .outerDecodeDone p layer q => execOuterDecodeDone_eff p layer q s
  | .rungStart p => execRungStart_eff p s
  | .rereadPassEnd p => execRereadPassEnd_eff p s
  | .rungEnd p => execRungEnd_eff p s
  | .runForm p zone partialToo => execRunForm_eff p zone partialToo s
  | .runFormTimeout p zone => execRunFormTimeout_eff p zone s
  | .runArm p => execRunArm_eff p s
  | .writePassStart p => execWritePassStart_eff p s
  | .writePassEnd p => execWritePassEnd_eff p s
  | .powerMonitorRead g monitorPeak fault => execPowerMonitorRead_eff g monitorPeak fault s
  | .gateInhibit p => execGateInhibit_eff p s
  | .notBlank p => execNotBlank_eff p s
  | .spareRun p => execSpareRun_eff p s
  | .zoneSeal p zone => execZoneSeal_eff p zone s
  | .journalPairWrite p => execJournalPairWrite_eff p s
  | .journalPairCommit p => execJournalPairCommit_eff p s
  | .opc p pair errors => execOpc_eff p pair errors s
  | .mapBuild p dcbBlank dcbReads discId marks records spares tails highSerial =>
      execMapBuild_eff p dcbBlank dcbReads discId marks records spares tails highSerial s
  | .mapBuilt p chains => execMapBuilt_eff p chains s
  | .spindleStart cl m v => execSpindleStart_eff cl m v s
  | .spindleStop cl m v => execSpindleStop_eff cl m v s
  | .spindleCoast cl m v => execSpindleCoast_eff cl m v s
  | .spindleStartReverse cl m v => execSpindleStartReverse_eff cl m v s
  | .sensingEnd m => execSensingEnd_eff m s
  | .alignEnd m => execAlignEnd_eff m s
  | .handover m => execHandover_eff m s
  | .startAttemptFail m => execStartAttemptFail_eff m s
  | .startRetry m => execStartRetry_eff m s
  | .catchSpinLock m => execCatchSpinLock_eff m s
  | .pwmPeriod m currents voltages fltHigh => execPwmPeriod_eff m currents voltages fltHigh s
  | .dtcEvaluation m currents => execDtcEvaluation_eff m currents s
  | .speedSample m => execSpeedSample_eff m s
  | .atSpeed m => execAtSpeed_eff m s
  | .vbusSample m code => execVbusSample_eff m code s
  | .vbusLow m => execVbusLow_eff m s
  | .observerLost m => execObserverLost_eff m s
  | .reacquisitionAttemptEnd m => execReacquisitionAttemptEnd_eff m s
  | .gateFault m => execGateFault_eff m s
  | .atRest m => execAtRest_eff m s
  | .rateMatchEvaluation m => execRateMatchEvaluation_eff m s
  | .rateFloor p => execRateFloor_eff p s
  | .frictionTorqueApply m => execFrictionTorqueApply_eff m s
  | .profilePeriod a encoderDelta coils vm fltHigh => execProfilePeriod_eff a encoderDelta coils vm fltHigh s
  | .axisMove cl a v => execAxisMove_eff cl a v s
  | .axisHalt cl a v => execAxisHalt_eff cl a v s
  | .axisStop cl a v => execAxisStop_eff cl a v s
  | .axisHome cl a v => execAxisHome_eff cl a v s
  | .axisEnable cl a v => execAxisEnable_eff cl a v s
  | .axisDisable cl a v => execAxisDisable_eff cl a v s
  | .clearFault cl a v => execClearFault_eff cl a v s
  | .stall a => execStall_eff a s
  | .stallRetry a => execStallRetry_eff a s
  | .holdDelayExpiry a => execHoldDelayExpiry_eff a s
  | .homeInput a high => execHomeInput_eff a high s
  | .homingEnd a => execHomingEnd_eff a s
  | .limitInput a positive high => execLimitInput_eff a positive high s
  | .encoderError a => execEncoderError_eff a s
  | .axisDriverFault a => execAxisDriverFault_eff a s
  | .axisOvercurrent a code => execAxisOvercurrent_eff a code s
  | .doorbellWrite c queue completion value => execDoorbellWrite_eff c queue completion value s
  | .commandFetch c sq e roundTripNs => execCommandFetch_eff c sq e roundTripNs s
  | .dispatch c sq latencyNs => execDispatch_eff c sq latencyNs s
  | .tollgateStallRelease k latencyNs => execTollgateStallRelease_eff k latencyNs s
  | .commitPoint k => execCommitPoint_eff k s
  | .completionPost k dataNs wholeNs => execCompletionPost_eff k dataNs wholeNs s
  | .deleteIoSubmissionQueue k => execDeleteIoSubmissionQueue_eff k s
  | .createIoSubmissionQueue k => execCreateIoSubmissionQueue_eff k s
  | .getLogPage k => execGetLogPage_eff k s
  | .deleteIoCompletionQueue k => execDeleteIoCompletionQueue_eff k s
  | .createIoCompletionQueue k => execCreateIoCompletionQueue_eff k s
  | .identify k => execIdentify_eff k s
  | .abort k targetWaits => execAbort_eff k targetWaits s
  | .setFeatures k => execSetFeatures_eff k s
  | .setFeaturesPowerManagement k => execSetFeaturesPowerManagement_eff k s
  | .setFeaturesTimestamp k => execSetFeaturesTimestamp_eff k s
  | .getFeatures k => execGetFeatures_eff k s
  | .asynchronousEventRequest k => execAsynchronousEventRequest_eff k s
  | .firmwareImageDownload k => execFirmwareImageDownload_eff k s
  | .firmwareCommitReplace k => execFirmwareCommitReplace_eff k s
  | .firmwareCommitReplaceActivate k => execFirmwareCommitReplaceActivate_eff k s
  | .firmwareCommitActivateAtReset k => execFirmwareCommitActivateAtReset_eff k s
  | .firmwareCommitActivateNow k => execFirmwareCommitActivateNow_eff k s
  | .fwActivationMediaIdle => execFwActivationMediaIdle_eff s
  | .fwActivationDone => execFwActivationDone_eff s
  | .deviceSelfTestShort k => execDeviceSelfTestShort_eff k s
  | .deviceSelfTestExtended k => execDeviceSelfTestExtended_eff k s
  | .deviceSelfTestAbort k => execDeviceSelfTestAbort_eff k s
  | .selfTestStep segmentEnds passes => execSelfTestStep_eff segmentEnds passes s
  | .getObject k => execGetObject_eff k s
  | .setObject k => execSetObject_eff k s
  | .flush k => execFlush_eff k s
  | .write k => execWrite_eff k s
  | .read k => execRead_eff k s
  | .verify k => execVerify_eff k s
  | .zoneAppend k => execZoneAppend_eff k s
  | .reportZones k => execReportZones_eff k s
  | .closeZone k => execCloseZone_eff k s
  | .finishZone k => execFinishZone_eff k s
  | .openZone k => execOpenZone_eff k s
  | .resetZone k => execResetZone_eff k s
  | .offlineZone k => execOfflineZone_eff k s
  | .setZoneDescriptorExtension k => execSetZoneDescriptorExtension_eff k s
  | .controllerEnable c weighted sqSize cqSize => execControllerEnable_eff c weighted sqSize cqSize s
  | .controllerReset c kind => execControllerReset_eff c kind s
  | .normalShutdown c => execNormalShutdown_eff c s
  | .abruptShutdown c => execAbruptShutdown_eff c s
  | .powerStateEntry => execPowerStateEntry_eff s
  | .powerStateEntryEnd => execPowerStateEntryEnd_eff s
  | .linkUp c rate width => execLinkUp_eff c rate width s
  | .linkDown c => execLinkDown_eff c s
  | .latencyReset cl v => execLatencyReset_eff cl v s
  | .signpostRead cl r => execSignpostRead_eff cl r s
  | .signpostWrite cl r => execSignpostWrite_eff cl r s
  | .readStart cl r => execReadStart_eff cl r s
  | .readSegment cl r => execReadSegment_eff cl r s
  | .writeStart cl r => execWriteStart_eff cl r s
  | .writeSegment cl r => execWriteSegment_eff cl r s
  | .writeEnd cl r => execWriteEnd_eff cl r s
  | .sessionClose cl r => execSessionClose_eff cl r s
  | .enumerate cl r => execEnumerate_eff cl r s
  | .objectWrite cl index sub v authorised => execObjectWrite_eff cl index sub v authorised s
  | .sessionExpired n => execSessionExpired_eff n s
  | .canFrame port identifier classical payload => execCanFrame_eff port identifier classical payload s
  | .isoTpTimeout port => execIsoTpTimeout_eff port s
  | .canBusOff port => execCanBusOff_eff port s
  | .canBusOffRecovery port => execCanBusOffRecovery_eff port s
  | .udpDatagram sourceAddress sourcePort destPort v6 checksumZero payload =>
      execUdpDatagram_eff sourceAddress sourcePort destPort v6 checksumZero payload s
  | .arpRequest sourceMac targetAddress => execArpRequest_eff sourceMac targetAddress s
  | .icmpEcho v6 source target payload => execIcmpEcho_eff v6 source target payload s
  | .neighbourSolicitation source target => execNeighbourSolicitation_eff source target s
  | .reassemblyTimeout slot => execReassemblyTimeout_eff slot s
  | .commSettingsChange index => execCommSettingsChange_eff index s
  | .authChallengeRead cl => execAuthChallengeRead_eff cl s
  | .authLockoutEnd => execAuthLockoutEnd_eff s
  | .switchoverApply cl v => execSwitchoverApply_eff cl v s
  | .switchoverDiscard cl v => execSwitchoverDiscard_eff cl v s
  | .switchoverCheck cl v => execSwitchoverCheck_eff cl v s
  | .switchoverApplyEdge => execSwitchoverApplyEdge_eff s
  | .stagingIdleTimeout => execStagingIdleTimeout_eff s
  | .mergeDrain ddr span => execMergeDrain_eff ddr span s
  | .mergeDrainTimeout ddr span => execMergeDrainTimeout_eff ddr span s
  | .correctedRead memory place syndrome scrub => execCorrectedRead_eff memory place syndrome scrub s
  | .uncorrectableRead memory place syndrome scrub holds => execUncorrectableRead_eff memory place syndrome scrub holds s
  | .rawWrite cl v => execRawWrite_eff cl v s
  | .encodedWrite cl v => execEncodedWrite_eff cl v s
  | .splitRead cl v => execSplitRead_eff cl v s
  | .scrubStart cl v => execScrubStart_eff cl v s
  | .scrubStop cl v => execScrubStop_eff cl v s
  | .scrubDone wordsRead => execScrubDone_eff wordsRead s
  | .cacheDisable cl v => execCacheDisable_eff cl v s
  | .cacheEnable cl v => execCacheEnable_eff cl v s
  | .cacheFill requester line => execCacheFill_eff requester line s
  | .cleanByAddress cl v fillInFlight => execCleanByAddress_eff cl v fillInFlight s
  | .invalidateByAddress cl v fillInFlight => execInvalidateByAddress_eff cl v fillInFlight s
  | .cleanAndInvalidateByAddress cl v fillInFlight => execCleanAndInvalidateByAddress_eff cl v fillInFlight s
  | .cleanBySetAndWay cl v fillInFlight => execCleanBySetAndWay_eff cl v fillInFlight s
  | .invalidateBySetAndWay cl v fillInFlight => execInvalidateBySetAndWay_eff cl v fillInFlight s
  | .cleanAndInvalidateBySetAndWay cl v fillInFlight => execCleanAndInvalidateBySetAndWay_eff cl v fillInFlight s
  | .zeroALine cl v fillInFlight => execZeroALine_eff cl v fillInFlight s
  | .onRampRead k => execOnRampRead_eff k s
  | .onRampIdleTimeout k => execOnRampIdleTimeout_eff k s
  | .dieTemperatureSample centi => execDieTemperatureSample_eff centi s
  | .calRequest cl v => execCalRequest_eff cl v s
  | .calItemStart item inst => execCalItemStart_eff item inst s
  | .calStep item inst => execCalStep_eff item inst s
  | .calRunEnd item inst raw => execCalRunEnd_eff item inst raw s
  | .calRetry item inst => execCalRetry_eff item inst s
  | .calDeferred item inst => execCalDeferred_eff item inst s
  | .operatingHour => execOperatingHour_eff s
  | .ledgerPoint code instance_ currents => execLedgerPoint_eff code instance_ currents s
  | .marginPlan => execMarginPlan_eff s
  | .marginPlanRequest cl v => execMarginPlanRequest_eff cl v s
  | .planSetRelease p => execPlanSetRelease_eff p s
  | .eventReport island => execEventReport_eff island s
  | .reportQueueOverflow island => execReportQueueOverflow_eff island s
  | .summaryClose code => execSummaryClose_eff code s
  | .tickMark => execTickMark_eff s
  | .pageProgram => execPageProgram_eff s
  | .pageProgramDone failed => execPageProgramDone_eff failed s
  | .flushRequest cl v => execFlushRequest_eff cl v s
  | .flushDone => execFlushDone_eff s
  | .runningAreaClear cl v authorised => execRunningAreaClear_eff cl v authorised s
  | .eventStoreInit cl v authorised => execEventStoreInit_eff cl v authorised s
  | .milestoneRequest cl v => execMilestoneRequest_eff cl v s
  | .milestoneBallEdge => execMilestoneBallEdge_eff s
  | .milestone cycle => execMilestone_eff cycle s
  | .milestoneLatch island latencyNs => execMilestoneLatch_eff island latencyNs s
  | .milestoneRelease cl v => execMilestoneRelease_eff cl v s
  | .traceArm cl ch v => execTraceArm_eff cl ch v s
  | .traceStop cl ch v => execTraceStop_eff cl ch v s
  | .traceComplete ch => execTraceComplete_eff ch s
  | .startup failure failingRows roundTrips => execStartup_eff failure failingRows roundTrips s
  | .vergePowerOn => execVergePowerOn_eff s
  | .systemReset => execSystemReset_eff s
  | .watchdog => execWatchdog_eff s
  | .coreReset => execCoreReset_eff s
  | .islandResetRequest cl v authorised => execIslandResetRequest_eff cl v authorised s
  | .quietPllUnlock => execQuietPllUnlock_eff s
  | .quietPllRelock => execQuietPllRelock_eff s
  | .systemPllUnlock => execSystemPllUnlock_eff s
  | .supplyFail level heldUs => execSupplyFail_eff level heldUs s
  | .shockTrip level heldUs => execShockTrip_eff level heldUs s
  | .cartridgeDoorTrip level heldUs => execCartridgeDoorTrip_eff level heldUs s
  | .overTemperatureTrip heldUs => execOverTemperatureTrip_eff heldUs s
  | .comparatorClear k level heldUs => execComparatorClear_eff k level heldUs s
  | .wake cause => execWake_eff cause s
  | .timeOfDayWrite cl v => execTimeOfDayWrite_eff cl v s
  | .firmwareKeyRevoke cl v authorised => execFirmwareKeyRevoke_eff cl v authorised s
  | .dataReadCompletion k good => execDataReadCompletion_eff k good s
  | .linkL1Entry c => execLinkL1Entry_eff c s
  | .ethLinkChange speed => execEthLinkChange_eff speed s
  | .canBusError port transmit receive => execCanBusError_eff port transmit receive s
  | .vddvLoss => execVddvLoss_eff s
  | .supplyRemoved => execSupplyRemoved_eff s
  | .lpddr5SelfRefreshEntry => execLpddr5SelfRefreshEntry_eff s
  | .ringOscMeasurement delays => execRingOscMeasurement_eff delays s
  | .interruptCoalescingTime c => execInterruptCoalescingTime_eff c s
  | .debugPortAccess kind arg data => execDebugPortAccess_eff kind arg data s

/-- Settles O7: the frame of each command's row. -/
theorem commandsChangeOnlyTheirParts : Obligations.CommandsChangeOnlyTheirParts :=
  fun c s t h => (exec_eff c s t h).frame

/-! ### Where a command stops (R403, R405, R407) -/

/-- The outcome is a next state. -/
def Answers (o : Out) : Prop := ∃ t, o = .next t

theorem Answers.ite {c : Prop} [Decidable c] {o o' : Out} (h : Answers o) (h' : Answers o') : Answers (if c then o else o') := by
  split <;> assumption

theorem State.when_answers (s : State) (c : Bool) (f : State → State) : Answers (s.when c f) := ⟨_, rfl⟩

theorem State.firmwareCommit_answers (s : State) (k : CmdRef) (action : Nat) (f : State → Cmd → State) : Answers (s.firmwareCommit k action f) :=
  .ite ⟨_, rfl⟩ ⟨_, rfl⟩

/-- The fault of a read of a place that a memory does not have. -/
def missingRead (memory place : Nat) : Option Fault := if placeExists memory place then none else some (.noSuchAddress memory place)

theorem missingRead_eq_some {memory place : Nat} {f : Fault} :
    missingRead memory place = some f ↔ placeExists memory place = false ∧ .noSuchAddress memory place = f := by
  unfold missingRead
  split <;> simp_all

theorem missingRead_eq_none {memory place : Nat} : missingRead memory place = none ↔ placeExists memory place = true := by
  unfold missingRead
  split <;> simp_all

/-- The fault of a command: only the two reads of a word have one. -/
def missingWord : Instr → Option Fault
  | .correctedRead memory place .. => missingRead memory place
  | .uncorrectableRead memory place .. => missingRead memory place
  | _ => none

theorem missingWord_eq_some {c : Instr} {f : Fault} (h : missingWord c = some f) : ∃ memory place, f = .noSuchAddress memory place ∧
    placeExists memory place = false ∧ ((∃ syn scrub, c = .correctedRead memory place syn scrub) ∨
      (∃ syn scrub holds, c = .uncorrectableRead memory place syn scrub holds)) := by
  cases c with
  | correctedRead memory place syn scrub =>
    obtain ⟨missing, rfl⟩ := missingRead_eq_some.mp h
    exact ⟨memory, place, rfl, missing, .inl ⟨syn, scrub, rfl⟩⟩
  | uncorrectableRead memory place syn scrub holds =>
    obtain ⟨missing, rfl⟩ := missingRead_eq_some.mp h
    exact ⟨memory, place, rfl, missing, .inr ⟨syn, scrub, holds, rfl⟩⟩
  | _ => exact absurd h (by simp [missingWord])

theorem exec_of_missingWord {c : Instr} {f : Fault} (h : missingWord c = some f) (s : State) : exec c s = .fault f := by
  obtain ⟨memory, place, rfl, missing, ⟨syn, scrub, rfl⟩ | ⟨syn, scrub, holds, rfl⟩⟩ := missingWord_eq_some h
  · simp [exec, execCorrectedRead, missing]
  · simp [exec, execUncorrectableRead, missing]

/-- Every other command has a next state. -/
theorem exec_answers {c : Instr} (h : missingWord c = none) (s : State) : Answers (exec c s) := by
  cases c
  case correctedRead | uncorrectableRead =>
    have present := missingRead_eq_none.mp h
    simp only [exec, execCorrectedRead, execUncorrectableRead, present]
    exact ⟨_, rfl⟩
  case firmwareCommitReplace | firmwareCommitReplaceActivate | firmwareCommitActivateAtReset | firmwareCommitActivateNow =>
    exact State.firmwareCommit_answers ..
  case setFeaturesPowerManagement | controllerReset => exact .ite ⟨_, rfl⟩ ⟨_, rfl⟩
  case calItemStart | calStep | calRetry | calDeferred =>
    simp only [exec, execCalItemStart, execCalStep, execCalRetry, execCalDeferred]
    split <;> exact ⟨_, rfl⟩
  case calRunEnd =>
    simp only [exec, execCalRunEnd]
    split <;> exact ⟨_, rfl⟩
  all_goals exact ⟨_, rfl⟩

/-- Settles O4: outside the two reads of a word every row answers a next state. That such a read stops by a fault is the model's choice (log
entry 15). -/
theorem onlyMissingWordsFault : Obligations.OnlyMissingWordsFault := by
  refine ⟨fun c s r refused => ?_, fun c s f faults => ?_, fun memory place syn scrub holds s missing => ?_⟩
  · cases h : missingWord c with
    | some f => rw [exec_of_missingWord h] at refused; cases refused
    | none =>
      obtain ⟨t, answer⟩ := exec_answers h s
      rw [answer] at refused; cases refused
  · cases h : missingWord c with
    | some g =>
      rw [exec_of_missingWord h] at faults
      cases faults
      exact missingWord_eq_some h
    | none =>
      obtain ⟨t, answer⟩ := exec_answers h s
      rw [answer] at faults; cases faults
  · have fault := missingRead_eq_some.mpr ⟨missing, rfl⟩
    exact ⟨exec_of_missingWord (c := .correctedRead memory place syn scrub) fault s,
      exec_of_missingWord (c := .uncorrectableRead memory place syn scrub holds) fault s⟩

/-! ### One step -/

theorem step_of_pending {s : State} {c : Instr} {rest : List Instr} (h : s.pending = c :: rest) :
    step s = exec c { s with pending := rest } := by
  rw [step, h]

theorem step_of_idle {s : State} (h : s.pending = []) : step s = .next s.idle := by
  rw [step, h]

/-- Settles O1. -/
theorem stepRunsTheFrontCommand : Obligations.StepRunsTheFrontCommand := fun _ _ _ => step_of_pending

/-- Settles O2; that an idle step is one tracking period is the model's choice (log entry 2). -/
theorem emptyQueueLetsOnePeriodPass : Obligations.EmptyQueueLetsOnePeriodPass := fun _ => step_of_idle

/-- A step keeps the forms and the fuses, and the queue without its front. -/
theorem step_good {s t : State} (h : step s = .next t) : Good { s with pending := s.pending.tail } t := by
  cases hq : s.pending with
  | nil =>
    rw [step_of_idle hq] at h
    cases h
    exact ⟨hq, .refl _, id, id, id, id, id⟩
  | cons c rest =>
    rw [step_of_pending hq] at h
    exact (exec_eff c _ t h).good

/-- Settles O3: no command changes the rest of the queue. -/
theorem stepConsumesExactlyTheFront : Obligations.StepConsumesExactlyTheFront := fun _ _ h => (step_good h).pending

/-- Settles O9: no command clears what the fuses hold. -/
theorem fusesOnlyBlow : Obligations.FusesOnlyBlow := fun _ _ h => (step_good h).otp

/-- Settles O6: every command keeps each form. -/
theorem everyStepKeepsEveryForm : Obligations.EveryStepKeepsEveryForm := fun _ _ forms h =>
  have kept := step_good h
  { objects := kept.objects forms.objects
    memory := kept.mem forms.memory
    bounded := kept.bounded forms.bounded
    leased := kept.leased forms.leased
    ramps := kept.ramps forms.ramps }

/-- Settles O5: every table is empty. That the model begins before VDDV is its own choice (log entry 7). -/
theorem resetKeepsEveryForm : Obligations.ResetKeepsEveryForm where
  left :=
    { objects := ⟨rfl, rfl⟩
      memory := Mem.wf_empty
      bounded := Recorder.bounded_empty rfl rfl
      leased := Nat.le_refl 0
      ramps := fun k => by
        have empty : State.reset.ramps[k] = {} := by rw [State.reset_ramps]; simp
        exact empty ▸ Ramp.ok_empty }
  right := ⟨rfl, rfl, rfl, rfl, fun _ _ _ => rfl⟩

end Sys2Proof.Machine
end

section
/-! PROOFS. Memory integrity (family 11): what the checker sees, what a stored word leaves, split writes, and the commands of the memories, the cache
and the on-ramps complete. -/

namespace Sys2Proof.Machine

/-! ### The word code is linear (R406) -/

theorem xorColumns_xor (v w i : Nat) (l : List Nat) : xorColumns (v ^^^ w) i l = xorColumns v i l ^^^ xorColumns w i l := by
  induction l generalizing i with
  | nil => simp [xorColumns]
  | cons c l ih =>
    have bit : (if (v ^^^ w).testBit i then c else 0) = (if v.testBit i then c else 0) ^^^ (if w.testBit i then c else 0) := by
      rw [Nat.testBit_xor]
      cases v.testBit i <;> cases w.testBit i <;> simp
    calc xorColumns (v ^^^ w) i (c :: l)
        _ = (if (v ^^^ w).testBit i then c else 0) ^^^ xorColumns (v ^^^ w) (i + 1) l := rfl
        _ = _ := by rw [bit, ih, Nat.xor_assoc, Nat.xor_left_comm (if w.testBit i then c else 0), ← Nat.xor_assoc]; rfl

/-- The data's part of the check bits. -/
def dataPart (d : Word64) : Byte := BitVec.ofNat 8 (xorColumns d.toNat 0 dataColumns)

/-- The folded address's part of the check bits. -/
def addressPart (f : Nat) : Byte := BitVec.ofNat 8 (xorColumns f 0 addressColumns)

theorem checkBits_eq (d : Word64) (f : Nat) : checkBits d f = dataPart d ^^^ addressPart f := BitVec.ofNat_xor

theorem dataPart_xor (d e : Word64) : dataPart (d ^^^ e) = dataPart d ^^^ dataPart e := by
  rw [dataPart, BitVec.toNat_xor, xorColumns_xor, BitVec.ofNat_xor]; rfl

/-- What bit i of a stored word adds to its syndrome. -/
def column (i : Fin 72) : Byte := if i.val < 64 then dataPart (BitVec.ofNat 64 (2 ^ i.val)) else BitVec.ofNat 8 (2 ^ (i.val - 64))

theorem Cell.syndrome_flipBit (c : Cell) (f : Nat) (i : Fin 72) : (flipBit c i).syndrome f = c.syndrome f ^^^ column i := by
  unfold flipBit column Cell.syndrome
  split
  · simp only [checkBits_eq, dataPart_xor]; ac_rfl
  · dsimp only; ac_rfl

/-- A stored word read at another address shows the difference of the addresses alone. -/
theorem Cell.syndrome_stored (d : Word64) (f f' : Nat) :
    (Cell.mk d (checkBits d f)).syndrome f' = addressPart f ^^^ addressPart f' := by
  rw [Cell.syndrome, checkBits_eq, checkBits_eq, BitVec.xor_comm (dataPart d), BitVec.xor_assoc, ← BitVec.xor_assoc (dataPart d), BitVec.xor_self,
    BitVec.zero_xor]

theorem Cell.syndrome_stored_self (d : Word64) (f : Nat) : (Cell.mk d (checkBits d f)).syndrome f = 0 := by
  rw [Cell.syndrome_stored, BitVec.xor_self]; rfl

theorem classify_column : ∀ i : Fin 72, classify (column i) = if i.val < 64 then .correctedData i.val else .correctedCheck := by
  decide

/-! ### Words with an odd number of ones (R409) -/

theorem oddlyMany_xor {α : Type} (p q : α → Bool) (l : List α) :
    oddlyMany (fun a => p a ^^ q a) l = (oddlyMany p l ^^ oddlyMany q l) := by
  induction l with
  | nil => rfl
  | cons a l ih => simp only [oddlyMany_cons, ih, Bool.xor_assoc, Bool.xor_left_comm]

/-- A byte has an odd number of ones. -/
def oddByte (b : Byte) : Bool := oddlyMany b.getLsbD (List.range 8)

theorem oddByte_xor (a b : Byte) : oddByte (a ^^^ b) = (oddByte a ^^ oddByte b) := by
  rw [oddByte, oddByte, oddByte, ← oddlyMany_xor]
  exact oddlyMany_congr _ fun i _ => BitVec.getLsbD_xor

theorem oddByte_column : ∀ i : Fin 72, oddByte (column i) = true := by decide

/-- The bit that a column stands for. -/
def bitOfColumn (b : Byte) : Nat :=
  match classify b with
  | .correctedData i => i
  | _ => 64 + b.toNat.log2

theorem bitOfColumn_column : ∀ i : Fin 72, bitOfColumn (column i) = i.val := by decide

theorem column_injective : Function.Injective column := fun i j same =>
  Fin.ext ((bitOfColumn_column i).symm.trans ((congrArg bitOfColumn same).trans (bitOfColumn_column j)))

theorem not_corrected_of_even : ∀ b : Byte, oddByte b = false → (classify b).corrected = false := by decide

theorem lost_of_even : ∀ b : Byte, oddByte b = false → b ≠ 0 → (classify b).lost = true := by decide

theorem Cell.syndrome_wrongBit (d : Word64) (f : Nat) (i : Fin 72) :
    (flipBit (Cell.mk d (checkBits d f)) i).syndrome f = column i := by
  rw [Cell.syndrome_flipBit, Cell.syndrome_stored_self]
  exact BitVec.zero_xor

/-- A wrong data bit is inverted back; a wrong check bit leaves the data. -/
theorem Cell.corrected_wrongBit (d : Word64) (f : Nat) (i : Fin 72) : (flipBit (Cell.mk d (checkBits d f)) i).corrected f = d := by
  rw [Cell.corrected, Cell.syndrome_wrongBit, classify_column]
  by_cases data : i.val < 64
  · simp [flipBit, data]
  · simp [flipBit, data]

theorem oddByte_xorColumns_of_even (v i : Nat) {l : List Nat} (even : ∀ c ∈ l, oddByte (BitVec.ofNat 8 c) = false) :
    oddByte (BitVec.ofNat 8 (xorColumns v i l)) = false := by
  induction l generalizing i with
  | nil => rw [xorColumns]; rfl
  | cons c l ih =>
    obtain ⟨here, rest⟩ := List.forall_mem_cons.mp even
    have first : oddByte (BitVec.ofNat 8 (if v.testBit i then c else 0)) = false := by
      split
      · exact here
      · rfl
    calc oddByte (BitVec.ofNat 8 (xorColumns v i (c :: l)))
        _ = (oddByte (BitVec.ofNat 8 (if v.testBit i then c else 0)) ^^ oddByte (BitVec.ofNat 8 (xorColumns v (i + 1) l))) := by
          rw [← oddByte_xor, ← BitVec.ofNat_xor]; rfl
        _ = false := by rw [first, ih (i + 1) rest]; rfl

theorem oddByte_addressPart (f : Nat) : oddByte (addressPart f) = false := oddByte_xorColumns_of_even f 0 (by decide)

/-- Settles O21: a wrong bit shows as its column, the columns are odd and distinct, and addresses differ by even syndromes. -/
theorem checkerCorrectsOneAndSeesTwo : Obligations.CheckerCorrectsOneAndSeesTwo := by
  refine ⟨Cell.syndrome_stored_self, fun d f i => ⟨Cell.corrected_wrongBit d f i, ?_⟩, fun d f i j distinct => ?_, fun d f f' => ?_⟩
  · rw [Cell.syndrome_wrongBit, classify_column]
    split <;> rfl
  · rw [Cell.syndrome_flipBit, Cell.syndrome_wrongBit]
    refine lost_of_even _ (by rw [oddByte_xor, oddByte_column, oddByte_column]; rfl) ?_
    exact fun same => distinct (column_injective (BitVec.xor_eq_zero_iff.mp same))
  · rw [Cell.syndrome_stored]
    exact not_corrected_of_even _ (by rw [oddByte_xor, oddByte_addressPart, oddByte_addressPart]; rfl)

/-! ### Stored words (R403, R405) -/

theorem Mem.cell_store_self {m : Mem} (wf : m.wf) (ddr : Bool) (word : Nat) (c : Cell) : (m.store ddr word c).cell ddr word = c := by
  obtain ⟨sramForm, ddrRising, -⟩ := wf
  cases ddr
  · exact Sparse.get_put_self (Bool.and_eq_true_iff.mp sramForm).1
  · exact Sparse.get_put_self ddrRising

theorem Mem.cell_store_other {m : Mem} (wf : m.wf) {ddr ddr' : Bool} {word word' : Nat} (c : Cell) (other : (ddr', word') ≠ (ddr, word)) :
    (m.store ddr word c).cell ddr' word' = m.cell ddr' word' := by
  obtain ⟨sramForm, ddrRising, -⟩ := wf
  cases ddr <;> cases ddr'
  · exact Sparse.get_put_other (Bool.and_eq_true_iff.mp sramForm).1 fun same => other (by rw [same])
  · rfl
  · rfl
  · exact Sparse.get_put_other ddrRising fun same => other (by rw [same])

/-- Settles O22: each memory is a table that lists its words rising. -/
theorem memoryStoreReadsBack : Obligations.MemoryStoreReadsBack := fun _ ddr word c wf =>
  ⟨Mem.cell_store_self wf ddr word c, fun _ _ => Mem.cell_store_other wf c, Mem.wf_store ddr word c wf⟩

/-! ### Split writes (R414) -/

/-- A report changes no object but the count of lost reports. -/
theorem State.ob_report {s : State} (rising : s.ObjectsOk) (src : IslandId) (code : Nat) (payload : List Int) {r : Row} {i k : Nat}
    (other : r.key i k ≠ Obj.queueOverflows.key 0 0) : (s.report src code payload).ob r i k = s.ob r i k := by
  unfold State.report State.push
  extract_lets q
  split
  · rfl
  · exact State.ob_setOb_other _ _ _ _ _ _ _ _ rising.1 other

theorem State.ob_recordWrite {s : State} (rising : s.ObjectsOk) (cl : Client) (key : Nat) {r : Row} {i k : Nat}
    (other : r.key i k ≠ Obj.queueOverflows.key 0 0) : (s.recordWrite cl key).ob r i k = s.ob r i k :=
  State.ob_report rising _ _ _ other

theorem State.splitBusy_eq_false {s : State} (enabled : s.ob Obj.splitWriteEnable = 1) : s.splitBusy = false :=
  decide_eq_false (not_not.mpr enabled)

theorem execRawWrite_taken {s : State} {cl : Client} (taken : s.Takes cl Obj.splitCommand 0 0 1) (free : s.splitBusy = false) :
    execRawWrite cl 1 s = .next (s.wrote cl Obj.splitCommand 0 0 fun u => u.updMem fun m => m.store false u.splitWord
      { data := BitVec.ofNat 64 (u.obN Obj.splitData), check := BitVec.ofNat 8 (u.obN Obj.splitCheck) }) := by
  rw [execRawWrite, free, State.hostWrite_taken taken]; rfl

theorem execEncodedWrite_taken {s : State} {cl : Client} (taken : s.Takes cl Obj.splitCommand 0 0 2) (free : s.splitBusy = false) :
    execEncodedWrite cl 2 s = .next (s.wrote cl Obj.splitCommand 0 0 fun u => u.updMem fun m => m.store false u.splitWord
      (encodeWord false u.splitWord (BitVec.ofNat 64 (u.obN Obj.splitData)))) := by
  rw [execEncodedWrite, free, State.hostWrite_taken taken]; rfl

theorem execSplitRead_taken {s : State} {cl : Client} (taken : s.Takes cl Obj.splitCommand 0 0 3) (free : s.splitBusy = false) :
    execSplitRead cl 3 s = .next (s.wrote cl Obj.splitCommand 0 0 fun s =>
        let c := s.mem.cell false s.splitWord
        let f := foldOf false s.splitWord
        (((s.setOb Obj.splitReadData 0 0 (c.corrected f).toNat).setOb Obj.splitReadCheck 0 0 c.check.toNat).setOb
          Obj.splitSyndrome 0 0 (c.syndrome f).toNat).setOb Obj.splitClass 0 0 (classify (c.syndrome f)).code) := by
  rw [execSplitRead, free, State.hostWrite_taken taken]; rfl

/-- What the word that a taken write stores leaves of both memories. -/
theorem State.wrote_store {s : State} {cl : Client} {r : Row} {i k word : Nat} {cell : Cell} (wf : s.mem.wf) {wordOf : State → Nat}
    {cellOf : State → Cell} (sameWord : wordOf (s.recordWrite cl (r.key i k)) = word) (sameCell : cellOf (s.recordWrite cl (r.key i k)) = cell) :
    let t := s.wrote cl r i k fun u => u.updMem fun m => m.store false (wordOf u) (cellOf u)
    t.mem.cell false word = cell ∧ ∀ (ddr : Bool) (word' : Nat), (ddr, word') ≠ (false, word) → t.mem.cell ddr word' = s.mem.cell ddr word' := by
  have stored : (s.wrote cl r i k fun u => u.updMem fun m => m.store false (wordOf u) (cellOf u)).mem = s.mem.store false word cell := by
    simp [State.wrote, sameWord, sameCell]
  dsimp only
  rw [stored]
  exact ⟨Mem.cell_store_self wf false word cell, fun _ _ => Mem.cell_store_other wf cell⟩

/-- Settles O23: the record of the write changes none of the objects that name the word. -/
theorem splitWritesStoreOneWord : Obligations.SplitWritesStoreOneWord := by
  intro cl s wf rising enabled
  have free := State.splitBusy_eq_false enabled
  have data : (s.recordWrite cl (Obj.splitCommand.key 0 0)).obN Obj.splitData = s.obN Obj.splitData :=
    congrArg Int.toNat (State.ob_recordWrite rising cl _ (by decide))
  have check : (s.recordWrite cl (Obj.splitCommand.key 0 0)).obN Obj.splitCheck = s.obN Obj.splitCheck :=
    congrArg Int.toNat (State.ob_recordWrite rising cl _ (by decide))
  have word : (s.recordWrite cl (Obj.splitCommand.key 0 0)).splitWord = s.splitWord :=
    congrArg (·.toNat / 8) (State.ob_recordWrite rising cl _ (by decide))
  refine ⟨fun taken => ⟨_, execRawWrite_taken taken free, State.wrote_store wf word (by rw [data, check])⟩,
    fun taken => ⟨_, execEncodedWrite_taken taken free, State.wrote_store wf word (by rw [data, word])⟩,
    fun taken => ⟨_, execSplitRead_taken taken free, by simp [State.wrote]⟩⟩

/-! ### Maintenance (R428, R429) -/

/-- What a write does counts only in the state after its record. -/
theorem State.wrote_congr_at {s : State} {cl : Client} {r : Row} {i k : Nat} {f g : State → State}
    (h : f (s.recordWrite cl (r.key i k)) = g (s.recordWrite cl (r.key i k))) : s.wrote cl r i k f = s.wrote cl r i k g :=
  congrArg (State.answer · none) h

section Maintenance

variable {s : State} {cl : Client} {fillInFlight : Bool}

/-- With no disable and no fill under way an operation acts at once. -/
theorem State.maintenance_taken {op : Int} (taken : s.Takes cl Obj.maintenanceCommand 0 0 op) (steady : s.mem.cacheDisabling = false)
    (noFill : (fillInFlight && s.mem.cacheOn) = false) :
    s.maintenance cl op op fillInFlight = s.wrote cl Obj.maintenanceCommand 0 0 fun u =>
      if op = 7 && !inWriteBuffers (u.obN Obj.maintenanceAddress) then u.bump Obj.zeroLineRefused 0 0
      else u.maintain op.toNat (u.obN Obj.maintenanceAddress) := by
  rw [State.maintenance, if_neg (not_not.mpr rfl), State.hostWrite_taken taken]
  refine State.wrote_congr_at ?_
  simp only [State.recordWrite_mem, steady, noFill, Bool.or_self, Bool.false_eq_true, if_false]

/-- An operation other than Zero a line is never refused. -/
theorem State.maintenance_acts {op : Int} (taken : s.Takes cl Obj.maintenanceCommand 0 0 op) (other : op ≠ 7)
    (steady : s.mem.cacheDisabling = false) (noFill : (fillInFlight && s.mem.cacheOn) = false) :
    s.maintenance cl op op fillInFlight =
      s.wrote cl Obj.maintenanceCommand 0 0 fun u => u.maintain op.toNat (u.obN Obj.maintenanceAddress) := by
  rw [State.maintenance_taken taken steady noFill]
  simp only [decide_eq_false other, Bool.false_and, Bool.false_eq_true, if_false]

/-- Zero a line is refused outside the write buffers. -/
theorem State.maintenance_zeroALine (taken : s.Takes cl Obj.maintenanceCommand 0 0 7) (steady : s.mem.cacheDisabling = false)
    (noFill : (fillInFlight && s.mem.cacheOn) = false) :
    s.maintenance cl 7 7 fillInFlight = s.wrote cl Obj.maintenanceCommand 0 0 fun u =>
      if inWriteBuffers (u.obN Obj.maintenanceAddress) then u.maintain 7 (u.obN Obj.maintenanceAddress) else u.bump Obj.zeroLineRefused 0 0 := by
  rw [State.maintenance_taken taken steady noFill]
  refine State.wrote_congr fun u => ?_
  cases inWriteBuffers (u.obN Obj.maintenanceAddress) <;> rfl

end Maintenance

/-! ### Completion of the commands of the memories, the cache and the on-ramps -/

/-- A word of another memory, or of shared SRAM outside the test window, is not ignored. -/
theorem notIgnored {memory word : Nat} (outside : memory = 0 → inWindow word = false) : (memory == 0 && inWindow word) = false := by
  by_cases sram : memory = 0
  · rw [outside sram, Bool.and_false]
  · rw [beq_false_of_ne sram, Bool.false_and]

/-- Settles O54: under the hypotheses of its clause each command's guard holds or CORE takes the write, and the effect is the one stated.
That a repaired word of the cache is not recorded, and what a fill counts, are the model's choices (log entries 71 and 137). -/
theorem memoryCommandsComplete : Obligations.MemoryCommandsComplete := by
  refine ⟨?mergeDrain, ?mergeDrainTimeout, ?correctedRead, ?uncorrectableRead, fun _ _ => execRawWrite_taken, fun _ _ => execEncodedWrite_taken,
    fun _ _ => execSplitRead_taken, ?scrubStart, ?scrubStop, ?scrubDone, ?cacheDisable, ?cacheEnable, ?cacheFill, ?cleanByAddress,
    ?invalidateByAddress, ?cleanAndInvalidateByAddress, ?cleanBySetAndWay, ?invalidateBySetAndWay, ?cleanAndInvalidateBySetAndWay, ?zeroALine,
    ?onRampRead, ?onRampIdleTimeout⟩
  case mergeDrain =>
    intro ddr span s up
    unfold exec execMergeDrain
    exact State.when_of_true up
  case mergeDrainTimeout =>
    intro ddr span s up
    unfold exec execMergeDrainTimeout
    exact State.when_of_true up
  case correctedRead =>
    intro memory place syndrome scrub s present up corrected outside
    change execCorrectedRead memory place syndrome scrub s = _
    rw [execCorrectedRead, if_neg (by simp [present])]
    refine State.when_of_true ?_
    rw [up, corrected, notIgnored outside]; rfl
  case uncorrectableRead =>
    intro memory place syndrome scrub holds s present up lost outside
    change execUncorrectableRead memory place syndrome scrub holds s = _
    rw [execUncorrectableRead, if_neg (by simp [present])]
    refine State.when_of_true ?_
    rw [up, lost, notIgnored outside]; rfl
  case scrubStart =>
    intro cl s taken inRange idle
    change execScrubStart cl 1 s = _
    rw [execScrubStart, inRange, idle, State.hostWrite_taken taken]; rfl
  case scrubStop =>
    intro cl s taken
    change execScrubStop cl 2 s = _
    rw [execScrubStop, State.hostWrite_taken taken]; rfl
  case scrubDone =>
    intro wordsRead s up
    unfold exec execScrubDone
    exact State.when_of_true up
  case cacheDisable =>
    intro cl s taken
    change execCacheDisable cl 0 s = _
    rw [execCacheDisable, State.hostWrite_taken taken]; rfl
  case cacheEnable =>
    intro cl s taken steady
    change execCacheEnable cl 1 s = _
    rw [execCacheEnable, steady, State.hostWrite_taken taken]; rfl
  case cacheFill =>
    intro requester line s up on steady exists_
    unfold exec execCacheFill
    refine State.when_of_true ?_
    rw [up, on, steady, exists_]; rfl
  case cleanByAddress | invalidateByAddress | cleanAndInvalidateByAddress | cleanBySetAndWay | invalidateBySetAndWay
      | cleanAndInvalidateBySetAndWay =>
    intro cl fillInFlight s taken steady noFill
    exact congrArg _ (State.maintenance_acts taken (by decide) steady noFill)
  case zeroALine =>
    intro cl fillInFlight s taken steady noFill
    exact congrArg _ (State.maintenance_zeroALine taken steady noFill)
  case onRampRead =>
    intro k s up
    unfold exec execOnRampRead
    exact State.when_of_true up
  case onRampIdleTimeout =>
    intro k s up runs elapsed
    unfold exec execOnRampIdleTimeout
    refine State.when_of_true ?_
    rw [up, runs, decide_eq_true elapsed]; rfl

end Sys2Proof.Machine
end

section
/-! PROOFS. Calibration and ageing (family 12): void runs, and the commands of calibration, the ledger and the margin plan complete. -/

namespace Sys2Proof.Machine

/-! ### Void runs (R447) -/

section VoidRun

variable {item : Fin 12} {inst : Fin 8} {raw : CalRaw} {results : List Int} {ix : Fin 92} {s : State}

/-- The item after a run that something disturbed, before the run is judged. -/
def State.runStarts (s : State) (item : Fin 12) (inst : Fin 8) (ix : Fin 92) : State :=
  s.updItem ix fun x => { x with steps := 0, disturbance := s.disturbance item.val inst.val }

theorem execCalRunEnd_of_disturbed (found : itemIx item inst = some ix) (measured : s.runResults inst raw = some results)
    (up : s.coreUp = true) (running : (s.cal.items[ix]).state = .running) (stepped : 0 < (s.cal.items[ix]).steps)
    (disturbed : s.disturbance item.val inst.val ≠ (s.cal.items[ix]).disturbance) :
    execCalRunEnd item inst raw s = .next (
      if 2 ≤ (s.cal.items[ix]).voids then ((s.runStarts item inst ix).itemFails ix).seekBack ix inst
      else (s.runStarts item inst ix).updItem ix fun x => { x with voids := x.voids + 1 }) := by
  have guard : (s.coreUp && (s.cal.items[ix]).state == .running && decide (0 < (s.cal.items[ix]).steps)) = true := by
    rw [up, running, decide_eq_true stepped]; rfl
  simp only [execCalRunEnd, found, measured]
  rw [State.when_of_true guard, if_pos disturbed]
  rfl

end VoidRun

/-- Settles O24: one void more while fewer than two were counted, and a failed attempt after that. What makes a run void
is the model's choice (log entry 197). -/
theorem thirdVoidRunFails : Obligations.ThirdVoidRunFails := by
  intro item inst raw results ix s found measured up running stepped disturbed
  have ends := execCalRunEnd_of_disturbed found measured up running stepped disturbed
  refine ⟨fun few => ?_, fun many => ?_⟩
  · rw [if_neg (by omega)] at ends
    refine ⟨_, ends, ?_, ?_, ?_, ?_, ?_, ?_⟩
    · simp [State.runStarts, running, -Fin.getElem_fin]
    · simp [State.runStarts, -Fin.getElem_fin]
    · simp [State.runStarts, -Fin.getElem_fin]
    · simp [State.runStarts, -Fin.getElem_fin]
    · exact ((State.updItem_eff _ ix _).after (State.updItem_eff s ix _)).frame
    · simp [State.runStarts, -Fin.getElem_fin]
  · rw [if_pos many] at ends
    exact ends

/-! ### Completion of the commands of calibration, the ledger and the margin plan -/

/-- Settles O55: under the hypotheses of its clause each command's guard holds or CORE takes the write, and the effect is the one stated.
The open coefficients and values, and when an item is Valid, are the model's choices (log entries 11, 95 and 96). -/
theorem calibrationAndPlanCommandsComplete : Obligations.CalibrationAndPlanCommandsComplete := by
  refine ⟨?dieTemperatureSample, ?calRequest, ?calItemStart, ?calStep, ?calRunEnd, ?calRetry, ?calDeferred, ?operatingHour, ?ledgerPoint,
    ?marginPlan, ?marginPlanRequest, ?planSetRelease⟩
  case dieTemperatureSample =>
    intro centi s runs
    unfold exec execDieTemperatureSample
    exact State.when_of_true runs
  case calRequest =>
    intro cl v s taken hit
    exact congrArg _ (State.hostWriteOr_taken taken (congrArg not hit) rfl _ _)
  case calItemStart =>
    intro item inst ix s found up on enabled noActivation free waits noRetry
    have due : ((s.cal.items[ix]).state == .due || (s.cal.items[ix]).state == .neverRun) = true := by
      simpa [-Fin.getElem_fin] using waits
    change execCalItemStart item inst s = _
    rw [execCalItemStart, found]
    refine State.when_of_true ?_
    rw [up, on, decide_eq_true enabled, noActivation, free, due, noRetry]; rfl
  case calStep =>
    intro item inst ix s found up running free quiet
    change execCalStep item inst s = _
    rw [execCalStep, found]
    refine State.when_of_true ?_
    rw [up, running, free, quiet]; rfl
  case calRunEnd =>
    intro item inst raw ix results s found measured up running stepped
    change execCalRunEnd item inst raw s = _
    rw [execCalRunEnd, found, measured]
    refine State.when_of_true ?_
    rw [up, running, decide_eq_true stepped]; rfl
  case calRetry =>
    intro item inst ix s found up elapsed
    change execCalRetry item inst s = _
    rw [execCalRetry, found]
    exact State.when_of_true (Bool.and_eq_true_iff.mpr ⟨up, decide_eq_true elapsed⟩)
  case calDeferred =>
    intro item inst ix s found up on waits unrecorded late
    change execCalDeferred item inst s = _
    rw [execCalDeferred, found]
    refine State.when_of_true ?_
    rw [up, on, waits, unrecorded, decide_eq_true late]; rfl
  case operatingHour =>
    intro s runs awake
    unfold exec execOperatingHour
    exact State.when_of_true (Bool.and_eq_true_iff.mpr ⟨runs, decide_eq_true awake⟩)
  case ledgerPoint =>
    intro code instance_ currents s up exists_
    unfold exec execLedgerPoint
    exact State.when_of_true (Bool.and_eq_true_iff.mpr ⟨up, decide_eq_true exists_⟩)
  case marginPlan =>
    intro s up due awake noActivation noPlan
    unfold exec execMarginPlan
    refine State.when_of_true ?_
    rw [up, due, decide_eq_true awake, noActivation, noPlan]; rfl
  case marginPlanRequest =>
    intro cl v s taken
    exact congrArg _ (State.hostWrite_taken taken _)
  case planSetRelease =>
    intro p s up noAcquisition noHold
    unfold exec execPlanSetRelease
    refine State.when_of_true ?_
    rw [up, bne_iff_ne.mpr noAcquisition, bne_iff_ne.mpr noHold]; rfl

end Sys2Proof.Machine
end

section
/-! PROOFS. Events, milestones and traces (family 13): a full report queue loses a report and counts it, a milestone during a capture latches nothing,
and the commands of the recorder, of milestones and of traces complete. -/

namespace Sys2Proof.Machine

/-! ### Report queues (R471) -/

section ReportQueue

variable {s : State} {i : IslandId} {code : Nat} {payload : List Int}

theorem State.report_of_room (room : (s.recorder.queues[i]).reports.length < reportQueueDepth) :
    s.report i code payload = s.updR fun x => { x with queues := upd x.queues i fun q =>
      { q with reports := q.reports ++ [{ code := code, payload := payload, reserved := none, errorEntry := none }] } } := by
  rw [State.report, State.push, if_pos room]

theorem State.report_of_full (full : reportQueueDepth ≤ (s.recorder.queues[i]).reports.length) :
    s.report i code payload = (s.updR fun x => { x with queues := upd x.queues i fun q => { q with overflow := q.overflow + 1 } }).bump
      Obj.queueOverflows 0 0 := by
  rw [State.report, State.push, if_neg (Nat.not_lt.mpr full)]

/-- A report leaves the other queues as they were. -/
theorem State.report_keptBut : KeptBut i s.recorder.queues (s.report i code payload).recorder.queues := by
  rcases Nat.lt_or_ge (s.recorder.queues[i]).reports.length reportQueueDepth with room | full
  · simp [State.report_of_room room]
  · simp [State.report_of_full full, State.bump]

end ReportQueue

/-- Settles O25: a report finds room or is lost. -/
theorem fullReportQueueLosesAndCounts : Obligations.FullReportQueueLosesAndCounts := by
  refine fun s i code payload => ⟨fun room => ?_, fun full => ?_, State.report_keptBut, (State.report_eff s i code payload).frame⟩
  · simp [State.report_of_room room, -Fin.getElem_fin]
  · simp [State.report_of_full full, State.bump, -Fin.getElem_fin]

/-! ### A milestone while a capture stands (R492) -/

/-- Settles O26: the milestone is not taken. That this holds while the capture is under way as well is the model's choice. -/
theorem milestoneDuringCaptureLatchesNothing : Obligations.MilestoneDuringCaptureLatchesNothing := by
  intro cycle s up pending notIdle
  have notTaken : (s.milestone.state == .idle) = false := beq_false_of_ne notIdle
  change execMilestone cycle s = _
  rw [execMilestone, State.when_of_true (Bool.and_eq_true_iff.mpr ⟨up, bne_iff_ne.mpr pending⟩)]
  simp only [notTaken]
  rfl

/-! ### Completion of the commands of the recorder -/

/-- An authorised write that CORE takes, in the range and the state that its owner asks for, has its effect. -/
theorem State.authWrite_admitted {s : State} {cl : Client} {r : Row} {i k : Nat} {v : Int} {verdict : Option Bool} {bad busy : Bool}
    (taken : s.Takes cl r i k v) (granted : (s.authorise cl (r.key i k) (leBytes r.type.size v) verdict).2 = none) (inRange : bad = false)
    (free : busy = false) (effect : State → State) :
    s.authWrite cl r i k v verdict bad busy effect =
      (s.authorise cl (r.key i k) (leBytes r.type.size v) verdict).1.wrote cl r i k effect := by
  rw [inRange, free, State.authWrite_taken taken granted]

/-- Settles O56: under the hypotheses of its clause each command's guard holds or CORE takes the write, and the effect is the one stated.
How the two areas share a program of a page, and what FlushTimeMax counts, are the model's choices (log entries 64 and 200). -/
theorem recorderCommandsComplete : Obligations.RecorderCommandsComplete := by
  refine ⟨?eventReport, ?reportQueueOverflow, ?summaryClose, ?tickMark, ?pageProgram, ?pageProgramDone, ?flushRequest, ?flushDone,
    ?runningAreaClear, ?eventStoreInit⟩
  case eventReport =>
    intro island s up
    unfold exec execEventReport
    exact State.when_of_true up
  case reportQueueOverflow =>
    intro island s up lost room
    unfold exec execReportQueueOverflow
    refine State.when_of_true ?_
    rw [up, decide_eq_true lost, decide_eq_true room]; rfl
  case summaryClose =>
    intro code s up
    unfold exec execSummaryClose
    exact State.when_of_true up
  case tickMark =>
    intro s up elapsed
    unfold exec execTickMark
    exact State.when_of_true (Bool.and_eq_true_iff.mpr ⟨up, decide_eq_true elapsed⟩)
  case pageProgram =>
    intro s up noPage own
    unfold exec execPageProgram
    refine State.when_of_true ?_
    rw [up, noPage, own]; rfl
  case pageProgramDone =>
    intro failed s up
    unfold exec execPageProgramDone
    exact State.when_of_true up
  case flushRequest =>
    intro cl v s taken
    exact congrArg _ (State.hostWrite_taken taken _)
  case flushDone =>
    intro s up noPage
    unfold exec execFlushDone
    refine State.when_of_true ?_
    rw [up, noPage]; rfl
  case runningAreaClear =>
    intro cl v authorised s taken granted own held range noClear noWait
    change execRunningAreaClear cl v authorised s = _
    unfold execRunningAreaClear
    refine congrArg _ (State.authWrite_admitted taken granted ?inRange ?free _)
    case inRange => rw [own, held, decide_eq_true range]; rfl
    case free => rw [noClear, noWait]; rfl
  case eventStoreInit =>
    intro cl v authorised s taken granted foreign
    exact congrArg _ (State.authWrite_admitted taken granted rfl foreign _)

/-! ### Completion of the commands of milestones and traces -/

/-- Settles O57: under the hypotheses of its clause each command's guard holds or CORE takes the write, and the effect is the one stated.
The captured program counters and the ball's own pulse rest on choices of the model (log entries 49 and 66). -/
theorem milestoneAndTraceCommandsComplete : Obligations.MilestoneAndTraceCommandsComplete := by
  refine ⟨?milestoneRequest, ?milestoneBallEdge, ?milestone, ?milestoneLatch, ?milestoneRelease, ?traceArm, ?traceStop, ?traceComplete⟩
  case milestoneRequest | milestoneRelease =>
    intro cl v s taken
    exact congrArg _ (State.hostWrite_taken taken _)
  case milestoneBallEdge =>
    intro s up
    unfold exec execMilestoneBallEdge
    exact State.when_of_true up
  case milestone =>
    intro cycle s up pending
    unfold exec execMilestone
    exact State.when_of_true (Bool.and_eq_true_iff.mpr ⟨up, bne_iff_ne.mpr pending⟩)
  case milestoneLatch =>
    intro island latencyNs s capturing up unlatched
    unfold exec execMilestoneLatch
    refine State.when_of_true ?_
    rw [capturing, up, unlatched]; rfl
  case traceArm =>
    intro cl ch s taken
    change execTraceArm cl ch 1 s = _
    rw [execTraceArm, State.hostWrite_taken taken]; rfl
  case traceStop =>
    intro cl ch s taken
    change execTraceStop cl ch 2 s = _
    rw [execTraceStop, State.hostWrite_taken taken]; rfl
  case traceComplete =>
    intro ch s armed ends
    unfold exec execTraceComplete
    refine State.when_of_true ?_
    rw [armed, ends]; rfl

end Sys2Proof.Machine
end

section
/-! PROOFS. Power, clocks and resets (family 14), with firmware and services: commands of an island that does not run change nothing, a wake raises the
supply request, a revoked key stays revoked, and the commands of start-up, resets, firmware and services complete. -/

namespace Sys2Proof.Machine

/-! ### Islands that do not run (R514, R522) -/

section IslandsDown

variable {s : State}

theorem State.onMedia_of_down (down : s.memUp = false) (k : CmdRef) (mine : Cmd → Bool) (f : State → PickupId → Cmd → State) :
    s.onMedia k mine f = .next s := State.when_of_false down

theorem State.admin_of_down (down : s.coreUp = false) (k : CmdRef) (mine : Cmd → Bool) (f : State → Cmd → State) :
    s.admin k mine f = .next s := by
  unfold State.admin State.onCores
  exact State.when_of_false down

theorem State.serve_of_down (down : s.coreUp = false) (cl : Client) (r : Request) (mine : Bool) : s.serve cl r mine = .next s :=
  State.when_of_false (by rw [down]; rfl)

end IslandsDown

/-- Settles O28: the guard of each row begins with the island. That such a command changes nothing is the model's choice (log entry 17). -/
theorem islandsDownIgnoreTheirCommands : Obligations.IslandsDownIgnoreTheirCommands := by
  refine ⟨?servo, ?channel, ?motor, ?axis, ?mem, ?core⟩
  case servo =>
    intro p s down
    refine ⟨fun i => ?_, fun l => ?_, ?_, ?_, ?_, fun w => ?_, ?_, ?_⟩
    · unfold exec execLoopSample; exact State.when_of_false down
    · unfold exec execLoopFault; exact State.when_of_false (by rw [down]; rfl)
    · unfold exec execDefectHoldEntered; exact State.when_of_false down
    · unfold exec execDefectHoldLeft; exact State.when_of_false (by rw [down]; rfl)
    · unfold exec execLawLost; exact State.when_of_false (by rw [down]; rfl)
    · unfold exec execLawReceived; exact State.when_of_false (by rw [down]; rfl)
    · unfold exec execWritePassStart; exact State.when_of_false down
    · unfold exec execWritePassEnd; exact State.when_of_false down
  case channel =>
    intro g s down
    refine ⟨fun r w => ?_, ?_, fun x => ?_, fun h => ?_⟩
    · unfold exec execFrameStart; exact State.when_of_false (by rw [down]; rfl)
    · unfold exec execWaymarkSearch; exact State.when_of_false (by rw [down]; rfl)
    · unfold exec execAgcUpdate; exact State.when_of_false (by rw [down]; rfl)
    · unfold exec execCodewordOffer; exact State.when_of_false down
  case motor =>
    intro i s down
    refine ⟨fun cl v => ?_, fun a b c => ?_, ?_, ?_⟩
    · unfold exec execSpindleStart; exact State.when_of_false down
    · unfold exec execPwmPeriod; exact State.when_of_false down
    · unfold exec execSpeedSample; exact State.when_of_false (by rw [down]; rfl)
    · unfold exec execGateFault; exact State.when_of_false down
  case axis =>
    intro a s down
    refine ⟨fun d l e f => ?_, fun cl v => ?_, ?_⟩
    · unfold exec execProfilePeriod; exact State.when_of_false (by rw [down]; rfl)
    · unfold exec execAxisMove; exact State.when_of_false down
    · unfold exec execAxisDriverFault; exact State.when_of_false down
  case mem =>
    intro s down
    have noRecorder : s.recUp = false := by rw [State.recUp, down]; rfl
    refine ⟨fun d => ?_, fun k => ?_, fun k => ?_, fun d n => ?_, ?_⟩
    · unfold exec execCodewordDecodeDone; exact State.when_of_false down
    · unfold exec execWrite; exact State.onMedia_of_down down ..
    · unfold exec execRead; exact State.onMedia_of_down down ..
    · unfold exec execMergeDrain; exact State.when_of_false down
    · unfold exec execPageProgram; exact State.when_of_false (by rw [noRecorder]; rfl)
  case core =>
    intro s down
    refine ⟨fun k => ?_, fun cl r => ?_, fun n => ?_, ?_⟩
    · unfold exec execIdentify; exact State.admin_of_down down ..
    · unfold exec execSignpostRead; exact State.serve_of_down down ..
    · unfold exec execSessionExpired; exact State.when_of_false down
    · unfold exec execMarginPlan; exact State.when_of_false (by rw [down]; rfl)

/-! ### The wake from PS3 (R513, R515) -/

/-- A reset of the die leaves the islands held. -/
theorem State.loseIslands_phase (s : State) (cause : Nat) : (s.loseIslands cause).power.phase = .held := rfl

theorem execWake_of_ps3 {s : State} {cause : Fin 6} (asleep : s.power.phase = .ps3) (wakes : s.mayWake cause = true) :
    execWake cause s = .next (
      let u := s.loseIslands (if cause.val = 5 then 6 else 2)
      { u with verge := { u.verge with pwrEn := true, wakeCause := cause.val + 1 } }) := by
  unfold execWake
  exact State.when_of_true (Bool.and_eq_true_iff.mpr ⟨beq_iff_eq.mpr asleep, wakes⟩)

/-- A comparator wakes when it is enabled and, but for the fourth, has tripped; the other causes always wake. -/
theorem State.mayWake_of_comparator {s : State} {cause : Fin 6} (waking : ∀ k : Fin 4, k.val = cause.val →
    s.ob Obj.compWakeEnable k.val = 1 ∧ (s.verge.comps[k]).tripped = decide (k.val < 3)) : s.mayWake cause = true := by
  unfold State.mayWake
  split
  next comparator =>
    obtain ⟨enabled, state⟩ := waking ⟨cause.val, comparator⟩ rfl
    rw [enabled, state]
    have three : decide (cause.val < 3) = !(cause.val == 3) := by
      rw [Bool.eq_iff_iff]; simp; omega
    dsimp only
    rw [three]
    cases cause.val == 3 <;> rfl
  next => rfl

/-- Settles O27: the cause wakes, and every island but Verge starts from its reset. -/
theorem wakeRaisesTheSupplyRequest : Obligations.WakeRaisesTheSupplyRequest := fun cause s asleep waking =>
  ⟨_, execWake_of_ps3 asleep (State.mayWake_of_comparator waking), rfl, rfl, State.loseIslands_phase s (if cause.val = 5 then 6 else 2)⟩

/-! ### Revocation of a firmware key (R528) -/

/-- An authorised write that CORE takes, out of the range that its owner asks for, is refused. -/
theorem State.authWrite_outOfRange {s : State} {cl : Client} {r : Row} {i k : Nat} {v : Int} {verdict : Option Bool} {bad : Bool}
    (taken : s.Takes cl r i k v) (granted : (s.authorise cl (r.key i k) (leBytes r.type.size v) verdict).2 = none) (outside : bad = true)
    (busy : Bool) (effect : State → State) :
    s.authWrite cl r i k v verdict bad busy effect =
      (s.authorise cl (r.key i k) (leBytes r.type.size v) verdict).1.answer (some Abort.valueOutOfRange) := by
  unfold State.authWrite
  rcases authorised : s.authorise cl (r.key i k) (leBytes r.type.size v) verdict with ⟨u, refusal⟩
  rw [authorised] at granted
  subst granted
  simp [taken.up, taken.mayWrite, outside]

/-- What a report leaves in the recorder depends on the recorder alone. -/
theorem State.report_recorder_congr {s u : State} (same : s.recorder = u.recorder) (src : IslandId) (code : Nat) (payload : List Int) :
    (s.report src code payload).recorder = (u.report src code payload).recorder := by
  unfold State.report State.push
  dsimp only
  rw [same]
  split
  next => rw [State.updR_recorder, State.updR_recorder, same]
  next => simp [same]

/-- The bits of a word with bit `k` set. -/
theorem getLsbD_or_twoPow {w : BitVec 4} {k : Nat} (below : k < 4) (j : Nat) :
    (w ||| BitVec.ofNat 4 (2 ^ k)).getLsbD j = (w.getLsbD j || decide (j = k)) := by
  rw [BitVec.getLsbD_or, BitVec.getLsbD_ofNat, Nat.testBit_two_pow]
  by_cases same : j = k
  · subst same
    simp [below]
  · simp [same, Ne.symm same]

/-- The row takes the number of a key, 0 to 3. -/
theorem key_lt_of_admits {k : Nat} (admits : Obj.firmwareKeyRevoke.range.admits k = true) : k < 4 := by
  simp [Obj.firmwareKeyRevoke, Range.admits] at admits
  omega

/-- A key that may be revoked is blown, and the revocation is reported. -/
theorem execFirmwareKeyRevoke_of_admitted {cl : Client} {v : Int} {verdict : Option Bool} {s : State}
    (taken : s.Takes cl Obj.firmwareKeyRevoke 0 0 v)
    (granted : (s.authorise cl (Obj.firmwareKeyRevoke.key 0 0) (leBytes Obj.firmwareKeyRevoke.type.size v) verdict).2 = none)
    (notRunning : ((s.slot? s.power.activeSlot).any fun m => m.keyIndex == v.toNat) = false)
    (oneLeft : s.otp.keyRevoked ||| BitVec.ofNat 4 (2 ^ v.toNat) ≠ 15#4) :
    execFirmwareKeyRevoke cl v verdict s = .next (
      (s.authorise cl (Obj.firmwareKeyRevoke.key 0 0) (leBytes Obj.firmwareKeyRevoke.type.size v) verdict).1.wrote cl
        Obj.firmwareKeyRevoke 0 0 fun u =>
      ({ u with otp := { u.otp with keyRevoked := s.otp.keyRevoked ||| BitVec.ofNat 4 (2 ^ v.toNat) } }).report Isl.core
        Ev.fwKeyRevoked [v.toNat]) := by
  unfold execFirmwareKeyRevoke
  refine congrArg _ (State.authWrite_admitted taken granted ?inRange rfl _)
  case inRange => rw [notRunning, beq_eq_false_iff_ne.mpr oneLeft]; rfl

/-- Settles O8: the write blows the one bit of its key; it is out of range for the running key and the last one; and no command clears a
revocation bit. -/
theorem firmwareKeyRevocation : Obligations.FirmwareKeyRevocation := by
  refine ⟨?revoked, ?refused, fun s t k h set => (step_good h).otp.revoked k set⟩
  case revoked =>
    intro cl k verdict s taken granted notRunning oneLeft
    have below := key_lt_of_admits taken.admits
    refine ⟨_, execFirmwareKeyRevoke_of_admitted taken granted notRunning oneLeft, ?bit, fun j other => ?others, ?recorder⟩
    case bit =>
      rw [State.wrote, State.answer_otp, State.report_otp]
      simpa using getLsbD_or_twoPow (w := s.otp.keyRevoked) below k
    case others =>
      rw [State.wrote, State.answer_otp, State.report_otp]
      simpa [other] using getLsbD_or_twoPow (w := s.otp.keyRevoked) below j
    case recorder =>
      rw [State.wrote, State.answer_recorder]
      exact State.report_recorder_congr (by rfl) ..
  case refused =>
    intro cl k verdict s taken granted refusal
    change execFirmwareKeyRevoke cl k verdict s = _
    unfold execFirmwareKeyRevoke
    refine congrArg _ (State.authWrite_outOfRange taken granted ?outside _ _)
    case outside => exact Bool.or_eq_true_iff.mpr (refusal.imp_right beq_iff_eq.mpr)

/-! ### Completion of the firmware commands -/

/-- Settles O48: a firmware command that waits is taken, and its effect is the one stated; the activation rows run while the die does.
The slots, the chunks and the start of an activation are the model's choices (log entries 87, 93 and 192). -/
theorem firmwareCommandsComplete : Obligations.FirmwareCommandsComplete := by
  refine ⟨?download, ?replace, ?replaceActivate, ?activateAtReset, ?activateNow, ?mediaIdle, ?activationDone⟩
  case download =>
    intro k c s waits admin opcode
    unfold exec execFirmwareImageDownload
    exact State.admin_taken waits admin (Cmd.op_of_opcode opcode) _
  case replace =>
    intro k c s waits admin opcode action idle
    unfold exec execFirmwareCommitReplace
    exact State.firmwareCommit_taken waits admin opcode action idle _
  case replaceActivate =>
    intro k c s waits admin opcode action idle
    unfold exec execFirmwareCommitReplaceActivate
    exact State.firmwareCommit_taken waits admin opcode action idle _
  case activateAtReset =>
    intro k c s waits admin opcode action idle
    unfold exec execFirmwareCommitActivateAtReset
    exact State.firmwareCommit_taken waits admin opcode action idle _
  case activateNow =>
    intro k c s waits admin opcode action idle
    unfold exec execFirmwareCommitActivateNow
    exact State.firmwareCommit_taken waits admin opcode action idle _
  case mediaIdle =>
    intro s up
    unfold exec execFwActivationMediaIdle
    exact State.when_of_true up
  case activationDone =>
    intro s up
    unfold exec execFwActivationDone
    exact State.when_of_true up

/-! ### Completion of start-up, resets, clocks and supplies -/

/-- A comparator row whose quantity is beyond its threshold for the filter time trips. -/
theorem State.tripRow_of_exceeds {s : State} {k : Fin 4} {level heldUs : Nat} (powered : s.verge.powered = true)
    (untripped : (s.verge.comps[k]).tripped = false) (beyond : s.exceeds k level = true) (held : s.obN Obj.compFilter k ≤ heldUs)
    (before effect : State → State) : s.tripRow k level heldUs before effect = .next (s.trip k before effect) := by
  unfold State.tripRow
  refine State.when_of_true ?_
  rw [powered, untripped, beyond, decide_eq_true held]
  rfl

/-- Settles O58: under the hypotheses of its clause each command's guard holds or CORE takes the write, and the effect is the one stated.
What a loss of VDDV and a power fail leave of the other islands is the model's choice (log entry 101). -/
theorem startResetAndSupplyCommandsComplete : Obligations.StartResetAndSupplyCommandsComplete := by
  refine ⟨?startup, ?powerOn, ?systemReset, ?watchdog, ?coreReset, ?islandReset, ?quietUnlock, ?quietRelock, ?systemUnlock, ?supplyFail,
    ?shock, ?door, ?overTemperature, ?clear, ?wake, ?vddvLoss, ?supplyRemoved⟩
  case startup =>
    intro failure failingRows roundTrips s powered held
    unfold exec execStartup
    refine State.when_of_true ?_
    rw [powered, held]
    rfl
  case powerOn =>
    intro s unpowered
    unfold exec execVergePowerOn
    refine State.when_of_true ?_
    rw [unpowered]
    rfl
  case systemReset =>
    intro s started
    unfold exec execSystemReset
    exact State.when_of_true started
  case watchdog =>
    intro s up
    unfold exec execWatchdog
    exact State.when_of_true up
  case coreReset =>
    intro s up down notLoaded
    unfold exec execCoreReset
    refine State.when_of_true ?_
    rw [up, down, notLoaded]
    rfl
  case islandReset =>
    intro cl v verdict s taken granted resettable
    exact congrArg _ (State.authWrite_admitted taken granted resettable rfl _)
  case quietUnlock =>
    intro s up locked
    unfold exec execQuietPllUnlock
    refine State.when_of_true ?_
    rw [up, locked]
    rfl
  case quietRelock =>
    intro s up unlocked
    unfold exec execQuietPllRelock
    refine State.when_of_true ?_
    rw [up, unlocked]
    rfl
  case systemUnlock =>
    intro s up locked
    unfold exec execSystemPllUnlock
    refine State.when_of_true ?_
    rw [up, locked]
    rfl
  case supplyFail | shock | door =>
    intro level heldUs s powered untripped beyond held
    exact State.tripRow_of_exceeds powered untripped beyond held ..
  case overTemperature =>
    intro heldUs s powered untripped beyond held
    exact State.tripRow_of_exceeds powered untripped beyond held ..
  case clear =>
    intro k level heldUs s powered absent held
    unfold exec execComparatorClear
    refine State.when_of_true ?_
    rw [powered, absent, decide_eq_true held]
    rfl
  case wake => exact fun cause s asleep wakes => execWake_of_ps3 asleep wakes
  case vddvLoss =>
    intro s powered
    unfold exec execVddvLoss
    exact State.when_of_true powered
  case supplyRemoved =>
    intro s awake
    unfold exec execSupplyRemoved
    exact State.when_of_true (bne_iff_ne.mpr awake)

/-! ### Completion of time, keys, links, buses and services -/

/-- Settles O59: under the hypotheses of its clause each command's guard holds or CORE takes the write, and the effect is the one stated.
How the debug port programs the NOR, and the states of a CAN port, are the model's choices (log entries 103 and 106). -/
theorem serviceCommandsComplete : Obligations.ServiceCommandsComplete := by
  refine ⟨?timeOfDay, ?keyRevoke, ?linkL1, ?ethLink, ?canError, ?selfRefresh, ?ringOsc, ?debugPort, ?coalescing⟩
  case timeOfDay =>
    intro cl v s taken
    change execTimeOfDayWrite cl v s = _
    rw [execTimeOfDayWrite, State.hostWrite_taken taken]
  case keyRevoke =>
    intro cl v verdict s taken granted notRunning oneLeft
    change execFirmwareKeyRevoke cl v verdict s = _
    rw [execFirmwareKeyRevoke_of_admitted taken granted notRunning oneLeft]
  case linkL1 =>
    intro c s up
    unfold exec execLinkL1Entry
    exact State.when_of_true (beq_iff_eq.mpr up)
  case ethLink =>
    intro speed s up
    unfold exec execEthLinkChange
    exact State.when_of_true up
  case canError =>
    intro port transmit receive s up onBus
    unfold exec execCanBusError
    refine State.when_of_true ?_
    rw [up, onBus]
    rfl
  case selfRefresh =>
    intro s up standby
    unfold exec execLpddr5SelfRefreshEntry
    refine State.when_of_true ?_
    rw [up, standby]
    rfl
  case ringOsc =>
    intro delays s up
    unfold exec execRingOscMeasurement
    exact State.when_of_true up
  case debugPort =>
    intro kind arg data s started
    unfold exec execDebugPortAccess
    exact State.when_of_true started
  case coalescing =>
    intro c s up
    unfold exec execInterruptCoalescingTime
    exact State.when_of_true up

end Sys2Proof.Machine
end
